-- ==== Sys2Proof/Word.lean ====
section
/-! DEFINITION. The word types of the BZM-1024 (R3, R4) and the sparse maps the state is built from. -/

namespace Sys2Proof

/-- Eight bits (00_scope.md, Size and data terms). -/
abbrev Byte := BitVec 8

/-- Sixty-four bits: the unit of SECDED protection and of a receive queue entry. -/
abbrev Word := BitVec 64

/-- A 256-bit control word, scratchpad row or 32-byte queue entry. -/
abbrev Row256 := BitVec 256

/-- A sparse family indexed by a number: pairs with rising keys, an unlisted key standing for the
family's reset value. Read and written by `smGet` and `smSet` (Machine/Ops.lean). -/
abbrev SMap (α : Type) := List (Nat × α)

/-- A core by its logical coordinate (R20): bits [19:10] are y, bits [9:0] are x. -/
abbrev CoreId := BitVec 20

/-- A hamper by its row (bits [13:7], y / 8) and column (bits [6:0], x / 8). -/
abbrev HamperId := BitVec 14

/-- A grove by its index g = 16 × (y >> 6) + (x >> 6) (R22). -/
abbrev GroveId := BitVec 8

/-- A stack and its stream engine, H0 to H19 (R27). -/
abbrev StackId := Fin 20

/-- A Psiud port, P0 to P15 (R28). -/
abbrev PortId := BitVec 4

end Sys2Proof
end

