-- ==== Sys2Proof/Syntax.lean ====
section
/-! DEFINITION. The commands of the block: one constructor per row of spec/opcode_table.json, with the
operands the sender supplies. A row that is the part's own event carries the unit it happens in and
whatever comes from outside (a message, a sample, an error). -/

namespace Sys2Proof

/-- Who makes an access to the register space (R10): the host over PCI Express, the management
processor, or the lifeguard. -/
inductive Agent where
  | host
  | manager
  | lifeguard
  deriving DecidableEq, Repr

/-- The width and place of a BAR0 access (R6, R8): all 64 bits, or the low or high half. -/
inductive Width where
  | full
  | low
  | high
  deriving DecidableEq, Repr

/-- A register value with the part that a write of a width reaches replaced; a half stands in the low bits of `v`. -/
def Width.merge (w : Width) (old v : BitVec 64) : BitVec 64 :=
  match w with
  | .full => v
  | .low => old.extractLsb' 32 32 ++ v.extractLsb' 0 32
  | .high => v.extractLsb' 0 32 ++ old.extractLsb' 0 32

/-- The part of a register value that a read of a width returns, in the low bits (R8). -/
def Width.part (w : Width) (v : BitVec 64) : BitVec 64 :=
  match w with
  | .full => v
  | .low => (v.extractLsb' 0 32).zeroExtend 64
  | .high => (v.extractLsb' 32 32).zeroExtend 64

/-- The number of bytes of an access of a width. -/
def Width.size (w : Width) : Nat := if w = .full then 8 else 4

/-- A service access by its kind: a write or a read, of a register or of one half of it (R6, R8, R354). -/
structure SvcOp where
  write : Bool
  width : Width := .full
  deriving DecidableEq, Repr

/-- A VX slot of the control word (R168, R278). -/
inductive Slot where
  | a
  | b
  deriving DecidableEq, Repr

/-- A flit at a router: the input that it reaches, and the bits of its two words and their parity that flipped on the
way (R320, R324). -/
structure RouterIn where
  input : BitVec 2
  n0 : BitVec 65 := 0
  n1 : BitVec 65 := 0
  deriving DecidableEq, Repr

/-- A scratchpad row that fails SRAM BIST (R23, R26, R652): the physical column of its core, the core's row, which is not
spared, and the scratchpad row. -/
structure BadRow where
  col : Fin 1056
  y   : BitVec 10
  row : BitVec 9
  deriving DecidableEq, Repr

/-- A Psiud timing message (R571): the port it came in on, the timestamps of the exchange in 1/16 ticks as
far as they are known, and in a TIME_RESP the responder's offset. -/
structure TimeMsg where
  port : PortId
  t1   : BitVec 64
  t2   : BitVec 64
  t3   : BitVec 64
  t4   : BitVec 64
  off  : BitVec 64
  deriving DecidableEq, Repr

/-- A channel of stream engine `n`, or of the host DMA engine (R411, R611). -/
inductive SeUnit where
  | se (n : StackId) (c : BitVec 5)
  | hdma (c : BitVec 4)
  deriving DecidableEq, Repr

/-- How an HBM burst ends outside the stored data: well, or with a data or command/address parity error
and the data as received (R401, R409, R410, R436). -/
inductive BurstEnd where
  | ok
  | parity (received : BitVec 256)
  deriving DecidableEq, Repr

/-- A read of a channel's next descriptor, and how it ends (R409, R423, R435). -/
structure DescRead where
  u : SeUnit
  e : BurstEnd := .ok
  deriving DecidableEq, Repr

/-- A row of a write block, and the words of it that a buffer fault marks (R446). -/
structure RowMark where
  row   : BitVec 11
  words : BitVec 4
  deriving DecidableEq, Repr

/-- A further block that the segment of a buffer fault holds: its channel, its place among the channel's blocks, and of
a write block what is marked. -/
structure BlkHit where
  ch    : BitVec 5
  place : BitVec 6
  marks : List RowMark
  deriving DecidableEq, Repr

/-- What a fenced segment holds besides its uncorrectable word (R446): of a write block that meets it, what is marked, and
the other blocks. -/
structure SegHits where
  marks  : List RowMark := []
  others : List BlkHit := []
  deriving DecidableEq, Repr

/-- An uncorrectable word of the block buffer, where one is met: its segment, and what that holds (R446). -/
structure BufFault extends SegHits where
  seg : BitVec 6
  deriving DecidableEq, Repr

/-- Why a completion is not successful (R615): Unsupported Request or Completer Abort status, or a completion timeout. -/
inductive CplError where
  | unsupported
  | aborted
  | timeout
  deriving DecidableEq, Repr

/-- The completion of a host read (R615): its data, a poisoned completion, or an error or timeout. -/
inductive HostCpl where
  | data (bytes : List Byte)
  | poisoned (bytes : List Byte)
  | failed (why : CplError)
  deriving DecidableEq, Repr

/-- Who sent a mesh word and so receives its credit: send end n of a core, channel n of stream engine s,
or receive channel n of Psiud port p (R332, R418). -/
inductive Source where
  | core (c : CoreId) (n : Nat)
  | engine (s : Nat) (n : Nat)
  | psiud (p : Nat) (n : Nat)
  deriving DecidableEq, Repr

/-- The registers that SCH_CONFIG_WRITE names (R522, R531). -/
inductive SchReg where
  | schCfg
  | schTiming
  | pgCfg
  | ptBase
  deriving DecidableEq, Repr

/-- The writable registers of a Psiud channel (R582, R583). -/
inductive PsiudReg where
  | txCfg
  | rxCfg
  | rxDrain
  | rxRows
  | rxTime
  deriving DecidableEq, Repr

/-- A counter group by the block it belongs to (R721). -/
inductive CtrGroup where
  | grove (g : GroveId)
  | engine (n : StackId)
  | port (p : PortId)
  | hdma
  deriving DecidableEq, Repr


/-- A power-good input (R746). -/
inductive Rail where
  | safe
  | io
  | hbm
  | opt
  | core
  deriving DecidableEq, Repr

/-- What a device of a pod hears of another's slots (R499, R516 to R518): `slot` was preempted by another
device, or returns to its former state there, or is RETIRING on the head, or its pages are freed on every other device,
or no spill target had room for its page. -/
inductive PodNews where
  | preempted (slot : BitVec 12)
  | resumed (slot : BitVec 12)
  | retired (slot : BitVec 12)
  | freed (slot : BitVec 12)
  | exhausted (slot : BitVec 12)
  deriving DecidableEq, Repr

/-- What the receive FEC reports with a flit: symbols corrected, and codewords it could not correct (R536, R581). -/
structure FecReport where
  symbols : BitVec 12 := 0
  lost    : BitVec 5 := 0
  deriving DecidableEq, Repr

/-- A flit that reaches a Psiud port: its bits, what the FEC reports, and what the peer's scheduler and pager tell of the
pod's slots with it, for which R567 has no message (R516 to R518). -/
structure RxFlit where
  bits : BitVec 2048
  fec  : FecReport := {}
  news : List PodNews := []
  deriving DecidableEq, Repr

/-- What a qualification run finds on a lane: bit errors before FEC, and the most symbol corrections that a codeword
needed (R576). -/
structure LaneRun where
  errors : Nat
  worst  : Nat
  deriving DecidableEq, Repr

/-- An input of the lifeguard (R702): a temperature sensor by its index, a field rail's voltage in mV or current in
mA, PWR_ALERT_N or VR_READY. -/
inductive LgInput where
  | temp (n : BitVec 9)
  | volt (f : BitVec 2)
  | amp (f : BitVec 2)
  | alert
  | vrReady
  | powerGood (r : Rail)
  deriving DecidableEq, Repr

/-- A contributor of the level that falls by itself (R700). -/
inductive Contributor where
  | thermal
  | power
  | alert
  | neighbour
  deriving DecidableEq, Repr

/-- A clock source that the monitors watch (R681). -/
inductive ClockSource where
  | crystal
  | refLoop
  | iosc
  | grove (g : GroveId)
  deriving DecidableEq, Repr

/-- A fuse word as sensed (R637): its bits with their check fuses; words 2 and 31 have three copies of each bit. -/
structure FuseWord where
  data   : BitVec 64
  chk    : BitVec 8
  second : BitVec 64
  third  : BitVec 64
  deriving DecidableEq, Repr

/-- What the memory test finds in a stack (R649 to R651): whether it trains, and its bad frames. -/
structure StackTest where
  trained : Bool
  bad     : List (BitVec 21)
  deriving DecidableEq, Repr

/-- A platform-monitoring matter (R656, R759): a telemetry request, an event that arises, or the reading of an event. -/
inductive PldmMon where
  | telemetry
  | event
  | readEvent
  deriving DecidableEq, Repr

/-- What reaches the JTAG port (R638, R760): the instructions of boundary scan and of the identification register, another
one, or TRST_N held low, which resets the test logic. -/
inductive JtagInstr where
  | reset
  | boundary
  | idcode
  | other (code : Nat)
  deriving DecidableEq, Repr

/-- One command (spec/opcode_table.json). -/
inductive Instr where
  /-- REGISTER_WRITE (R10): A write to a register that has no row of its own stores, discards or clears bits according to each field's access type. -/
  | registerWrite (agent : Agent) (off : BitVec 26) (width : Width) (v : BitVec 64)
  /-- BAR0_BAD_ACCESS (R7): A BAR0 request that is not a naturally aligned 4-byte or 8-byte access completes as Unsupported Request (read) or is discarded (write), and is recorded through AER. -/
  | bar0BadAccess (off : BitVec 26) (len : Nat) (write : Bool)
  /-- REFERENCE_LOST (R35): Loss of the crystal reference makes the Almanac hold its value and sets ALM_STATUS.REF_LOST. -/
  | referenceLost
  /-- REFERENCE_RETURN (R35): When the crystal reference returns, the Almanac resumes counting from its held value. -/
  | referenceReturn
  /-- LEAP (R688): A supply below the droop threshold in one cycle stretches the grove's next period into a two-period leap. -/
  | leap (g : GroveId)
  /-- GROVE_RELEASE (R51): A grove releases from a hold point as one unit once the latest target is reached and its last running hamper has reached its hold; its schedule cycle count and frame restart. -/
  | groveRelease (g : GroveId)
  /-- CATCH_UP_HOLD (R65): A grove whose next cycle would make its drift +4 against a crossing neighbour stops issue for that cycle without advancing its schedule cycle count. -/
  | catchUpHold (g : GroveId)
  /-- CROSSING_PRESENT (R63): A flit waiting in a crossing buffer is presented to the receiving router in the receiver's schedule cycle c + 4. -/
  | crossingPresent (c : CoreId) (input : BitVec 2)
  /-- GROVE_OVR_CLEAR (R57): A write of GROVE_OVR.CLEAR clears COUNT, MAX_LATE, FIRST_HAMPER and GROVE_OVR_FIRST. -/
  | groveOvrClear (g : GroveId)
  /-- SCALE (R72): A received SCALE timing message makes the device adopt the larger pod scale and add the deferral to HOLD_BASE at its next hold point. -/
  | scale (dev : BitVec 6) (own : BitVec 20) (deferral : BitVec 32)
  /-- ALM_DEPART_WRITE (R89): A write of ALM_DEPART is stored, or is discarded and sets ARM_REFUSED while a count is armed. -/
  | almDepartWrite (v : BitVec 64)
  /-- ARM (R89): ALM_DEPART_CTRL.ARM arms the departure count, moves loaded hampers to armed and on the head sends DEPART to every peer, or is refused while armed. -/
  | arm (cancel : Bool)
  /-- DEPART_CANCEL (R89): ALM_DEPART_CTRL.CANCEL disarms an armed count that has not been reached and, on the head, sends DEPART with count 0 to every peer. -/
  | departCancel
  /-- DEPARTURE (R82): When the Almanac equals the armed count, every armed hamper sets HOLD_BASE to the count and HOLD_POS to 0 and STATE becomes departed. -/
  | departure
  /-- DEPART (R83): A DEPART service message from the head arms its count under the acceptance checks, or with count 0 disarms as CANCEL does. -/
  | depart (count : BitVec 64)
  /-- DEPART_STATE (R85): A DEPART_STATE report of missed or refused makes the head set its STATE to refused, set the device's HIF_POD_REFUSED bit and raise a step-fatal fault. -/
  | departState (dev : BitVec 6) (st : BitVec 3)
  /-- TIME_REQ (R571): Every 65,536 ticks a follower sends TIME_REQ on its upstream port; a responder receiving it answers with TIME_RESP. -/
  | timeReq (m : Option TimeMsg)
  /-- TIME_RESP (R571): A received TIME_RESP gives the follower its offset, which it writes to ALM_OFFSET before slewing or stepping. -/
  | timeResp (m : TimeMsg)
  /-- ISSUE (R104): The control word at the head of the issue queue issues in every enabled core when all its pops, pushes, credits and inlet conditions hold. -/
  | issue (h : HamperId)
  /-- ENTRY_LANDED (R100): A reserved queue entry receives its result when the producing unit's latency has elapsed and becomes poppable from the next cycle. -/
  | entryLanded (c : CoreId) (q : BitVec 5)
  /-- LD_CORE (R109): LD with core owner reads the generator's row in port cycle c + 1 into ld0 or ld1, optionally broadcasting one element or checking the fill tag. -/
  | ldCore (c : CoreId)
  /-- LD_STREAM (R109): LD with stream owner reads the generator's row in port cycle c + 1 toward a send end. -/
  | ldStream (c : CoreId)
  /-- ST_CORE (R109): ST with core owner writes the popped entry to the generator's row in port cycle c + 1, optionally setting and checking the fill tag. -/
  | stCore (c : CoreId)
  /-- ST_STREAM (R110): ST with stream owner pops the stream inlet in port cycle c + 1 and writes its row, or writes nothing and sets STREAM_EMPTY if the inlet is empty. -/
  | stStream (c : CoreId)
  /-- FWD (R152): NET FWD pops the source end and pushes it to an internal queue or send end. -/
  | fwd (h : HamperId) (src : BitVec 5) (dst : BitVec 5)
  /-- DROP (R152): NET DROP pops the source end and discards the entry. -/
  | drop (h : HamperId) (src : BitVec 5)
  /-- ASET (R154): AGU ASET writes one configuration value of a generator from an immediate, a scalar or a popped entry, effective from the next cycle. -/
  | aset (h : HamperId) (gen : BitVec 3) (sel : BitVec 3) (vsrc : BitVec 2) (val : BitVec 14)
  /-- ARST (R155): AGU ARST sets a generator's I, J and PHASE to 0. -/
  | arst (h : HamperId) (gen : BitVec 3)
  /-- ASKIP (R155): AGU ASKIP advances a generator as a use would without yielding an address. -/
  | askip (h : HamperId) (gen : BitVec 3)
  /-- TLD (R274): TILE TLD pops an end into one half of a tile under the shape captured at issue. -/
  | tld (h : HamperId) (t : BitVec 5) (src : BitVec 5) (part : Bool)
  /-- TST (R275): TILE TST pushes one half of a tile to an end, with bytes beyond the size as zero. -/
  | tst (h : HamperId) (t : BitVec 5) (dst : BitVec 5) (part : Bool)
  /-- TCFG (R160): TILE TCFG sets a tile's shape from the next cycle without changing its bytes. -/
  | tcfg (h : HamperId) (t : BitVec 5) (rows : BitVec 3) (bpr : BitVec 3)
  /-- ENM (R161): MASK ENM sets each core's enable from whether the named mask register is nonzero. -/
  | enm (h : HamperId) (m : BitVec 2)
  /-- ENALL (R161): MASK ENALL sets every core's enable bit to 1. -/
  | enall (h : HamperId)
  /-- MONES (R161): MASK MONES sets the named mask register to all ones. -/
  | mones (h : HamperId) (m : BitVec 2)
  /-- MASK_MZERO (R161): MASK MZERO sets the named mask register to zero. -/
  | maskMzero (h : HamperId) (m : BitVec 2)
  /-- MNOT (R161): MASK MNOT complements the named mask register. -/
  | mnot (h : HamperId) (m : BitVec 2)
  /-- AUDIT_POINT (R164): A word with CHECK.AUDIT set records the Almanac in SEQ_AUDIT_ALM, its AUDIT_ID and an incremented count in SEQ_AUDIT_TAG. -/
  | auditPoint (h : HamperId) (id : BitVec 5)
  /-- WORD_PUSH (R172): The front end fetches one word, executes its front-end SEQ operation, checks it and pushes it into the issue queue when there is room. -/
  | wordPush (h : HamperId)
  /-- IC_FILL (R192): An instruction-cache line fill from HBM completes, after which the front end continues or the preload moves on. -/
  | icFill (h : HamperId)
  /-- NOP (R174): SEQ NOP does nothing. -/
  | nop (h : HamperId)
  /-- SLI (R174): SEQ SLI loads an immediate into a scalar register. -/
  | sli (h : HamperId) (d : BitVec 4) (imm : BitVec 14)
  /-- SLIS (R175): SEQ SLIS shifts a scalar left by 14 and ORs in an immediate, setting SOVF if a 1 is shifted out. -/
  | slis (h : HamperId) (d : BitVec 4) (imm : BitVec 14)
  /-- SMOV (R174): SEQ SMOV copies one scalar register to another. -/
  | smov (h : HamperId) (d : BitVec 4) (a : BitVec 4)
  /-- SADD (R175): SEQ SADD adds two scalars modulo 2^32, setting SOVF on overflow. -/
  | sadd (h : HamperId) (d : BitVec 4) (a : BitVec 4) (b : BitVec 4)
  /-- SSUB (R175): SEQ SSUB subtracts two scalars modulo 2^32, setting SOVF on overflow. -/
  | ssub (h : HamperId) (d : BitVec 4) (a : BitVec 4) (b : BitVec 4)
  /-- SMAD (R175): SEQ SMAD computes s_a × s_b + s_c modulo 2^32, setting SOVF on overflow. -/
  | smad (h : HamperId) (d : BitVec 4) (a : BitVec 4) (b : BitVec 4) (k : BitVec 4)
  /-- SADDI (R175): SEQ SADDI adds a signed immediate to a scalar modulo 2^32, setting SOVF on overflow. -/
  | saddi (h : HamperId) (d : BitVec 4) (a : BitVec 4) (imm : BitVec 10)
  /-- SSHL (R174): SEQ SSHL shifts a scalar left. -/
  | sshl (h : HamperId) (d : BitVec 4) (a : BitVec 4) (sh : BitVec 5)
  /-- SSHR (R174): SEQ SSHR shifts a scalar right logically. -/
  | sshr (h : HamperId) (d : BitVec 4) (a : BitVec 4) (sh : BitVec 5)
  /-- SMIN (R174): SEQ SMIN takes the smaller of two scalars. -/
  | smin (h : HamperId) (d : BitVec 4) (a : BitVec 4) (b : BitVec 4)
  /-- SMAX (R174): SEQ SMAX takes the larger of two scalars. -/
  | smax (h : HamperId) (d : BitVec 4) (a : BitVec 4) (b : BitVec 4)
  /-- SGETP (R174): SEQ SGETP reads an entry of the active step parameter bank into a scalar. -/
  | sgetp (h : HamperId) (d : BitVec 4) (idx : BitVec 6)
  /-- PSWAP (R177): SEQ PSWAP swaps the step parameter banks at issue and releases the front end; in the reference hamper it also drives the scheduler's step timing and the pager's allocation. -/
  | pswap (h : HamperId)
  /-- SGETLI (R182): SEQ SGETLI reads the iteration index of a loop into a scalar. -/
  | sgetli (h : HamperId) (d : BitVec 4) (k : BitVec 2)
  /-- SETLC (R174): SEQ SETLC loads an immediate into a loop counter. -/
  | setlc (h : HamperId) (k : BitVec 2) (imm : BitVec 16)
  /-- SETLCR (R174): SEQ SETLCR loads a scalar into a loop counter. -/
  | setlcr (h : HamperId) (k : BitVec 2) (a : BitVec 4)
  /-- LOOP (R179): SEQ LOOP latches the loop counter and pushes its body N times, or skips it at a cost of one cycle when N is 0. -/
  | loop (h : HamperId) (k : BitVec 2) (body : BitVec 14)
  /-- CALL (R184): SEQ CALL pushes the return address on the call stack and continues at a library word. -/
  | call (h : HamperId) (target : BitVec 13)
  /-- RET (R184): SEQ RET pops the call stack and continues at the return address, ending an abort routine into running. -/
  | ret (h : HamperId)
  /-- HOLD_AT_I (R44): HOLD_AT with an immediate offset computes its target at the point of issue and stops issue until the grove releases. -/
  | holdAtI (h : HamperId) (t : BitVec 18)
  /-- HOLD_AT_R (R44): HOLD_AT with an offset from a scalar computes its target at the point of issue and stops issue until the grove releases. -/
  | holdAtR (h : HamperId) (a : BitVec 4)
  /-- HOLD_REL_I (R44): HOLD_REL with an immediate offset computes its target from HOLD_BASE and stops issue until the grove releases. -/
  | holdRelI (h : HamperId) (d : BitVec 18)
  /-- HOLD_REL_R (R44): HOLD_REL with an offset from a scalar computes its target from HOLD_BASE and stops issue until the grove releases. -/
  | holdRelR (h : HamperId) (a : BitVec 4)
  /-- ABORT_AT_HOLD_TIMEOUT (R197): A hamper already waiting at a hold when the Almanac reaches A + 64 acts on the abort request there without waiting for its grove. -/
  | abortAtHoldTimeout (h : HamperId)
  /-- WAIT_I (R188): SEQ WAIT_I stops issue for an immediate number of schedule cycles. -/
  | waitI (h : HamperId) (n : BitVec 14)
  /-- WAIT_R (R188): SEQ WAIT_R stops issue for a number of schedule cycles taken from a scalar. -/
  | waitR (h : HamperId) (a : BitVec 4)
  /-- END (R189): SEQ END stops issue, discards active loops and moves the hamper to done. -/
  | seqEnd (h : HamperId)
  /-- CP_ABORT_REQ (R203): A write of CP_ABORT.REQ raises a core-plane abort request at the current Almanac or at CP_ABORT_AT, with optional force-stop. -/
  | cpAbortReq (useAt : Bool) (force : Bool)
  /-- SEQ_START (R207): SEQ_CTRL START sets HOLD_BASE to the Almanac and HOLD_POS to 0 and runs from SEQ_PC without a departure count. -/
  | seqStart (h : HamperId)
  /-- SEQ_STEP (R207): SEQ_CTRL STEP issues exactly one word from stopped; a hold issued this way does not wait. -/
  | seqStep (h : HamperId)
  /-- SEQ_CLEAR (R207): SEQ_CTRL CLEAR empties the issue queue, stacks and fault bits, zeroes HOLD_BASE and HOLD_POS, and sets STATE to idle. -/
  | seqClear (h : HamperId)
  /-- SEQ_REG_WRITE (R205): A write of SEQ_PC, SEQ_ABORT_CFG, SEQ_PROG_BASE, SEQ_SCALARn or SEQ_LCn takes effect only while the hamper is idle, stopped or done. -/
  | seqRegWrite (h : HamperId) (off : BitVec 12) (v : BitVec 64)
  /-- IC_PRELOAD (R193): SEQ_IC_PRELOAD.GO loads, and optionally locks, instruction-cache lines from START, or is refused. -/
  | icPreload (h : HamperId) (start : BitVec 24) (countM1 : BitVec 7) (lock : Bool)
  /-- UNLOCK_ALL (R216): SEQ_IC_PRELOAD.UNLOCK_ALL unlocks every instruction-cache line. -/
  | unlockAll (h : HamperId)
  /-- LIBRARY_WRITE (R186): A service-mesh write to a grove's library store is taken only while every hamper is idle, stopped or done, otherwise it sets WRITE_REFUSED. -/
  | libraryWrite (g : GroveId) (w : BitVec 13) (k : BitVec 2) (v : BitVec 64)
  /-- MNOP (R166): MX MNOP does nothing. -/
  | mnop (h : HamperId)
  /-- MMA (R222): MX MMA adds OPA × OPB into an accumulator in the chosen format and mode. -/
  | mma (h : HamperId) (fmt : BitVec 4) (mode : BitVec 2) (acc : BitVec 3) (opa : BitVec 6) (opb : BitVec 6) (pass : BitVec 4) (ocs : BitVec 2)
  /-- MMS (R222): MX MMS subtracts OPA × OPB from an accumulator. -/
  | mms (h : HamperId) (fmt : BitVec 4) (mode : BitVec 2) (acc : BitVec 3) (opa : BitVec 6) (opb : BitVec 6) (pass : BitVec 4) (ocs : BitVec 2)
  /-- MMAS (R251): MX MMAS adds A times 2:4 structured-sparse B, with positions from the operand cache. -/
  | mmas (h : HamperId) (fmt : BitVec 4) (mode : BitVec 2) (acc : BitVec 3) (opa : BitVec 6) (opb : BitVec 6) (ocs : BitVec 2)
  /-- MMAC (R228): MX MMAC adds OPA times the B operand held in an operand-cache entry. -/
  | mmac (h : HamperId) (fmt : BitVec 4) (mode : BitVec 2) (acc : BitVec 3) (opa : BitVec 6) (pass : BitVec 4) (ocs : BitVec 2)
  /-- MOCL (R231): MX MOCL loads an operand-cache entry from a tile or its upper half from an end. -/
  | mocl (h : HamperId) (opb : BitVec 6) (ocs : BitVec 2)
  /-- MZERO (R259): MX MZERO zeroes an accumulator with its summers, block count, pass group and poison marks. -/
  | mzero (h : HamperId) (acc : BitVec 3)
  /-- MCHAIN (R254): MX MCHAIN adds popped FP32 partial sums to an accumulator's halves with one rounding per element. -/
  | mchain (h : HamperId) (acc : BitVec 3) (opa : BitVec 6) (opb : BitVec 6)
  /-- MOUT (R255): MX MOUT pushes one half of an accumulator to an end. -/
  | mout (h : HamperId) (acc : BitVec 3) (half : Bool) (dst : BitVec 5)
  /-- VNOP (R168): VX VNOP does nothing. -/
  | vnop (h : HamperId) (slot : Slot)
  /-- VADD (R288): VX VADD adds two operands element by element. -/
  | vadd (h : HamperId) (slot : Slot) (ty : BitVec 3) (sa : BitVec 5) (sb : BitVec 5) (dst : BitVec 5)
  /-- VSUB (R288): VX VSUB subtracts two operands element by element. -/
  | vsub (h : HamperId) (slot : Slot) (ty : BitVec 3) (sa : BitVec 5) (sb : BitVec 5) (dst : BitVec 5)
  /-- VMUL (R288): VX VMUL multiplies two operands element by element. -/
  | vmul (h : HamperId) (slot : Slot) (ty : BitVec 3) (sa : BitVec 5) (sb : BitVec 5) (dst : BitVec 5)
  /-- VFMA (R288): VX VFMA computes A × B + C with one rounding. -/
  | vfma (h : HamperId) (ty : BitVec 3) (sa : BitVec 5) (sb : BitVec 5) (sc : BitVec 5) (dst : BitVec 5)
  /-- VMIN (R290): VX VMIN takes the element-wise minimum. -/
  | vmin (h : HamperId) (slot : Slot) (ty : BitVec 3) (sa : BitVec 5) (sb : BitVec 5) (dst : BitVec 5)
  /-- VMAX (R290): VX VMAX takes the element-wise maximum. -/
  | vmax (h : HamperId) (slot : Slot) (ty : BitVec 3) (sa : BitVec 5) (sb : BitVec 5) (dst : BitVec 5)
  /-- VCMP (R292): VX VCMP compares elements under a condition, writes a mask register and optionally pushes all-ones or zero elements. -/
  | vcmp (h : HamperId) (slot : Slot) (ty : BitVec 3) (sa : BitVec 5) (sb : BitVec 5) (dst : BitVec 5) (cond : BitVec 3) (m : BitVec 2)
  /-- VSEL (R294): VX VSEL selects A or B per element by a mask register. -/
  | vsel (h : HamperId) (slot : Slot) (ty : BitVec 3) (sa : BitVec 5) (sb : BitVec 5) (dst : BitVec 5) (m : BitVec 2)
  /-- VAND (R295): VX VAND takes the bitwise AND. -/
  | vand (h : HamperId) (slot : Slot) (ty : BitVec 3) (sa : BitVec 5) (sb : BitVec 5) (dst : BitVec 5)
  /-- VOR (R295): VX VOR takes the bitwise OR. -/
  | vor (h : HamperId) (slot : Slot) (ty : BitVec 3) (sa : BitVec 5) (sb : BitVec 5) (dst : BitVec 5)
  /-- VXOR (R295): VX VXOR takes the bitwise exclusive OR. -/
  | vxor (h : HamperId) (slot : Slot) (ty : BitVec 3) (sa : BitVec 5) (sb : BitVec 5) (dst : BitVec 5)
  /-- VSHL (R295): VX VSHL shifts each element left. -/
  | vshl (h : HamperId) (slot : Slot) (ty : BitVec 3) (sa : BitVec 5) (dst : BitVec 5) (sh : BitVec 5)
  /-- VSHR (R295): VX VSHR shifts each element right, logically or arithmetically. -/
  | vshr (h : HamperId) (slot : Slot) (ty : BitVec 3) (sa : BitVec 5) (dst : BitVec 5) (sh : BitVec 5) (arith : Bool)
  /-- VCVT (R296): VX VCVT converts elements to another type with narrowing, widening and saturation rules. -/
  | vcvt (h : HamperId) (slot : Slot) (ty : BitVec 3) (sa : BitVec 5) (sb : BitVec 5) (dst : BitVec 5) (dty : BitVec 3) (sat : Bool)
  /-- VMOV (R295): VX VMOV pushes A. -/
  | vmov (h : HamperId) (slot : Slot) (ty : BitVec 3) (sa : BitVec 5) (dst : BitVec 5)
  /-- VFN (R302): VX VFN applies a correctly rounded table function to each element. -/
  | vfn (h : HamperId) (ty : BitVec 3) (sa : BitVec 5) (dst : BitVec 5) (fn : BitVec 4)
  /-- VRSUM (R300): VX VRSUM pushes the exact sum of the elements below count, rounded once. -/
  | vrsum (h : HamperId) (ty : BitVec 3) (sa : BitVec 5) (dst : BitVec 5)
  /-- VRMAX (R301): VX VRMAX pushes the largest element below count. -/
  | vrmax (h : HamperId) (ty : BitVec 3) (sa : BitVec 5) (dst : BitVec 5)
  /-- VCMPR (R298): VX VCMPR packs the mask-selected elements to the front. -/
  | vcmpr (h : HamperId) (ty : BitVec 3) (sa : BitVec 5) (dst : BitVec 5) (m : BitVec 2)
  /-- VEXPD (R299): VX VEXPD places elements at mask-selected positions over a background. -/
  | vexpd (h : HamperId) (ty : BitVec 3) (sa : BitVec 5) (sb : BitVec 5) (dst : BitVec 5) (m : BitVec 2)
  /-- VRNG (R304): VX VRNG pushes 32 bytes of Philox-4×32 output for a popped key and counter. -/
  | vrng (h : HamperId) (ty : BitVec 3) (sa : BitVec 5) (dst : BitVec 5)
  /-- VACC (R287): VX VACC pushes an accumulator half, optionally adding SRCA. -/
  | vacc (h : HamperId) (slot : Slot) (ty : BitVec 3) (sa : BitVec 5) (acc : BitVec 3) (half : Bool) (dst : BitVec 5)
  /-- VSETVL (R282): VX VSETVL sets the vector length from an immediate or a popped value, clamping above 32. -/
  | vsetvl (h : HamperId) (slot : Slot) (fromSrc : Bool) (len : BitVec 6) (sa : BitVec 5)
  /-- VX_VL_WRITE (R312): A write of VX_VL stores the length, or stores 32 and sets VL_CLAMP for a larger value. -/
  | vxVlWrite (c : CoreId) (v : BitVec 64)
  /-- TILE_SHAPE_WRITE (R311): A write of TILE_SHAPEk stores each slot whose size fits 64 bytes and leaves the others unchanged. -/
  | tileShapeWrite (c : CoreId) (k : BitVec 2) (v : BitVec 64)
  /-- AGU_CFG_WRITE (R141): A service-mesh write of AGU_n_CFG0 or AGU_n_CFG1 acts as an ASET of each field written. -/
  | aguCfgWrite (c : CoreId) (gen : BitVec 3) (second : Bool) (v : BitVec 64)
  /-- FLIT_ARRIVAL (R320): A flit arriving on a router input is forwarded in the same cycle to every output its route entry names for the frame slot, including local delivery to queues, potluck queues or the stream inlet. -/
  | flitArrival (c : CoreId) (input : RouterIn)
  /-- INJECTION (R330): A tuple in a send end's injection buffer is injected in the first cycle whose local-input entry names that send end. -/
  | injection (c : CoreId)
  /-- CREDIT_RETURN (R332): Credits freed by a receiving end's pop reach the sender over the reverse path and become usable. -/
  | creditReturn (src : Source)
  /-- ROUTE_WRITE (R322): A route-table write is refused per entry that would give one output to two inputs in a slot, setting ROUTER_STAT.OVERLAP. -/
  | routeWrite (c : CoreId) (input : BitVec 3) (k : BitVec 3) (v : BitVec 64)
  /-- NET_RQ_WRITE (R337): A write of NET_RQ_n takes effect only while the queue is empty and its potluck pointers equal its head, otherwise it sets CFG_REFUSED. -/
  | netRqWrite (c : CoreId) (n : BitVec 3) (v : BitVec 64)
  /-- NET_SEND_WRITE (R358): A write of NET_SEND_n binds a send end and loads its credits from CINIT. -/
  | netSendWrite (c : CoreId) (n : BitVec 2) (v : BitVec 64)
  /-- WATCHDOG (R352): When a hamper's count of consecutive refused cycles reaches the threshold, it records SEQ_WD, sets CP_WD_MAP and raises a force-stop step-fatal fault. -/
  | watchdog (h : HamperId)
  /-- SERVICE_ACCESS (R354): A host or management processor access to the core-plane windows travels over the service mesh to a core, hamper or grove block or scratchpad. -/
  | serviceAccess (agent : Agent) (off : BitVec 26) (op : SvcOp) (v : BitVec 64)
  /-- SERVICE_REQUEST (R355): A core's send on a service-request end performs a service-mesh read or write and returns a one-word reply. -/
  | serviceRequest (c : CoreId) (n : BitVec 2)
  /-- SERVICE_TIMEOUT (R356): A service access finding no usable port cycle within SVC_CFG.TIMEOUT is abandoned and sets SVC_STATUS.TIMEOUT. -/
  | serviceTimeout
  /-- SERVICE_MERGE_WRITE (R778): A one-word service write to a scratchpad row writes the merged row in the next idle write port cycle given to the service mesh, or restarts if another agent wrote it. -/
  | serviceMergeWrite (c : CoreId)
  /-- SCRUB (R377): In an idle read port cycle marked for scrubbing the scrubber reads row PTR and rewrites or advances. -/
  | scrub (c : CoreId)
  /-- CLEAR_LOGS (R397): SPAD_MAINT.CLEAR_LOGS clears SPAD_ECC and SPAD_CHK_CNT. -/
  | clearLogs (c : CoreId)
  /-- TAG_CLEAR (R387): SPAD_MAINT.TAG_CLEAR sets every fill tag of the core to EMPTY. -/
  | tagClear (c : CoreId)
  /-- SPAD_INJECT (R398): SPAD_INJECT.GO flips stored check bits of one word of a row for test. -/
  | spadInject (c : CoreId) (v : BitVec 64)
  /-- SPAD_TAG_WRITE (R399): A write of SPAD_TAGk stores 32 rows' tags with correct parity. -/
  | spadTagWrite (c : CoreId) (k : BitVec 4) (v : BitVec 64)
  /-- REFRESH_WINDOW (R404): At each window opening the controller refreshes and issues due RFM commands to every pseudo-channel and issues no read or write for LEN ticks. -/
  | refreshWindow (n : StackId) (temp : BitVec 8)
  /-- REFRESH_WINDOW_CLOSE (R405): When a refresh window's LEN ticks expire, waiting accesses start. -/
  | refreshWindowClose (n : StackId)
  /-- HBM_REF_WRITE (R451): A write of HBM_REF.PHASE moves the refresh windows after the next opening under the old phase. -/
  | hbmRefWrite (agent : Agent) (n : StackId) (v : BitVec 64)
  /-- SE_CH_TAIL_WRITE (R420): A producer's write of SE_CH_TAIL makes the descriptors up to TAIL available to the channel's fetch. -/
  | seChTailWrite (u : SeUnit) (v : BitVec 64)
  /-- DESCRIPTOR_FETCH (R423): A fetched descriptor is checked; a malformed or out-of-stack one ends with DESC_ERROR or ADDR_ERROR before any block starts. -/
  | descriptorFetch (r : DescRead)
  /-- BLOCK_START (R412): A channel with a descriptor, room under OUTSTANDING and free buffer units starts a block, taken in round-robin order. -/
  | blockStart (n : StackId)
  /-- KV_TRANSLATE (R506): A translation request for a KV virtual address is answered from the translation store or by reading both page-table levels. -/
  | kvTranslate (n : StackId) (c : BitVec 5)
  /-- HBM_BURST_COMPLETE (R409): An HBM burst response is decoded, corrected, or treated as a read or write error and retried up to RETRY_LIMIT. -/
  | hbmBurstComplete (u : SeUnit) (b : BitVec 6) (e : BurstEnd)
  /-- BLOCK_FORWARD (R411): A read block wholly in the buffer and decoded is forwarded to the mesh at the channel's port and slots, under credit and the STOP limit. -/
  | blockForward (u : SeUnit) (seg : Option (BitVec 6)) (hits : SegHits)
  /-- EDGE_PORT_FLIT (R417): A flit reaching an edge port enters the owning write or transmit channel's inlet, or is discarded as stray. -/
  | edgePortFlit (c : CoreId) (output : BitVec 2)
  /-- BLOCK_WRITE (R411): A write block whose rows have all arrived is written to HBM. -/
  | blockWrite (u : SeUnit) (f : Option BufFault)
  /-- WRITE_READBACK_CHECK (R430): The read-back of a WRITE descriptor's last address is checked, reaching its status point. -/
  | writeReadbackCheck (u : SeUnit) (e : BurstEnd)
  /-- DEADLINE (R433): When the Almanac reaches a read descriptor's DEADLINE, incomplete blocks are dropped and it ends with WITHHELD_LATE. -/
  | deadline (n : StackId) (c : BitVec 5)
  /-- WITHHOLD_NOTICE (R434): A notice of a dropped block reaches the sequence scheduler and masks the matching entry or step. -/
  | withholdNotice
  /-- CHANNEL_ENABLE (R458): SE_CH_CTRL.ENABLE (or the host DMA form) leaves disabled, loads CREDIT and sets running. -/
  | channelEnable (u : SeUnit)
  /-- CHANNEL_RESUME (R458): SE_CH_CTRL.RESUME (or the host DMA form) leaves halted and continues at DONE. -/
  | channelResume (u : SeUnit)
  /-- CHANNEL_ABORT (R440): SE_CH_CTRL.ABORT (or the host DMA form) aborts the descriptor in progress, is noted as late, or is ignored. -/
  | channelAbort (u : SeUnit)
  /-- CHANNEL_DISABLE (R444): SE_CH_CTRL.DISABLE (or the host DMA form) stops the channel at once and drops its blocks, inlet rows and accesses. -/
  | channelDisable (u : SeUnit)
  /-- SE_CH_CFG_WRITE (R454): A write of SE_CH_CFG is taken only while the channel is disabled and claims no held port slot, otherwise CFG_REFUSED is set. -/
  | seChCfgWrite (u : SeUnit) (v : BitVec 64)
  /-- SE_CH_RING_WRITE (R455): A write of SE_CH_RING is taken only while disabled and in-stack, and resets HEAD, DONE and TAIL. -/
  | seChRingWrite (u : SeUnit) (v : BitVec 64)
  /-- SQ_POLL (R598): At each poll tick the front end reads the submission ring, hands up to 64 records to the scheduler, writes HEAD and reads due completion-ring HEADs. -/
  | sqPoll (tail : BitVec 32) (recs : List (BitVec 512)) (heads : List (BitVec 32)) (busy : Bool)
  /-- ADMIT (R465): An ADMIT record is checked and either refused with a completion record or placed in the lowest free slot in PREFILL. -/
  | admitSeq (rec : BitVec 512)
  /-- CANCEL (R469): A CANCEL record moves the named sequence to RETIRING with CANCELLED, or posts CANCEL_UNKNOWN or REFUSED_RECORD. -/
  | cancel (rec : BitVec 512)
  /-- STEP_FORMATION (R472): At a formation instant the scheduler appends due steps, fills the 256-row budget, writes the step descriptor and broadcasts its count section. -/
  | stepFormation
  /-- PARAM_DELIVERY (R481): The count-section broadcast into every hamper's inactive bank completes and sets SEQ_PARAM_STAT.READY. -/
  | paramDelivery
  /-- DELIVERY_TEMPLATE (R483): At the formation instant plus scaled AT an enabled delivery template is appended as a descriptor to its channel. -/
  | deliveryTemplate (n : BitVec 3)
  /-- REF_LOST (R471): Loss of the reference hamper stops formation, sets SCH_STATUS.REF_LOST and writes a step-fatal REF_LOST entry. -/
  | refLost
  /-- TOKEN_RECORD (R493): A token record arriving at the head's scheduler is kept for its entry's last row or discarded. -/
  | tokenRecord (peer : Bool) (v : BitVec 64) (poison : Bool)
  /-- SPILL (R512): The pager moves a victim's page to a peer or host memory, marking it in transit. -/
  | spill (slot : BitVec 12) (lg : BitVec 5) (page : BitVec 9)
  /-- SPILL_DONE (R512): A completed spill frees the local frame and marks the page spilled. -/
  | spillDone (slot : BitVec 12) (lg : BitVec 5) (page : BitVec 9)
  /-- FETCH_BACK_DONE (R513): A completed fetch-back marks the page resident and frees the spill target's frame. -/
  | fetchBackDone (slot : BitVec 12) (lg : BitVec 5) (page : BitVec 9)
  /-- RESUME_SEQUENCE (R518): When every pool has HIGH free frames the device resumes its PREEMPTED sequences one at a time. -/
  | resumeSequence
  /-- SCH_ENABLE (R519): SCH_CTRL ENABLE starts the scheduler from idle and invalidates the translation store. -/
  | schEnable
  /-- SCH_HALT (R519): SCH_CTRL HALT ends formation and lets steps in flight finish and be appended. -/
  | schHalt
  /-- SCH_HALT_ABORT (R520): HALT with SCH_CTRL.ABORT also raises a core-plane abort at the next step boundary and appends no step in flight. -/
  | schHaltAbort
  /-- SCH_INIT (R519): SCH_CTRL INIT empties the slot table, frees every page and clears event counters. -/
  | schInit
  /-- SCH_CONFIG_WRITE (R522): Writes of SCH_CFG, SCH_TIMING, PG_CFG and PG_PT_BASE are taken only while idle, otherwise CMD_REFUSED is set. -/
  | schConfigWrite (reg : SchReg) (v : BitVec 64)
  /-- SCH_LIMIT_WRITE (R524): A write of SCH_LIMIT stores MAX_TOKENS clamped to 512 × TPP. -/
  | schLimitWrite (v : BitVec 64)
  /-- PG_POOL_WRITE (R534): A write of PG_POOL_n is discarded if the pool passes frame 2,097,151 or the scheduler is not idle. -/
  | pgPoolWrite (n : StackId) (v : BitVec 64)
  /-- LANE_SPARE (R540): A receive lane losing lock or exceeding the error rate is moved onto spare circuit C16 at both ends. -/
  | laneSpare (p : PortId) (tx : Bool) (lane : BitVec 4)
  /-- LASER_LOW (R541): A laser-feed wavelength below 7 dBm clears its LASER_OK bit and sends the port to failed. -/
  | laserLow (p : PortId) (k : BitVec 4)
  /-- TRAINING_COMPLETE (R542): Training of a port completes, including the identity exchange, and qualification begins. -/
  | trainingComplete (p : PortId) (peerDev : BitVec 6) (peerPort : BitVec 4) (laser : BitVec 16)
  /-- QUALIFICATION_DONE (R576): The PRBS31 run ends and QUAL_PASS is set only if all 32 lanes pass. -/
  | qualificationDone (p : PortId) (lanes : List LaneRun)
  /-- PORT_FAILED (R548): A retrain not completed within 50 ms sends the port to failed, halts its channels and writes a function-fatal entry. -/
  | portFailed (p : PortId)
  /-- LINK_FLIT_RECEIVE (R545): A received Psiud flit is CRC-checked and accepted in sequence, applying its ACK and returned credits, or discarded. -/
  | linkFlitReceive (p : PortId) (f : RxFlit)
  /-- NAK (R546): A NAK reaching the sender makes it resend its unacknowledged flits from the named number. -/
  | nak (p : PortId) (ack : BitVec 12)
  /-- REPLAY_TIMEOUT (R547): With no ACK advance for 2,048 ticks the sender replays from the oldest flit, and after REPLAY_LIMIT replays the port retrains. -/
  | replayTimeout (p : PortId)
  /-- MESSAGE_SEND (R552): A transmit channel holding a message sends it once it holds the credit that the wrap rule requires. -/
  | messageSend (p : PortId) (ch : Option (BitVec 6))
  /-- ANNOUNCE (R555): A received announce flit sets the sender's ring size, tail mirror and credit, or withdraws them with size 0. -/
  | announce (p : PortId) (c : BitVec 6) (size : BitVec 20)
  /-- MESSAGE_DRAIN (R561): A complete message at a mesh-drain ring's head is injected into the mesh, and its bytes are freed and returned as credit. -/
  | messageDrain (p : PortId) (c : BitVec 6) (bad : BitVec 2)
  /-- DRAIN_INSTANT (R563): At a step-wise channel's drain instant it begins draining messages of the expected step. -/
  | drainInstant (p : PortId) (c : BitVec 6)
  /-- RX_DEADLINE (R564): At the deadline with fewer than MSGS messages complete the step is late, LATE increments and a withhold notice is sent. -/
  | rxDeadline (p : PortId) (c : BitVec 6)
  /-- STEP_COPY (R486): A follower receives the head's step descriptor for later delivery. -/
  | stepCopy (k : BitVec 64) (d : List Byte)
  /-- MASK (R489): A received MASK service message masks the named entry on this device. -/
  | maskEntry (step : BitVec 32) (e : BitVec 8) (slot : BitVec 12) (reason : BitVec 4)
  /-- SPILL_REQ (R512): A SPILL_REQ is accepted with a lent frame or refused by the peer's pager. -/
  | spillReq (dev : BitVec 8) (va : BitVec 42)
  /-- SPILL_ACK (R512): A SPILL_ACK tells the spilling pager the lent frame or a refusal. -/
  | spillAck (dev : BitVec 8) (frame : BitVec 32) (refused : Bool)
  /-- PAGE_DATA (R567): A PAGE_DATA message stores 64 KiB of page into the named frame. -/
  | pageData (dev : BitVec 8) (frame : BitVec 32) (d : List Byte)
  /-- FETCH_REQ (R513): A FETCH_REQ asks the holding peer to return a spilled page. -/
  | fetchReq (dev : BitVec 8) (frame : BitVec 32)
  /-- FREE (R499): A FREE message frees a lent frame on the peer. -/
  | freeFrame (dev : BitVec 8) (frame : BitVec 32)
  /-- SERVICE_FORWARD (R568): A complete service message for another device is forwarded within 32 ticks along the topology's route, or dropped if no path works. -/
  | serviceForward (p : PortId)
  /-- TRAIN (R579): PSIUD_CTRL TRAIN starts training and qualification from down or failed. -/
  | train (p : PortId)
  /-- DOWN (R579): PSIUD_CTRL DOWN takes the port down from any state. -/
  | down (p : PortId)
  /-- QUALIFY (R579): PSIUD_CTRL QUALIFY reruns qualification from up while every channel is disabled. -/
  | qualify (p : PortId)
  /-- TX_ENABLE (R584): PSIUD_CH_CTRL TX_ENABLE enables the transmit side to wait for an announce. -/
  | txEnable (p : PortId) (c : BitVec 6)
  /-- TX_DISABLE (R584): PSIUD_CH_CTRL TX_DISABLE disables the transmit side and discards its queued rows. -/
  | txDisable (p : PortId) (c : BitVec 6)
  /-- RX_ENABLE (R584): PSIUD_CH_CTRL RX_ENABLE empties the ring, loads drain credits and announces. -/
  | rxEnable (p : PortId) (c : BitVec 6)
  /-- RX_DISABLE (R584): PSIUD_CH_CTRL RX_DISABLE disables the receive side, discards the ring and announces size 0. -/
  | rxDisable (p : PortId) (c : BitVec 6)
  /-- PSIUD_CHANNEL_WRITE (R582): A write of a channel's transmit or receive registers is taken only while that side is disabled and its ring fits. -/
  | psiudChannelWrite (p : PortId) (c : BitVec 6) (reg : PsiudReg) (v : BitVec 64)
  /-- PSIUD_POD_WRITE (R585): A write of PSIUD_POD is discarded while any port is not down. -/
  | psiudPodWrite (v : BitVec 64)
  /-- CONFIG_REQUEST (R589): A PCI Express configuration request completes with Request Retry Status until the fuse load ends, then is served. -/
  | configRequest (off : BitVec 12) (be : BitVec 4) (w : Option (BitVec 32))
  /-- BAR2_READ (R596): A BAR2 read returns HBM data through the window, poisoned or Unsupported Request as the rules give. -/
  | bar2Read (off : BitVec 41) (len : Nat) (fails : BitVec 4)
  /-- BAR2_WRITE (R596): A BAR2 write stores to HBM in arrival order, marking poison for poisoned TLPs. -/
  | bar2Write (off : BitVec 41) (bytes : List Byte) (poisoned : Bool)
  /-- CQ_WRITE (R602): The device writes held completion records and then TAIL to a ring with room, signalling its vector when moderation is met. -/
  | cqWrite (n : BitVec 4)
  /-- CQ_MOD_TIMER (R607): TIME ticks after the oldest unsignalled record the ring's MSI-X vector is signalled. -/
  | cqModTimer (n : BitVec 4)
  /-- RING_BASE_WRITE (R621): A write of HIF_SQ_BASE or HIF_CQ_n_BASE is refused while enabled if it moves the ring, and enabling a ring resumes its writes. -/
  | ringBaseWrite (n : Option (BitVec 4)) (v : BitVec 64)
  /-- PTM_DIALOG (R610): A completed PTM dialog latches ALM_PTM and HIF_PTM_MASTER and increments HIF_PTM_CNT. -/
  | ptmDialog (master : BitVec 64)
  /-- HDMA_BLOCK (R613): A host DMA channel moves a block of at most 4 KiB, sharing the engine round-robin. -/
  | hdmaBlock
  /-- HDMA_HOST_COMPLETION (R615): An error or poisoned completion to a host read is a read error, retried then poisoned or halted. -/
  | hdmaHostCompletion (c : BitVec 4) (b : BitVec 6) (e : HostCpl)
  /-- HDMA_HOST_READBACK (R614): The completion of the 32-byte read after a TO_HOST descriptor's last write reaches its status point. -/
  | hdmaHostReadback (c : BitVec 4) (e : Option CplError)
  /-- FLR (R591): A Function Level Reset clears READY and starts a device reset. -/
  | flr
  /-- PERST_N_ASSERT (R662): PERST_N assertion resets the PCI Express link and, after READY, starts a device reset. -/
  | perstNAssert
  /-- PERST_N_DEASSERT (R633): PERST_N deassertion releases the PCI Express link to train. -/
  | perstNDeassert
  /-- POWER_GOOD_ASSERT (R746): An accepted power-good input lets sequencing proceed; PG_SAFE samples straps and all five start POR. -/
  | powerGoodAssert (r : Rail) (straps : BitVec 3)
  /-- POWER_GOOD_DEASSERT (R746): A deasserting power-good input holds bring-up, powers off on PG_SAFE, or trips the lifeguard after READY. -/
  | powerGoodDeassert (r : Rail)
  /-- OSC_TRIM (R631): POR senses and corrects the trim words and trims the internal oscillator, then enters XTAL. -/
  | oscTrim (ws : List FuseWord)
  /-- XTAL_STABLE (R632): 65,536 good crystal cycles judge the crystal stable; the reference loop locks and the Almanac starts. -/
  | xtalStable
  /-- XTAL_TIMEOUT (R632): A crystal not stable within 200 ms leads to FUSE and then FAILED with XTAL. -/
  | xtalTimeout
  /-- FUSE_LOAD (R637): The remaining fuses are sensed, corrected and loaded, ending Request Retry Status, or FUSE_ECC sends the device to FAILED. -/
  | fuseLoad (ws : List FuseWord)
  /-- IMAGE_VERIFY (R641): The boot ROM reads and checks the flash image, entering CONFIG or WAIT_IMAGE. -/
  | imageVerify (image : Option (List Byte))
  /-- CONFIG_LOAD (R648): The management processor applies the configuration records, or stops with CONFIG_RECORD and FAILED. -/
  | configLoad
  /-- HBM_TEST (R649): All stacks are trained and march-tested, bad frames are listed, and failures send the device to FAILED. -/
  | hbmTest (r : List StackTest)
  /-- SRAM_BIST (R652): SRAM BIST results are merged into the defect map, or SRAM_UNREPAIRABLE sends the device to FAILED. -/
  | sramBist (rows : List BadRow)
  /-- LINK_RETRY (R635): Every LINK_RETRY seconds in LINKS a failed required port is retried. -/
  | linkRetry
  /-- LINKS_COMPLETE (R635): When every required port has QUAL_PASS the device sets HIF_STATUS.READY. -/
  | linksComplete
  /-- IMG_VERIFY_CMD (R643): IMG_CTRL.VERIFY in WAIT_IMAGE checks the pushed image and enters CONFIG on success. -/
  | imgVerifyCmd
  /-- FLASH_PROGRAM (R644): After READY the management processor writes a verified pushed image to flash. -/
  | flashProgram (done : Bool)
  /-- PLDM_UPDATE (R645): A PLDM firmware update verifies the delivered image and writes it to flash for the next reset. -/
  | pldmUpdate (image : List Byte)
  /-- FUSE_PROGRAM (R646): After first READY the device blows ARB and KEY_REVOKE fuses as the image's flags require. -/
  | fuseProgram (ok : Bool)
  /-- GET_VERSION (R653): An SPDM GET_VERSION request is answered. -/
  | getVersion (smbus : Bool)
  /-- GET_CAPABILITIES (R653): An SPDM GET_CAPABILITIES request is answered. -/
  | getCapabilities (smbus : Bool)
  /-- NEGOTIATE_ALGORITHMS (R653): An SPDM NEGOTIATE_ALGORITHMS request is answered. -/
  | negotiateAlgorithms (smbus : Bool) (asym : Bool) (hash : Bool)
  /-- GET_DIGESTS (R653): An SPDM GET_DIGESTS request is answered. -/
  | getDigests (smbus : Bool)
  /-- GET_CERTIFICATE (R653): An SPDM GET_CERTIFICATE request returns the chain from the identity block. -/
  | getCertificate (smbus : Bool) (slot : BitVec 4) (off : BitVec 16) (len : BitVec 16)
  /-- CHALLENGE (R654): An SPDM CHALLENGE is signed, or answered ResponseNotReady before the key is derived. -/
  | challenge (smbus : Bool) (slot : BitVec 4) (nonce : BitVec 256)
  /-- GET_MEASUREMENTS (R655): An SPDM GET_MEASUREMENTS returns the five SHA-256 measurement blocks. -/
  | getMeasurements (smbus : Bool) (index : BitVec 8) (signed : Bool) (nonce : BitVec 256)
  /-- PLDM_MONITOR (R656): A PLDM Type 2 platform-monitoring request is answered with telemetry. -/
  | pldmMonitor (smbus : Bool) (m : PldmMon)
  /-- DEVICE_RESET (R662): DEV_CTRL.RESET starts a device reset that clears the domains of the reset matrix. -/
  | deviceReset
  /-- DEVICE_RESET_DONE (R662): A device reset completes, configuration is reapplied and READY sets. -/
  | deviceResetDone
  /-- FN_REINIT (R666): FN_REINIT.GO re-initialises one stream engine, port, host DMA engine, scheduler, grove or field, or is refused. -/
  | fnReinit (unit : BitVec 3) (index : BitVec 8)
  /-- FN_REINIT_DONE (R667): A re-initialisation ends, BUSY clears and RESULT is written. -/
  | fnReinitDone
  /-- ALERT_RESPONSE (R759): A read of the SMBus Alert Response Address returns the device's address and releases SMB_ALERT_N once the event is read. -/
  | alertResponse
  /-- SMBUS_TIMEOUT (R759): SCL held low for 25 ms to 35 ms makes the device release the bus. -/
  | smbusTimeout
  /-- CLOCK_FAILURE (R682): A failed clock source asynchronously gates the core plane, drives VSEL to level 7, stops channels and writes CLOCK_LOST. -/
  | clockFailure (src : ClockSource)
  /-- CLK_GATE_WRITE (R685): A write of CLK_GATE_FIELD or CLK_GATE_GROVEk is refused whole for CHILD_ON, PARENT_OFF or IN_USE. -/
  | clkGateWrite (k : Option (BitVec 2)) (v : BitVec 64)
  /-- LEVEL_DECISION (R700): The lifeguard sets the level to the largest contributor and starts a slower or faster move. -/
  | levelDecision
  /-- VR_READY (R693): VR_READY rising completes the wait of a move, letting a faster move stop and retarget the groves. -/
  | vrReady
  /-- GROVE_RESTART (R694): At the end of a level-change stop every ungated grove restarts at the new level on one common edge. -/
  | groveRestart
  /-- VR_TIMEOUT (R696): VR_READY not high 50 µs after a VSEL change sets VR_TIMEOUT and keeps or reverts the level by direction. -/
  | vrTimeout
  /-- THERMAL_EVALUATION (R700): Each 10 µs evaluation raises THERMAL by one if a sensor reads at or above its threshold. -/
  | thermalEvaluation
  /-- POWER_EVALUATION (R700): Each 1.6 µs evaluation raises POWER by one if filtered power exceeds POWER_W, or to 4 on over-current. -/
  | powerEvaluation
  /-- CONTRIBUTOR_DECAY (R700): After 100 µs below its condition a contributor falls by one, or ALERT to 0. -/
  | contributorDecay (k : Contributor)
  /-- PWR_ALERT (R700): An accepted PWR_ALERT_N assertion raises ALERT to ALERT_LEVEL and sets LG_EVENT.ALERT. -/
  | pwrAlert
  /-- SENSOR_SAMPLE (R702): A lifeguard input is sampled and filtered, with missed samples and timeouts replaced or reported. -/
  | sensorSample (x : LgInput) (v : Option (BitVec 32))
  /-- WRITE_REG (R705): Mailbox WRITE_REG stores an RWS register value if every field is in range. -/
  | writeReg (mp : Bool) (arg : BitVec 32) (data : BitVec 64)
  /-- CLEAR_EVENTS (R705): Mailbox CLEAR_EVENTS clears the LG_EVENT bits in DATA. -/
  | clearEvents (mp : Bool) (data : BitVec 64)
  /-- SET_LEVEL (R705): Mailbox SET_LEVEL sets LG_CEIL.REQ. -/
  | setLevel (mp : Bool) (data : BitVec 64)
  /-- CALIBRATE (R705): Mailbox CALIBRATE re-derives a sensor group's calibration, deferred while work is in progress. -/
  | calibrate (mp : Bool) (arg : BitVec 32)
  /-- RUN_BIST (R707): Mailbox RUN_BIST tests a grove SRAM or a buffer, deferred or refused while busy. -/
  | runBist (mp : Bool) (arg : BitVec 32)
  /-- QUIET (R705): Mailbox QUIET declares a quiet window for deferred requests. -/
  | quiet (mp : Bool) (arg : BitVec 32) (data : BitVec 64)
  /-- DEFERRED_REQUEST_START (R706): A deferred CALIBRATE or RUN_BIST starts at the next step boundary or quiet window. -/
  | deferredRequestStart (mp : Bool)
  /-- MAILBOX_REQUEST_DONE (R705): A timed lifeguard request such as CALIBRATE or RUN_BIST finishes and writes its RESULT. -/
  | mailboxRequestDone (mp : Bool) (pass : Bool)
  /-- PMC_CLEAR (R723): PMC_CTRL.CLEAR clears every counter of a group. -/
  | pmcClear (u : CtrGroup)
  /-- PMC_MODE_WRITE (R723): A write of PMC_CTRL.MODE clears every counter and SAT bit of the group. -/
  | pmcModeWrite (u : CtrGroup) (full : Bool)
  /-- SNAPSHOT (R727): At a due instant selected groups and the 74 totals are latched and a record is written to the snapshot ring, or the snapshot is skipped. -/
  | snapshot (busy : Bool)
  /-- CR_NOW (R726): CR_NOW.GO requests a one-off snapshot at AT, or is discarded with LATE_REQ. -/
  | crNow (v : BitVec 64)
  /-- SAMPLE_RECORD_COMPLETE (R733): 255 cycles after a tagged word's issue its record is written to the lowest free entry or counted lost. -/
  | sampleRecordComplete (g : GroveId)
  /-- SAMP_FREE (R733): A write of 1 to a SAMP_STAT.FREE bit frees that sample entry. -/
  | sampFree (g : GroveId) (v : BitVec 64)
  /-- SAMP_CFG_WRITE (R731): Setting SAMP_CFG.EN loads the LFSR from SEED. -/
  | sampCfgWrite (g : GroveId) (v : BitVec 64)
  /-- LOAD (R773): MP mailbox LOAD checks a schedule object, then copies, relocates and loads it and marks its hampers loaded. -/
  | load (obj : BitVec 42) (syms : BitVec 42)
  /-- PATCH (R775): MP mailbox PATCH reapplies relocations against a new symbol table and repeats the preload. -/
  | patch (obj : BitVec 42) (syms : BitVec 42)
  /-- UNLOAD (R777): MP mailbox UNLOAD clears and unmarks the object's hampers. -/
  | unload (obj : BitVec 42)
  /-- MP_REQUEST_COMPLETE (R776): A management mailbox request ends, writes RESULT and DETAIL and signals vector 61. -/
  | mpRequestComplete
  /-- ALMANAC_TICK (R32): On every edge of the 700 MHz reference the Almanac and every grove replica increase by one, and the per-tick counters and byte totals advance. -/
  | almanacTick
  /-- HBM_STACK_LOST (R658): A stack that stops responding to its controller raises the device-fatal fault entry HBM_STACK_LOST. -/
  | hbmStackLost (n : StackId)
  /-- MP_FAULT (R658): A management processor exception or uncorrectable memory error raises the device-fatal fault entry MP_FAULT. -/
  | mpFault (addr : BitVec 64)
  /-- LANE_SWAP_DONE (R540): The move of a failed lane onto spare circuit C16 completes within 20 µs, after which flits pass the port again and lost flits are replayed. -/
  | laneSwapDone (p : PortId)
  /-- ACCUMULATOR_READABLE (R259): An MX operation's result lands in its accumulator at the cycle the latency table gives, in issue order under R260. -/
  | accumulatorReadable (c : CoreId)
  /-- TILE_BYTES_CHANGED (R306): A TLD's bytes and poison marks are written into the tile for operations issued from c + 3. -/
  | tileBytesChanged (c : CoreId)
  /-- ATTESTATION_KEY_DERIVED (R654): Derivation of the attestation key from the device unique secret completes during HBM, after which signed SPDM requests are answered. -/
  | attestationKeyDerived
  /-- JTAG_INSTRUCTION (R638): An instruction shifted into the JTAG port acts, limited to boundary scan and the identification register while DEBUG_LOCK is set. -/
  | jtagInstruction (x : JtagInstr)
  deriving DecidableEq, Repr

end Sys2Proof
end

