-- ==== Sys2Proof/Decode.lean ====
section
/-! DEFINITION. The commands that a table word spells. spec/opcode_table.json gives no row any bits: a command
reaches the block as an access, a message, a pin or an event of its own, never as a word of an instruction stream.
The control word of the sequencers (R142) is data of the machine: Machine/ControlWord.lean reads and writes it. -/

namespace Sys2Proof

/-- The command that the table's bits spell: no row of the table has bits. -/
def decodeTableWord (_nbits _w : Nat) : Option Instr := none

end Sys2Proof
end

