-- ==== Sys2Proof/Machine/State/Boot.lean ====
section
/-! DEFINITION. The state of bring-up, the firmware image, resets, the management processor's mailbox, attestation and
the side ports (13, 16, 17 of spec/). Plain data only. Their registers stand in `State.bar0`. -/

namespace Sys2Proof.Machine

/-- A request of the management processor's mailbox under way (R773 to R776): what it will report, and the hampers
that it will mark as loaded. -/
structure MpJob where
  code    : Nat
  result  : Nat := 0
  detail  : Nat := 0
  hampers : List HamperId := []
  deriving DecidableEq, Repr

/-- The SRAM tier under a field that holds a scratchpad row (R25). -/
inductive Tier where
  | upper
  | lower
  deriving DecidableEq, Repr

/-- A failing row of an SRAM BIST report, with its tier (R26). -/
structure BistEntry where
  row  : BadRow
  tier : Tier
  deriving DecidableEq, Repr

/-- Bring-up, images, resets and the side ports (R631 to R668, R745 to R760, R773 to R777). -/
structure Boot where
  pgs       : BitVec 5 := 0             -- accepted power-good inputs: PG_SAFE, PG_IO, PG_HBM, PG_OPT, PG_CORE
  started   : Bool := false             -- POR has begun
  straps    : BitVec 3 := 0             -- GPIO[6:4] as sampled (R752)
  failing   : Nat := 0                  -- BOOT_ERR.CODE with which FUSE ends in FAILED; 0 none
  fusesIn   : Bool := false             -- the fuse load has completed
  blown     : SMap (BitVec 64) := []    -- bits that the device has blown, by fuse word
  ready     : Bool := false             -- READY has been reached since power-on
  held      : List Byte := []           -- the held image; empty: none
  buffer    : List Host.Cell := []      -- the image buffer
  next      : Option (List Byte) := none -- an updated image, held from the next device reset on
  toFlash   : Bool := false             -- the held image is to be written to flash
  fused     : Bool := false             -- fuses have been programmed for the held image
  badFrames : List Nat := []            -- bad frames, device address / 65536, rising
  defects   : SMap Nat := []            -- disabled column d of a strip
  bist      : List BistEntry := []      -- the failing rows of the latest SRAM BIST, with their tiers (R26, R652)
  pgSeen    : SMap (Bool × Nat) := []   -- by rail group, the latest sample of its power-good input and the run of equal ones (R702)
  key       : Bool := false             -- the attestation key has been derived
  perst     : Bool := true              -- PERST_N is asserted
  before    : Nat := 0                  -- BOOT_STATE.STATE at which a device reset began
  linksAt   : Nat := 0                  -- tick of the latest attempt in LINKS
  reinit    : Option (Nat × Nat) := none -- UNIT and INDEX of the re-initialisation under way
  mp        : Option MpJob := none
  headWas   : Option (Nat × Nat) := none -- tick of a host write of FAULT_POS, and HEAD as it stood before it (R659)
  events    : Nat := 0                  -- PLDM events held for the board controller
  smbHeld   : Bool := false             -- the device takes part in a transfer on the SMBus
  jtag      : JtagInstr := .idcode      -- the JTAG instruction in force; IDCODE after a reset of the test logic (R760)
  deriving DecidableEq, Repr

end Sys2Proof.Machine
end

