-- ==== Sys2Proof/Machine/State/Output.lean ====
section
/-! DEFINITION. What the device sends to the outside world, in order. -/

namespace Sys2Proof.Machine

/-- An SPDM response by its content (R653 to R655). -/
inductive SpdmReply where
  /-- The versions supported, major and minor in one byte. -/
  | version (vs : List Byte)
  /-- CERT_CAP, CHAL_CAP, and MEAS_CAP with signatures. -/
  | capabilities (cert chal meas : Bool)
  /-- TPM_ALG_RSAPSS_3072 and TPM_ALG_SHA_256, where selected. -/
  | algorithms (asym hash : Bool)
  /-- The digest of slot 0's chain. -/
  | digests (slot0 : List Byte)
  /-- A part of slot 0's chain, and the bytes that follow it. -/
  | certificate (part : List Byte) (left : Nat)
  /-- The chain's digest, the responder's nonce and the signature. -/
  | challengeAuth (chain : List Byte) (nonce : BitVec 256) (signature : List Byte)
  /-- Measurement blocks by index, with a nonce and a signature where one is asked for; the number of blocks alone where
  the request asks for it. -/
  | measurements (count : Nat) (blocks : List (Byte × List Byte)) (signed : Option (BitVec 256 × List Byte))
  /-- ERROR with ResponseNotReady. -/
  | notReady
  /-- ERROR for a request that the device does not support. -/
  | invalid
  deriving DecidableEq, Repr

/-- A command to the flash (R756): Fast Read Quad I/O (0xEB), Read Status (0x05), Write Enable (0x06), Sector Erase
(0x20) and Quad Page Program (0x32), with their addresses and the page's bytes. -/
inductive FlashCmd where
  | read (addr : Nat)
  | status
  | writeEnable
  | erase (addr : Nat)
  | program (addr : Nat) (page : List Byte)
  deriving DecidableEq, Repr

/-- What the device sends. -/
inductive Output where
  /-- A signalled MSI-X vector (R608, R609). -/
  | msix (vector : Nat)
  /-- A completion of a BAR0, BAR2 or configuration read with its data, poisoned where `poisoned`. -/
  | readData (bytes : List Byte) (poisoned : Bool)
  /-- A completion with Unsupported Request status. -/
  | unsupported
  /-- A read request to host memory: address, bytes, Relaxed Ordering, No Snoop (R598, R603, R611). -/
  | hostRead (addr len : Nat) (relaxed noSnoop : Bool)
  /-- A posted write to host memory, in a poisoned TLP where `poisoned` (R602, R611, R615). -/
  | hostWrite (addr : Nat) (bytes : List Byte) (poisoned relaxed noSnoop : Bool)
  /-- A flit leaves a Psiud port (R543). -/
  | psiud (port : Nat) (flit : BitVec 2048)
  /-- A port in training sends its device and port number to its peer (R575). -/
  | portIdentity (port dev : Nat)
  /-- A configuration request completes with Request Retry Status (R589). -/
  | retryStatus
  /-- Commands to the flash (R644, R645, R756). -/
  | flash (cmds : List FlashCmd)
  /-- An SPDM response, over SMBus or PCI Express. -/
  | spdm (smbus : Bool) (r : SpdmReply)
  /-- A PLDM response with telemetry or an event (R656). -/
  | pldm (smbus : Bool) (data : BitVec 64)
  /-- A byte answered on the SMBus (R759). -/
  | smbus (b : Byte)
  /-- A register shifted out of the JTAG port (R760). -/
  | jtag (v : BitVec 32)
  deriving DecidableEq, Repr

end Sys2Proof.Machine
end

