-- ==== Sys2Proof/Machine/State/Core.lean ====
section
/-! DEFINITION. The state of one core: queues, generators, scratchpad, tiles, MX unit, vector engine,
send ends, receive queues and router (03, 05, 06, 07, 08 of spec/). Plain data only. -/

namespace Sys2Proof.Machine

/-- The W1C bits that hardware has set in one grove cycle: the cycle, and the bits by register offset (R11). -/
abbrev SetBits := Nat × SMap (BitVec 64)

/-- A 32-byte value with the poison mark of each of its four 64-bit words (R99). -/
structure Entry where
  data   : BitVec 256 := 0
  poison : BitVec 4 := 0
  deriving DecidableEq, Repr

/-- One place of an internal queue (R100, R101). `due` is the grove cycle at whose end the data lands;
`filled` is false while an LD still has to read its row. -/
structure QSlot where
  entry  : Entry := {}
  due    : Nat := 0
  landed : Bool := false
  filled : Bool := true
  deriving DecidableEq, Repr

/-- An address generator g0 to g7 (R120 to R129, R138 to R140). -/
structure Agu where
  base    : BitVec 16 := 0
  stride1 : BitVec 16 := 0
  stride2 : BitVec 16 := 0
  count1  : BitVec 16 := 0
  count2  : BitVec 16 := 0
  ringLo  : BitVec 16 := 0
  ringHi  : BitVec 16 := 0
  mode    : BitVec 3 := 0
  src     : BitVec 5 := 0
  i       : BitVec 16 := 0
  j       : BitVec 16 := 0
  phase   : Bool := false
  deriving DecidableEq, Repr

/-- A delivered mesh word's record and the latency L of the receiver that holds it (R332). -/
structure WordRef where
  id  : Nat
  lat : Nat
  deriving DecidableEq, Repr

/-- A row in the stream inlet: data, the row address and the fill-tag phase it carries (R94, R380), the
grove cycle at whose end it landed, and the word records whose credit its pop returns. -/
structure InletRow where
  entry : Entry := {}
  row   : BitVec 16 := 0
  phase : Bool := false
  due   : Nat := 0
  words : List WordRef := []
  deriving DecidableEq, Repr

/-- The read-port operation that a control word issued in cycle `cycle - 1` owns (R109). -/
structure PortRead where
  cycle   : Nat
  toCore  : Bool                -- true: LD core, false: LD stream
  row     : BitVec 16
  phase   : Bool                -- phase the generator yielded (R380)
  dest    : BitVec 5
  tag     : Bool
  bc      : Bool
  bsz     : BitVec 2
  el      : BitVec 5
  masked  : Bool                -- a predicate of the word is false here (R386)
  cost    : Nat                 -- credits an LD stream consumed (R331)
  coll    : Bool                -- CHECK.COLL of the owning word
  deriving DecidableEq, Repr

/-- The write-port operation that a control word issued in cycle `cycle - 1` owns (R109). -/
structure PortWrite where
  cycle  : Nat
  byCore : Bool                 -- true: ST core, false: ST stream
  row    : BitVec 16
  phase  : Bool
  entry  : Entry
  tag    : Bool
  masked : Bool                 -- ST is governed by a false predicate (R386)
  coll   : Bool
  deriving DecidableEq, Repr

/-- How the most recent word owning a port cycle left it (R112, R376): set by the word issued in
`cycle - 1`; a port cycle with no such word is idle without the scrub mark. -/
structure PortCycle where
  cycle    : Nat := 0
  rdOwned  : Bool := false
  wrOwned  : Bool := false
  scrub    : Bool := false
  deriving DecidableEq, Repr

/-- A scratchpad row (R371): four data words, their poison marks and check bits, the fill tag and its
parity bit. Check bits of word w are `chk[8w+7:8w]`. -/
structure SpadRow where
  data   : BitVec 256 := 0
  marks  : BitVec 4 := 0
  chk    : BitVec 32 := 0
  tag    : BitVec 2 := 0
  parity : Bool := false
  deriving DecidableEq, Repr

/-- A scrub rewrite waiting for its write port cycle (R377). -/
structure ScrubWrite where
  cycle : Nat
  row   : BitVec 16
  entry : Entry
  deriving DecidableEq, Repr

/-- An injection under way (R398): the port cycle of its read, the row, the check bits to invert, and the row as read, once
it is; the write-back is in the next port cycle. -/
structure Inject where
  cycle : Nat
  row   : BitVec 16
  flip  : BitVec 32
  was   : Option SpadRow := none
  deriving DecidableEq, Repr

/-- A tile register (R271): 64 bytes, one mark per 64-bit word, and its shape codes (R156). -/
structure Tile where
  data  : BitVec 512 := 0
  marks : BitVec 8 := 0
  rows  : BitVec 3 := 0
  bpr   : BitVec 3 := 4
  deriving DecidableEq, Repr

/-- A TLD that has issued and not yet changed its tile (R159, R274, R306). -/
structure TileWrite where
  due   : Nat                   -- first cycle in which operations see the new bytes
  tile  : BitVec 5
  part  : Bool
  size  : Nat
  entry : Entry
  deriving DecidableEq, Repr

/-- A mask write in flight (R306, R307): `due` is the first cycle in which it is in effect, `order`
the issue order that decides between writes of one cycle. -/
structure MaskWrite where
  due  : Nat
  mask : BitVec 2
  val  : BitVec 32
  deriving DecidableEq, Repr

/-- One block summer with its special-value tracking (R235, R240, R264). -/
structure Summer where
  val    : BitVec 72 := 0
  nan    : Bool := false        -- a NaN element or an infinity times zero
  inval  : Bool := false        -- an infinity times zero (NV)
  infP   : Bool := false
  infN   : Bool := false
  poison : Bool := false
  deriving DecidableEq, Repr

/-- The pending block of an accumulator: its count and the format of its operations (R236, R239). -/
structure Block where
  count : Nat := 0
  fmt   : BitVec 4 := 0
  deriving DecidableEq, Repr

/-- A held operand or an operand-cache entry, with the poison mark of each of its eight words (R226,
R230, R264; log entry 20). -/
structure OcEntry where
  data  : BitVec 512 := 0
  marks : BitVec 8 := 0
  deriving DecidableEq, Repr

/-- An open pass group with its pass latch (R248, R249). -/
structure PassGroup where
  op     : BitVec 5
  fmt    : BitVec 4
  mode   : BitVec 2
  acc    : BitVec 3
  ocs    : BitVec 2
  next   : Nat
  a      : BitVec 512
  b      : BitVec 512
  poison : Bool
  deriving DecidableEq, Repr

/-- What an MX operation in flight does to its accumulator when it lands (R259). -/
inductive MxEffect where
  /-- The close of a block: the sixteen summers and the scales of A rows and B columns (R237). -/
  | close (sums : List Summer) (scales : BitVec 64)
  /-- An integer or floating-point product sum in format `fmt`, subtracted when `neg` (R241, R242). -/
  | products (fmt : BitVec 4) (neg : Bool) (a b : BitVec 512)
  /-- MCHAIN's halves, with the accumulator's elements and marks as they stood at its issue (R254, R261). -/
  | chain (acc : BitVec 512) (marks : BitVec 16) (h0 h1 : Option (BitVec 256))
  /-- MZERO (R259). -/
  | zero
  deriving DecidableEq, Repr

/-- An MX result in flight: readable from cycle `due`, landing in list order per accumulator (R260). -/
structure MxResult where
  acc    : BitVec 3
  due    : Nat
  effect : MxEffect
  poison : Bool
  deriving DecidableEq, Repr

/-- The MX unit (R222 to R270). `acc` and the summers are keyed by 16 × accumulator + element. -/
structure Mx where
  acc       : SMap (BitVec 32) := []
  accPoison : SMap Bool := []
  sums      : SMap Summer := []
  blocks    : SMap Block := []
  heldA     : OcEntry := {}
  heldB     : OcEntry := {}
  oc        : SMap OcEntry := []
  pass      : Option PassGroup := none
  busyUntil : Nat := 0          -- the next array operation may issue from this cycle (R257)
  results   : List MxResult := []
  status    : BitVec 64 := 0    -- W1C bits of MX_STATUS
  deriving DecidableEq, Repr

/-- A 64-bit word of a receive queue in normal mode (R95, R337): `due` is the cycle at whose end it lands, `word`
the mesh word record whose credit its pop returns. -/
structure RqEntry where
  data   : BitVec 64 := 0
  poison : Bool := false
  due    : Nat := 0
  word   : Option WordRef := none
  deriving DecidableEq, Repr

/-- One accumulator entry of a potluck queue (R341). `due` is the cycle at whose end its last
contribution is added (R346). -/
structure Potluck where
  val     : BitVec 256 := 0
  count   : Nat := 0
  nan     : Bool := false
  infP    : Bool := false
  infN    : Bool := false
  rngP    : Bool := false
  rngN    : Bool := false
  nonneg0 : Bool := false
  poison  : Bool := false
  due     : Nat := 0
  words   : List WordRef := []  -- mesh word records whose credits its pop returns
  deriving DecidableEq, Repr

/-- A receive queue q0 to q7 with its NET_RQ_n fields (R337 to R347, R359). -/
structure RQueue where
  tw       : BitVec 2 := 0
  expm1    : BitVec 5 := 0
  rfmt     : Bool := false
  svcreply : Bool := false
  potluck  : Bool := false
  entries  : List RqEntry := []
  head     : Nat := 0           -- sequence number of the potluck head H
  ptrs     : SMap Nat := []     -- contributor pointers P_c
  window   : SMap Potluck := [] -- potluck entries by sequence number
  deriving DecidableEq, Repr

/-- A tuple in a send end's injection buffer (R330): `ready` is the cycle at whose end it is placed,
`sent` how many of its words have been injected, `cost` the credits it consumed (R331). -/
structure Tuple where
  words : List (BitVec 64 × Bool) := []
  ready : Nat := 0
  sent  : Nat := 0
  side  : BitVec 12 := 0
  ids   : List Nat := []        -- mesh word records, one a word
  cost  : Nat := 0
  deriving DecidableEq, Repr

/-- A send end so0 to so3 (R328 to R331, R358). -/
structure SendEnd where
  credit : BitVec 4 := 8
  cinit  : BitVec 4 := 8
  tw     : BitVec 2 := 0
  type   : BitVec 2 := 0
  buf    : List Tuple := []
  deriving DecidableEq, Repr

/-- The scratchpad's registers and rows (R371, R392 to R399). Register words are kept as the spec
numbers their bits. -/
structure Spad where
  rows     : SMap SpadRow := []
  ecc      : BitVec 64 := 0
  errLog   : BitVec 64 := 0
  chkStat  : BitVec 64 := 0
  chkLog   : BitVec 64 := 0
  chkCnt   : BitVec 64 := 0
  ptr      : BitVec 16 := 0
  scrubEn  : Bool := true
  inject   : BitVec 64 := 0
  scrubWr  : Option ScrubWrite := none
  portRd   : Option PortRead := none
  portWr   : Option PortWrite := none
  port     : PortCycle := {}
  portWas  : PortCycle := {}           -- the record before that one
  lastRead : Option PortRead := none   -- the latest read performed, for same-row collisions (R388)
  lastTag  : BitVec 2 := 0             -- that row's tag before the port cycle
  lastWrite : Nat × BitVec 16 := (0, 0) -- port cycle and row of the latest write (R377, R778)
  lastOld  : Option SpadRow := none    -- that row as it was before the write's port cycle (R111)
  writtenAt : SMap Nat := []           -- by row, one more than the port cycle of its latest write (R778)
  injecting : List Inject := []        -- injections under way, in the order of their GO (R398)
  deriving DecidableEq, Repr

/-- The receive side and router of a core (R317 to R347, R358 to R363). -/
structure Net where
  send       : SMap SendEnd := []
  rq         : SMap RQueue := []
  rqStat     : BitVec 64 := 0
  flush      : BitVec 64 := 0
  routes     : SMap (BitVec 32) := []  -- keyed by 16 × input + slot
  routerStat : BitVec 64 := 0
  inlet      : List InletRow := []
  part       : SMap (List RqEntry) := []  -- words of a tuple whose last flit has not arrived (R329), by TGT
  injected   : Nat := 0                -- one more than the schedule cycle of the latest injection
  deriving DecidableEq, Repr

/-- The enable, masks and generators as service-mesh writes of cycle `cycle` leave them: they take effect from the next
cycle (R130). -/
structure CfgNext where
  cycle : Nat
  en    : Bool
  masks : SMap (BitVec 32)
  agus  : SMap Agu
  deriving DecidableEq, Repr

/-- One core (R94 to R141, R222 to R316, R317 to R400). Internal queues are keyed by their end code
(R95): 1 ld0, 2 ld1, 3 to 6 xq0 to xq3. -/
structure Core where
  en       : Bool := true
  status   : BitVec 64 := 0            -- CORE_STATUS
  flags    : BitVec 64 := 0            -- CORE_FLAGS
  masks    : SMap (BitVec 32) := []    -- m0 to m3, reset 0xFFFF_FFFF
  maskWr   : List MaskWrite := []
  agus     : SMap Agu := []
  iq       : SMap (List QSlot) := []
  tiles    : SMap Tile := []
  tileWr   : List TileWrite := []
  vl       : BitVec 6 := 32
  vxStatus : BitVec 64 := 0
  mx       : Mx := {}
  spad     : Spad := {}
  net      : Net := {}
  ctr      : SMap Nat := []            -- event totals by event code (R722)
  cfgNext  : Option CfgNext := none    -- service-mesh writes that take effect from the next cycle (R130)
  wordSet  : Nat × List Nat := (0, []) -- cycle of the latest issued word and offsets of the registers it changed (R132)
  svcOld   : Nat × List (Nat × BitVec 64) := (0, []) -- cycle of the latest service-mesh writes of tile shapes, send ends
                                       -- and event bits, with the registers' offsets and values before (R132)
  fresh    : SetBits := (0, [])        -- event bits set in the latest cycle that set any (R11)
  deriving DecidableEq, Repr

end Sys2Proof.Machine
end

