-- ==== Sys2Proof/Machine/State/Counters.lean ====
section
/-! DEFINITION. The state of counter groups, samplers and the counter reader
(15_performance_counters.md). Plain data only. -/

namespace Sys2Proof.Machine

/-- A counter group (R721 to R724, R734 to R736). `seen` holds, by event, the unit's event total at the end of
the last counting period. -/
structure Pmc where
  en     : Bool := false
  mode   : Bool := false               -- true: full
  freeze : Bool := false
  sat    : BitVec 16 := 0
  sel    : SMap (BitVec 64) := []
  selNew : SMap (BitVec 64) := []      -- written in this period; in effect from the next (R723)
  c      : SMap (BitVec 32) := []
  before : Option (SMap (BitVec 32)) := none -- the counters before a CLEAR in this period (R723)
  seen   : SMap Nat := []
  deriving DecidableEq, Repr

/-- A tagged control word whose record is not complete (R732, R733). -/
structure Sample where
  issued : Nat                         -- grove cycle of its issue
  hamper : Nat
  pushAlm : BitVec 32
  dt     : Nat
  stall  : Nat
  kind   : Nat
  ldLand : Nat
  mxRdy  : Nat
  vxaRdy : Nat
  vxbRdy : Nat
  sends  : List (Nat × Nat)            -- send ends with the cycle at whose end their tuple is placed
  inj    : Option Nat := none
  pc     : BitVec 25
  deriving DecidableEq, Repr

/-- A grove's sampler (R731, R733, R737). -/
structure Sampler where
  en    : Bool := false
  seed  : BitVec 32 := 0
  mean  : Nat := 10
  lfsr  : BitVec 32 := 0
  chosen : Nat := 0
  count : Nat := 0
  live  : List Sample := []
  recs  : SMap (BitVec 256) := []      -- the valid records
  lost  : Nat := 0
  deriving DecidableEq, Repr

/-- A snapshot record that is being written (R728 to R730): its instant, its place and bytes, TAIL after it, the totals latched
with it, whether it ends a window and starts one, and the groves whose cycle had not ended at the instant, each with the place
of its entry in the bytes (R727). -/
structure SnapRec where
  at_    : BitVec 64
  addr   : Nat
  bytes  : List Byte
  tail   : Nat
  totals : SMap Nat
  ends   : Bool
  starts : Bool
  late   : List (Nat × Nat) := []
  deriving DecidableEq, Repr

/-- The counter reader (R725 to R730, R738 to R740). Its registers stand in `State.bar0`. -/
structure Reader where
  totals  : SMap Nat := []             -- the 74 byte totals
  prev    : SMap Nat := []             -- the totals at the previous record
  prevAt  : Option (BitVec 64) := none -- the instant of the previous record, where a window may follow
  num     : Nat := 0                   -- records since EN was set
  skipped : Bool := false              -- a snapshot was skipped since the previous record
  stepped : Bool := false              -- the Almanac was stepped since the previous record
  due     : Option (BitVec 64) := none -- the instant of a CR_NOW request
  last    : Option (BitVec 64) := none -- the latest instant handled
  lastAt  : Nat := 0                   -- the real tick of it
  perAt   : Option Nat := none         -- the real tick of the latest periodic snapshot (R77)
  record  : Option SnapRec := none     -- CR_STAT.BUSY: the record that is being written
  deriving DecidableEq, Repr

end Sys2Proof.Machine
end

