-- ==== Sys2Proof/Machine/State/Plane.lean ====
section
/-! DEFINITION. The state of hampers and groves, of the mesh links between cores and of the service
mesh (02, 04, 07 of spec/). Plain data only. -/

namespace Sys2Proof.Machine

/-- A control word in the issue queue (R171, R172): `pushed` is the grove cycle of its push, `scalar` and
`aset` the scalar values of its SEQ and AGU fields that travel with it (R171). -/
structure QWord where
  word   : BitVec 256 := 0
  pushed : Nat := 0
  scalar : BitVec 32 := 0
  aset   : BitVec 16 := 0
  pc     : BitVec 25 := 0              -- its address, and Almanac and tick of its push (R732)
  alm    : BitVec 64 := 0
  tick   : Nat := 0
  deriving DecidableEq, Repr

/-- An active hardware loop (R179 to R183): its counter number, latched count, iteration index, first
and last body words, and the call depth at which it began. -/
structure Loop where
  k     : BitVec 2
  n     : Nat
  index : Nat
  first : BitVec 25
  last  : BitVec 25
  depth : Nat
  deriving DecidableEq, Repr

/-- A hold at which a hamper waits (R44 to R51): target, grove cycle in which it reached issue, and
whether the wait has been acted on by an abort. -/
structure HoldWait where
  target : BitVec 64
  at_    : Nat
  alm    : BitVec 64                   -- Almanac when the hold reached the point of issue (R197)
  deriving DecidableEq, Repr

/-- An instruction-cache line (R192 to R194): its program line number (word address / 8), its eight
words, the lock, and the order of last use. -/
structure IcLine where
  line   : BitVec 21
  words  : List (BitVec 256)
  locked : Bool
  used   : Nat
  deriving DecidableEq, Repr

/-- A preload in progress (R193). -/
structure Preload where
  line : BitVec 21
  left : Nat
  lock : Bool
  deriving DecidableEq, Repr

/-- One hamper's sequencer (R142 to R221, R350 to R352, R364). -/
structure Hamper where
  state      : BitVec 3 := 0
  cmdRefused : Bool := false
  pc         : BitVec 25 := 0          -- SEQ_PC: bit 24 LIB, bits [23:0] ADDR
  fault      : BitVec 64 := 0          -- SEQ_FAULT
  holdBase   : BitVec 64 := 0
  holdPos    : BitVec 64 := 0
  abortCfg   : BitVec 64 := 0          -- SEQ_ABORT_CFG
  progBase   : BitVec 64 := 0          -- SEQ_PROG_BASE
  scalars    : SMap (BitVec 32) := []
  lcs        : SMap (BitVec 32) := []
  icCfg      : BitVec 64 := 0          -- stored fields of SEQ_IC_PRELOAD
  icMisses   : BitVec 32 := 0
  icFlags    : BitVec 2 := 0           -- LOCK_FULL, PRELOAD_REFUSED
  icLines    : List IcLine := []
  icClock    : Nat := 0
  icMiss     : Option (BitVec 21) := none
  preload    : Option Preload := none
  auditAlm   : BitVec 64 := 0
  auditTag   : BitVec 64 := 0
  paramReady : Bool := false
  paramAct   : Bool := false           -- bank that SGETP reads
  params     : SMap (BitVec 32) := []  -- keyed by 64 × bank + entry
  wd         : BitVec 64 := 0          -- SEQ_WD
  iq         : List QWord := []
  loops      : List Loop := []         -- innermost first
  calls      : List (BitVec 25) := []  -- top first
  pushFrom   : Nat := 0                -- first grove cycle in which the front end may push
  smad       : Option (BitVec 4 × Nat) := none  -- SMAD result register and its push cycle
  stopped    : Bool := false           -- the front end has pushed END or was stopped (R189, R199)
  swapWait   : Bool := false           -- the front end waits for a PSWAP to issue (R177)
  lastIssue  : Nat := 0                -- one more than the grove cycle of the latest issue attempt
  waitUntil  : Nat := 0                -- schedule cycle, over all intervals, from which issue resumes after a WAIT
  hold       : Option HoldWait := none
  refused    : Nat := 0                -- consecutive refused cycles (R350)
  refusedAt  : BitVec 64 := 0          -- the refused condition, in SEQ_WD's layout
  stalls     : Nat := 0                -- refused cycles of the word at the head (R732)
  wdFired    : Bool := false           -- the watchdog has fired in this run of refusals
  badEnd     : Bool := false           -- a BAD_END to report at the next hold (R96)
  stepPush   : Bool := false           -- a STEP command's word has still to be pushed
  stepOne    : Bool := false           -- a STEP command's word has still to issue
  acted      : Bool := false           -- has acted on the pending abort request
  loaded     : Bool := false           -- marked loaded by the loader (R773)
  podSeen    : BitVec 64 := 0          -- pod deferrals already in HOLD_BASE (R72)
  fresh      : SetBits := (0, [])      -- W1C bits set in the latest cycle that set any (R11)
  departAt   : Option (Nat × Bool) := none -- period in which it departed, and whether that period began on or after the count (R173)
  deriving DecidableEq, Repr

/-- A grove (R39 to R67, R184, R731 to R737): its cycle counting, hold and overrun records, library store, and sampler (02, 04, 15). -/
structure Grove where
  leapCount  : BitVec 64 := 0          -- GROVE_LEAPS
  catchCount : BitVec 64 := 0          -- GROVE_CATCHUP
  timeFlags  : BitVec 64 := 0
  ovr        : BitVec 64 := 0          -- GROVE_OVR
  ovrFirst   : BitVec 64 := 0
  ovrCycle   : Nat := 0                -- cycle of the first overrun (R59)
  leaps      : List (Nat × Nat) := []  -- recent leaps, newest first: first period and cycle number
  lostLeaps  : Nat := 0                -- earlier leaps
  lost       : Nat := 0                -- periods in which the grove was gated, but for a gating under way
  gatedAt    : Nat := 0                -- period at which the grove was last gated
  relCycle   : Nat := 0                -- cycle of the latest release
  catches    : Nat := 0                -- catch-up cycles since the release
  lastCatch  : Nat := 0                -- one more than the latest catch-up cycle
  allCatches : Nat := 0                -- catch-up cycles before the release
  interval   : Nat := 0                -- releases since the schedule started
  lib        : SMap (BitVec 256) := []
  libRefused : Bool := false
  fresh      : SetBits := (0, [])      -- W1C bits set in the latest cycle that set any (R11)
  ctr        : SMap Nat := []          -- event totals by event code (R722)
  pmc        : Pmc := {}
  samp       : Sampler := {}
  deriving DecidableEq, Repr

/-- One half-flit pair on the mesh (R318) with what its credits need: the sender's send end, the word
records of its words, and the links and boundaries it has passed (R334). -/
structure Flit where
  w0      : BitVec 64 := 0
  w1      : BitVec 64 := 0
  valid   : BitVec 2 := 0
  poison  : BitVec 2 := 0
  badPar  : BitVec 2 := 0              -- words whose parity does not match their data (R324)
  side    : BitVec 12 := 0
  last    : Bool := true               -- the last flit of its tuple (R329)
  ids     : List Nat := []
  hops    : Nat := 0
  groves  : Nat := 0
  fields  : Nat := 0
  deriving DecidableEq, Repr

/-- A flit that reaches input `input` (0 north, 1 east, 2 south, 3 west) of a core's router in the
schedule cycle `due` of its grove, counted over all intervals. -/
structure LinkFlit where
  core  : CoreId
  input : Nat
  due   : Nat
  flit  : Flit
  deriving DecidableEq, Repr

/-- A flit in a crossing buffer (R63, R64): presented in schedule cycle `count` of interval
`interval` of the receiving core's grove. -/
structure CrossFlit where
  core     : CoreId
  input    : Nat
  interval : Nat
  count    : Nat
  flit     : Flit
  deriving DecidableEq, Repr

/-- A flit that has left the mesh on an edge output in frame slot `slot` and reaches its edge port
(R414, R417). -/
structure EdgeFlit where
  core   : CoreId
  output : Nat
  slot   : Nat
  flit   : Flit
  deriving DecidableEq, Repr

/-- A mesh word that has not given its credit back (R332): its sender and the grove that times it, the
credits it consumed, the copies of it still in flight or queued, the sender's schedule cycle from
which the credits may be used if the copies left are only discarded, and the cycle of the last pop so far. -/
structure MeshWord where
  id     : Nat
  src    : Source
  grove  : GroveId
  credit : Nat
  copies : Nat
  due    : Option Nat
  popAt  : Nat := 0
  deriving DecidableEq, Repr

/-- Credits on their way back (R332): usable by the sender from its grove's schedule cycle `due`,
counted over all intervals. -/
structure CreditBack where
  src   : Source
  grove : GroveId
  n     : Nat
  due   : Nat
  deriving DecidableEq, Repr

/-- The data mesh between cores (R317 to R332, R414, R417). -/
structure Mesh where
  links    : List LinkFlit := []
  crossing : List CrossFlit := []
  edges    : List EdgeFlit := []
  words    : List MeshWord := []
  credits  : List CreditBack := []
  nextId   : Nat := 0
  deriving DecidableEq, Repr

/-- Who asked for a service-mesh access (R354, R355). -/
inductive SvcFrom where
  | host (w : Width)
  | manager
  | core (c : CoreId)
  deriving DecidableEq, Repr

/-- A service access to a scratchpad row that waits for an idle port cycle (R112, R356, R778). -/
structure SvcAccess where
  who     : SvcFrom
  core    : CoreId
  offset  : BitVec 20
  write   : Bool
  data    : BitVec 64
  poison  : Bool
  started : Nat                        -- grove cycle of the first attempt
  width   : Width := .full             -- all of the word, or one half of it (R6)
  merge   : Option (Nat × Entry) := none -- port cycle and decoded row of the merge's read
  deriving DecidableEq, Repr

/-- The pending core-plane abort request (R196 to R203): A, and force-stop. -/
structure AbortReq where
  at_   : BitVec 64
  force : Bool
  deriving DecidableEq, Repr

/-- The core plane (R20 to R24, R196 to R203, R354 to R356). -/
structure Plane where
  cores   : SMap Core := []
  hamperDflt : Hamper := {}            -- the state of every hamper that `hampers` does not list
  hampers : SMap Hamper := []
  groves  : SMap Grove := []
  mesh    : Mesh := {}
  svc     : List SvcAccess := []
  abort   : Option AbortReq := none
  departTick : Option Nat := none      -- real tick of the latest departure (R88)
  launch  : Bool := false              -- an accepted departure count has not yet been reached (R82, R85)
  deriving DecidableEq, Repr

end Sys2Proof.Machine
end

