-- ==== Sys2Proof/Machine/State/Power.lean ====
section
/-! DEFINITION. The state of the lifeguard, the level sequencer and the mailboxes of the lifeguard
(14_clocks_power_and_lifeguard.md). Plain data only. Their registers stand in `State.bar0`. -/

namespace Sys2Proof.Machine

/-- A sampled input (R702): its valid samples, newest first, the missed samples since the last valid one, and
whether it has timed out. -/
structure Sensor where
  last   : List Int := []
  missed : Nat := 0
  bad    : Bool := false
  deriving DecidableEq, Repr

/-- A request that takes time or is deferred (R704 to R707). -/
structure LgJob where
  code     : Nat
  arg      : BitVec 32
  deferred : Bool := false
  boundary : Bool := false              -- a step boundary has come since the post
  doneAt   : Nat := 0
  deriving DecidableEq, Repr

/-- A GO of the host's mailbox for a request that takes no time, with its tick (R704). -/
structure HostGo where
  tick : Nat
  code : Nat
  arg  : BitVec 32
  data : BitVec 64
  deriving DecidableEq, Repr

/-- The lifeguard and the level sequencer. `jobs` and the mailboxes are keyed 0 for the host's, 1 for the
management processor's, whose registers `mpCmd`, `mpData` and `mpStat` stand here (R703). -/
structure Power where
  thermTrip   : Bool := false           -- THERMTRIP_N asserted
  temps       : SMap Sensor := []       -- by sensor index, in 1/16 °C
  volts       : SMap Sensor := []       -- by field, in mV
  amps        : SMap Sensor := []       -- by field, in mA
  alertSample : Bool := false           -- the last sample of PWR_ALERT_N, true: asserted
  readySample : Bool := false           -- the last sample of VR_READY
  thermalAt   : Nat := 0                -- tick at which a reading was last within HYST_C of its threshold or above
  powerAt     : Nat := 0                -- tick of the last power at 0.9 × POWER_W or more, or over-current
  alertAt     : Nat := 0                -- tick at which PWR_ALERT_N was last asserted
  neighbourAt : Nat := 0                -- tick of the last event of R698 or R43
  target      : Nat := 0                -- M, the target of the move in progress
  want        : Option Nat := none      -- a request latched during a stop
  queued      : Option Nat := none      -- a faster target that waits for a slower move's VR_READY
  stopDue     : Option Nat := none      -- tick at which the groves stop
  stopAt      : Nat := 0
  vselAt      : Nat := 0
  vselWait    : Bool := false           -- VSEL has changed, and neither VR_READY nor the timeout has come since (R696)
  fasterOff   : Bool := false           -- a faster move has timed out; no further one until VR_TIMEOUT is cleared (R696)
  jobs        : SMap LgJob := []
  mpCmd       : BitVec 64 := 0
  mpData      : BitVec 64 := 0
  mpStat      : BitVec 64 := 0
  hostGo      : List HostGo := []       -- of the latest tick with a GO of the host's mailbox, its GOs (R704)
  quiet       : List (BitVec 64 × Nat) := [] -- start and length of each quiet window declared (R706)
  deriving DecidableEq, Repr

end Sys2Proof.Machine
end

