-- ==== Sys2Proof/Machine/State/Psiud.lean ====
section
/-! DEFINITION. The state of the Psiud ports (11 of spec/): the link layer, the service path, transmit
queues and receive rings. Plain data only. Their registers stand in `State.bar0`. -/

namespace Sys2Proof.Machine

/-- A Psiud flit by its fields (R543). -/
structure PFlit where
  type    : BitVec 4 := 0
  seq     : BitVec 12 := 0
  ack     : BitVec 12 := 0
  csvc    : Bool := false
  cch     : BitVec 6 := 0
  cred    : BitVec 13 := 0
  ch      : BitVec 6 := 0
  first   : Bool := false
  last    : Bool := false
  payload : List (BitVec 64 × Bool) := []
  deriving DecidableEq, Repr

/-- A sequenced flit that is not acknowledged: how often it was sent, and the service-ring bytes of a
port that its acknowledgement frees (R545 to R547, R568). -/
structure SentFlit where
  flit  : PFlit
  sends : Nat := 1
  frees : Option (Nat × Nat) := none
  deriving DecidableEq, Repr

/-- A service message (R567). `ring` is the port whose service ring holds it and the bytes it takes
there, while it waits to be forwarded. -/
structure SvcMsg where
  type    : BitVec 8
  src     : BitVec 8
  dst     : BitVec 8
  hops    : BitVec 8 := 0
  arg     : BitVec 64
  payload : List Byte := []
  ring    : Option (Nat × Nat) := none
  deriving DecidableEq, Repr

/-- A service message being sent (R567): its words that have not left. -/
structure SvcSend where
  words : List (BitVec 64 × Bool)
  begun : Bool
  frees : Option (Nat × Nat)
  deriving DecidableEq, Repr

/-- A row in a transmit queue: the TAG of its message where it is the first row (R559, R560). -/
structure TxRow where
  entry : Entry
  tag   : Option (BitVec 32)
  deriving DecidableEq, Repr

/-- The transmit side of a channel (R552, R559, R560). -/
structure TxChan where
  part  : List RqEntry := []            -- words of a row whose second flit has not arrived
  inlet : List (TxRow × List WordRef) := []
  queue : List TxRow := []
  rows  : Nat := 0                      -- rows of the message that is arriving
  index : Nat := 0                      -- messages since the latest reference PSWAP
  sent  : Nat := 0                      -- rows of the message being sent that have left; counts from 1
  deriving DecidableEq, Repr

/-- A message in a receive ring (R550, R551): its header words and payload with marks. -/
structure RxMsg where
  len      : Nat
  tag      : BitVec 32
  words    : List (BitVec 64 × Bool)    -- header and payload received so far
  size     : Nat                        -- stored length S
  complete : Bool := false
  deriving DecidableEq, Repr

/-- What stands in a receive ring from its head on. -/
inductive RxItem where
  | msg (m : RxMsg)
  /-- Skipped tail bytes (R552). -/
  | skip (n : Nat)
  deriving DecidableEq, Repr

/-- The step that a step-wise receive channel expects (R563, R564). -/
structure RxStep where
  step    : BitVec 16
  drainAt : BitVec 64
  dueAt   : BitVec 64
  begun   : Bool := false
  drained : Nat := 0
  late    : Bool := false
  deriving DecidableEq, Repr

/-- The receive side of a channel (R551 to R566). -/
structure RxChan where
  ring     : List RxItem := []
  tail     : Nat := 0
  credit   : Nat := 0                   -- drain credits (R418, R561)
  flits    : Nat := 0                   -- flits of the head message that have been injected
  ids      : List Nat := []
  injected : Nat := 0
  step     : Option RxStep := none
  deriving DecidableEq, Repr

/-- A claim on frame slots of one direction of an edge port (R414, R560). -/
structure SlotClaim where
  side  : Nat
  core  : CoreId
  slots : Nat
  deriving DecidableEq, Repr

/-- One port (R536 to R585). -/
structure Port where
  base     : BitVec 12 := 0             -- SEQ of the oldest unacknowledged flit
  unacked  : List SentFlit := []
  replay   : Option Nat := none         -- place in `unacked` of the next flit to send again
  ackTick  : Nat := 0                   -- tick of the latest ACK advance, or of the first flit sent after it
  expect   : BitVec 12 := 0             -- next sequence number expected
  nakSent  : Bool := false
  returns  : List (Option (BitVec 6) × Nat) := [] -- credits to return, in 8-byte units; none: service ring
  announce : List (BitVec 6 × Nat) := []          -- announces to send
  svcOut   : List SvcMsg := []          -- service messages to send
  svcSend  : Option SvcSend := none
  svcTail  : Nat := 0                   -- mirror of the peer's service-ring tail
  svcCred  : Nat := 262144              -- free bytes of the peer's service ring
  svcPart  : List (BitVec 64 × Bool) := []
  svcPlace : Nat := 0                   -- bytes that the message arriving takes in the service ring
  svcRxT   : Nat := 0
  svcIn    : List SvcMsg := []          -- complete messages for other devices
  swapping : Bool := false              -- a lane swap is in progress (R540)
  trainBy  : Nat := 0                   -- tick by which training has to be complete
  tx       : SMap TxChan := []
  rx       : SMap RxChan := []
  ctr      : SMap Nat := []             -- event totals by event code (R722)
  pmc      : Pmc := {}
  deriving DecidableEq, Repr

end Sys2Proof.Machine
end

