-- ==== Sys2Proof/Machine/State/Register.lean ====
section
/-! DEFINITION. The shape of the register tables (R5, R10 to R14): access types, legal values, fields
and registers. -/

namespace Sys2Proof.Machine

/-- The access types of R10. -/
inductive Access where
  | rw
  | ro
  | wo
  | w1c
  | rws
  | rwm
  deriving DecidableEq, Repr

/-- Which encodings of a field are not reserved (R13, R14). -/
inductive Legal where
  | any
  | range (lo hi : Nat)
  /-- Every value but 2. -/
  | not2
  deriving DecidableEq, Repr

/-- One field row of a register table (R10 to R14). -/
structure FieldSpec where
  hi    : Nat
  lo    : Nat
  acc   : Access
  reset : Nat
  legal : Legal
  deriving DecidableEq, Repr

/-- One register (R5), or an array of registers at `base + i × stride1 + k × stride2`. -/
structure RegSpec where
  name    : String
  base    : Nat
  n1      : Nat
  stride1 : Nat
  n2      : Nat
  stride2 : Nat
  fields  : List FieldSpec
  deriving DecidableEq, Repr

/-- A field of a BAR0 register: the register's offset and the field's bits. -/
structure Fld where
  off : Nat
  hi  : Nat
  lo  : Nat
  deriving DecidableEq, Repr

end Sys2Proof.Machine
end

