-- ==== Sys2Proof/Machine/State/Sched.lean ====
section
/-! DEFINITION. The state of the sequence scheduler, the KV pager and the host rings (10, 12 of spec/). Plain
data only. Their registers stand in `State.bar0`, page tables and step buffers in HBM. -/

namespace Sys2Proof.Machine

/-- The state of a slot (R463). -/
inductive SlotState where
  | free_
  | prefill
  | decode
  | preempted
  | resuming
  | retiring
  deriving DecidableEq, Repr

/-- A slot of the slot table (R460, R464). `held` is L, the tokens the sequence holds once its prompt is
processed; `position` the next prompt position; `token` the token at position L - 1. -/
structure SeqSlot where
  state    : SlotState := .free_
  former   : SlotState := .prefill      -- the state a PREEMPTED or RESUMING sequence returns to
  cls      : Nat := 0
  age      : BitVec 64 := 0
  lane     : Nat := 0
  seqId    : BitVec 32 := 0
  cring    : Nat := 0
  perToken : Bool := false
  prompt   : Nat := 0                   -- PROMPT_ADDR
  plen     : Nat := 0
  maxNew   : Nat := 0
  key      : BitVec 64 := 0
  stops    : List (BitVec 32) := []
  userTag  : BitVec 64 := 0
  position : Nat := 0
  held     : Nat := 0
  token    : BitVec 32 := 0
  appended : Nat := 0
  poisoned : Nat := 0                   -- consecutive steps masked with reason 7 (R496)
  carried  : Bool := false              -- some step has carried the sequence
  lastStep : Option Nat := none         -- the last local step since ENABLE that carried it
  byPod    : Bool := false              -- another device of the pod has preempted it (R516)
  ownFreed : Bool := false              -- this device has freed the pages of a RETIRING sequence (R499)
  podFreed : Bool := false              -- every other device of the pod has (R499)
  deriving DecidableEq, Repr

/-- An entry of a step (R476, R480). -/
structure StepEntry where
  slot     : Nat
  seqId    : BitVec 32
  cls      : Nat
  row0     : Nat
  rows     : Nat
  prefill  : Bool
  lastCh   : Bool
  position : Nat
  kvLen    : Nat
  key      : BitVec 64
  age      : BitVec 64 := 0             -- the sequence's age; a later sequence of the same SEQ_ID has another
  masked   : Bool := false
  reason   : Nat := 0
  token    : Option (BitVec 32) := none -- the kept token record (R493)
  deriving DecidableEq, Repr

/-- A formed step that has not been appended (R473 to R486): its local number, the number its descriptor carries, its
entries, its rows' tokens, and its live mask. -/
structure SchStep where
  k         : Nat
  num       : Nat
  entries   : List StepEntry := []
  tokens    : List (BitVec 32) := []
  live      : BitVec 256 := 0
  delivered : Bool := false
  count     : Option (List (BitVec 32)) := none -- the count section as written or received (R478, R486)
  base      : Option (BitVec 64) := none -- STEP_BASE once its PSWAP has issued
  deriving DecidableEq, Repr

/-- A delivery template waiting for its instant (R483). -/
structure Delivery where
  n    : Nat
  due  : BitVec 64
  addr : Nat                            -- address of the step's buffer
  deriving DecidableEq, Repr

/-- Who holds a frame of a KV pool. -/
inductive FrameUse where
  | page (slot lg page : Nat)
  | lent (dev : Nat)
  deriving DecidableEq, Repr

/-- A page on its way between this device and a spill target (R512 to R514). -/
structure Transit where
  slot   : Nat
  lg     : Nat
  page   : Nat
  out    : Bool                         -- a spill; false: a fetch-back
  host   : Bool
  dev    : Nat := 0                     -- the peer
  frame  : Nat                          -- the local frame (device address / 65536)
  remote : Nat := 0                     -- host page, or frame at the peer
  ring   : Option Nat := none           -- entry of the DMA channel's ring
  moved  : Bool := false                -- the data has been sent to or received from a peer
  freed  : Bool := false                -- the page was freed meanwhile (R514)
  deriving DecidableEq, Repr

/-- A completion record held in the store (R605). -/
structure CRecord where
  final   : Bool
  general : Bool
  bytes   : List Byte
  slot    : Option Nat := none          -- the slot whose reserved entry a final record takes
  deriving DecidableEq, Repr

/-- A completion ring (R602 to R607). -/
structure CRing where
  held   : List CRecord := []
  head   : Nat := 0                     -- HEAD last read
  tail   : Nat := 0
  reread : Bool := false                -- HEAD has to be read at the next poll
  unsig  : Nat := 0                     -- records written and not yet signalled
  oldest : Nat := 0                     -- tick at which the oldest of them was written
  final  : Bool := false                -- a final record is among them
  deriving DecidableEq, Repr

/-- The scheduler and pager (R460 to R535, R567). -/
structure Sched where
  slots    : SMap SeqSlot := []
  steps    : List SchStep := []         -- oldest first
  next     : Nat := 0                   -- local number of the next step to form
  forms    : List (Nat × BitVec 64) := [] -- formation instants known; for step 0 the departure count gives it
  ended    : Bool := false              -- formation has ended (R471)
  begun    : Option (BitVec 64) := none -- the departure count reached since ENABLE
  refLive  : Bool := false              -- since ENABLE the reference hamper has been neither idle nor stopped
  refGone  : Bool := false              -- not armed at the departure, or its grove re-initialised since ENABLE (R471)
  cur      : Option Nat := none         -- local number of the step whose PSWAP issued last
  bcast    : Option (Nat × Nat × List (BitVec 32)) := none -- step, latest tick, count section (R481)
  deliver  : List Delivery := []
  copies   : List (Nat × List Byte) := [] -- the head's steps received and not yet delivered (R486)
  frames   : SMap FrameUse := []        -- allocated frames, keyed device address / 65536
  homes    : SMap Nat := []             -- home stack of a pair, keyed 32 slot + group
  tstore   : SMap (List (Nat × BitVec 64)) := [] -- translation store: per set, pages used latest first
  transits : List Transit := []
  waiting  : List (Nat × Nat × Nat) := [] -- fetch-backs that wait for a frame
  cq       : SMap CRing := []
  dropped  : Nat := 0
  tick     : Nat := 700                 -- HIF_POLL.TICKS in force (R598)
  polled   : Option (BitVec 64 × Nat) := none -- Almanac value and real tick of the latest poll (R77, R598)
  deriving DecidableEq, Repr

end Sys2Proof.Machine
end

