-- ==== Sys2Proof/Machine/State/Stream.lean ====
section
/-! DEFINITION. The state of the HBM controllers, the stream engines and the host DMA engine (09, 12 of
spec/). Plain data only. Their registers stand in `State.bar0`. -/

namespace Sys2Proof.Machine

/-- A fetched descriptor by its fields (R422, R612). A host DMA descriptor uses `addr` for DEV_ADDR,
`host`, `len` in 32-byte units, and OP 1 TO_DEVICE, 2 TO_HOST. -/
structure Desc where
  op       : Nat := 0
  addr     : Nat := 0
  host     : Nat := 0
  len      : Nat := 0
  brows    : Nat := 1
  nblk     : Nat := 1
  stride   : Nat := 0
  rowBase  : Nat := 0
  ringRows : Nat := 0
  phase0   : Bool := false
  trans    : Bool := false
  irq      : Bool := false
  dlEn     : Bool := false
  relaxed  : Bool := false
  noSnoop  : Bool := false
  tw       : Nat := 1
  rep      : Nat := 1
  slot     : Nat := 0xFFFF
  tag      : Nat := 0
  deadline : Nat := 0
  deriving DecidableEq, Repr

/-- A descriptor in progress: its ring index, blocks started or dropped, rows moved, the first code that is
not OK, and what its status will record (R428 to R443). -/
structure Job where
  idx       : Nat
  desc      : Desc
  next      : Nat := 0          -- next block (for host DMA: next 32-byte unit) to start
  seq       : Nat := 0          -- number of the next block
  moved     : Nat := 0
  code      : Nat := 0
  aborted   : Bool := false
  abortLate : Bool := false
  poisoned  : Bool := false
  residue   : Option Nat := none
  lastWr    : Option Nat := none -- last HBM (or host) address written
  readback  : Nat := 0          -- 0 not made, 1 in progress, 2 checked
  rbTries   : Nat := 0
  lastOut   : Option (Nat × BitVec 64) := none -- tick and Almanac value of the last flit forwarded (R429)
  point     : Option (Nat × BitVec 64) := none -- status point: tick and Almanac value
  ended     : Nat := 0          -- one more than the tick in which it came to its end (R443)
  deriving DecidableEq, Repr

/-- What a block in the buffer waits for. -/
inductive BlkPhase where
  /-- A KV translation (R432). -/
  | translating
  /-- Read bursts, or a host read's completion. -/
  | reading
  /-- Forwarding to the mesh or to the host. -/
  | ready
  /-- Rows from the mesh. -/
  | filling
  /-- Its HBM write, not begun. -/
  | full
  /-- Write bursts. -/
  | writing
  deriving DecidableEq, Repr

/-- A started block (R411, R412). -/
structure Blk where
  job   : Nat := 0              -- ring index of its descriptor
  seq   : Nat                   -- its number within the descriptor
  addr  : Nat
  host  : Nat := 0
  rows  : Nat
  phase : BlkPhase
  data  : List Entry := []
  done  : Nat := 0              -- rows written, or flits forwarded
  tries : Nat := 0              -- retries of the current burst
  exh   : Bool := false         -- holds marks set by this engine
  cut   : Bool := false         -- an abort ends the block after the burst in progress
  ids   : List Nat := []        -- mesh word records of the tuple being sent
  deriving DecidableEq, Repr

/-- A channel of a stream engine or of the host DMA engine (R411, R611). Jobs and blocks stand in
the order of their descriptors. -/
structure Chan where
  jobs     : List Job := []
  blks     : List Blk := []
  inlet    : List (Entry × List WordRef) := [] -- a write channel's inlet (R419)
  part     : List RqEntry := [] -- words of a row whose second flit has not arrived
  fetchTries : Nat := 0         -- failed attempts to fetch the descriptor at HEAD (R435)
  injected : Nat := 0           -- one more than the schedule cycle of the latest injection
  deriving DecidableEq, Repr

/-- An engine's arbiter (R412, R447). -/
structure Engine where
  last   : Nat := 0             -- the channel after the last one that started a block
  tick   : Nat := 0             -- one more than the tick of the last start
  serial : Option Nat := none   -- the channel whose descriptor runs in serial mode
  serialJob : Nat := 0          -- and that descriptor's ring index
  fenced : List Nat := []       -- the segments of the buffer that are fenced (R446)
  ctr    : SMap Nat := []       -- event totals by event code (R722)
  pmc    : Pmc := {}
  deriving DecidableEq, Repr

/-- The refresh state of a stack (R404 to R407, R451). -/
structure Stack where
  phase  : Option (BitVec 9) := none -- the phase in use where it is not the reset phase
  closes : Nat := 0             -- tick at which the open window closes; 0 none
  opened : Nat := 0             -- one more than the tick of the latest opening
  under  : BitVec 9 := 0        -- the phase of that opening (R451)
  hot    : Bool := false        -- mode that the next opening takes
  asked  : List Nat := []       -- addresses of the accesses that had been asked for when it opened (R405)
  done   : BitVec 32 := 0       -- pseudo-channels whose burst in progress has completed in this window
  deriving DecidableEq, Repr

/-- A withhold notice on its way to the scheduler (R434), with the channel, the ring index and the tick of a stream
engine's (R443). -/
structure Notice where
  slot  : Nat
  code  : Nat
  tag   : Nat
  alm   : BitVec 64
  owner : Option (Nat × Nat × Nat) := none
  deriving DecidableEq, Repr

/-- HBM controllers, stream engines and host DMA (R401 to R459, R611 to R616). Channels are keyed 32 n + c, host DMA 640 + c; engines n,
host DMA 20. -/
structure Streams where
  chans   : SMap Chan := []
  engines : SMap Engine := []
  hstacks : SMap Stack := []
  notices : List Notice := []
  hostHeld : List (Nat × Output) := [] -- requests of host memory that host DMA may not send yet, with the channel (R586)
  selfRefresh : Bool := false          -- the stacks are in self refresh: after a clock failure, and in a device reset (R661, R682)
  deriving DecidableEq, Repr

end Sys2Proof.Machine
end

