-- ==== Sys2Proof/Machine/State/Time.lean ====
section
/-! DEFINITION. The state of the package's time (02_almanac_time_and_schedules.md). -/

namespace Sys2Proof.Machine

/-- The Almanac and the clock the groves share (R32 to R93).
A level's clock advances by 24, 21, 18, 15, 12, 10, 8 or 6 twenty-fourths of a period per tick. -/
structure Time where
  almanac   : BitVec 64 := 0
  ticks     : Nat := 0                 -- edges of the reference, in real time
  periods   : Nat := 0                 -- periods of the level's clock that have begun
  phase     : Nat := 0                 -- twenty-fourths of a period since the last began
  periodAlm : BitVec 64 := 0           -- Almanac value at the edge on which the current period began
  stopped   : Bool := false            -- the level sequencer has stopped the groves (R692 to R694)
  rootGated : Bool := false            -- the safe-state logic has gated the core plane (R682, R701)
  failed    : Bool := false            -- the device is in FAILED: plane, engines and ports stay idle (R634)
  started   : Bool := false            -- the Almanac has started since power-on (R34)
  slewLeft  : Int := 0                 -- offset still to correct by slewing, in 1/16 ticks
  slewWin   : Nat := 0                 -- ticks into the current 1,024-tick window
  slewUsed  : Bool := false            -- this window's correction has been used
  measured  : Bool := false            -- an exchange has given a follower its offset (R571)
  reqAt     : Nat := 0                 -- tick at which the next TIME_REQ is due (R571)
  reqT1     : BitVec 64 := 0           -- t1 of the exchange under way
  podScales : SMap (BitVec 20) := []   -- scale last received from each device, reset 0x1_0000
  podDefer  : BitVec 64 := 0           -- deferrals received from peers, in all (R72)
  stepAt    : Option Nat := none       -- real tick of the latest step of the Almanac (R77)
  ptmAt     : Option (BitVec 64 × Nat) := none -- Almanac value and real tick of the latest PTM dialog (R77, R610)
  deriving DecidableEq, Repr

end Sys2Proof.Machine
end

