-- ==== Sys2Proof/Machine/State.lean ====
section
/-! DEFINITION. The whole state of the block, the reasons a step can stop, and the state after
reset. Plain data only. -/

namespace Sys2Proof.Machine

/-- The check bits and poison mark stored with a 64-bit HBM word (R409): `err` is the stored check bits
XOR the bits that the stored data and mark should have. -/
structure HbmMeta where
  mark : Bool := false
  err  : BitVec 8 := 0
  deriving DecidableEq, Repr

/-- Why a step faults. -/
inductive Fault where
  /-- A line fill past the last HBM stack: the address does not exist (raised by IC_FILL; safe: the spec gives
  such a fetch no effect). -/
  | noSuchMemory
  deriving DecidableEq, Repr

/-- Why a step is refused. -/
inductive Refusal where
  /-- The command has no meaning in the model yet (raised by `exec`'s arm; safe). -/
  | notModelled (mnemonic : String)
  deriving DecidableEq, Repr

/-- The block. Every register that the spec names sits in `cfg` (PCI Express configuration space), in `bar0` (the
BAR0 registers outside the core plane, keyed by offset), or in a field of `plane` (the core plane). A BAR0
register that `bar0` does not list holds its reset value (`resetOf`). -/
structure State where
  pending : List Instr := []           -- commands that wait, first in, first out
  out     : List Output := []          -- what the block has sent to the outside, oldest first
  free    : Nat := 0                   -- free values taken (log entry 1); the model's own
  cfg     : SMap (BitVec 32) := []     -- configuration space, keyed by byte offset (R586 to R590)
  hbm     : List Host.Cell := []       -- HBM by device address, in canonical form (R402, R403)
  hbmMeta : SMap HbmMeta := []         -- marks and check bits, keyed by device address / 8 (R409)
  bar0    : SMap (BitVec 64) := []     -- BAR0 registers outside the core plane (R5 to R14)
  setNow  : SMap (BitVec 64) := []     -- bits of BAR0 registers that hardware has set in the current tick (R11)
  time    : Time := {}                 -- the Almanac and the groves' clock (R32 to R93)
  plane   : Plane := {}                -- cores, hampers, groves and the service mesh
  se      : Streams := {}              -- HBM controllers, stream engines, host DMA
  ports   : SMap Port := []            -- Psiud ports P0 to P15
  sch     : Sched := {}                -- sequence scheduler, KV pager, host rings
  reader  : Reader := {}               -- counter reader (R725 to R728)
  power   : Power := {}                -- lifeguard, levels, clocks
  boot    : Boot := {}                 -- bring-up, images, resets, side ports
  deriving DecidableEq, Repr

/-- The block at power-on reset: no supply good yet (R630), every register at its reset value (R10), nothing in
HBM, no command waiting. -/
def State.reset : State := {}

end Sys2Proof.Machine
end

