-- ==== Sys2Proof/Machine/State/ControlWord.lean ====
section
/-! DEFINITION. The fields of a control word (R142), one structure per field with its subfields. -/

namespace Sys2Proof.Machine

/-- SEQ (R174). -/
structure SeqF where
  op  : BitVec 6 := 0
  arg : BitVec 18 := 0
  deriving DecidableEq, Repr

/-- MX (R165). -/
structure MxF where
  op   : BitVec 5 := 0
  fmt  : BitVec 4 := 0
  mode : BitVec 2 := 0
  acc  : BitVec 3 := 0
  opa  : BitVec 6 := 0
  opb  : BitVec 6 := 0
  pass : BitVec 4 := 0
  ocs  : BitVec 2 := 0
  deriving DecidableEq, Repr

/-- VXA or VXB (R168). -/
structure VxF where
  op  : BitVec 6 := 0
  ty  : BitVec 3 := 0
  sa  : BitVec 5 := 0
  sb  : BitVec 5 := 0
  dst : BitVec 5 := 0
  imm : BitVec 8 := 0
  deriving DecidableEq, Repr

/-- LD (R146). -/
structure LdF where
  own  : BitVec 2 := 0
  gen  : BitVec 3 := 0
  fin  : BitVec 5 := 0
  tag  : BitVec 1 := 0
  bc   : BitVec 1 := 0
  bsz  : BitVec 2 := 0
  el   : BitVec 5 := 0
  rsvd : BitVec 5 := 0
  deriving DecidableEq, Repr

/-- ST (R149). -/
structure StF where
  own   : BitVec 2 := 0
  gen   : BitVec 3 := 0
  src   : BitVec 5 := 0
  tag   : BitVec 1 := 0
  iwait : BitVec 1 := 0
  rsvd  : BitVec 12 := 0
  deriving DecidableEq, Repr

/-- NET (R152). -/
structure NetF where
  op   : BitVec 3 := 0
  src  : BitVec 5 := 0
  dst  : BitVec 5 := 0
  rsvd : BitVec 11 := 0
  deriving DecidableEq, Repr

/-- AGU (R153). -/
structure AguF where
  op   : BitVec 2 := 0
  gen  : BitVec 3 := 0
  sel  : BitVec 3 := 0
  vsrc : BitVec 2 := 0
  val  : BitVec 14 := 0
  deriving DecidableEq, Repr

/-- TILE (R156): bits [8:0] hold END, PART and rsvd of a TLD or TST, or ROWS, BPR and rsvd of a TCFG. -/
structure TileF where
  op   : BitVec 2 := 0
  tile : BitVec 5 := 0
  rest : BitVec 9 := 0
  deriving DecidableEq, Repr

/-- MASK (R161). -/
structure MaskF where
  mop  : BitVec 3 := 0
  mi   : BitVec 2 := 0
  pv   : BitVec 1 := 0
  pm   : BitVec 2 := 0
  gov  : BitVec 5 := 0
  rsvd : BitVec 3 := 0
  deriving DecidableEq, Repr

/-- CHECK (R163). -/
structure CheckF where
  scrub : BitVec 1 := 0
  coll  : BitVec 1 := 0
  audit : BitVec 1 := 0
  id    : BitVec 5 := 0
  deriving DecidableEq, Repr

/-- A control word by its fields (R142). -/
structure Cw where
  seq   : SeqF := {}
  mx    : MxF := {}
  vxa   : VxF := {}
  vxb   : VxF := {}
  ld    : LdF := {}
  st    : StF := {}
  net   : NetF := {}
  agu   : AguF := {}
  tile  : TileF := {}
  mask  : MaskF := {}
  check : CheckF := {}
  deriving DecidableEq, Repr

end Sys2Proof.Machine
end

