-- ==== Sys2Proof/Machine/ControlWord.lean ====
section
/-! DEFINITION. The binary format of the control word (R142 to R169, R174, R781): its decoding, its
encoding, and the reserved encodings of each field (R144). -/

namespace Sys2Proof.Machine

/-! ## Decoding -/

def decodeSeq (w : BitVec 24) : SeqF := ⟨w.extractLsb' 18 6, w.extractLsb' 0 18⟩

def decodeMx (w : BitVec 32) : MxF :=
  ⟨w.extractLsb' 27 5, w.extractLsb' 23 4, w.extractLsb' 21 2, w.extractLsb' 18 3, w.extractLsb' 12 6,
   w.extractLsb' 6 6, w.extractLsb' 2 4, w.extractLsb' 0 2⟩

def decodeVx (w : BitVec 32) : VxF :=
  ⟨w.extractLsb' 26 6, w.extractLsb' 23 3, w.extractLsb' 18 5, w.extractLsb' 13 5, w.extractLsb' 8 5,
   w.extractLsb' 0 8⟩

def decodeLd (w : BitVec 24) : LdF :=
  ⟨w.extractLsb' 22 2, w.extractLsb' 19 3, w.extractLsb' 14 5, w.extractLsb' 13 1, w.extractLsb' 12 1,
   w.extractLsb' 10 2, w.extractLsb' 5 5, w.extractLsb' 0 5⟩

def decodeSt (w : BitVec 24) : StF :=
  ⟨w.extractLsb' 22 2, w.extractLsb' 19 3, w.extractLsb' 14 5, w.extractLsb' 13 1, w.extractLsb' 12 1,
   w.extractLsb' 0 12⟩

def decodeNet (w : BitVec 24) : NetF :=
  ⟨w.extractLsb' 21 3, w.extractLsb' 16 5, w.extractLsb' 11 5, w.extractLsb' 0 11⟩

def decodeAgu (w : BitVec 24) : AguF :=
  ⟨w.extractLsb' 22 2, w.extractLsb' 19 3, w.extractLsb' 16 3, w.extractLsb' 14 2, w.extractLsb' 0 14⟩

def decodeTile (w : BitVec 16) : TileF :=
  ⟨w.extractLsb' 14 2, w.extractLsb' 9 5, w.extractLsb' 0 9⟩

def decodeMask (w : BitVec 16) : MaskF :=
  ⟨w.extractLsb' 13 3, w.extractLsb' 11 2, w.extractLsb' 10 1, w.extractLsb' 8 2, w.extractLsb' 3 5,
   w.extractLsb' 0 3⟩

def decodeCheck (w : BitVec 8) : CheckF :=
  ⟨w.extractLsb' 7 1, w.extractLsb' 6 1, w.extractLsb' 5 1, w.extractLsb' 0 5⟩

/-- The fields of a control word (R142). -/
def decodeCw (w : BitVec 256) : Cw where
  seq := decodeSeq (w.extractLsb' 232 24)
  mx := decodeMx (w.extractLsb' 200 32)
  vxa := decodeVx (w.extractLsb' 168 32)
  vxb := decodeVx (w.extractLsb' 136 32)
  ld := decodeLd (w.extractLsb' 112 24)
  st := decodeSt (w.extractLsb' 88 24)
  net := decodeNet (w.extractLsb' 64 24)
  agu := decodeAgu (w.extractLsb' 40 24)
  tile := decodeTile (w.extractLsb' 24 16)
  mask := decodeMask (w.extractLsb' 8 16)
  check := decodeCheck (w.extractLsb' 0 8)

/-! ## Encoding -/

def encodeSeq (f : SeqF) : BitVec 24 := f.op ++ f.arg
def encodeMx (f : MxF) : BitVec 32 :=
  f.op ++ f.fmt ++ f.mode ++ f.acc ++ f.opa ++ f.opb ++ f.pass ++ f.ocs
def encodeVx (f : VxF) : BitVec 32 := f.op ++ f.ty ++ f.sa ++ f.sb ++ f.dst ++ f.imm
def encodeLd (f : LdF) : BitVec 24 :=
  f.own ++ f.gen ++ f.fin ++ f.tag ++ f.bc ++ f.bsz ++ f.el ++ f.rsvd
def encodeSt (f : StF) : BitVec 24 := f.own ++ f.gen ++ f.src ++ f.tag ++ f.iwait ++ f.rsvd
def encodeNet (f : NetF) : BitVec 24 := f.op ++ f.src ++ f.dst ++ f.rsvd
def encodeAgu (f : AguF) : BitVec 24 := f.op ++ f.gen ++ f.sel ++ f.vsrc ++ f.val
def encodeTile (f : TileF) : BitVec 16 := f.op ++ f.tile ++ f.rest
def encodeMask (f : MaskF) : BitVec 16 := f.mop ++ f.mi ++ f.pv ++ f.pm ++ f.gov ++ f.rsvd
def encodeCheck (f : CheckF) : BitVec 8 := f.scrub ++ f.coll ++ f.audit ++ f.id

/-- The control word whose fields these are (R142). -/
def encodeCw (c : Cw) : BitVec 256 :=
  encodeSeq c.seq ++ encodeMx c.mx ++ encodeVx c.vxa ++ encodeVx c.vxb ++ encodeLd c.ld ++
  encodeSt c.st ++ encodeNet c.net ++ encodeAgu c.agu ++ encodeTile c.tile ++ encodeMask c.mask ++
  encodeCheck c.check

/-! ## Reserved encodings (R144) -/

/-- ROWS of a tile-shape code (R156). -/
def tileRows (c : BitVec 3) : Nat := 2 ^ c.toNat

/-- Bytes per row of a tile-shape code (R156). -/
def tileBpr (c : BitVec 3) : Nat := 2 ^ (c.toNat + 2)

/-- A shape that R156 and R157 allow. -/
def shapeOk (rows bpr : BitVec 3) : Bool :=
  rows ≤ 4 && bpr ≤ 4 && tileRows rows * tileBpr bpr ≤ 64

/-- The operand bits that a SEQ operation leaves unused and that must be zero (R174); `none` for a
reserved operation. -/
def seqUnused (op : BitVec 6) : Option (BitVec 18) :=
  match op.toNat with
  | 0x00 | 0x11 | 0x1D | 0x3E => some 0x3FFFF#18
  | 0x01 | 0x02 => some 0
  | 0x03 => some 0x003FF#18
  | 0x04 | 0x05 | 0x0A | 0x0B => some 0x0003F#18
  | 0x06 => some 0x00003#18
  | 0x07 => some 0
  | 0x08 | 0x09 => some 0x0001F#18
  | 0x10 => some 0x03FC0#18
  | 0x12 => some 0x03FFC#18
  | 0x18 => some 0
  | 0x19 => some 0x0C3FF#18
  | 0x1A => some 0x0C000#18
  | 0x1C => some 0x3E000#18
  | 0x20 | 0x22 => some 0
  | 0x21 | 0x23 | 0x25 => some 0x03FFF#18
  | 0x24 => some 0x3C000#18
  | _ => none

/-- SEQ holds a reserved encoding: an operation not listed, a nonzero unused operand bit, or LOOP with
BODY 0 (R174, R179). -/
def seqReserved (f : SeqF) : Bool :=
  match seqUnused f.op with
  | none => true
  | some m => f.arg &&& m != 0 || (f.op = 0x1A && f.arg.extractLsb' 0 14 = 0)

/-- Array operations (R222). -/
def isArrayOp (op : BitVec 5) : Bool := 1 ≤ op && op ≤ 4

/-- The largest PASS of a format (R166). -/
def passTop (fmt : BitVec 4) : Nat := if fmt = 7 ∨ fmt = 8 then 3 else if fmt = 9 then 8 else 0

/-- An operand code that names a tile (R166). -/
def isTileCode (o : BitVec 6) : Bool := o.getLsbD 5

/-- MX holds a reserved encoding (R165 to R167, R781). -/
def mxReserved (f : MxF) : Bool :=
  match f.op.toNat with
  | 0 => f.fmt != 0 || f.mode != 0 || f.acc != 0 || f.opa != 0 || f.opb != 0 || f.pass != 0 || f.ocs != 0
  | 1 | 2 | 3 | 4 =>
    9 < f.fmt || f.mode = 3 || passTop f.fmt < f.pass.toNat ||
    (f.op = 3 && f.fmt != 0 && f.fmt != 3 && f.fmt != 4) || (f.op = 4 && f.pass = 0 && f.opb != 0)
  | 5 => f.fmt != 0 || f.mode != 0 || f.pass != 0 || f.opa != 0
  | 6 => f.fmt != 0 || f.mode != 0 || f.pass != 0 || f.opa != 0 || f.opb != 0
  | 7 => f.fmt != 0 || f.mode != 0 || f.pass != 0
  | 8 => f.fmt != 0 || f.mode != 0 || 1 < f.pass || f.opa != 0 || isTileCode f.opb
  | _ => true

/-- The operations VXB accepts (R168). -/
def vxbAllowed (op : BitVec 6) : Bool :=
  match op.toNat with
  | 0x04 | 0x10 | 0x11 | 0x12 | 0x13 | 0x14 | 0x15 => false
  | _ => true

/-- The TYPEs an operation accepts (R280). -/
def vxTypeOk (op : BitVec 6) (ty : BitVec 3) : Bool :=
  match op.toNat with
  | 0x01 | 0x02 | 0x03 | 0x04 | 0x05 | 0x06 | 0x07 | 0x12 => ty ≤ 5
  | 0x0C | 0x0D => 3 ≤ ty && ty ≤ 5
  | 0x10 => ty ≤ 2
  | 0x15 | 0x16 => ty = 0 || ty = 3
  | 0x17 | 0x00 => ty = 0
  | _ => true

/-- Elements of a type in 32 bytes (R279). -/
def vxCount (ty : BitVec 3) : Nat :=
  match ty.toNat with
  | 0 | 3 => 8
  | 1 | 2 | 4 => 16
  | _ => 32

/-- IMM holds a value the operation does not list (R168, R292, R302). -/
def vxImmBad (f : VxF) : Bool :=
  match f.op.toNat with
  | 0x04 => 32 ≤ f.imm
  | 0x07 => 32 ≤ f.imm || f.imm &&& 7 = 7
  | 0x08 | 0x13 | 0x14 => 4 ≤ f.imm
  | 0x0C => 32 ≤ f.imm
  | 0x0D => 64 ≤ f.imm
  | 0x0E => 16 ≤ f.imm
  | 0x10 => 13 ≤ f.imm
  | 0x16 => 2 ≤ f.imm
  | 0x17 => f.imm.getLsbD 6
  | _ => f.imm != 0

/-- An operand subfield that the operation does not use holds a code other than none (R169). -/
def vxUnusedBad (f : VxF) : Bool :=
  match f.op.toNat with
  | 0x0C | 0x0D | 0x0F | 0x10 | 0x11 | 0x12 | 0x13 | 0x15 => f.sb != 0
  | 0x0E =>
    let d := vxCount (f.imm.extractLsb' 0 3)
    d ≤ vxCount f.ty && f.sb != 0
  | 0x16 => f.sb.extractLsb' 3 2 != 0
  | 0x17 => f.sb != 0 || f.dst != 0 || (!f.imm.getLsbD 7 && f.sa != 0)
  | _ => false

/-- VXA or VXB holds a reserved encoding (R168, R169, R280). -/
def vxReserved (slotB : Bool) (f : VxF) : Bool :=
  if f.op = 0 then f.ty != 0 || f.sa != 0 || f.sb != 0 || f.dst != 0 || f.imm != 0
  else 0x17 < f.op || (slotB && !vxbAllowed f.op) || !vxTypeOk f.op f.ty || vxImmBad f || vxUnusedBad f

/-- LD holds a reserved encoding (R146, R147). -/
def ldReserved (f : LdF) : Bool :=
  if f.own = 0 then false
  else f.own = 3 || f.bsz = 3 || f.rsvd != 0 ||
    (if f.bc = 1 then f.own != 1 || 32 / 2 ^ f.bsz.toNat ≤ f.el.toNat else f.bsz != 0 || f.el != 0)

/-- ST holds a reserved encoding (R149, R151). -/
def stReserved (f : StF) : Bool :=
  if f.own = 0 then false
  else f.own = 3 || f.rsvd != 0 || (if f.own = 2 then f.gen != 0 || f.src != 0 else f.iwait = 1)

/-- NET holds a reserved encoding (R152). -/
def netReserved (f : NetF) : Bool := 2 < f.op || f.rsvd != 0

/-- An ASET value for SEL 0b111 with a reserved MODE or SRC (R154). -/
def asetBad (v : BitVec 16) : Bool := 4 < v.extractLsb' 0 3 || 19 < v.extractLsb' 3 5

/-- The immediate of an ASET (R154). -/
def asetImm (f : AguF) : BitVec 16 :=
  if f.sel = 1 ∨ f.sel = 2 then f.val.signExtend 16 else f.val.zeroExtend 16

/-- AGU holds a reserved encoding; `sv` is the scalar value an ASET from a scalar reads (R153 to R155). -/
def aguReserved (f : AguF) (sv : BitVec 16) : Bool :=
  match f.op.toNat with
  | 0 => f.gen != 0 || f.sel != 0 || f.vsrc != 0 || f.val != 0
  | 1 =>
    match f.vsrc.toNat with
    | 0 => f.sel = 7 && asetBad (asetImm f)
    | 1 => f.val.extractLsb' 0 10 != 0 || (f.sel = 7 && asetBad sv)
    | 2 => f.val.extractLsb' 0 9 != 0
    | _ => true
  | _ => f.sel != 0 || f.vsrc != 0 || f.val != 0

/-- TILE holds a reserved encoding (R156, R157). -/
def tileReserved (f : TileF) : Bool :=
  match f.op.toNat with
  | 0 => f.tile != 0 || f.rest != 0
  | 3 => f.rest.extractLsb' 0 3 != 0 || !shapeOk (f.rest.extractLsb' 6 3) (f.rest.extractLsb' 3 3)
  | _ => f.rest.extractLsb' 0 3 != 0

/-- MASK holds a reserved encoding (R161, R162). -/
def maskReserved (f : MaskF) : Bool :=
  5 < f.mop || f.rsvd != 0 || (if f.pv = 1 then f.gov = 0 else f.pm != 0 || f.gov != 0)

/-- CHECK holds a reserved encoding (R163). -/
def checkReserved (f : CheckF) : Bool := f.audit = 0 && f.id != 0

/-- The fields of a word that hold reserved encodings, in the ENC_FIELD numbering of R211 and in the
order of their bits, highest first. -/
def reservedFields (c : Cw) (sv : BitVec 16) : List Nat :=
  (if seqReserved c.seq then [0] else []) ++ (if mxReserved c.mx then [1] else []) ++
  (if vxReserved false c.vxa then [2] else []) ++ (if vxReserved true c.vxb then [3] else []) ++
  (if ldReserved c.ld then [4] else []) ++ (if stReserved c.st then [5] else []) ++
  (if netReserved c.net then [6] else []) ++ (if aguReserved c.agu sv then [7] else []) ++
  (if tileReserved c.tile then [8] else []) ++ (if maskReserved c.mask then [9] else []) ++
  (if checkReserved c.check then [10] else [])

/-- The word with one field replaced by zeros (R145). -/
def zeroField (c : Cw) (k : Nat) : Cw :=
  match k with
  | 0 => { c with seq := {} }
  | 1 => { c with mx := {} }
  | 2 => { c with vxa := {} }
  | 3 => { c with vxb := {} }
  | 4 => { c with ld := {} }
  | 5 => { c with st := {} }
  | 6 => { c with net := {} }
  | 7 => { c with agu := {} }
  | 8 => { c with tile := {} }
  | 9 => { c with mask := {} }
  | _ => { c with check := {} }

end Sys2Proof.Machine
end

