-- ==== Sys2Proof/Machine/Flags.lean ====
section
/-! DEFINITION. Number formats, rounding and the arithmetic flags (R232 to R246, R288 to R297).
A finite value is a sign, a magnitude and a power of two, so every sum and product is exact until it is
rounded once. -/

namespace Sys2Proof.Machine

/-! ## Flags of CORE_FLAGS (R266) -/

/-- A set of arithmetic flags in the bit places of CORE_FLAGS. -/
abbrev FlagSet := BitVec 64

def flNX : FlagSet := 1
def flUF : FlagSet := 2
def flOF : FlagSet := 4
def flDZ : FlagSet := 8
def flNV : FlagSet := 16
def flSAT : FlagSet := 32

/-! ## Formats -/

/-- How a format uses its top exponent. -/
inductive Special where
  /-- Infinities and NaN as IEEE 754. -/
  | ieee
  /-- E4M3: all ones is NaN, no infinity. -/
  | e4m3
  /-- No infinity and no NaN. -/
  | none_
  deriving DecidableEq, Repr

/-- A floating-point format: exponent bits, mantissa bits, bias (R232). -/
structure FFmt where
  eb   : Nat
  mb   : Nat
  bias : Int
  spec : Special
  deriving DecidableEq, Repr

def fp32 : FFmt := ⟨8, 23, 127, .ieee⟩
def bf16 : FFmt := ⟨8, 7, 127, .ieee⟩
def fp16 : FFmt := ⟨5, 10, 15, .ieee⟩
def e4m3 : FFmt := ⟨4, 3, 7, .e4m3⟩
def e5m2 : FFmt := ⟨5, 2, 15, .ieee⟩
def e2m1 : FFmt := ⟨2, 1, 1, .none_⟩
def e2m3 : FFmt := ⟨2, 3, 1, .none_⟩
def e3m2 : FFmt := ⟨3, 2, 3, .none_⟩

/-- A decoded value. -/
inductive FVal where
  | nan (signalling : Bool)
  | inf (neg : Bool)
  /-- ± m × 2 ^ e. -/
  | fin (neg : Bool) (m : Nat) (e : Int)
  deriving DecidableEq, Repr

/-- The value of a bit pattern (R232). -/
def FFmt.decode (f : FFmt) (bits : Nat) : FVal :=
  let neg := bits / 2 ^ (f.eb + f.mb) % 2 = 1
  let x := bits / 2 ^ f.mb % 2 ^ f.eb
  let m := bits % 2 ^ f.mb
  let top := 2 ^ f.eb - 1
  if f.spec = .ieee ∧ x = top then
    if m = 0 then .inf neg else .nan (m < 2 ^ (f.mb - 1))
  else if f.spec = .e4m3 ∧ x = top ∧ m = 2 ^ f.mb - 1 then .nan false
  else if x = 0 then .fin neg m (1 - f.bias - f.mb)
  else .fin neg (2 ^ f.mb + m) (x - f.bias - f.mb)

/-- The sign bit of a format. -/
def FFmt.sign (f : FFmt) (neg : Bool) : Nat := if neg then 2 ^ (f.eb + f.mb) else 0

/-- The canonical NaN (R234, R244, R289). -/
def FFmt.nanBits (f : FFmt) : Nat :=
  match f.spec with
  | .ieee => (2 ^ f.eb - 1) * 2 ^ f.mb + 2 ^ (f.mb - 1)
  | _ => 2 ^ (f.eb + f.mb) - 1

/-- The encoding of infinity. -/
def FFmt.infBits (f : FFmt) (neg : Bool) : Nat := f.sign neg + (2 ^ f.eb - 1) * 2 ^ f.mb

/-- The magnitude encoding of the largest finite value. -/
def FFmt.maxBits (f : FFmt) : Nat :=
  match f.spec with
  | .ieee => (2 ^ f.eb - 1) * 2 ^ f.mb - 1
  | .e4m3 => 2 ^ (f.eb + f.mb) - 2
  | .none_ => 2 ^ (f.eb + f.mb) - 1

/-! ## Rounding -/

/-- m × 2 ^ e in units of 2 ^ q, rounded to nearest even, with whether it was inexact. -/
def roundUnits (m : Nat) (e q : Int) : Nat × Bool :=
  if q ≤ e then (m * 2 ^ (e - q).toNat, false)
  else
    let sh := (q - e).toNat
    let d := 2 ^ sh
    let t := m / d
    let r := m % d
    let up := d < 2 * r ∨ (d = 2 * r ∧ t % 2 = 1)
    (if up then t + 1 else t, r != 0)

/-- The magnitude bits of m × 2 ^ e rounded to nearest even with unbounded exponent range above, with
the flags NX and UF: tininess is detected after rounding (R243). -/
def FFmt.roundMag (f : FFmt) (m : Nat) (e : Int) : Nat × FlagSet :=
  if m = 0 then (0, 0)
  else
    let x : Int := e + Nat.log2 m
    let emin : Int := 1 - f.bias
    let q : Int := (if x < emin then emin else x) - f.mb
    let r := roundUnits m e q
    let tiny := x < emin && !(x + 1 = emin && (roundUnits m e (x - f.mb)).1 = 2 ^ (f.mb + 1))
    let bits := (q - (emin - f.mb)).toNat * 2 ^ f.mb + r.1
    (bits, if r.2 then (if tiny then flNX ||| flUF else flNX) else 0)

/-- Rounds ± m × 2 ^ e to a format of IEEE kind: overflow gives infinity with OF and NX (R288). -/
def FFmt.round (f : FFmt) (neg : Bool) (m : Nat) (e : Int) : Nat × FlagSet :=
  let r := f.roundMag m e
  if f.maxBits < r.1 then (f.infBits neg, flOF ||| flNX) else (f.sign neg + r.1, r.2)

/-- Rounds the exact value n × 2 ^ e; zero takes the given sign. -/
def FFmt.roundInt (f : FFmt) (zeroNeg : Bool) (n : Int) (e : Int) : Nat × FlagSet :=
  if n = 0 then (f.sign zeroNeg, 0) else f.round (n < 0) n.natAbs e

/-! ## Exact sums -/

/-- An exact number n × 2 ^ e. -/
structure Exact where
  n : Int
  e : Int
  deriving DecidableEq, Repr

/-- The exact sum. -/
def Exact.add (a b : Exact) : Exact :=
  if a.n = 0 then b else if b.n = 0 then a
  else
    let e := if a.e ≤ b.e then a.e else b.e
    ⟨a.n * 2 ^ (a.e - e).toNat + b.n * 2 ^ (b.e - e).toNat, e⟩

/-- The signed number of a finite value. -/
def exactOf (neg : Bool) (m : Nat) (e : Int) : Exact := ⟨if neg then -(m : Int) else m, e⟩

namespace FVal

def isNan : FVal → Bool | .nan _ => true | _ => false
def isSnan : FVal → Bool | .nan sg => sg | _ => false
def isInf : FVal → Bool | .inf _ => true | _ => false
def isNegZero : FVal → Bool | .fin ng m _ => ng && m = 0 | _ => false
def isZero : FVal → Bool | .fin _ m _ => m = 0 | _ => false
def isNeg : FVal → Bool | .nan _ => false | .inf ng => ng | .fin ng _ _ => ng

def neg : FVal → FVal
  | .nan sg => .nan sg
  | .inf ng => .inf !ng
  | .fin ng m e => .fin (!ng) m e

/-- The exact product, with NV for an infinity times zero or a signalling NaN. -/
def mul : FVal → FVal → FVal × FlagSet
  | .nan a, b => (.nan false, if a || b.isSnan then flNV else 0)
  | a, .nan b => (.nan false, if b || a.isSnan then flNV else 0)
  | .inf a, .inf b => (.inf (a != b), 0)
  | .inf a, .fin b m _ => if m = 0 then (.nan false, flNV) else (.inf (a != b), 0)
  | .fin a m _, .inf b => if m = 0 then (.nan false, flNV) else (.inf (a != b), 0)
  | .fin a m e, .fin b n d => (.fin (a != b) (m * n) (e + d), 0)

/-- The number of a finite value, zero for the others. -/
def exact_ : FVal → Exact
  | .fin ng m e => exactOf ng m e
  | _ => ⟨0, 0⟩

end FVal

/-- A sum of exact addends rounded once to a format of IEEE kind (R242, R245, R288, R289, R300): NaN for a
NaN addend or infinities of both signs, which set NV (log entry 104), the infinity for one, -0 only when every
addend is -0. -/
def FFmt.sum (f : FFmt) (xs : List FVal) : Nat × FlagSet :=
  let p := xs.any fun x => x = .inf false
  let n := xs.any fun x => x = .inf true
  let nv := if xs.any FVal.isSnan || (p && n) then flNV else 0
  if xs.any FVal.isNan || (p && n) then (f.nanBits, nv)
  else if p then (f.infBits false, 0)
  else if n then (f.infBits true, 0)
  else
    let d := xs.foldl (fun (a : Exact) x => a.add x.exact_) (⟨0, 0⟩ : Exact)
    f.roundInt (!xs.isEmpty && xs.all FVal.isNegZero) d.n d.e

/-- A product rounded once (R288). -/
def FFmt.mul (f : FFmt) (a b : FVal) : Nat × FlagSet :=
  match FVal.mul a b with
  | (.nan _, fl) => (f.nanBits, fl)
  | (.inf ng, fl) => (f.infBits ng, fl)
  | (.fin ng m e, fl) => if m = 0 then (f.sign ng, fl) else let r := f.round ng m e; (r.1, r.2 ||| fl)

/-- A product plus an addend rounded once (R288). -/
def FFmt.fma (f : FFmt) (a b c : FVal) : Nat × FlagSet :=
  let p := FVal.mul a b
  let r := f.sum [p.1, c]
  (r.1, r.2 ||| p.2)

/-- Comparison of two values that are not NaN: -1, 0 or 1. -/
def FVal.cmp (a b : FVal) : Int :=
  match a, b with
  | .inf x, .inf y => if x = y then 0 else if x then -1 else 1
  | .inf x, _ => if x then -1 else 1
  | _, .inf y => if y then 1 else -1
  | x, y =>
    let d := x.exact_.add ⟨-y.exact_.n, y.exact_.e⟩
    if d.n = 0 then 0 else if d.n < 0 then -1 else 1

/-- Whether `a` comes before `b` in the order that puts -0 below +0 (R290). -/
def FVal.before (a b : FVal) : Bool :=
  let c := a.cmp b
  c < 0 || (c = 0 && a.isNegZero && !b.isNegZero)

/-! ## Conversions (R234, R296, R297) -/

/-- The signed value of `w` low bits. -/
def signedOf (w n : Nat) : Int := if n % 2 ^ w < 2 ^ (w - 1) then (n % 2 ^ w : Nat) else (n % 2 ^ w : Nat) - 2 ^ w

/-- The low `w` bits of an integer. -/
def lowBits (w : Nat) (i : Int) : Nat := (i % 2 ^ w).toNat

/-- Clamps an integer to `w` bits two's complement, with whether it was outside. -/
def clampInt (w : Nat) (i : Int) : Int × Bool :=
  let hi : Int := 2 ^ (w - 1) - 1
  let lo : Int := -2 ^ (w - 1)
  if hi < i then (hi, true) else if i < lo then (lo, true) else (i, false)

/-- A float source into a float format under R234. -/
def FFmt.convert (f : FFmt) (sat : Bool) (v : FVal) : Nat × FlagSet :=
  match v with
  | .nan sg => (f.nanBits, if sg then flNV else 0)
  | .inf ng =>
    if f.spec = .e4m3 ∨ sat then (f.sign ng + f.maxBits, flSAT ||| flNX) else (f.infBits ng, 0)
  | .fin ng m e =>
    let r := f.roundMag m e
    if f.maxBits < r.1 then
      if f.spec = .e4m3 ∨ sat then (f.sign ng + f.maxBits, flSAT ||| flNX)
      else (f.infBits ng, flOF ||| flNX)
    else (f.sign ng + r.1, r.2)

/-- A float source into a `w`-bit integer under R234. -/
def convertToInt (w : Nat) (v : FVal) : Nat × FlagSet :=
  match v with
  | .nan _ => (0, flNV)
  | .inf ng => (lowBits w (if ng then -2 ^ (w - 1) else 2 ^ (w - 1) - 1), flSAT ||| flNX)
  | .fin ng m e =>
    let r := roundUnits m e 0
    let i : Int := if ng then -(r.1 : Int) else r.1
    let c := clampInt w i
    (lowBits w c.1, if c.2 then flSAT ||| flNX else if r.2 then flNX else 0)

/-- An integer source into a float format. -/
def FFmt.ofInt (f : FFmt) (sat : Bool) (i : Int) : Nat × FlagSet :=
  f.convert sat (.fin (i < 0) i.natAbs 0)

/-- An integer source into a `w`-bit integer, saturating (R234). -/
def intToInt (w : Nat) (i : Int) : Nat × FlagSet :=
  let c := clampInt w i
  (lowBits w c.1, if c.2 then flSAT ||| flNX else 0)

end Sys2Proof.Machine
end

