-- ==== Sys2Proof/Config.lean ====
section
/-! DEFINITION. What the part fixes and what the spec leaves open. The free values are opaque
constants without a body: nothing can evaluate them, so a claim about one holds for every value. -/

namespace Sys2Proof.Config

/-- Scratchpad rows per core (R120): 16,384 bytes of 32. -/
def rows : Nat := 512

/-- Depth of the issue queue (R172). -/
def issueDepth : Nat := 16

/-- Words of a grove's library store (R184). -/
def libWords : Nat := 8192

/-- Departure acceptance lead in ticks (R83). -/
def departLead : Nat := 64

/-- The n-th free value: the bits of a value the spec calls undefined or does not state
(log entry 1). `State.free` counts the free values taken. -/
opaque freeBits : Nat → BitVec 512

/-- The signature the attestation key gives to a transcript (R654); the spec states no bytes for it. -/
opaque signature : List Byte → List Byte

/-- The device's public attestation key as its certificate carries it (R654). -/
opaque attestationKey : List Byte

/-- The boot ROM's content, which GET_MEASUREMENTS measures (R655). -/
opaque bootRom : List Byte

/-- The certificate chain in the flash identity block, written at manufacture (R639, R653). -/
opaque identityChain : List Byte

/-- The Subsystem ID and Subsystem Vendor ID that a held image gives (R586); the spec does not state their place in it. -/
opaque subsystem : List Byte → BitVec 32

/-- The calibration that the fuses' trim words (words 27 to 30, joined) give on-die sensor n, in 1/16 °C (R636, R719); the
spec does not state its place in them (log entry 2). -/
opaque sensorTrim : BitVec 256 → Nat → BitVec 14

/-- The capability ID of Physical Layer 128.0 GT/s in the base specification (R587). -/
opaque phy128 : BitVec 16

end Sys2Proof.Config
end

