-- ==== Sys2Proof/Machine/Regs.lean ====
section
/-! DEFINITION. The register map of BAR0: one row per field of the register tables of spec/, with its
access type, reset value and legal encodings (R5 to R14), and a name for every register's offset and
every field. -/

namespace Sys2Proof.Machine

/-- Registers of BAR0 block 0x0 (R38, R39, R40, R60, R74, R80, R81, R86, R87, R90, R203, R204, R365, R366, R367, R368, R370, R400, R585, R670, R671, R672, R673, R674, R675, R676, R677, R678, R777). -/
def devRegs0 : List RegSpec := [
  ⟨"DEV_ID", 0x0, 1, 0x0, 1, 0x0,
    [⟨47, 32, .ro, 0x1024, .any⟩, ⟨31, 16, .ro, 0xF1A5, .any⟩, ⟨15, 8, .ro, 0x0, .any⟩]⟩,
  ⟨"DEV_SERIAL", 0x8, 1, 0x0, 1, 0x0,
    [⟨63, 0, .ro, 0x0, .any⟩]⟩,
  ⟨"BOOT_STATE", 0x10, 1, 0x0, 1, 0x0,
    [⟨5, 5, .ro, 0x0, .any⟩, ⟨4, 4, .ro, 0x0, .any⟩, ⟨3, 0, .ro, 0x0, .any⟩]⟩,
  ⟨"BOOT_ERR", 0x18, 1, 0x0, 1, 0x0,
    [⟨63, 32, .ro, 0x0, .any⟩, ⟨7, 0, .ro, 0x0, .any⟩]⟩,
  ⟨"DEV_CTRL", 0x20, 1, 0x0, 1, 0x0,
    [⟨1, 1, .rw, 0x0, .any⟩, ⟨0, 0, .wo, 0x0, .any⟩]⟩,
  ⟨"BOOT_CFG", 0x28, 1, 0x0, 1, 0x0,
    [⟨15, 8, .rw, 0x1, .range 1 255⟩, ⟨1, 0, .rw, 0x0, .range 0 1⟩]⟩,
  ⟨"FN_REINIT", 0x30, 1, 0x0, 1, 0x0,
    [⟨23, 20, .ro, 0x0, .any⟩, ⟨19, 19, .w1c, 0x0, .any⟩, ⟨18, 18, .ro, 0x0, .any⟩, ⟨17, 17, .wo, 0x0, .any⟩, ⟨16, 14, .rw, 0x0, .range 0 5⟩, ⟨7, 0, .rw, 0x0, .any⟩]⟩,
  ⟨"RESET_CAUSE", 0x38, 1, 0x0, 1, 0x0,
    [⟨47, 32, .ro, 0x0, .any⟩, ⟨2, 0, .ro, 0x0, .any⟩]⟩,
  ⟨"SPAD_SIZE", 0x40, 1, 0x0, 1, 0x0,
    [⟨43, 40, .ro, 0x2, .any⟩, ⟨39, 32, .ro, 0x20, .any⟩, ⟨31, 0, .ro, 0x4000, .any⟩]⟩,
  ⟨"FUSE", 0x100, 1, 0x0, 32, 0x8,
    [⟨63, 0, .ro, 0x0, .any⟩]⟩,
  ⟨"IMG_CTRL", 0x200, 1, 0x0, 1, 0x0,
    [⟨5, 5, .wo, 0x0, .any⟩, ⟨4, 4, .rw, 0x0, .any⟩, ⟨3, 0, .rw, 0x0, .any⟩]⟩,
  ⟨"IMG_STAT", 0x208, 1, 0x0, 1, 0x0,
    [⟨10, 10, .w1c, 0x0, .any⟩, ⟨9, 9, .ro, 0x0, .any⟩, ⟨8, 8, .ro, 0x0, .any⟩, ⟨7, 0, .ro, 0x0, .any⟩]⟩,
  ⟨"IMG_INFO", 0x210, 1, 0x0, 1, 0x0,
    [⟨63, 32, .ro, 0x0, .any⟩, ⟨31, 24, .ro, 0x0, .any⟩, ⟨23, 16, .ro, 0x0, .any⟩, ⟨1, 0, .ro, 0x0, .any⟩]⟩,
  ⟨"ALM_NOW", 0x1000, 1, 0x0, 1, 0x0,
    [⟨63, 0, .ro, 0x0, .any⟩]⟩,
  ⟨"ALM_STATUS", 0x1008, 1, 0x0, 1, 0x0,
    [⟨5, 5, .w1c, 0x0, .any⟩, ⟨4, 4, .ro, 0x0, .any⟩, ⟨3, 3, .w1c, 0x0, .any⟩, ⟨2, 2, .ro, 0x0, .any⟩, ⟨1, 1, .ro, 0x0, .any⟩, ⟨0, 0, .ro, 0x0, .any⟩]⟩,
  ⟨"ALM_SCALE", 0x1010, 1, 0x0, 1, 0x0,
    [⟨59, 40, .ro, 0x10000, .any⟩, ⟨39, 20, .ro, 0x10000, .any⟩, ⟨19, 0, .ro, 0x10000, .any⟩]⟩,
  ⟨"ALM_SYNC", 0x1018, 1, 0x0, 1, 0x0,
    [⟨23, 20, .rw, 0x0, .any⟩, ⟨17, 16, .rw, 0x0, .range 0 2⟩]⟩,
  ⟨"ALM_OFFSET", 0x1020, 1, 0x0, 1, 0x0,
    [⟨31, 0, .ro, 0x0, .any⟩]⟩,
  ⟨"ALM_DEPART", 0x1028, 1, 0x0, 1, 0x0,
    [⟨63, 0, .rw, 0x0, .any⟩]⟩,
  ⟨"ALM_DEPART_CTRL", 0x1030, 1, 0x0, 1, 0x0,
    [⟨5, 5, .wo, 0x0, .any⟩, ⟨4, 4, .wo, 0x0, .any⟩, ⟨3, 3, .w1c, 0x0, .any⟩, ⟨2, 0, .ro, 0x0, .any⟩]⟩
  ]

/-- Registers of BAR0 block 0x0 (R38, R39, R40, R60, R74, R80, R81, R86, R87, R90, R203, R204, R365, R366, R367, R368, R370, R400, R585, R670, R671, R672, R673, R674, R675, R676, R677, R678, R777). -/
def devRegs1 : List RegSpec := [
  ⟨"ALM_PTM", 0x1038, 1, 0x0, 1, 0x0,
    [⟨63, 0, .ro, 0x0, .any⟩]⟩,
  ⟨"ALM_LEAD", 0x1040, 1, 0x0, 1, 0x0,
    [⟨31, 0, .rw, 0x2000, .any⟩]⟩,
  ⟨"ALM_OVR_MAP", 0x1048, 1, 0x0, 4, 0x8,
    [⟨63, 0, .w1c, 0x0, .any⟩]⟩,
  ⟨"CP_ABORT", 0x1100, 1, 0x0, 1, 0x0,
    [⟨3, 3, .ro, 0x0, .any⟩, ⟨2, 2, .wo, 0x0, .any⟩, ⟨1, 1, .wo, 0x0, .any⟩, ⟨0, 0, .wo, 0x0, .any⟩]⟩,
  ⟨"CP_ABORT_AT", 0x1108, 1, 0x0, 1, 0x0,
    [⟨63, 0, .rw, 0x0, .any⟩]⟩,
  ⟨"SPAD_EVT_MAP", 0x1200, 1, 0x0, 4, 0x8,
    [⟨63, 0, .w1c, 0x0, .any⟩]⟩,
  ⟨"FAULT_RING", 0x2000, 1, 0x0, 1, 0x0,
    [⟨41, 12, .rw, 0x0, .any⟩, ⟨4, 4, .rw, 0x0, .any⟩, ⟨3, 0, .rw, 0x8, .range 4 15⟩]⟩,
  ⟨"FAULT_POS", 0x2008, 1, 0x0, 1, 0x0,
    [⟨63, 32, .ro, 0x0, .any⟩, ⟨15, 0, .rw, 0x0, .any⟩]⟩,
  ⟨"FAULT_STAT", 0x2010, 1, 0x0, 1, 0x0,
    [⟨63, 32, .ro, 0x0, .any⟩, ⟨31, 16, .ro, 0x0, .any⟩, ⟨0, 0, .w1c, 0x0, .any⟩]⟩,
  ⟨"FAULT_LAST", 0x2020, 1, 0x0, 4, 0x8,
    [⟨63, 0, .ro, 0x0, .any⟩]⟩,
  ⟨"FAULT_FATAL", 0x2040, 1, 0x0, 4, 0x8,
    [⟨63, 0, .ro, 0x0, .any⟩]⟩,
  ⟨"MP_MBOX_CMD", 0x3000, 1, 0x0, 1, 0x0,
    [⟨7, 0, .rw, 0x0, .any⟩]⟩,
  ⟨"MP_MBOX_ARG0", 0x3008, 1, 0x0, 1, 0x0,
    [⟨41, 0, .rw, 0x0, .any⟩]⟩,
  ⟨"MP_MBOX_ARG1", 0x3010, 1, 0x0, 1, 0x0,
    [⟨41, 0, .rw, 0x0, .any⟩]⟩,
  ⟨"MP_MBOX_CTRL", 0x3018, 1, 0x0, 1, 0x0,
    [⟨0, 0, .wo, 0x0, .any⟩]⟩,
  ⟨"MP_MBOX_STAT", 0x3020, 1, 0x0, 1, 0x0,
    [⟨63, 32, .ro, 0x0, .any⟩, ⟨4, 4, .w1c, 0x0, .any⟩, ⟨3, 1, .ro, 0x0, .any⟩, ⟨0, 0, .ro, 0x0, .any⟩]⟩,
  ⟨"PSIUD_POD", 0x900000, 1, 0x0, 1, 0x0,
    [⟨21, 21, .rw, 0x0, .any⟩, ⟨20, 15, .rw, 0x0, .any⟩, ⟨14, 13, .rw, 0x0, .range 0 2⟩, ⟨11, 6, .rw, 0x0, .any⟩, ⟨5, 0, .rw, 0x0, .any⟩]⟩,
  ⟨"PSIUD_SVC_STAT", 0x900008, 1, 0x0, 1, 0x0,
    [⟨63, 32, .ro, 0x0, .any⟩, ⟨31, 16, .ro, 0x0, .any⟩]⟩,
  ⟨"CP_WD_CFG", 0x3000100, 1, 0x0, 1, 0x0,
    [⟨8, 8, .rw, 0x1, .any⟩, ⟨4, 0, .rw, 0x14, .range 10 30⟩]⟩,
  ⟨"SVC_SEL", 0x3000000, 1, 0x0, 1, 0x0,
    [⟨19, 16, .rw, 0x0, .any⟩, ⟨10, 8, .rw, 0x0, .any⟩, ⟨7, 0, .rw, 0x0, .any⟩]⟩
  ]

/-- Registers of BAR0 block 0x0 (R38, R39, R40, R60, R74, R80, R81, R86, R87, R90, R203, R204, R365, R366, R367, R368, R370, R400, R585, R670, R671, R672, R673, R674, R675, R676, R677, R678, R777). -/
def devRegs2 : List RegSpec := [
  ⟨"CP_WD_MAP", 0x3000108, 1, 0x0, 4, 0x8,
    [⟨63, 0, .w1c, 0x0, .any⟩]⟩,
  ⟨"SVC_CFG", 0x3000008, 1, 0x0, 1, 0x0,
    [⟨31, 0, .rw, 0x10000, .any⟩]⟩,
  ⟨"SVC_STATUS", 0x3000010, 1, 0x0, 1, 0x0,
    [⟨2, 2, .w1c, 0x0, .any⟩, ⟨1, 1, .w1c, 0x0, .any⟩, ⟨0, 0, .ro, 0x0, .any⟩]⟩
  ]

/-- Registers of BAR0 block 0x100000 (R455, R456, R457, R458, R459, R620, R621, R622, R623, R624, R625, R626, R627, R628, R629, R630). -/
def hifRegs0 : List RegSpec := [
  ⟨"HIF_CTRL", 0x100000, 1, 0x0, 1, 0x0,
    [⟨0, 0, .rw, 0x0, .any⟩]⟩,
  ⟨"HIF_STATUS", 0x100008, 1, 0x0, 1, 0x0,
    [⟨7, 7, .w1c, 0x0, .any⟩, ⟨6, 6, .w1c, 0x0, .any⟩, ⟨5, 5, .w1c, 0x0, .any⟩, ⟨4, 4, .w1c, 0x0, .any⟩, ⟨3, 3, .w1c, 0x0, .any⟩, ⟨1, 1, .w1c, 0x0, .any⟩, ⟨0, 0, .ro, 0x0, .any⟩]⟩,
  ⟨"HIF_POLL", 0x100010, 1, 0x0, 1, 0x0,
    [⟨39, 35, .rw, 0x14, .range 16 30⟩, ⟨12, 0, .rw, 0x2BC, .range 70 7000⟩]⟩,
  ⟨"HIF_SQ_BASE", 0x100018, 1, 0x0, 1, 0x0,
    [⟨63, 12, .rw, 0x0, .any⟩, ⟨3, 0, .rw, 0x6, .range 4 15⟩]⟩,
  ⟨"HIF_CQ_BASE", 0x100100, 1, 0x0, 16, 0x10,
    [⟨63, 12, .rw, 0x0, .any⟩, ⟨4, 4, .rw, 0x0, .any⟩, ⟨3, 0, .rw, 0x6, .range 4 15⟩]⟩,
  ⟨"HIF_SQ_POS", 0x100020, 1, 0x0, 1, 0x0,
    [⟨31, 16, .ro, 0x0, .any⟩, ⟨15, 0, .ro, 0x0, .any⟩]⟩,
  ⟨"HIF_CQ_STORE", 0x100028, 1, 0x0, 1, 0x0,
    [⟨63, 48, .ro, 0x0, .any⟩, ⟨29, 16, .ro, 0x3000, .any⟩, ⟨12, 0, .ro, 0x0, .any⟩]⟩,
  ⟨"HIF_CQ_MOD", 0x100108, 1, 0x0, 16, 0x10,
    [⟨63, 48, .ro, 0x0, .any⟩, ⟨31, 16, .rw, 0x578, .range 1 65535⟩, ⟨7, 7, .rw, 0x1, .any⟩, ⟨6, 0, .rw, 0x10, .range 1 127⟩]⟩,
  ⟨"HIF_BAR2_BASE", 0x100030, 1, 0x0, 1, 0x0,
    [⟨41, 30, .rw, 0x0, .any⟩]⟩,
  ⟨"HIF_PTM_MASTER", 0x100038, 1, 0x0, 1, 0x0,
    [⟨63, 0, .ro, 0x0, .any⟩]⟩,
  ⟨"HIF_PTM_CNT", 0x100040, 1, 0x0, 1, 0x0,
    [⟨31, 0, .ro, 0x0, .any⟩]⟩,
  ⟨"HIF_POD_REFUSED", 0x100048, 1, 0x0, 1, 0x0,
    [⟨63, 0, .w1c, 0x0, .any⟩]⟩,
  ⟨"HIF_IRQ_EVT", 0x100050, 1, 0x0, 1, 0x0,
    [⟨9, 0, .w1c, 0x0, .any⟩]⟩,
  ⟨"HIF_HDMA_IRQ", 0x100058, 1, 0x0, 1, 0x0,
    [⟨15, 0, .w1c, 0x0, .any⟩]⟩,
  ⟨"HIF_SE_IRQ", 0x100200, 1, 0x0, 20, 0x8,
    [⟨31, 0, .w1c, 0x0, .any⟩]⟩,
  ⟨"HDMA_CFG", 0x100800, 1, 0x0, 1, 0x0,
    [⟨8, 8, .rwm, 0x0, .any⟩, ⟨2, 0, .rw, 0x3, .any⟩]⟩,
  ⟨"HDMA_STATUS", 0x100808, 1, 0x0, 1, 0x0,
    [⟨15, 8, .ro, 0x0, .any⟩, ⟨2, 2, .w1c, 0x0, .any⟩, ⟨1, 1, .ro, 0x0, .any⟩, ⟨0, 0, .ro, 0x0, .any⟩]⟩,
  ⟨"HDMA_CH_CFG", 0x101000, 1, 0x0, 16, 0x40,
    [⟨14, 8, .rw, 0x1, .range 1 64⟩, ⟨2, 2, .rw, 0x0, .any⟩]⟩,
  ⟨"HDMA_CH_RING", 0x101008, 1, 0x0, 16, 0x40,
    [⟨41, 12, .rw, 0x0, .any⟩, ⟨4, 0, .rw, 0x1, .range 1 16⟩]⟩,
  ⟨"HDMA_CH_TAIL", 0x101010, 1, 0x0, 16, 0x40,
    [⟨15, 0, .rw, 0x0, .any⟩]⟩
  ]

/-- Registers of BAR0 block 0x100000 (R455, R456, R457, R458, R459, R620, R621, R622, R623, R624, R625, R626, R627, R628, R629, R630). -/
def hifRegs1 : List RegSpec := [
  ⟨"HDMA_CH_POS", 0x101018, 1, 0x0, 16, 0x40,
    [⟨31, 16, .ro, 0x0, .any⟩, ⟨15, 0, .ro, 0x0, .any⟩]⟩,
  ⟨"HDMA_CH_CTRL", 0x101020, 1, 0x0, 16, 0x40,
    [⟨3, 3, .wo, 0x0, .any⟩, ⟨2, 2, .wo, 0x0, .any⟩, ⟨1, 1, .wo, 0x0, .any⟩, ⟨0, 0, .wo, 0x0, .any⟩]⟩,
  ⟨"HDMA_CH_STAT", 0x101028, 1, 0x0, 16, 0x40,
    [⟨63, 48, .ro, 0x0, .any⟩, ⟨38, 32, .ro, 0x0, .any⟩, ⟨23, 20, .ro, 0x0, .any⟩, ⟨2, 2, .w1c, 0x0, .any⟩, ⟨1, 0, .ro, 0x0, .any⟩]⟩
  ]

/-- Registers of BAR0 block 0x200000 (R519, R521, R522, R523, R524, R525, R526, R527, R528, R529, R530, R531, R532, R533, R534, R535). -/
def schRegs0 : List RegSpec := [
  ⟨"SCH_CTRL", 0x200000, 1, 0x0, 1, 0x0,
    [⟨2, 2, .wo, 0x0, .any⟩, ⟨1, 0, .wo, 0x0, .any⟩]⟩,
  ⟨"SCH_STATUS", 0x200008, 1, 0x0, 1, 0x0,
    [⟨4, 4, .w1c, 0x0, .any⟩, ⟨3, 3, .w1c, 0x0, .any⟩, ⟨2, 2, .w1c, 0x0, .any⟩, ⟨1, 0, .ro, 0x0, .any⟩]⟩,
  ⟨"SCH_CFG", 0x200010, 1, 0x0, 1, 0x0,
    [⟨39, 32, .rw, 0x10, .range 1 64⟩, ⟨31, 24, .rw, 0x40, .range 1 64⟩, ⟨21, 16, .rw, 0x0, .any⟩, ⟨11, 8, .rw, 0x1, .range 1 8⟩, ⟨1, 0, .rw, 0x0, .range 0 2⟩]⟩,
  ⟨"SCH_TIMING", 0x200018, 1, 0x0, 1, 0x0,
    [⟨63, 32, .rw, 0x0, .any⟩, ⟨29, 16, .rw, 0x0, .any⟩, ⟨15, 0, .rw, 0x800, .range 1536 65535⟩]⟩,
  ⟨"SCH_STEP", 0x200020, 1, 0x0, 1, 0x0,
    [⟨63, 0, .ro, 0x0, .any⟩]⟩,
  ⟨"SCH_STEP_BASE", 0x200028, 1, 0x0, 1, 0x0,
    [⟨63, 0, .ro, 0x0, .any⟩]⟩,
  ⟨"SCH_LIMIT", 0x200030, 1, 0x0, 1, 0x0,
    [⟨63, 32, .rw, 0xFFFFFFFF, .any⟩, ⟨31, 28, .rw, 0x3, .range 1 15⟩, ⟨20, 0, .rw, 0x4000, .any⟩]⟩,
  ⟨"SCH_RING", 0x200038, 1, 0x0, 1, 0x0,
    [⟨41, 15, .rw, 0x0, .any⟩, ⟨2, 0, .rw, 0x3, .range 1 4⟩]⟩,
  ⟨"SCH_LIVE_ADDR", 0x200040, 1, 0x0, 1, 0x0,
    [⟨41, 5, .rw, 0x0, .any⟩]⟩,
  ⟨"SCH_TOKEN_CFG", 0x200048, 1, 0x0, 1, 0x0,
    [⟨11, 6, .rw, 0x0, .any⟩, ⟨5, 2, .rw, 0x0, .any⟩, ⟨1, 1, .rw, 0x0, .any⟩, ⟨0, 0, .rw, 0x0, .any⟩]⟩,
  ⟨"SCH_OCC", 0x200050, 1, 0x0, 1, 0x0,
    [⟨51, 39, .ro, 0x0, .any⟩, ⟨38, 26, .ro, 0x0, .any⟩, ⟨25, 13, .ro, 0x0, .any⟩, ⟨12, 0, .ro, 0x0, .any⟩]⟩,
  ⟨"SCH_EVENTS", 0x200058, 1, 0x0, 1, 0x0,
    [⟨63, 48, .ro, 0x0, .any⟩, ⟨47, 32, .ro, 0x0, .any⟩, ⟨31, 16, .ro, 0x0, .any⟩, ⟨15, 0, .ro, 0x0, .any⟩]⟩,
  ⟨"SCH_MASK_LOG", 0x200060, 1, 0x0, 1, 0x0,
    [⟨63, 63, .w1c, 0x0, .any⟩, ⟨59, 56, .ro, 0x0, .any⟩, ⟨55, 48, .ro, 0x0, .any⟩, ⟨47, 36, .ro, 0x0, .any⟩, ⟨31, 0, .ro, 0x0, .any⟩]⟩,
  ⟨"SCH_LIVE", 0x200068, 1, 0x0, 4, 0x8,
    [⟨63, 0, .ro, 0x0, .any⟩]⟩,
  ⟨"SCH_DELIV_SEL", 0x200100, 1, 0x0, 8, 0x8,
    [⟨63, 32, .rw, 0x0, .any⟩, ⟨15, 15, .rw, 0x0, .any⟩, ⟨14, 14, .rw, 0x0, .any⟩, ⟨4, 0, .rw, 0x0, .any⟩]⟩,
  ⟨"SCH_DELIV_TMPL", 0x200200, 1, 0x0, 64, 0x8,
    [⟨63, 0, .rw, 0x0, .any⟩]⟩,
  ⟨"SCH_PARAM_USER", 0x200400, 1, 0x0, 24, 0x8,
    [⟨63, 32, .rw, 0x0, .any⟩, ⟨31, 0, .rw, 0x0, .any⟩]⟩,
  ⟨"PG_CFG", 0x200800, 1, 0x0, 1, 0x0,
    [⟨63, 42, .rw, 0x1000, .any⟩, ⟨41, 20, .rw, 0x400, .any⟩, ⟨19, 15, .rw, 0x0, .any⟩, ⟨11, 8, .rw, 0xB, .range 5 15⟩]⟩,
  ⟨"PG_PT_BASE", 0x200808, 1, 0x0, 1, 0x0,
    [⟨41, 20, .rw, 0x0, .any⟩]⟩,
  ⟨"PG_STATUS", 0x200810, 1, 0x0, 1, 0x0,
    [⟨63, 48, .ro, 0x0, .any⟩, ⟨47, 32, .ro, 0x0, .any⟩, ⟨31, 16, .ro, 0x0, .any⟩, ⟨15, 0, .ro, 0x0, .any⟩]⟩
  ]

/-- Registers of BAR0 block 0x200000 (R519, R521, R522, R523, R524, R525, R526, R527, R528, R529, R530, R531, R532, R533, R534, R535). -/
def schRegs1 : List RegSpec := [
  ⟨"PG_SPILL_CFG", 0x200818, 1, 0x0, 1, 0x0,
    [⟨39, 36, .rw, 0x0, .any⟩, ⟨33, 32, .rw, 0x3, .any⟩, ⟨21, 0, .rw, 0x0, .any⟩]⟩,
  ⟨"PG_SPILL_PEERS", 0x200820, 1, 0x0, 1, 0x0,
    [⟨63, 0, .rw, 0x0, .any⟩]⟩,
  ⟨"PG_SPILL_HOST", 0x200828, 1, 0x0, 1, 0x0,
    [⟨63, 16, .rw, 0x0, .any⟩]⟩,
  ⟨"PG_SPILL_HPAGES", 0x200830, 1, 0x0, 1, 0x0,
    [⟨63, 32, .ro, 0x0, .any⟩, ⟨23, 0, .rw, 0x0, .any⟩]⟩,
  ⟨"PG_POOL", 0x200900, 1, 0x0, 20, 0x8,
    [⟨63, 42, .ro, 0x0, .any⟩, ⟨41, 20, .rw, 0x0, .any⟩, ⟨16, 0, .rw, 0x0, .any⟩]⟩,
  ⟨"PG_KVT_A", 0x200A00, 1, 0x0, 16, 0x10,
    [⟨63, 63, .rw, 0x0, .any⟩, ⟨62, 62, .rw, 0x0, .any⟩, ⟨61, 61, .rw, 0x0, .any⟩, ⟨60, 56, .rw, 0x0, .any⟩, ⟨55, 51, .rw, 0x0, .any⟩, ⟨50, 48, .rw, 0x0, .range 0 6⟩, ⟨47, 40, .rw, 0x0, .any⟩, ⟨31, 16, .rw, 0x0, .any⟩, ⟨15, 0, .rw, 0x0, .any⟩]⟩,
  ⟨"PG_KVT_B", 0x200A08, 1, 0x0, 16, 0x10,
    [⟨63, 48, .rw, 0x0, .any⟩, ⟨31, 0, .rw, 0x0, .any⟩]⟩
  ]

/-- Registers of BAR0 block 0x400000 (R448, R449, R450, R451, R452, R453, R454, R455, R456, R457, R458, R459). -/
def seRegs : List RegSpec := [
  ⟨"SE_ID", 0x400000, 20, 0x10000, 1, 0x0,
    [⟨23, 16, .ro, 0x20, .any⟩, ⟨15, 8, .ro, 0x4, .any⟩, ⟨4, 0, .ro, 0x0, .any⟩]⟩,
  ⟨"SE_CFG", 0x400008, 20, 0x10000, 1, 0x0,
    [⟨8, 8, .rwm, 0x0, .any⟩, ⟨2, 0, .rw, 0x3, .any⟩]⟩,
  ⟨"SE_STATUS", 0x400010, 20, 0x10000, 1, 0x0,
    [⟨15, 8, .ro, 0x0, .any⟩, ⟨3, 3, .w1c, 0x0, .any⟩, ⟨2, 2, .w1c, 0x0, .any⟩, ⟨1, 1, .ro, 0x0, .any⟩, ⟨0, 0, .ro, 0x0, .any⟩]⟩,
  ⟨"HBM_REF", 0x400018, 20, 0x10000, 1, 0x0,
    [⟨23, 16, .ro, 0x28, .any⟩, ⟨15, 15, .ro, 0x0, .any⟩, ⟨8, 0, .rwm, 0x0, .any⟩]⟩,
  ⟨"HBM_RATE", 0x400020, 20, 0x10000, 1, 0x0,
    [⟨15, 0, .ro, 0x780, .any⟩]⟩,
  ⟨"HBM_ERR", 0x400028, 20, 0x10000, 1, 0x0,
    [⟨63, 32, .ro, 0x0, .any⟩, ⟨31, 16, .ro, 0x0, .any⟩, ⟨15, 0, .ro, 0x0, .any⟩]⟩,
  ⟨"SE_CH_CFG", 0x401000, 20, 0x10000, 32, 0x40,
    [⟨63, 48, .rw, 0x0, .any⟩, ⟨47, 32, .rw, 0x0, .any⟩, ⟨31, 24, .rw, 0x0, .any⟩, ⟨23, 20, .rw, 0x4, .range 1 8⟩, ⟨14, 8, .rw, 0x1, .range 1 64⟩, ⟨2, 2, .rw, 0x0, .any⟩, ⟨1, 0, .rw, 0x0, .range 0 2⟩]⟩,
  ⟨"SE_CH_RING", 0x401008, 20, 0x10000, 32, 0x40,
    [⟨41, 12, .rw, 0x0, .any⟩, ⟨4, 0, .rw, 0x1, .range 1 16⟩]⟩,
  ⟨"SE_CH_TAIL", 0x401010, 20, 0x10000, 32, 0x40,
    [⟨15, 0, .rw, 0x0, .any⟩]⟩,
  ⟨"SE_CH_POS", 0x401018, 20, 0x10000, 32, 0x40,
    [⟨31, 16, .ro, 0x0, .any⟩, ⟨15, 0, .ro, 0x0, .any⟩]⟩,
  ⟨"SE_CH_CTRL", 0x401020, 20, 0x10000, 32, 0x40,
    [⟨3, 3, .wo, 0x0, .any⟩, ⟨2, 2, .wo, 0x0, .any⟩, ⟨1, 1, .wo, 0x0, .any⟩, ⟨0, 0, .wo, 0x0, .any⟩]⟩,
  ⟨"SE_CH_STAT", 0x401028, 20, 0x10000, 32, 0x40,
    [⟨63, 48, .ro, 0x0, .any⟩, ⟨38, 32, .ro, 0x0, .any⟩, ⟨23, 20, .ro, 0x0, .any⟩, ⟨2, 2, .w1c, 0x0, .any⟩, ⟨1, 0, .ro, 0x0, .any⟩]⟩
  ]

/-- Registers of BAR0 block 0x800000 (R579, R580, R581, R582, R583, R584). -/
def psiudRegs : List RegSpec := [
  ⟨"PSIUD_CTRL", 0x800000, 16, 0x10000, 1, 0x0,
    [⟨1, 0, .wo, 0x0, .any⟩]⟩,
  ⟨"PSIUD_STAT", 0x800008, 16, 0x10000, 1, 0x0,
    [⟨39, 34, .ro, 0x0, .any⟩, ⟨33, 30, .ro, 0x0, .any⟩, ⟨23, 8, .ro, 0x0, .any⟩, ⟨7, 7, .ro, 0x0, .any⟩, ⟨6, 6, .w1c, 0x0, .any⟩, ⟨5, 5, .w1c, 0x0, .any⟩, ⟨2, 0, .ro, 0x0, .any⟩]⟩,
  ⟨"PSIUD_LANES", 0x800010, 16, 0x10000, 1, 0x0,
    [⟨12, 8, .ro, 0x1F, .any⟩, ⟨4, 0, .ro, 0x1F, .any⟩]⟩,
  ⟨"PSIUD_ERR", 0x800018, 16, 0x10000, 1, 0x0,
    [⟨63, 48, .ro, 0x0, .any⟩, ⟨47, 32, .ro, 0x0, .any⟩, ⟨31, 24, .ro, 0x0, .any⟩, ⟨23, 8, .ro, 0x0, .any⟩, ⟨7, 0, .ro, 0x0, .any⟩]⟩,
  ⟨"PSIUD_LINK_CFG", 0x800020, 16, 0x10000, 1, 0x0,
    [⟨15, 8, .rw, 0xA, .range 1 255⟩, ⟨3, 0, .rw, 0x8, .range 1 15⟩]⟩,
  ⟨"PSIUD_TX_CFG", 0x801000, 16, 0x10000, 64, 0x40,
    [⟨63, 48, .rw, 0x0, .any⟩, ⟨47, 39, .rw, 0x0, .any⟩, ⟨38, 28, .rw, 0x0, .any⟩]⟩,
  ⟨"PSIUD_TX_STAT", 0x801008, 16, 0x10000, 64, 0x40,
    [⟨63, 44, .ro, 0x0, .any⟩, ⟨43, 24, .ro, 0x0, .any⟩, ⟨23, 4, .ro, 0x0, .any⟩, ⟨3, 3, .ro, 0x0, .any⟩, ⟨1, 0, .ro, 0x0, .any⟩]⟩,
  ⟨"PSIUD_RX_CFG", 0x801010, 16, 0x10000, 64, 0x40,
    [⟨63, 62, .rw, 0x1, .range 1 2⟩, ⟨61, 51, .rw, 0x0, .range 0 1983⟩, ⟨50, 40, .rw, 0x1, .range 1 1984⟩, ⟨39, 39, .rw, 0x0, .any⟩, ⟨38, 37, .rw, 0x0, .not2⟩]⟩,
  ⟨"PSIUD_RX_DRAIN", 0x801018, 16, 0x10000, 64, 0x40,
    [⟨63, 48, .rw, 0x0, .any⟩, ⟨47, 32, .rw, 0x0, .any⟩, ⟨31, 23, .rw, 0x0, .any⟩, ⟨22, 19, .rw, 0x4, .range 1 8⟩]⟩,
  ⟨"PSIUD_RX_ROWS", 0x801020, 16, 0x10000, 64, 0x40,
    [⟨63, 48, .rw, 0x0, .any⟩, ⟨47, 32, .rw, 0x0, .any⟩, ⟨31, 24, .rw, 0x0, .any⟩, ⟨23, 23, .rw, 0x0, .any⟩, ⟨15, 0, .rw, 0x0, .any⟩]⟩,
  ⟨"PSIUD_RX_TIME", 0x801028, 16, 0x10000, 64, 0x40,
    [⟨63, 32, .rw, 0x0, .any⟩, ⟨31, 0, .rw, 0x0, .any⟩]⟩,
  ⟨"PSIUD_RX_STAT", 0x801030, 16, 0x10000, 64, 0x40,
    [⟨63, 44, .ro, 0x0, .any⟩, ⟨43, 24, .ro, 0x0, .any⟩, ⟨23, 8, .ro, 0x0, .any⟩, ⟨7, 7, .w1c, 0x0, .any⟩, ⟨1, 0, .ro, 0x0, .any⟩]⟩,
  ⟨"PSIUD_CH_CTRL", 0x801038, 16, 0x10000, 64, 0x40,
    [⟨3, 3, .wo, 0x0, .any⟩, ⟨2, 2, .wo, 0x0, .any⟩, ⟨1, 1, .wo, 0x0, .any⟩, ⟨0, 0, .wo, 0x0, .any⟩]⟩
  ]

/-- Registers of BAR0 block 0xC00000 (R708, R709, R710, R711, R712). -/
def clkRegs : List RegSpec := [
  ⟨"CLK_SRC", 0xC00000, 1, 0x0, 1, 0x0,
    [⟨11, 4, .ro, 0x0, .any⟩, ⟨3, 3, .ro, 0x0, .any⟩, ⟨2, 2, .ro, 0x0, .any⟩, ⟨1, 1, .ro, 0x0, .any⟩, ⟨0, 0, .ro, 0x0, .any⟩]⟩,
  ⟨"CLK_GATE_FIELD", 0xC00008, 1, 0x0, 1, 0x0,
    [⟨3, 0, .rw, 0xF, .any⟩]⟩,
  ⟨"CLK_GATE_GROVE", 0xC00010, 1, 0x0, 4, 0x8,
    [⟨63, 0, .rw, 0xFFFFFFFFFFFFFFFF, .any⟩]⟩,
  ⟨"CLK_GATE_STAT", 0xC00030, 1, 0x0, 1, 0x0,
    [⟨23, 16, .ro, 0x0, .any⟩, ⟨9, 8, .ro, 0x0, .any⟩, ⟨0, 0, .w1c, 0x0, .any⟩]⟩,
  ⟨"PWR_LEVEL", 0xC00040, 1, 0x0, 1, 0x0,
    [⟨63, 32, .ro, 0x0, .any⟩, ⟨10, 8, .ro, 0x0, .any⟩, ⟨7, 7, .ro, 0x0, .any⟩, ⟨6, 4, .ro, 0x0, .any⟩, ⟨2, 0, .ro, 0x0, .any⟩]⟩,
  ⟨"LG_MBOX_CMD", 0xC00100, 1, 0x0, 1, 0x0,
    [⟨39, 8, .rw, 0x0, .any⟩, ⟨7, 0, .rw, 0x0, .any⟩]⟩,
  ⟨"LG_MBOX_DATA", 0xC00108, 1, 0x0, 1, 0x0,
    [⟨63, 0, .rw, 0x0, .any⟩]⟩,
  ⟨"LG_MBOX_CTRL", 0xC00110, 1, 0x0, 1, 0x0,
    [⟨0, 0, .wo, 0x0, .any⟩]⟩,
  ⟨"LG_MBOX_STAT", 0xC00118, 1, 0x0, 1, 0x0,
    [⟨5, 5, .w1c, 0x0, .any⟩, ⟨4, 4, .ro, 0x0, .any⟩, ⟨3, 1, .ro, 0x0, .any⟩, ⟨0, 0, .ro, 0x0, .any⟩]⟩
  ]

/-- Registers of BAR0 block 0xD00000 (R713, R714, R715, R716, R717, R718, R719). -/
def lgRegs : List RegSpec := [
  ⟨"LG_STATUS", 0xD00000, 1, 0x0, 1, 0x0,
    [⟨18, 16, .ro, 0x0, .any⟩, ⟨15, 13, .ro, 0x0, .any⟩, ⟨12, 10, .ro, 0x0, .any⟩, ⟨9, 7, .ro, 0x0, .any⟩, ⟨6, 4, .ro, 0x0, .any⟩, ⟨2, 2, .ro, 0x0, .any⟩, ⟨1, 1, .ro, 0x0, .any⟩]⟩,
  ⟨"LG_EVENT", 0xD00008, 1, 0x0, 1, 0x0,
    [⟨7, 7, .rws, 0x0, .any⟩, ⟨6, 6, .rws, 0x0, .any⟩, ⟨5, 5, .rws, 0x0, .any⟩, ⟨4, 4, .rws, 0x0, .any⟩, ⟨3, 3, .rws, 0x0, .any⟩, ⟨2, 2, .rws, 0x0, .any⟩, ⟨1, 1, .rws, 0x0, .any⟩, ⟨0, 0, .rws, 0x0, .any⟩]⟩,
  ⟨"LG_LIMITS", 0xD00010, 1, 0x0, 1, 0x0,
    [⟨34, 32, .rws, 0x4, .any⟩, ⟨25, 16, .rws, 0x258, .any⟩, ⟨10, 0, .rws, 0x5AA, .any⟩]⟩,
  ⟨"LG_TRIP", 0xD00018, 1, 0x0, 1, 0x0,
    [⟨31, 24, .rws, 0x5A, .any⟩, ⟨23, 16, .rws, 0x5, .any⟩, ⟨15, 8, .rws, 0x69, .any⟩, ⟨7, 0, .rws, 0x5F, .any⟩]⟩,
  ⟨"LG_CEIL", 0xD00020, 1, 0x0, 1, 0x0,
    [⟨10, 8, .rws, 0x0, .any⟩, ⟨2, 0, .rws, 0x0, .any⟩]⟩,
  ⟨"LG_TEMP_MAX", 0xD00028, 1, 0x0, 1, 0x0,
    [⟨40, 32, .ro, 0x0, .any⟩, ⟨15, 0, .ro, 0x0, .any⟩]⟩,
  ⟨"LG_SENSOR_FAULT", 0xD00030, 1, 0x0, 1, 0x0,
    [⟨31, 16, .ro, 0x0, .any⟩, ⟨8, 0, .ro, 0x0, .any⟩]⟩,
  ⟨"LG_CAL", 0xD00800, 1, 0x0, 261, 0x8,
    [⟨15, 0, .rws, 0x0, .any⟩]⟩
  ]

/-- Registers of BAR0 block 0xE00000 (R738, R739, R740). -/
def crRegs : List RegSpec := [
  ⟨"CR_CTRL", 0xE00000, 1, 0x0, 1, 0x0,
    [⟨0, 0, .rw, 0x0, .any⟩]⟩,
  ⟨"CR_PERIOD", 0xE00008, 1, 0x0, 1, 0x0,
    [⟨63, 32, .rw, 0x0, .any⟩, ⟨31, 0, .rw, 0x1B58, .range 700 67108864⟩]⟩,
  ⟨"CR_NOW", 0xE00010, 1, 0x0, 1, 0x0,
    [⟨63, 1, .rw, 0x0, .any⟩, ⟨0, 0, .wo, 0x0, .any⟩]⟩,
  ⟨"CR_RING", 0xE00018, 1, 0x0, 1, 0x0,
    [⟨41, 12, .rw, 0x0, .any⟩, ⟨3, 0, .rw, 0x4, .range 2 15⟩]⟩,
  ⟨"CR_POS", 0xE00020, 1, 0x0, 1, 0x0,
    [⟨63, 32, .ro, 0x0, .any⟩, ⟨15, 0, .rw, 0x0, .any⟩]⟩,
  ⟨"CR_STAT", 0xE00028, 1, 0x0, 1, 0x0,
    [⟨63, 32, .ro, 0x0, .any⟩, ⟨31, 16, .ro, 0x0, .any⟩, ⟨2, 2, .w1c, 0x0, .any⟩, ⟨1, 1, .w1c, 0x0, .any⟩, ⟨0, 0, .ro, 0x0, .any⟩]⟩,
  ⟨"CR_SEL_GROVE", 0xE00040, 1, 0x0, 4, 0x8,
    [⟨63, 0, .rw, 0x0, .any⟩]⟩,
  ⟨"CR_SEL_IO", 0xE00060, 1, 0x0, 1, 0x0,
    [⟨36, 36, .rw, 0x0, .any⟩, ⟨35, 20, .rw, 0x0, .any⟩, ⟨19, 0, .rw, 0x0, .any⟩]⟩,
  ⟨"CR_BW", 0xE00100, 1, 0x0, 37, 0x8,
    [⟨63, 32, .ro, 0x0, .any⟩, ⟨31, 0, .ro, 0x0, .any⟩]⟩
  ]

/-- Every register of BAR0 outside the core-plane windows and the counter groups, in address order of
their blocks. -/
def regTable : List RegSpec :=
  devRegs0 ++ devRegs1 ++ devRegs2 ++ hifRegs0 ++ hifRegs1 ++ schRegs0 ++ schRegs1 ++ seRegs ++ psiudRegs ++ clkRegs ++ lgRegs ++ crRegs

/-! ## Names of the registers' offsets and fields -/

def DEV_ID.off : Nat := 0x0
def DEV_ID.DEVICE : Fld := ⟨DEV_ID.off, 47, 32⟩
def DEV_ID.VENDOR : Fld := ⟨DEV_ID.off, 31, 16⟩
def DEV_ID.STEPPING : Fld := ⟨DEV_ID.off, 15, 8⟩
def DEV_SERIAL.off : Nat := 0x8
def DEV_SERIAL.SERIAL : Fld := ⟨DEV_SERIAL.off, 63, 0⟩
def BOOT_STATE.off : Nat := 0x10
def BOOT_STATE.SAFE : Fld := ⟨BOOT_STATE.off, 5, 5⟩
def BOOT_STATE.QUICK : Fld := ⟨BOOT_STATE.off, 4, 4⟩
def BOOT_STATE.STATE : Fld := ⟨BOOT_STATE.off, 3, 0⟩
def BOOT_ERR.off : Nat := 0x18
def BOOT_ERR.DETAIL : Fld := ⟨BOOT_ERR.off, 63, 32⟩
def BOOT_ERR.CODE : Fld := ⟨BOOT_ERR.off, 7, 0⟩
def DEV_CTRL.off : Nat := 0x20
def DEV_CTRL.SAFE_NEXT : Fld := ⟨DEV_CTRL.off, 1, 1⟩
def DEV_CTRL.RESET : Fld := ⟨DEV_CTRL.off, 0, 0⟩
def BOOT_CFG.off : Nat := 0x28
def BOOT_CFG.LINK_RETRY : Fld := ⟨BOOT_CFG.off, 15, 8⟩
def BOOT_CFG.MEMTEST : Fld := ⟨BOOT_CFG.off, 1, 0⟩
def FN_REINIT.off : Nat := 0x30
def FN_REINIT.RESULT : Fld := ⟨FN_REINIT.off, 23, 20⟩
def FN_REINIT.REFUSED : Fld := ⟨FN_REINIT.off, 19, 19⟩
def FN_REINIT.BUSY : Fld := ⟨FN_REINIT.off, 18, 18⟩
def FN_REINIT.GO : Fld := ⟨FN_REINIT.off, 17, 17⟩
def FN_REINIT.UNIT : Fld := ⟨FN_REINIT.off, 16, 14⟩
def FN_REINIT.INDEX : Fld := ⟨FN_REINIT.off, 7, 0⟩
def RESET_CAUSE.off : Nat := 0x38
def RESET_CAUSE.COUNT : Fld := ⟨RESET_CAUSE.off, 47, 32⟩
def RESET_CAUSE.CAUSE : Fld := ⟨RESET_CAUSE.off, 2, 0⟩
def SPAD_SIZE.off : Nat := 0x40
def SPAD_SIZE.TIERS : Fld := ⟨SPAD_SIZE.off, 43, 40⟩
def SPAD_SIZE.ROW_BYTES : Fld := ⟨SPAD_SIZE.off, 39, 32⟩
def SPAD_SIZE.BYTES : Fld := ⟨SPAD_SIZE.off, 31, 0⟩
def FUSE.off (k : Nat) : Nat := 0x100 + 0x8 * k
def FUSE.BITS (k : Nat) : Fld := ⟨FUSE.off k, 63, 0⟩
def IMG_CTRL.off : Nat := 0x200
def IMG_CTRL.VERIFY : Fld := ⟨IMG_CTRL.off, 5, 5⟩
def IMG_CTRL.PROGRAM : Fld := ⟨IMG_CTRL.off, 4, 4⟩
def IMG_CTRL.PAGE : Fld := ⟨IMG_CTRL.off, 3, 0⟩
def IMG_STAT.off : Nat := 0x208
def IMG_STAT.FUSE_FAIL : Fld := ⟨IMG_STAT.off, 10, 10⟩
def IMG_STAT.FLASH_BUSY : Fld := ⟨IMG_STAT.off, 9, 9⟩
def IMG_STAT.BUSY : Fld := ⟨IMG_STAT.off, 8, 8⟩
def IMG_STAT.RESULT : Fld := ⟨IMG_STAT.off, 7, 0⟩
def IMG_INFO.off : Nat := 0x210
def IMG_INFO.VERSION_LO : Fld := ⟨IMG_INFO.off, 63, 32⟩
def IMG_INFO.SVN : Fld := ⟨IMG_INFO.off, 31, 24⟩
def IMG_INFO.ARB : Fld := ⟨IMG_INFO.off, 23, 16⟩
def IMG_INFO.KEY_SLOT : Fld := ⟨IMG_INFO.off, 1, 0⟩
def ALM_NOW.off : Nat := 0x1000
def ALM_NOW.VALUE : Fld := ⟨ALM_NOW.off, 63, 0⟩
def ALM_STATUS.off : Nat := 0x1008
def ALM_STATUS.LEAP_BUDGET : Fld := ⟨ALM_STATUS.off, 5, 5⟩
def ALM_STATUS.REF_LOST : Fld := ⟨ALM_STATUS.off, 4, 4⟩
def ALM_STATUS.STEPPED : Fld := ⟨ALM_STATUS.off, 3, 3⟩
def ALM_STATUS.LOCKED : Fld := ⟨ALM_STATUS.off, 2, 2⟩
def ALM_STATUS.SLEWING : Fld := ⟨ALM_STATUS.off, 1, 1⟩
def ALM_STATUS.RUNNING : Fld := ⟨ALM_STATUS.off, 0, 0⟩
def ALM_SCALE.off : Nat := 0x1010
def ALM_SCALE.EFFECTIVE : Fld := ⟨ALM_SCALE.off, 59, 40⟩
def ALM_SCALE.POD : Fld := ⟨ALM_SCALE.off, 39, 20⟩
def ALM_SCALE.OWN : Fld := ⟨ALM_SCALE.off, 19, 0⟩
def ALM_SYNC.off : Nat := 0x1018
def ALM_SYNC.UPSTREAM : Fld := ⟨ALM_SYNC.off, 23, 20⟩
def ALM_SYNC.ROLE : Fld := ⟨ALM_SYNC.off, 17, 16⟩
def ALM_OFFSET.off : Nat := 0x1020
def ALM_OFFSET.OFFSET : Fld := ⟨ALM_OFFSET.off, 31, 0⟩
def ALM_DEPART.off : Nat := 0x1028
def ALM_DEPART.COUNT : Fld := ⟨ALM_DEPART.off, 63, 0⟩
def ALM_DEPART_CTRL.off : Nat := 0x1030
def ALM_DEPART_CTRL.CANCEL : Fld := ⟨ALM_DEPART_CTRL.off, 5, 5⟩
def ALM_DEPART_CTRL.ARM : Fld := ⟨ALM_DEPART_CTRL.off, 4, 4⟩
def ALM_DEPART_CTRL.ARM_REFUSED : Fld := ⟨ALM_DEPART_CTRL.off, 3, 3⟩
def ALM_DEPART_CTRL.STATE : Fld := ⟨ALM_DEPART_CTRL.off, 2, 0⟩
def ALM_PTM.off : Nat := 0x1038
def ALM_PTM.VALUE : Fld := ⟨ALM_PTM.off, 63, 0⟩
def ALM_LEAD.off : Nat := 0x1040
def ALM_LEAD.MIN_LEAD : Fld := ⟨ALM_LEAD.off, 31, 0⟩
def ALM_OVR_MAP.off (k : Nat) : Nat := 0x1048 + 0x8 * k
def ALM_OVR_MAP.GROVE (k : Nat) : Fld := ⟨ALM_OVR_MAP.off k, 63, 0⟩
def CP_ABORT.off : Nat := 0x1100
def CP_ABORT.PENDING : Fld := ⟨CP_ABORT.off, 3, 3⟩
def CP_ABORT.USE_AT : Fld := ⟨CP_ABORT.off, 2, 2⟩
def CP_ABORT.FORCE_STOP : Fld := ⟨CP_ABORT.off, 1, 1⟩
def CP_ABORT.REQ : Fld := ⟨CP_ABORT.off, 0, 0⟩
def CP_ABORT_AT.off : Nat := 0x1108
def CP_ABORT_AT.AT : Fld := ⟨CP_ABORT_AT.off, 63, 0⟩
def SPAD_EVT_MAP.off (k : Nat) : Nat := 0x1200 + 0x8 * k
def SPAD_EVT_MAP.GROVE (k : Nat) : Fld := ⟨SPAD_EVT_MAP.off k, 63, 0⟩
def FAULT_RING.off : Nat := 0x2000
def FAULT_RING.BASE : Fld := ⟨FAULT_RING.off, 41, 12⟩
def FAULT_RING.EN : Fld := ⟨FAULT_RING.off, 4, 4⟩
def FAULT_RING.SIZE_LOG2 : Fld := ⟨FAULT_RING.off, 3, 0⟩
def FAULT_POS.off : Nat := 0x2008
def FAULT_POS.TAIL : Fld := ⟨FAULT_POS.off, 63, 32⟩
def FAULT_POS.HEAD : Fld := ⟨FAULT_POS.off, 15, 0⟩
def FAULT_STAT.off : Nat := 0x2010
def FAULT_STAT.SEQ : Fld := ⟨FAULT_STAT.off, 63, 32⟩
def FAULT_STAT.LOST : Fld := ⟨FAULT_STAT.off, 31, 16⟩
def FAULT_STAT.FATAL_VALID : Fld := ⟨FAULT_STAT.off, 0, 0⟩
def FAULT_LAST.off (k : Nat) : Nat := 0x2020 + 0x8 * k
def FAULT_LAST.BYTES (k : Nat) : Fld := ⟨FAULT_LAST.off k, 63, 0⟩
def FAULT_FATAL.off (k : Nat) : Nat := 0x2040 + 0x8 * k
def FAULT_FATAL.BYTES (k : Nat) : Fld := ⟨FAULT_FATAL.off k, 63, 0⟩
def MP_MBOX_CMD.off : Nat := 0x3000
def MP_MBOX_CMD.CODE : Fld := ⟨MP_MBOX_CMD.off, 7, 0⟩
def MP_MBOX_ARG0.off : Nat := 0x3008
def MP_MBOX_ARG0.OBJ : Fld := ⟨MP_MBOX_ARG0.off, 41, 0⟩
def MP_MBOX_ARG1.off : Nat := 0x3010
def MP_MBOX_ARG1.SYMS : Fld := ⟨MP_MBOX_ARG1.off, 41, 0⟩
def MP_MBOX_CTRL.off : Nat := 0x3018
def MP_MBOX_CTRL.GO : Fld := ⟨MP_MBOX_CTRL.off, 0, 0⟩
def MP_MBOX_STAT.off : Nat := 0x3020
def MP_MBOX_STAT.DETAIL : Fld := ⟨MP_MBOX_STAT.off, 63, 32⟩
def MP_MBOX_STAT.REFUSED : Fld := ⟨MP_MBOX_STAT.off, 4, 4⟩
def MP_MBOX_STAT.RESULT : Fld := ⟨MP_MBOX_STAT.off, 3, 1⟩
def MP_MBOX_STAT.BUSY : Fld := ⟨MP_MBOX_STAT.off, 0, 0⟩
def HIF_CTRL.off : Nat := 0x100000
def HIF_CTRL.SQ_EN : Fld := ⟨HIF_CTRL.off, 0, 0⟩
def HIF_STATUS.off : Nat := 0x100008
def HIF_STATUS.CQ_ERR : Fld := ⟨HIF_STATUS.off, 7, 7⟩
def HIF_STATUS.CQ_LOST : Fld := ⟨HIF_STATUS.off, 6, 6⟩
def HIF_STATUS.CFG_REFUSED : Fld := ⟨HIF_STATUS.off, 5, 5⟩
def HIF_STATUS.BAR2_RANGE : Fld := ⟨HIF_STATUS.off, 4, 4⟩
def HIF_STATUS.POLL_SKIP : Fld := ⟨HIF_STATUS.off, 3, 3⟩
def HIF_STATUS.SQ_ERR : Fld := ⟨HIF_STATUS.off, 1, 1⟩
def HIF_STATUS.READY : Fld := ⟨HIF_STATUS.off, 0, 0⟩
def HIF_POLL.off : Nat := 0x100010
def HIF_POLL.PTM_LOG2 : Fld := ⟨HIF_POLL.off, 39, 35⟩
def HIF_POLL.TICKS : Fld := ⟨HIF_POLL.off, 12, 0⟩
def HIF_SQ_BASE.off : Nat := 0x100018
def HIF_SQ_BASE.BASE : Fld := ⟨HIF_SQ_BASE.off, 63, 12⟩
def HIF_SQ_BASE.SIZE_LOG2 : Fld := ⟨HIF_SQ_BASE.off, 3, 0⟩
def HIF_CQ_BASE.off (k : Nat) : Nat := 0x100100 + 0x10 * k
def HIF_CQ_BASE.BASE (k : Nat) : Fld := ⟨HIF_CQ_BASE.off k, 63, 12⟩
def HIF_CQ_BASE.EN (k : Nat) : Fld := ⟨HIF_CQ_BASE.off k, 4, 4⟩
def HIF_CQ_BASE.SIZE_LOG2 (k : Nat) : Fld := ⟨HIF_CQ_BASE.off k, 3, 0⟩
def HIF_SQ_POS.off : Nat := 0x100020
def HIF_SQ_POS.TAIL : Fld := ⟨HIF_SQ_POS.off, 31, 16⟩
def HIF_SQ_POS.HEAD : Fld := ⟨HIF_SQ_POS.off, 15, 0⟩
def HIF_CQ_STORE.off : Nat := 0x100028
def HIF_CQ_STORE.LOST_TOKENS : Fld := ⟨HIF_CQ_STORE.off, 63, 48⟩
def HIF_CQ_STORE.GEN_FREE : Fld := ⟨HIF_CQ_STORE.off, 29, 16⟩
def HIF_CQ_STORE.FINAL_USED : Fld := ⟨HIF_CQ_STORE.off, 12, 0⟩
def HIF_CQ_MOD.off (k : Nat) : Nat := 0x100108 + 0x10 * k
def HIF_CQ_MOD.PEND (k : Nat) : Fld := ⟨HIF_CQ_MOD.off k, 63, 48⟩
def HIF_CQ_MOD.TIME (k : Nat) : Fld := ⟨HIF_CQ_MOD.off k, 31, 16⟩
def HIF_CQ_MOD.FINAL_NOW (k : Nat) : Fld := ⟨HIF_CQ_MOD.off k, 7, 7⟩
def HIF_CQ_MOD.COUNT (k : Nat) : Fld := ⟨HIF_CQ_MOD.off k, 6, 0⟩
def HIF_BAR2_BASE.off : Nat := 0x100030
def HIF_BAR2_BASE.BASE : Fld := ⟨HIF_BAR2_BASE.off, 41, 30⟩
def HIF_PTM_MASTER.off : Nat := 0x100038
def HIF_PTM_MASTER.TIME : Fld := ⟨HIF_PTM_MASTER.off, 63, 0⟩
def HIF_PTM_CNT.off : Nat := 0x100040
def HIF_PTM_CNT.COUNT : Fld := ⟨HIF_PTM_CNT.off, 31, 0⟩
def HIF_POD_REFUSED.off : Nat := 0x100048
def HIF_POD_REFUSED.DEV : Fld := ⟨HIF_POD_REFUSED.off, 63, 0⟩
def HIF_IRQ_EVT.off : Nat := 0x100050
def HIF_IRQ_EVT.EVT : Fld := ⟨HIF_IRQ_EVT.off, 9, 0⟩
def HIF_HDMA_IRQ.off : Nat := 0x100058
def HIF_HDMA_IRQ.CH : Fld := ⟨HIF_HDMA_IRQ.off, 15, 0⟩
def HIF_SE_IRQ.off (k : Nat) : Nat := 0x100200 + 0x8 * k
def HIF_SE_IRQ.CH (k : Nat) : Fld := ⟨HIF_SE_IRQ.off k, 31, 0⟩
def HDMA_CFG.off : Nat := 0x100800
def HDMA_CFG.FORCE_SERIAL : Fld := ⟨HDMA_CFG.off, 8, 8⟩
def HDMA_CFG.RETRY_LIMIT : Fld := ⟨HDMA_CFG.off, 2, 0⟩
def HDMA_STATUS.off : Nat := 0x100808
def HDMA_STATUS.FENCED : Fld := ⟨HDMA_STATUS.off, 15, 8⟩
def HDMA_STATUS.CFG_REFUSED : Fld := ⟨HDMA_STATUS.off, 2, 2⟩
def HDMA_STATUS.BUF_FAULT : Fld := ⟨HDMA_STATUS.off, 1, 1⟩
def HDMA_STATUS.SERIAL : Fld := ⟨HDMA_STATUS.off, 0, 0⟩
def HDMA_CH_CFG.off (k : Nat) : Nat := 0x101000 + 0x40 * k
def HDMA_CH_CFG.OUTSTANDING (k : Nat) : Fld := ⟨HDMA_CH_CFG.off k, 14, 8⟩
def HDMA_CH_CFG.POISON_ON (k : Nat) : Fld := ⟨HDMA_CH_CFG.off k, 2, 2⟩
def HDMA_CH_RING.off (k : Nat) : Nat := 0x101008 + 0x40 * k
def HDMA_CH_RING.BASE (k : Nat) : Fld := ⟨HDMA_CH_RING.off k, 41, 12⟩
def HDMA_CH_RING.SIZE_LOG2 (k : Nat) : Fld := ⟨HDMA_CH_RING.off k, 4, 0⟩
def HDMA_CH_TAIL.off (k : Nat) : Nat := 0x101010 + 0x40 * k
def HDMA_CH_TAIL.TAIL (k : Nat) : Fld := ⟨HDMA_CH_TAIL.off k, 15, 0⟩
def HDMA_CH_POS.off (k : Nat) : Nat := 0x101018 + 0x40 * k
def HDMA_CH_POS.DONE (k : Nat) : Fld := ⟨HDMA_CH_POS.off k, 31, 16⟩
def HDMA_CH_POS.HEAD (k : Nat) : Fld := ⟨HDMA_CH_POS.off k, 15, 0⟩
def HDMA_CH_CTRL.off (k : Nat) : Nat := 0x101020 + 0x40 * k
def HDMA_CH_CTRL.RESUME (k : Nat) : Fld := ⟨HDMA_CH_CTRL.off k, 3, 3⟩
def HDMA_CH_CTRL.ABORT (k : Nat) : Fld := ⟨HDMA_CH_CTRL.off k, 2, 2⟩
def HDMA_CH_CTRL.DISABLE (k : Nat) : Fld := ⟨HDMA_CH_CTRL.off k, 1, 1⟩
def HDMA_CH_CTRL.ENABLE (k : Nat) : Fld := ⟨HDMA_CH_CTRL.off k, 0, 0⟩
def HDMA_CH_STAT.off (k : Nat) : Nat := 0x101028 + 0x40 * k
def HDMA_CH_STAT.LAST_CODE (k : Nat) : Fld := ⟨HDMA_CH_STAT.off k, 63, 48⟩
def HDMA_CH_STAT.HELD (k : Nat) : Fld := ⟨HDMA_CH_STAT.off k, 38, 32⟩
def HDMA_CH_STAT.CREDIT (k : Nat) : Fld := ⟨HDMA_CH_STAT.off k, 23, 20⟩
def HDMA_CH_STAT.CMD_REFUSED (k : Nat) : Fld := ⟨HDMA_CH_STAT.off k, 2, 2⟩
def HDMA_CH_STAT.STATE (k : Nat) : Fld := ⟨HDMA_CH_STAT.off k, 1, 0⟩
def SCH_CTRL.off : Nat := 0x200000
def SCH_CTRL.ABORT : Fld := ⟨SCH_CTRL.off, 2, 2⟩
def SCH_CTRL.CMD : Fld := ⟨SCH_CTRL.off, 1, 0⟩
def SCH_STATUS.off : Nat := 0x200008
def SCH_STATUS.REF_LOST : Fld := ⟨SCH_STATUS.off, 4, 4⟩
def SCH_STATUS.CMD_REFUSED : Fld := ⟨SCH_STATUS.off, 3, 3⟩
def SCH_STATUS.LEAD_MISS : Fld := ⟨SCH_STATUS.off, 2, 2⟩
def SCH_STATUS.STATE : Fld := ⟨SCH_STATUS.off, 1, 0⟩
def SCH_CFG.off : Nat := 0x200010
def SCH_CFG.MIN_CHUNK : Fld := ⟨SCH_CFG.off, 39, 32⟩
def SCH_CFG.CHUNK_MAX : Fld := ⟨SCH_CFG.off, 31, 24⟩
def SCH_CFG.STAGE : Fld := ⟨SCH_CFG.off, 21, 16⟩
def SCH_CFG.ROT : Fld := ⟨SCH_CFG.off, 11, 8⟩
def SCH_CFG.ROLE : Fld := ⟨SCH_CFG.off, 1, 0⟩
def SCH_TIMING.off : Nat := 0x200018
def SCH_TIMING.STEP_TICKS : Fld := ⟨SCH_TIMING.off, 63, 32⟩
def SCH_TIMING.REF_HAMPER : Fld := ⟨SCH_TIMING.off, 29, 16⟩
def SCH_TIMING.FORM_LEAD : Fld := ⟨SCH_TIMING.off, 15, 0⟩
def SCH_STEP.off : Nat := 0x200020
def SCH_STEP.STEP : Fld := ⟨SCH_STEP.off, 63, 0⟩
def SCH_STEP_BASE.off : Nat := 0x200028
def SCH_STEP_BASE.BASE : Fld := ⟨SCH_STEP_BASE.off, 63, 0⟩
def SCH_LIMIT.off : Nat := 0x200030
def SCH_LIMIT.VOCAB : Fld := ⟨SCH_LIMIT.off, 63, 32⟩
def SCH_LIMIT.POISON_LIMIT : Fld := ⟨SCH_LIMIT.off, 31, 28⟩
def SCH_LIMIT.MAX_TOKENS : Fld := ⟨SCH_LIMIT.off, 20, 0⟩
def SCH_RING.off : Nat := 0x200038
def SCH_RING.BASE : Fld := ⟨SCH_RING.off, 41, 15⟩
def SCH_RING.COUNT_LOG2 : Fld := ⟨SCH_RING.off, 2, 0⟩
def SCH_LIVE_ADDR.off : Nat := 0x200040
def SCH_LIVE_ADDR.ADDR : Fld := ⟨SCH_LIVE_ADDR.off, 41, 5⟩
def SCH_TOKEN_CFG.off : Nat := 0x200048
def SCH_TOKEN_CFG.PCHAN : Fld := ⟨SCH_TOKEN_CFG.off, 11, 6⟩
def SCH_TOKEN_CFG.PORT : Fld := ⟨SCH_TOKEN_CFG.off, 5, 2⟩
def SCH_TOKEN_CFG.PEN : Fld := ⟨SCH_TOKEN_CFG.off, 1, 1⟩
def SCH_TOKEN_CFG.MEN : Fld := ⟨SCH_TOKEN_CFG.off, 0, 0⟩
def SCH_OCC.off : Nat := 0x200050
def SCH_OCC.C3 : Fld := ⟨SCH_OCC.off, 51, 39⟩
def SCH_OCC.C2 : Fld := ⟨SCH_OCC.off, 38, 26⟩
def SCH_OCC.C1 : Fld := ⟨SCH_OCC.off, 25, 13⟩
def SCH_OCC.C0 : Fld := ⟨SCH_OCC.off, 12, 0⟩
def SCH_EVENTS.off : Nat := 0x200058
def SCH_EVENTS.MASKED : Fld := ⟨SCH_EVENTS.off, 63, 48⟩
def SCH_EVENTS.TOKEN_LATE : Fld := ⟨SCH_EVENTS.off, 47, 32⟩
def SCH_EVENTS.REFUSED : Fld := ⟨SCH_EVENTS.off, 31, 16⟩
def SCH_EVENTS.PREEMPTED : Fld := ⟨SCH_EVENTS.off, 15, 0⟩
def SCH_MASK_LOG.off : Nat := 0x200060
def SCH_MASK_LOG.VALID : Fld := ⟨SCH_MASK_LOG.off, 63, 63⟩
def SCH_MASK_LOG.REASON : Fld := ⟨SCH_MASK_LOG.off, 59, 56⟩
def SCH_MASK_LOG.ENTRY : Fld := ⟨SCH_MASK_LOG.off, 55, 48⟩
def SCH_MASK_LOG.SLOT : Fld := ⟨SCH_MASK_LOG.off, 47, 36⟩
def SCH_MASK_LOG.STEP : Fld := ⟨SCH_MASK_LOG.off, 31, 0⟩
def SCH_LIVE.off (k : Nat) : Nat := 0x200068 + 0x8 * k
def SCH_LIVE.LIVE (k : Nat) : Fld := ⟨SCH_LIVE.off k, 63, 0⟩
def SCH_DELIV_SEL.off (k : Nat) : Nat := 0x200100 + 0x8 * k
def SCH_DELIV_SEL.AT (k : Nat) : Fld := ⟨SCH_DELIV_SEL.off k, 63, 32⟩
def SCH_DELIV_SEL.EN (k : Nat) : Fld := ⟨SCH_DELIV_SEL.off k, 15, 15⟩
def SCH_DELIV_SEL.SRC (k : Nat) : Fld := ⟨SCH_DELIV_SEL.off k, 14, 14⟩
def SCH_DELIV_SEL.CHAN (k : Nat) : Fld := ⟨SCH_DELIV_SEL.off k, 4, 0⟩
def SCH_DELIV_TMPL.off (k : Nat) : Nat := 0x200200 + 0x8 * k
def SCH_DELIV_TMPL.BYTES (k : Nat) : Fld := ⟨SCH_DELIV_TMPL.off k, 63, 0⟩
def SCH_PARAM_USER.off (k : Nat) : Nat := 0x200400 + 0x8 * k
def SCH_PARAM_USER.ODD (k : Nat) : Fld := ⟨SCH_PARAM_USER.off k, 63, 32⟩
def SCH_PARAM_USER.EVEN (k : Nat) : Fld := ⟨SCH_PARAM_USER.off k, 31, 0⟩
def PG_CFG.off : Nat := 0x200800
def PG_CFG.HIGH : Fld := ⟨PG_CFG.off, 63, 42⟩
def PG_CFG.LOW : Fld := ⟨PG_CFG.off, 41, 20⟩
def PG_CFG.LG_COUNT_M1 : Fld := ⟨PG_CFG.off, 19, 15⟩
def PG_CFG.TOKEN_LOG2 : Fld := ⟨PG_CFG.off, 11, 8⟩
def PG_PT_BASE.off : Nat := 0x200808
def PG_PT_BASE.BASE : Fld := ⟨PG_PT_BASE.off, 41, 20⟩
def PG_STATUS.off : Nat := 0x200810
def PG_STATUS.FAULTS : Fld := ⟨PG_STATUS.off, 63, 48⟩
def PG_STATUS.SPILLS : Fld := ⟨PG_STATUS.off, 47, 32⟩
def PG_STATUS.FETCHES : Fld := ⟨PG_STATUS.off, 31, 16⟩
def PG_STATUS.ALLOC_FAIL : Fld := ⟨PG_STATUS.off, 15, 0⟩
def PG_SPILL_CFG.off : Nat := 0x200818
def PG_SPILL_CFG.DMA_CH : Fld := ⟨PG_SPILL_CFG.off, 39, 36⟩
def PG_SPILL_CFG.ORDER : Fld := ⟨PG_SPILL_CFG.off, 33, 32⟩
def PG_SPILL_CFG.LEND : Fld := ⟨PG_SPILL_CFG.off, 21, 0⟩
def PG_SPILL_PEERS.off : Nat := 0x200820
def PG_SPILL_PEERS.PEERS : Fld := ⟨PG_SPILL_PEERS.off, 63, 0⟩
def PG_SPILL_HOST.off : Nat := 0x200828
def PG_SPILL_HOST.BASE : Fld := ⟨PG_SPILL_HOST.off, 63, 16⟩
def PG_SPILL_HPAGES.off : Nat := 0x200830
def PG_SPILL_HPAGES.USED : Fld := ⟨PG_SPILL_HPAGES.off, 63, 32⟩
def PG_SPILL_HPAGES.PAGES : Fld := ⟨PG_SPILL_HPAGES.off, 23, 0⟩
def PG_POOL.off (k : Nat) : Nat := 0x200900 + 0x8 * k
def PG_POOL.FREE (k : Nat) : Fld := ⟨PG_POOL.off k, 63, 42⟩
def PG_POOL.COUNT (k : Nat) : Fld := ⟨PG_POOL.off k, 41, 20⟩
def PG_POOL.FIRST_MIB (k : Nat) : Fld := ⟨PG_POOL.off k, 16, 0⟩
def PG_KVT_A.off (k : Nat) : Nat := 0x200A00 + 0x10 * k
def PG_KVT_A.VALID (k : Nat) : Fld := ⟨PG_KVT_A.off k, 63, 63⟩
def PG_KVT_A.KIND (k : Nat) : Fld := ⟨PG_KVT_A.off k, 62, 62⟩
def PG_KVT_A.DL_EN (k : Nat) : Fld := ⟨PG_KVT_A.off k, 61, 61⟩
def PG_KVT_A.LG (k : Nat) : Fld := ⟨PG_KVT_A.off k, 60, 56⟩
def PG_KVT_A.CHAN (k : Nat) : Fld := ⟨PG_KVT_A.off k, 55, 51⟩
def PG_KVT_A.BPP_LOG2 (k : Nat) : Fld := ⟨PG_KVT_A.off k, 50, 48⟩
def PG_KVT_A.REPEAT_M1 (k : Nat) : Fld := ⟨PG_KVT_A.off k, 47, 40⟩
def PG_KVT_A.RING_ROWS (k : Nat) : Fld := ⟨PG_KVT_A.off k, 31, 16⟩
def PG_KVT_A.ROW_BASE (k : Nat) : Fld := ⟨PG_KVT_A.off k, 15, 0⟩
def PG_KVT_B.off (k : Nat) : Nat := 0x200A08 + 0x10 * k
def PG_KVT_B.ROW_STEP (k : Nat) : Fld := ⟨PG_KVT_B.off k, 63, 48⟩
def PG_KVT_B.DL_OFS (k : Nat) : Fld := ⟨PG_KVT_B.off k, 31, 0⟩
def SE_ID.off (n : Nat) : Nat := 0x400000 + 0x10000 * n
def SE_ID.CHANNELS (n : Nat) : Fld := ⟨SE_ID.off n, 23, 16⟩
def SE_ID.BUF_MIB (n : Nat) : Fld := ⟨SE_ID.off n, 15, 8⟩
def SE_ID.STACK (n : Nat) : Fld := ⟨SE_ID.off n, 4, 0⟩
def SE_CFG.off (n : Nat) : Nat := 0x400008 + 0x10000 * n
def SE_CFG.FORCE_SERIAL (n : Nat) : Fld := ⟨SE_CFG.off n, 8, 8⟩
def SE_CFG.RETRY_LIMIT (n : Nat) : Fld := ⟨SE_CFG.off n, 2, 0⟩
def SE_STATUS.off (n : Nat) : Nat := 0x400010 + 0x10000 * n
def SE_STATUS.FENCED (n : Nat) : Fld := ⟨SE_STATUS.off n, 15, 8⟩
def SE_STATUS.STRAY (n : Nat) : Fld := ⟨SE_STATUS.off n, 3, 3⟩
def SE_STATUS.CFG_REFUSED (n : Nat) : Fld := ⟨SE_STATUS.off n, 2, 2⟩
def SE_STATUS.BUF_FAULT (n : Nat) : Fld := ⟨SE_STATUS.off n, 1, 1⟩
def SE_STATUS.SERIAL (n : Nat) : Fld := ⟨SE_STATUS.off n, 0, 0⟩
def HBM_REF.off (n : Nat) : Nat := 0x400018 + 0x10000 * n
def HBM_REF.LEN (n : Nat) : Fld := ⟨HBM_REF.off n, 23, 16⟩
def HBM_REF.HOT (n : Nat) : Fld := ⟨HBM_REF.off n, 15, 15⟩
def HBM_REF.PHASE (n : Nat) : Fld := ⟨HBM_REF.off n, 8, 0⟩
def HBM_RATE.off (n : Nat) : Nat := 0x400020 + 0x10000 * n
def HBM_RATE.RATE (n : Nat) : Fld := ⟨HBM_RATE.off n, 15, 0⟩
def HBM_ERR.off (n : Nat) : Nat := 0x400028 + 0x10000 * n
def HBM_ERR.CE (n : Nat) : Fld := ⟨HBM_ERR.off n, 63, 32⟩
def HBM_ERR.RETRIES (n : Nat) : Fld := ⟨HBM_ERR.off n, 31, 16⟩
def HBM_ERR.EXHAUSTED (n : Nat) : Fld := ⟨HBM_ERR.off n, 15, 0⟩
def SE_CH_CFG.off (n : Nat) (k : Nat) : Nat := 0x401000 + 0x10000 * n + 0x40 * k
def SE_CH_CFG.STOP (n : Nat) (k : Nat) : Fld := ⟨SE_CH_CFG.off n k, 63, 48⟩
def SE_CH_CFG.SLOTS (n : Nat) (k : Nat) : Fld := ⟨SE_CH_CFG.off n k, 47, 32⟩
def SE_CH_CFG.PORT (n : Nat) (k : Nat) : Fld := ⟨SE_CH_CFG.off n k, 31, 24⟩
def SE_CH_CFG.CINIT (n : Nat) (k : Nat) : Fld := ⟨SE_CH_CFG.off n k, 23, 20⟩
def SE_CH_CFG.OUTSTANDING (n : Nat) (k : Nat) : Fld := ⟨SE_CH_CFG.off n k, 14, 8⟩
def SE_CH_CFG.POISON_ON (n : Nat) (k : Nat) : Fld := ⟨SE_CH_CFG.off n k, 2, 2⟩
def SE_CH_CFG.KIND (n : Nat) (k : Nat) : Fld := ⟨SE_CH_CFG.off n k, 1, 0⟩
def SE_CH_RING.off (n : Nat) (k : Nat) : Nat := 0x401008 + 0x10000 * n + 0x40 * k
def SE_CH_RING.BASE (n : Nat) (k : Nat) : Fld := ⟨SE_CH_RING.off n k, 41, 12⟩
def SE_CH_RING.SIZE_LOG2 (n : Nat) (k : Nat) : Fld := ⟨SE_CH_RING.off n k, 4, 0⟩
def SE_CH_TAIL.off (n : Nat) (k : Nat) : Nat := 0x401010 + 0x10000 * n + 0x40 * k
def SE_CH_TAIL.TAIL (n : Nat) (k : Nat) : Fld := ⟨SE_CH_TAIL.off n k, 15, 0⟩
def SE_CH_POS.off (n : Nat) (k : Nat) : Nat := 0x401018 + 0x10000 * n + 0x40 * k
def SE_CH_POS.DONE (n : Nat) (k : Nat) : Fld := ⟨SE_CH_POS.off n k, 31, 16⟩
def SE_CH_POS.HEAD (n : Nat) (k : Nat) : Fld := ⟨SE_CH_POS.off n k, 15, 0⟩
def SE_CH_CTRL.off (n : Nat) (k : Nat) : Nat := 0x401020 + 0x10000 * n + 0x40 * k
def SE_CH_CTRL.RESUME (n : Nat) (k : Nat) : Fld := ⟨SE_CH_CTRL.off n k, 3, 3⟩
def SE_CH_CTRL.ABORT (n : Nat) (k : Nat) : Fld := ⟨SE_CH_CTRL.off n k, 2, 2⟩
def SE_CH_CTRL.DISABLE (n : Nat) (k : Nat) : Fld := ⟨SE_CH_CTRL.off n k, 1, 1⟩
def SE_CH_CTRL.ENABLE (n : Nat) (k : Nat) : Fld := ⟨SE_CH_CTRL.off n k, 0, 0⟩
def SE_CH_STAT.off (n : Nat) (k : Nat) : Nat := 0x401028 + 0x10000 * n + 0x40 * k
def SE_CH_STAT.LAST_CODE (n : Nat) (k : Nat) : Fld := ⟨SE_CH_STAT.off n k, 63, 48⟩
def SE_CH_STAT.HELD (n : Nat) (k : Nat) : Fld := ⟨SE_CH_STAT.off n k, 38, 32⟩
def SE_CH_STAT.CREDIT (n : Nat) (k : Nat) : Fld := ⟨SE_CH_STAT.off n k, 23, 20⟩
def SE_CH_STAT.CMD_REFUSED (n : Nat) (k : Nat) : Fld := ⟨SE_CH_STAT.off n k, 2, 2⟩
def SE_CH_STAT.STATE (n : Nat) (k : Nat) : Fld := ⟨SE_CH_STAT.off n k, 1, 0⟩
def PSIUD_CTRL.off (n : Nat) : Nat := 0x800000 + 0x10000 * n
def PSIUD_CTRL.CMD (n : Nat) : Fld := ⟨PSIUD_CTRL.off n, 1, 0⟩
def PSIUD_STAT.off (n : Nat) : Nat := 0x800008 + 0x10000 * n
def PSIUD_STAT.PEER_DEV (n : Nat) : Fld := ⟨PSIUD_STAT.off n, 39, 34⟩
def PSIUD_STAT.PEER_PORT (n : Nat) : Fld := ⟨PSIUD_STAT.off n, 33, 30⟩
def PSIUD_STAT.LASER_OK (n : Nat) : Fld := ⟨PSIUD_STAT.off n, 23, 8⟩
def PSIUD_STAT.QUAL_PASS (n : Nat) : Fld := ⟨PSIUD_STAT.off n, 7, 7⟩
def PSIUD_STAT.CMD_REFUSED (n : Nat) : Fld := ⟨PSIUD_STAT.off n, 6, 6⟩
def PSIUD_STAT.SPARED (n : Nat) : Fld := ⟨PSIUD_STAT.off n, 5, 5⟩
def PSIUD_STAT.STATE (n : Nat) : Fld := ⟨PSIUD_STAT.off n, 2, 0⟩
def PSIUD_LANES.off (n : Nat) : Nat := 0x800010 + 0x10000 * n
def PSIUD_LANES.TX_SPARE (n : Nat) : Fld := ⟨PSIUD_LANES.off n, 12, 8⟩
def PSIUD_LANES.RX_SPARE (n : Nat) : Fld := ⟨PSIUD_LANES.off n, 4, 0⟩
def PSIUD_ERR.off (n : Nat) : Nat := 0x800018 + 0x10000 * n
def PSIUD_ERR.CRC_ERR (n : Nat) : Fld := ⟨PSIUD_ERR.off n, 63, 48⟩
def PSIUD_ERR.REPLAYS (n : Nat) : Fld := ⟨PSIUD_ERR.off n, 47, 32⟩
def PSIUD_ERR.RETRAINS (n : Nat) : Fld := ⟨PSIUD_ERR.off n, 31, 24⟩
def PSIUD_ERR.FEC_UNCORR (n : Nat) : Fld := ⟨PSIUD_ERR.off n, 23, 8⟩
def PSIUD_ERR.SPARES (n : Nat) : Fld := ⟨PSIUD_ERR.off n, 7, 0⟩
def PSIUD_LINK_CFG.off (n : Nat) : Nat := 0x800020 + 0x10000 * n
def PSIUD_LINK_CFG.QUAL_MS (n : Nat) : Fld := ⟨PSIUD_LINK_CFG.off n, 15, 8⟩
def PSIUD_LINK_CFG.REPLAY_LIMIT (n : Nat) : Fld := ⟨PSIUD_LINK_CFG.off n, 3, 0⟩
def PSIUD_TX_CFG.off (n : Nat) (k : Nat) : Nat := 0x801000 + 0x10000 * n + 0x40 * k
def PSIUD_TX_CFG.SLOTS (n : Nat) (k : Nat) : Fld := ⟨PSIUD_TX_CFG.off n k, 63, 48⟩
def PSIUD_TX_CFG.EPORT (n : Nat) (k : Nat) : Fld := ⟨PSIUD_TX_CFG.off n k, 47, 39⟩
def PSIUD_TX_CFG.MROWS_M1 (n : Nat) (k : Nat) : Fld := ⟨PSIUD_TX_CFG.off n k, 38, 28⟩
def PSIUD_TX_STAT.off (n : Nat) (k : Nat) : Nat := 0x801008 + 0x10000 * n + 0x40 * k
def PSIUD_TX_STAT.CREDIT (n : Nat) (k : Nat) : Fld := ⟨PSIUD_TX_STAT.off n k, 63, 44⟩
def PSIUD_TX_STAT.RING (n : Nat) (k : Nat) : Fld := ⟨PSIUD_TX_STAT.off n k, 43, 24⟩
def PSIUD_TX_STAT.TAIL (n : Nat) (k : Nat) : Fld := ⟨PSIUD_TX_STAT.off n k, 23, 4⟩
def PSIUD_TX_STAT.TOO_BIG (n : Nat) (k : Nat) : Fld := ⟨PSIUD_TX_STAT.off n k, 3, 3⟩
def PSIUD_TX_STAT.STATE (n : Nat) (k : Nat) : Fld := ⟨PSIUD_TX_STAT.off n k, 1, 0⟩
def PSIUD_RX_CFG.off (n : Nat) (k : Nat) : Nat := 0x801010 + 0x10000 * n + 0x40 * k
def PSIUD_RX_CFG.CONSUMER (n : Nat) (k : Nat) : Fld := ⟨PSIUD_RX_CFG.off n k, 63, 62⟩
def PSIUD_RX_CFG.BASE (n : Nat) (k : Nat) : Fld := ⟨PSIUD_RX_CFG.off n k, 61, 51⟩
def PSIUD_RX_CFG.SIZE (n : Nat) (k : Nat) : Fld := ⟨PSIUD_RX_CFG.off n k, 50, 40⟩
def PSIUD_RX_CFG.MODE (n : Nat) (k : Nat) : Fld := ⟨PSIUD_RX_CFG.off n k, 39, 39⟩
def PSIUD_RX_CFG.TWM1 (n : Nat) (k : Nat) : Fld := ⟨PSIUD_RX_CFG.off n k, 38, 37⟩
def PSIUD_RX_DRAIN.off (n : Nat) (k : Nat) : Nat := 0x801018 + 0x10000 * n + 0x40 * k
def PSIUD_RX_DRAIN.STOP (n : Nat) (k : Nat) : Fld := ⟨PSIUD_RX_DRAIN.off n k, 63, 48⟩
def PSIUD_RX_DRAIN.SLOTS (n : Nat) (k : Nat) : Fld := ⟨PSIUD_RX_DRAIN.off n k, 47, 32⟩
def PSIUD_RX_DRAIN.EPORT (n : Nat) (k : Nat) : Fld := ⟨PSIUD_RX_DRAIN.off n k, 31, 23⟩
def PSIUD_RX_DRAIN.CINIT (n : Nat) (k : Nat) : Fld := ⟨PSIUD_RX_DRAIN.off n k, 22, 19⟩
def PSIUD_RX_ROWS.off (n : Nat) (k : Nat) : Nat := 0x801020 + 0x10000 * n + 0x40 * k
def PSIUD_RX_ROWS.ROW_BASE (n : Nat) (k : Nat) : Fld := ⟨PSIUD_RX_ROWS.off n k, 63, 48⟩
def PSIUD_RX_ROWS.RING_ROWS (n : Nat) (k : Nat) : Fld := ⟨PSIUD_RX_ROWS.off n k, 47, 32⟩
def PSIUD_RX_ROWS.REPEAT_M1 (n : Nat) (k : Nat) : Fld := ⟨PSIUD_RX_ROWS.off n k, 31, 24⟩
def PSIUD_RX_ROWS.PHASE0 (n : Nat) (k : Nat) : Fld := ⟨PSIUD_RX_ROWS.off n k, 23, 23⟩
def PSIUD_RX_ROWS.MSGS (n : Nat) (k : Nat) : Fld := ⟨PSIUD_RX_ROWS.off n k, 15, 0⟩
def PSIUD_RX_TIME.off (n : Nat) (k : Nat) : Nat := 0x801028 + 0x10000 * n + 0x40 * k
def PSIUD_RX_TIME.DL_OFS (n : Nat) (k : Nat) : Fld := ⟨PSIUD_RX_TIME.off n k, 63, 32⟩
def PSIUD_RX_TIME.DRAIN_OFS (n : Nat) (k : Nat) : Fld := ⟨PSIUD_RX_TIME.off n k, 31, 0⟩
def PSIUD_RX_STAT.off (n : Nat) (k : Nat) : Nat := 0x801030 + 0x10000 * n + 0x40 * k
def PSIUD_RX_STAT.USED (n : Nat) (k : Nat) : Fld := ⟨PSIUD_RX_STAT.off n k, 63, 44⟩
def PSIUD_RX_STAT.HEAD (n : Nat) (k : Nat) : Fld := ⟨PSIUD_RX_STAT.off n k, 43, 24⟩
def PSIUD_RX_STAT.LATE (n : Nat) (k : Nat) : Fld := ⟨PSIUD_RX_STAT.off n k, 23, 8⟩
def PSIUD_RX_STAT.POISON (n : Nat) (k : Nat) : Fld := ⟨PSIUD_RX_STAT.off n k, 7, 7⟩
def PSIUD_RX_STAT.STATE (n : Nat) (k : Nat) : Fld := ⟨PSIUD_RX_STAT.off n k, 1, 0⟩
def PSIUD_CH_CTRL.off (n : Nat) (k : Nat) : Nat := 0x801038 + 0x10000 * n + 0x40 * k
def PSIUD_CH_CTRL.RX_DISABLE (n : Nat) (k : Nat) : Fld := ⟨PSIUD_CH_CTRL.off n k, 3, 3⟩
def PSIUD_CH_CTRL.RX_ENABLE (n : Nat) (k : Nat) : Fld := ⟨PSIUD_CH_CTRL.off n k, 2, 2⟩
def PSIUD_CH_CTRL.TX_DISABLE (n : Nat) (k : Nat) : Fld := ⟨PSIUD_CH_CTRL.off n k, 1, 1⟩
def PSIUD_CH_CTRL.TX_ENABLE (n : Nat) (k : Nat) : Fld := ⟨PSIUD_CH_CTRL.off n k, 0, 0⟩
def PSIUD_POD.off : Nat := 0x900000
def PSIUD_POD.DOUBLE : Fld := ⟨PSIUD_POD.off, 21, 21⟩
def PSIUD_POD.NM1 : Fld := ⟨PSIUD_POD.off, 20, 15⟩
def PSIUD_POD.TOPO : Fld := ⟨PSIUD_POD.off, 14, 13⟩
def PSIUD_POD.HEAD : Fld := ⟨PSIUD_POD.off, 11, 6⟩
def PSIUD_POD.DEV : Fld := ⟨PSIUD_POD.off, 5, 0⟩
def PSIUD_SVC_STAT.off : Nat := 0x900008
def PSIUD_SVC_STAT.FORWARDED : Fld := ⟨PSIUD_SVC_STAT.off, 63, 32⟩
def PSIUD_SVC_STAT.DROPPED : Fld := ⟨PSIUD_SVC_STAT.off, 31, 16⟩
def CLK_SRC.off : Nat := 0xC00000
def CLK_SRC.FAILED_GROVE : Fld := ⟨CLK_SRC.off, 11, 4⟩
def CLK_SRC.GROVE_OSC_FAIL : Fld := ⟨CLK_SRC.off, 3, 3⟩
def CLK_SRC.IOSC_OK : Fld := ⟨CLK_SRC.off, 2, 2⟩
def CLK_SRC.REF_LOCK : Fld := ⟨CLK_SRC.off, 1, 1⟩
def CLK_SRC.XTAL_OK : Fld := ⟨CLK_SRC.off, 0, 0⟩
def CLK_GATE_FIELD.off : Nat := 0xC00008
def CLK_GATE_FIELD.ON : Fld := ⟨CLK_GATE_FIELD.off, 3, 0⟩
def CLK_GATE_GROVE.off (k : Nat) : Nat := 0xC00010 + 0x8 * k
def CLK_GATE_GROVE.ON (k : Nat) : Fld := ⟨CLK_GATE_GROVE.off k, 63, 0⟩
def CLK_GATE_STAT.off : Nat := 0xC00030
def CLK_GATE_STAT.INDEX : Fld := ⟨CLK_GATE_STAT.off, 23, 16⟩
def CLK_GATE_STAT.REASON : Fld := ⟨CLK_GATE_STAT.off, 9, 8⟩
def CLK_GATE_STAT.REFUSED : Fld := ⟨CLK_GATE_STAT.off, 0, 0⟩
def PWR_LEVEL.off : Nat := 0xC00040
def PWR_LEVEL.LAST_STOP : Fld := ⟨PWR_LEVEL.off, 63, 32⟩
def PWR_LEVEL.VSEL : Fld := ⟨PWR_LEVEL.off, 10, 8⟩
def PWR_LEVEL.VR_READY : Fld := ⟨PWR_LEVEL.off, 7, 7⟩
def PWR_LEVEL.STATE : Fld := ⟨PWR_LEVEL.off, 6, 4⟩
def PWR_LEVEL.LEVEL : Fld := ⟨PWR_LEVEL.off, 2, 0⟩
def LG_MBOX_CMD.off : Nat := 0xC00100
def LG_MBOX_CMD.ARG : Fld := ⟨LG_MBOX_CMD.off, 39, 8⟩
def LG_MBOX_CMD.CODE : Fld := ⟨LG_MBOX_CMD.off, 7, 0⟩
def LG_MBOX_DATA.off : Nat := 0xC00108
def LG_MBOX_DATA.DATA : Fld := ⟨LG_MBOX_DATA.off, 63, 0⟩
def LG_MBOX_CTRL.off : Nat := 0xC00110
def LG_MBOX_CTRL.GO : Fld := ⟨LG_MBOX_CTRL.off, 0, 0⟩
def LG_MBOX_STAT.off : Nat := 0xC00118
def LG_MBOX_STAT.REFUSED : Fld := ⟨LG_MBOX_STAT.off, 5, 5⟩
def LG_MBOX_STAT.DEFERRED : Fld := ⟨LG_MBOX_STAT.off, 4, 4⟩
def LG_MBOX_STAT.RESULT : Fld := ⟨LG_MBOX_STAT.off, 3, 1⟩
def LG_MBOX_STAT.BUSY : Fld := ⟨LG_MBOX_STAT.off, 0, 0⟩
def LG_STATUS.off : Nat := 0xD00000
def LG_STATUS.LEVEL : Fld := ⟨LG_STATUS.off, 18, 16⟩
def LG_STATUS.THERMAL : Fld := ⟨LG_STATUS.off, 15, 13⟩
def LG_STATUS.POWER : Fld := ⟨LG_STATUS.off, 12, 10⟩
def LG_STATUS.ALERT : Fld := ⟨LG_STATUS.off, 9, 7⟩
def LG_STATUS.NEIGHBOUR : Fld := ⟨LG_STATUS.off, 6, 4⟩
def LG_STATUS.ALERT_PIN : Fld := ⟨LG_STATUS.off, 2, 2⟩
def LG_STATUS.TRIPPED : Fld := ⟨LG_STATUS.off, 1, 1⟩
def LG_EVENT.off : Nat := 0xD00008
def LG_EVENT.VR_TIMEOUT : Fld := ⟨LG_EVENT.off, 7, 7⟩
def LG_EVENT.SENSOR : Fld := ⟨LG_EVENT.off, 6, 6⟩
def LG_EVENT.NEIGHBOUR : Fld := ⟨LG_EVENT.off, 5, 5⟩
def LG_EVENT.LEAP_EXCESS : Fld := ⟨LG_EVENT.off, 4, 4⟩
def LG_EVENT.OVERCURRENT : Fld := ⟨LG_EVENT.off, 3, 3⟩
def LG_EVENT.POWER : Fld := ⟨LG_EVENT.off, 2, 2⟩
def LG_EVENT.THERMAL : Fld := ⟨LG_EVENT.off, 1, 1⟩
def LG_EVENT.ALERT : Fld := ⟨LG_EVENT.off, 0, 0⟩
def LG_LIMITS.off : Nat := 0xD00010
def LG_LIMITS.ALERT_LEVEL : Fld := ⟨LG_LIMITS.off, 34, 32⟩
def LG_LIMITS.OCP_A : Fld := ⟨LG_LIMITS.off, 25, 16⟩
def LG_LIMITS.POWER_W : Fld := ⟨LG_LIMITS.off, 10, 0⟩
def LG_TRIP.off : Nat := 0xD00018
def LG_TRIP.HBM_C : Fld := ⟨LG_TRIP.off, 31, 24⟩
def LG_TRIP.HYST_C : Fld := ⟨LG_TRIP.off, 23, 16⟩
def LG_TRIP.TRIP_C : Fld := ⟨LG_TRIP.off, 15, 8⟩
def LG_TRIP.THROTTLE_C : Fld := ⟨LG_TRIP.off, 7, 0⟩
def LG_CEIL.off : Nat := 0xD00020
def LG_CEIL.REQ : Fld := ⟨LG_CEIL.off, 10, 8⟩
def LG_CEIL.CEILING : Fld := ⟨LG_CEIL.off, 2, 0⟩
def LG_TEMP_MAX.off : Nat := 0xD00028
def LG_TEMP_MAX.SENSOR : Fld := ⟨LG_TEMP_MAX.off, 40, 32⟩
def LG_TEMP_MAX.TEMP : Fld := ⟨LG_TEMP_MAX.off, 15, 0⟩
def LG_SENSOR_FAULT.off : Nat := 0xD00030
def LG_SENSOR_FAULT.COUNT : Fld := ⟨LG_SENSOR_FAULT.off, 31, 16⟩
def LG_SENSOR_FAULT.FIRST : Fld := ⟨LG_SENSOR_FAULT.off, 8, 0⟩
def LG_CAL.off (k : Nat) : Nat := 0xD00800 + 0x8 * k
def LG_CAL.OFFSET (k : Nat) : Fld := ⟨LG_CAL.off k, 15, 0⟩
def CR_CTRL.off : Nat := 0xE00000
def CR_CTRL.EN : Fld := ⟨CR_CTRL.off, 0, 0⟩
def CR_PERIOD.off : Nat := 0xE00008
def CR_PERIOD.PHASE : Fld := ⟨CR_PERIOD.off, 63, 32⟩
def CR_PERIOD.TICKS : Fld := ⟨CR_PERIOD.off, 31, 0⟩
def CR_NOW.off : Nat := 0xE00010
def CR_NOW.AT : Fld := ⟨CR_NOW.off, 63, 1⟩
def CR_NOW.GO : Fld := ⟨CR_NOW.off, 0, 0⟩
def CR_RING.off : Nat := 0xE00018
def CR_RING.BASE : Fld := ⟨CR_RING.off, 41, 12⟩
def CR_RING.SIZE_LOG2 : Fld := ⟨CR_RING.off, 3, 0⟩
def CR_POS.off : Nat := 0xE00020
def CR_POS.TAIL : Fld := ⟨CR_POS.off, 63, 32⟩
def CR_POS.HEAD : Fld := ⟨CR_POS.off, 15, 0⟩
def CR_STAT.off : Nat := 0xE00028
def CR_STAT.WIN : Fld := ⟨CR_STAT.off, 63, 32⟩
def CR_STAT.SKIPPED : Fld := ⟨CR_STAT.off, 31, 16⟩
def CR_STAT.LATE_REQ : Fld := ⟨CR_STAT.off, 2, 2⟩
def CR_STAT.CFG_REFUSED : Fld := ⟨CR_STAT.off, 1, 1⟩
def CR_STAT.BUSY : Fld := ⟨CR_STAT.off, 0, 0⟩
def CR_SEL_GROVE.off (k : Nat) : Nat := 0xE00040 + 0x8 * k
def CR_SEL_GROVE.GROVE (k : Nat) : Fld := ⟨CR_SEL_GROVE.off k, 63, 0⟩
def CR_SEL_IO.off : Nat := 0xE00060
def CR_SEL_IO.HDMA : Fld := ⟨CR_SEL_IO.off, 36, 36⟩
def CR_SEL_IO.PORT : Fld := ⟨CR_SEL_IO.off, 35, 20⟩
def CR_SEL_IO.ENGINE : Fld := ⟨CR_SEL_IO.off, 19, 0⟩
def CR_BW.off (k : Nat) : Nat := 0xE00100 + 0x8 * k
def CR_BW.ODD (k : Nat) : Fld := ⟨CR_BW.off k, 63, 32⟩
def CR_BW.EVEN (k : Nat) : Fld := ⟨CR_BW.off k, 31, 0⟩
def CP_WD_CFG.off : Nat := 0x3000100
def CP_WD_CFG.EN : Fld := ⟨CP_WD_CFG.off, 8, 8⟩
def CP_WD_CFG.LOG2 : Fld := ⟨CP_WD_CFG.off, 4, 0⟩
def SVC_SEL.off : Nat := 0x3000000
def SVC_SEL.GROVE_ROW : Fld := ⟨SVC_SEL.off, 19, 16⟩
def SVC_SEL.CORE_HROW : Fld := ⟨SVC_SEL.off, 10, 8⟩
def SVC_SEL.CORE_GROVE : Fld := ⟨SVC_SEL.off, 7, 0⟩
def CP_WD_MAP.off (k : Nat) : Nat := 0x3000108 + 0x8 * k
def CP_WD_MAP.GROVE (k : Nat) : Fld := ⟨CP_WD_MAP.off k, 63, 0⟩
def SVC_CFG.off : Nat := 0x3000008
def SVC_CFG.TIMEOUT : Fld := ⟨SVC_CFG.off, 31, 0⟩
def SVC_STATUS.off : Nat := 0x3000010
def SVC_STATUS.REFUSED : Fld := ⟨SVC_STATUS.off, 2, 2⟩
def SVC_STATUS.TIMEOUT : Fld := ⟨SVC_STATUS.off, 1, 1⟩
def SVC_STATUS.BUSY : Fld := ⟨SVC_STATUS.off, 0, 0⟩

end Sys2Proof.Machine
end

