-- ==== Sys2Proof/Machine/Ops.lean ====
section
/-! DEFINITION. The named operations over the state that every meaning uses: sparse maps, bit fields,
BAR0 registers, HBM bytes, free values, outputs, interrupts and fault entries. -/

namespace Sys2Proof.Machine

/-! ## Sparse maps -/

/-- The value at key `k`, `d` where the map does not list it. -/
def smGet {α : Type} (d : α) : SMap α → Nat → α
  | [], _ => d
  | (j, v) :: m, k => if k < j then d else if k = j then v else smGet d m k

/-- The map with `v` at key `k`. -/
def smSet {α : Type} : SMap α → Nat → α → SMap α
  | [], k, v => [(k, v)]
  | (j, w) :: m, k, v =>
    if k < j then (k, v) :: (j, w) :: m
    else if k = j then (k, v) :: m
    else (j, w) :: smSet m k v

/-- Adds `k` to the count at key `i`. -/
def smBump (m : SMap Nat) (i k : Nat) : SMap Nat := smSet m i (smGet 0 m i + k)

/-- The map without the keys that satisfy `p`. -/
def smDrop {α : Type} (p : Nat → Bool) (m : SMap α) : SMap α := m.filter fun e => !p e.1

/-! ## Bits that hardware sets in a grove cycle (R11) -/

/-- The record with bits of the register at `o` that hardware sets in cycle `cyc`: the latest cycle's alone is kept. -/
def SetBits.note (x : SetBits) (cyc o : Nat) (bits : BitVec 64) : SetBits :=
  if cyc < x.1 then x
  else
    let m := if x.1 = cyc then x.2 else []
    (cyc, smSet m o (smGet 0 m o ||| bits))

/-- The bits of the register at `o` that hardware set in cycle `now`. -/
def SetBits.at_ (x : SetBits) (now o : Nat) : BitVec 64 := if x.1 = now then smGet 0 x.2 o else 0

/-! ## Bit fields -/

/-- Bits `hi` to `lo` of a register value, as a number. -/
def getBits (v : BitVec 64) (hi lo : Nat) : Nat := v.toNat / 2 ^ lo % 2 ^ (hi + 1 - lo)

/-- `v` with bits `hi` to `lo` holding `n`. -/
def putBits (v : BitVec 64) (hi lo n : Nat) : BitVec 64 :=
  let mask := BitVec.ofNat 64 ((2 ^ (hi + 1 - lo) - 1) * 2 ^ lo)
  (v &&& ~~~mask) ||| BitVec.ofNat 64 (n % 2 ^ (hi + 1 - lo) * 2 ^ lo)

/-- A count saturating at `top`. -/
def satAdd (top n k : Nat) : Nat := min top (n + k)

/-- `n` bytes of a number, least significant first (R4). -/
def bytesOf : Nat → Nat → List Byte
  | 0, _ => []
  | n + 1, v => BitVec.ofNat 8 v :: bytesOf n (v / 256)

/-- The number whose bytes are these, least significant first (R4). -/
def ofBytes : List Byte → Nat
  | [] => 0
  | b :: bs => b.toNat + 256 * ofBytes bs

/-! ## BAR0 registers -/

/-- The register of the table that sits at `off`, with its two array indices. -/
def regAt (off : Nat) : List RegSpec → Option (RegSpec × Nat × Nat)
  | [] => none
  | r :: rs =>
    if off < r.base then regAt off rs
    else
      let d := off - r.base
      let i := if r.n1 ≤ 1 then 0 else d / r.stride1
      let e := if r.n1 ≤ 1 then d else d % r.stride1
      let k := if r.n2 ≤ 1 then 0 else e / r.stride2
      let x := if r.n2 ≤ 1 then e else e % r.stride2
      if x = 0 ∧ i < r.n1 ∧ k < r.n2 then some (r, i, k) else regAt off rs

/-- The reset value of a register made of its fields' reset values. -/
def fieldsReset : List FieldSpec → BitVec 64
  | [] => 0
  | f :: fs => putBits (fieldsReset fs) f.hi f.lo f.reset

/-- The value of the register at `off` after reset (R10's Reset column; the two resets that depend on
the unit's index are those of R448 and R451). -/
def resetOf (off : Nat) : BitVec 64 :=
  match regAt off regTable with
  | none => 0
  | some (r, i, _) =>
    let v := fieldsReset r.fields
    if r.name = "SE_ID" then putBits v 4 0 i
    else if r.name = "HBM_REF" then putBits v 8 0 (24 * i)
    else v

namespace State

/-- The stored value of the BAR0 register at `off`. -/
def reg (s : State) (off : Nat) : BitVec 64 := smGet (resetOf off) s.bar0 off

/-- Stores a BAR0 register. -/
def setReg (s : State) (off : Nat) (v : BitVec 64) : State := { s with bar0 := smSet s.bar0 off v }

/-- A field of a BAR0 register. -/
def fld (s : State) (f : Fld) : Nat := getBits (s.reg f.off) f.hi f.lo

/-- Stores a field of a BAR0 register and leaves the register's other bits. -/
def setFld (s : State) (f : Fld) (n : Nat) : State :=
  s.setReg f.off (putBits (s.reg f.off) f.hi f.lo n)

/-- A one-bit field as a truth value. -/
def flag (s : State) (f : Fld) : Bool := s.fld f != 0

/-- Notes bits of a register that hardware sets in the current tick (R11). -/
def noteSet (s : State) (off : Nat) (bits : BitVec 64) : State :=
  { s with setNow := smSet s.setNow off (smGet 0 s.setNow off ||| bits) }

/-- Sets a one-bit field. -/
def setFlag (s : State) (f : Fld) : State := (s.noteSet f.off (BitVec.ofNat 64 (2 ^ f.lo))).setFld f 1

/-- Adds `k` to a field that saturates at its largest value. -/
def incSat (s : State) (f : Fld) (k : Nat) : State :=
  s.setFld f (satAdd (2 ^ (f.hi + 1 - f.lo) - 1) (s.fld f) k)

/-- Adds `k` to a field that wraps. -/
def incWrap (s : State) (f : Fld) (k : Nat) : State := s.setFld f (s.fld f + k)

/-- Returns a register to its reset value. -/
def resetReg (s : State) (off : Nat) : State := s.setReg off (resetOf off)

/-! ## Free values and outputs -/

/-- The next free value's low `w` bits, as a number (log entry 1). -/
def freeNat (s : State) (w : Nat) : Nat := (Config.freeBits s.free).toNat % 2 ^ w

/-- Counts one free value as taken. -/
def tookFree (s : State) : State := { s with free := s.free + 1 }

/-- Adds to byte total `i` of the counter reader (R725). -/
def addTotal (s : State) (i n : Nat) : State :=
  { s with reader := { s.reader with totals := smSet s.reader.totals i ((smGet 0 s.reader.totals i + n) % 2 ^ 64) } }

/-- Bytes of PCI Express payload that an output carries. -/
def outBytes : Output → Nat
  | .msix _ => 4
  | .readData bs _ => bs.length
  | .hostWrite _ bs _ _ _ => bs.length
  | _ => 0

/-- Sends something to the outside world. -/
def emit (s : State) (o : Output) : State :=
  let t := { s with out := s.out ++ [o] }
  if outBytes o = 0 then t else t.addTotal 72 (outBytes o)

end State

/-! ## Register writes (R10 to R14) -/

/-- A value is no reserved encoding of a field. -/
def Legal.ok : Legal → Nat → Bool
  | .any, _ => true
  | .range lo hi, n => lo ≤ n && n ≤ hi
  | .not2, n => n != 2

/-- What a write of a register leaves of one field: old and new values by its access type. A bit that hardware sets in
the same cycle, one of `now`, stays set (R11). -/
def FieldSpec.written (f : FieldSpec) (agent : Agent) (now old v : BitVec 64) : BitVec 64 :=
  let n := getBits v f.hi f.lo
  let store := fun (b : Bool) => if b && f.legal.ok n then putBits old f.hi f.lo n else old
  match f.acc with
  | .rw => store true
  | .rws => store (agent = .lifeguard)
  | .rwm => store (agent = .manager)
  | .w1c => old &&& ~~~(putBits 0 f.hi f.lo n &&& ~~~now)
  | .ro => old
  | .wo => old

/-- What a write of a register leaves of all its fields. -/
def writeFields (agent : Agent) (now old v : BitVec 64) (fs : List FieldSpec) : BitVec 64 :=
  fs.foldl (fun o f => f.written agent now o v) old

/-- The bits of a register that hardware has set in this tick; without a running Almanac no time passes that a tick could
end, and none counts. -/
def State.setInTick (s : State) (off : Nat) : BitVec 64 :=
  if s.flag ALM_STATUS.RUNNING then smGet 0 s.setNow off else 0

/-- A write of a BAR0 register by the access types of its fields, without any further effect. -/
def State.regWrite (s : State) (agent : Agent) (off : Nat) (v : BitVec 64) : State :=
  match regAt off regTable with
  | none => s
  | some (r, _, _) => s.setReg off (writeFields agent (s.setInTick off) (s.reg off) v r.fields)

/-! ## HBM bytes -/

/-- What a byte of HBM that nothing has written reads as (log entry 3). -/
def hbmDefault : Byte := 0

/-- The byte at an HBM address. -/
def memRead : List Host.Cell → Nat → Byte
  | [], _ => hbmDefault
  | (a, b) :: m, k => if k < a then hbmDefault else if k = a then b else memRead m k

/-- Writes one byte. An entry equal to what an unlisted address reads as is not listed. -/
def memWrite : List Host.Cell → Nat → Byte → List Host.Cell
  | [], k, b => if b = hbmDefault then [] else [(k, b)]
  | (a, c) :: m, k, b =>
    if k < a then (if b = hbmDefault then (a, c) :: m else (k, b) :: (a, c) :: m)
    else if k = a then (if b = hbmDefault then m else (k, b) :: m)
    else (a, c) :: memWrite m k b

/-- `n` bytes from address `a` on. -/
def memBytes (m : List Host.Cell) (a : Nat) : Nat → List Byte
  | 0 => []
  | n + 1 => memRead m a :: memBytes m (a + 1) n

/-- Writes bytes from address `a` on. -/
def memWriteBytes : List Host.Cell → Nat → List Byte → List Host.Cell
  | m, _, [] => m
  | m, a, b :: bs => memWriteBytes (memWrite m a b) (a + 1) bs

/-- The canonical form: addresses strictly rising from `lo` on, and no byte equal to the default. -/
def Memory.wfFrom : Nat → List Host.Cell → Bool
  | _, [] => true
  | lo, (a, b) :: m => lo ≤ a && b != hbmDefault && Memory.wfFrom (a + 1) m

/-- The canonical form of memory. -/
def Memory.wf (m : List Host.Cell) : Bool := Memory.wfFrom 0 m

/-- The first byte address past the last stack (R402, R403). -/
def hbmEnd : Nat := 20 * 2 ^ 37

namespace State

/-- A little-endian number of `n` bytes in HBM. -/
def hbmNat (s : State) (a n : Nat) : Nat := ofBytes (memBytes s.hbm a n)

/-- The mark and check-bit error of the 64-bit word that holds address `a`. -/
def hbmWordMeta (s : State) (a : Nat) : HbmMeta := smGet {} s.hbmMeta (a / 8)

/-- Bytes that an access of `n` bytes at `a` moves on a stack's data pins, in 32-byte bursts. -/
def pinBytes (a n : Nat) : Nat := 32 * ((a + n + 31) / 32 - a / 32)

/-- Adds to the bytes read (`i` 0) or written (1) on the data pins of the stack that holds an address, where one does (R402,
R725). -/
def addPins (s : State) (a i n : Nat) : State :=
  { s with reader := if a < hbmEnd then (s.addTotal (2 * (a / 2 ^ 37) + i) n).reader else s.reader }

/-- Counts a read of HBM (R725). -/
def countRead (s : State) (a n : Nat) : State := s.addPins a 0 (pinBytes a n)

/-- Counts a write of HBM (R725). -/
def countWrite (s : State) (a n : Nat) : State := s.addPins a 1 (pinBytes a n)

/-- HBM holds bytes from `a` on, with check bits that suit them and no poison mark. -/
def hbmPut (s : State) (a : Nat) (bs : List Byte) : State :=
  { s with
    hbm := memWriteBytes s.hbm a bs
    hbmMeta := smDrop (fun k => a / 8 ≤ k && k < (a + bs.length + 7) / 8) s.hbmMeta }

/-- Stores bytes with their check bits computed afresh and no poison mark. -/
def hbmStore (s : State) (a : Nat) (bs : List Byte) : State := (s.countWrite a bs.length).hbmPut a bs

/-- Stores a little-endian number of `n` bytes. -/
def hbmStoreNat (s : State) (a n v : Nat) : State := s.hbmStore a (bytesOf n v)

end State

/-! ## Configuration space and error records (R586, R587; log entry 60) -/

/-- The header of an extended capability. -/
def extCap (id next version : Nat) : BitVec 32 := BitVec.ofNat 32 (id + 2 ^ 16 * version + 2 ^ 20 * next)

/-- The value of a configuration doubleword that nothing has written. -/
def cfgDefault (off : Nat) : BitVec 32 :=
  match off with
  | 0x000 => 0x1024F1A5
  | 0x004 => 0x00100000
  | 0x008 => 0x12000000
  | 0x010 => 0x00000004
  | 0x018 => 0x0000000C
  | 0x034 => 0x00000040
  | 0x040 => 0x00035001
  | 0x044 => 0x00000008
  | 0x050 => 0x80029010
  | 0x054 => 0x10008022
  | 0x058 => 0x00002810
  | 0x05C => 0x00000107
  | 0x074 => 0x0003001F
  | 0x07C => 0x000000FE
  | 0x080 => 0x00000007
  | 0x090 => 0x003F0011
  | 0x094 => 0x00104000
  | 0x098 => 0x00104400
  | 0x100 => extCap 0x0001 0x148 2
  | 0x10C => 0x00062030
  | 0x114 => 0x00002000
  | 0x148 => extCap 0x0003 0x158 1
  | 0x158 => extCap 0x0015 0x168 1
  | 0x15C => 0x03FFC000
  | 0x160 => 0x00001022
  | 0x168 => extCap 0x001F 0x178 1
  | 0x16C => 0x00000001
  | 0x178 => extCap 0x0025 0x200 1
  | 0x200 => extCap 0x0026 0x240 1
  | 0x240 => extCap 0x0027 0x280 1
  | 0x280 => extCap 0x002A 0x2C0 1
  | 0x2C0 => extCap 0x0031 0x300 1
  | 0x300 => extCap Config.phy128.toNat 0 1
  | _ => 0

namespace State

/-- A doubleword of configuration space as it stands. -/
def cfgWord (s : State) (off : Nat) : BitVec 32 := smGet (cfgDefault off) s.cfg off

def setCfg (s : State) (off : Nat) (v : BitVec 32) : State := { s with cfg := smSet s.cfg off v }

/-- Sets bits of a doubleword. -/
def cfgOr (s : State) (off : Nat) (v : BitVec 32) : State := s.setCfg off (s.cfgWord off ||| v)

/-- The function is in D3hot. -/
def inD3 (s : State) : Bool := s.cfgWord 0x044 &&& 3 = 3

/-- The function takes no memory request: it is in D3hot, or Memory Space Enable of Command is 0. -/
def barsOff (s : State) : Bool := s.inD3 || !(s.cfgWord 0x004).getLsbD 1

/-- The function may send memory requests: it is in D0, and Bus Master Enable of Command is 1. -/
def mastering (s : State) : Bool := !s.inD3 && (s.cfgWord 0x004).getLsbD 2

/-- An Unsupported Request is recorded: in AER's Uncorrectable Error Status and in Device Status (R7, R590, R595). -/
def recordUnsupported (s : State) : State := (s.cfgOr 0x104 0x00100000).cfgOr 0x058 0x00080000

/-- A poisoned TLP received is recorded: in AER, in Device Status and in Status. -/
def recordPoisoned (s : State) : State := ((s.cfgOr 0x104 0x00001000).cfgOr 0x058 0x00020000).cfgOr 0x004 0x80000000

/-- Poison in a request that the function sends or in a completion that it receives: Master Data Parity Error, where Parity
Error Response is 1. -/
def masterParity (s : State) : State := if (s.cfgWord 0x004).getLsbD 6 then s.cfgOr 0x004 0x01000000 else s

/-- What a completion that is not successful records in AER, Device Status and Status (R615). -/
def recordCpl (s : State) (e : CplError) : State :=
  match e with
  | .unsupported => s.cfgOr 0x004 0x20000000
  | .aborted => s.cfgOr 0x004 0x10000000
  | .timeout => (s.cfgOr 0x104 0x00004000).cfgOr 0x058 0x00020000

/-- The completion timeout is switched off. -/
def noTimeout (s : State) : Bool := (s.cfgWord 0x078).getLsbD 4

/-! ## Interrupts -/

/-- Signals MSI-X vector `v` (R609, and the base specification's masking): with MSI-X enabled, the
function mask clear and the vector's mask clear, and memory requests allowed, the message is sent; otherwise its pending bit
is set. -/
def signal (s : State) (v : Nat) : State :=
  let ctl := s.cfgWord 0x090
  let row := 0x104000 + 16 * v
  let masked := (smGet 0x0000_0001_0000_0000#64 s.bar0 (row + 8)).getLsbD 32
  if ctl.getLsbD 31 && !ctl.getLsbD 30 && !masked && s.mastering then s.emit (.msix v)
  else s.setReg 0x104400 (s.reg 0x104400 ||| BitVec.ofNat 64 (2 ^ v))

/-- Sets bit `k` of HIF_IRQ_EVT and signals vector 52 + k when the bit was clear (R608, R609). -/
def irqEvt (s : State) (k : Nat) : State :=
  let f : Fld := ⟨HIF_IRQ_EVT.off, k, k⟩
  if s.flag f then s.setFlag f else (s.setFlag f).signal (52 + k)

/-- Sets bit `b` of an interrupt source register and signals `v` when all its bits were clear. -/
def irqReg (s : State) (off b v : Nat) : State :=
  let was := s.reg off
  let t := (s.noteSet off (BitVec.ofNat 64 (2 ^ b))).setReg off (was ||| BitVec.ofNat 64 (2 ^ b))
  if was = 0 then t.signal v else t

/-! ## Fault entries -/

/-- The fault classes of R657. -/
def classContained : Nat := 1
def classStep : Nat := 2
def classFunction : Nat := 3
def classDevice : Nat := 4

/-- The 32 bytes of a fault entry (R658). -/
def faultBytes (alm : BitVec 64) (seq cls src index code detail : Nat) : List Byte :=
  bytesOf 8 alm.toNat ++ bytesOf 4 seq ++ bytesOf 1 cls ++ bytesOf 1 src ++ bytesOf 2 index ++
  bytesOf 2 code ++ bytesOf 6 0 ++ bytesOf 8 detail

/-- Copies an entry into four registers from `off` on (R678). -/
def copyEntry (s : State) (off : Nat → Nat) (bs : List Byte) : State :=
  (List.range 4).foldl (fun t w => t.setReg (off w) (BitVec.ofNat 64 (ofBytes ((bs.drop (8 * w)).take 8)))) s

/-- FAULT_POS.HEAD as it stood before any host write in the current tick (R659). -/
def faultHead (s : State) : Nat :=
  match s.boot.headWas with
  | some (t, h) => if s.flag ALM_STATUS.RUNNING && t = s.time.ticks then h else s.fld FAULT_POS.HEAD
  | none => s.fld FAULT_POS.HEAD

/-- The ring part of R659: the entry goes to the ring where it is enabled and has room. -/
def faultRing (s : State) (bs : List Byte) : State :=
  if s.flag FAULT_RING.EN then
    let size := 2 ^ s.fld FAULT_RING.SIZE_LOG2
    let tail := s.fld FAULT_POS.TAIL
    let next := (tail + 1) % size
    if next = s.faultHead then s.incSat FAULT_STAT.LOST 1
    else (s.hbmStore (s.fld FAULT_RING.BASE * 4096 + 32 * (tail % size)) bs).setFld FAULT_POS.TAIL next
  else s

/-- Writes one fault entry (R658 to R660): to the ring, to FAULT_LAST, for the first device-fatal one to
FAULT_FATAL, and signals vector 52 for every entry. -/
def faultEntry (s : State) (cls src index code detail : Nat) : State :=
  let bs := faultBytes s.time.almanac (s.fld FAULT_STAT.SEQ) cls src index code detail
  let s := (s.faultRing bs).incWrap FAULT_STAT.SEQ 1
  let s := s.copyEntry FAULT_LAST.off bs
  let s := if cls = classDevice ∧ !s.flag FAULT_STAT.FATAL_VALID then
      (s.copyEntry FAULT_FATAL.off bs).setFlag FAULT_STAT.FATAL_VALID else s
  (s.setFlag ⟨HIF_IRQ_EVT.off, 0, 0⟩).signal 52

end State

end Sys2Proof.Machine
end

