-- ==== Sys2Proof/Machine/Operands.lean ====
section
/-! DEFINITION. Every operand form of the core plane: queue ends (R94 to R103), tuples and potluck
read-outs (R97, R343 to R345), address generators (R120 to R129), tile operands (R223) and element
layouts (R224, R279). -/

namespace Sys2Proof.Machine

/-! ## Coordinates (R20 to R22) -/

def coreX (c : CoreId) : Nat := (c.extractLsb' 0 10).toNat
def coreY (c : CoreId) : Nat := (c.extractLsb' 10 10).toNat

/-- The core at (x, y). -/
def coreAt (x y : Nat) : CoreId := BitVec.ofNat 10 y ++ BitVec.ofNat 10 x

/-- The core's lane within its hamper. -/
def laneOf (c : CoreId) : Nat := 8 * (coreY c % 8) + coreX c % 8

/-- The core's hamper. -/
def hamperOf (c : CoreId) : HamperId := BitVec.ofNat 14 (128 * (coreY c / 8) + coreX c / 8)

/-- The core's grove. -/
def groveOf (c : CoreId) : GroveId := BitVec.ofNat 8 (16 * (coreY c / 64) + coreX c / 64)

/-- The core's field. -/
def fieldOf (c : CoreId) : Nat := 2 * (coreY c / 512) + coreX c / 512

def hamperRow (h : HamperId) : Nat := h.toNat / 128
def hamperCol (h : HamperId) : Nat := h.toNat % 128

/-- The core at a lane of a hamper. -/
def laneCore (h : HamperId) (l : Nat) : CoreId := coreAt (8 * hamperCol h + l % 8) (8 * hamperRow h + l / 8)

/-- A hamper's grove. -/
def groveOfHamper (h : HamperId) : GroveId := BitVec.ofNat 8 (16 * (hamperRow h / 8) + hamperCol h / 8)

/-- A hamper's index within its grove (R58). -/
def hamperIndex (h : HamperId) : Nat := 8 * (hamperRow h % 8) + hamperCol h % 8

/-- The hamper with an index within a grove. -/
def hamperAt (g : GroveId) (i : Nat) : HamperId :=
  BitVec.ofNat 14 (128 * (8 * (g.toNat / 16) + i / 8) + 8 * (g.toNat % 16) + i % 8)

/-- The field of a grove. -/
def fieldOfGrove (g : GroveId) : Nat := 2 * (g.toNat / 128) + g.toNat % 16 / 8

/-! ## The units of the core plane -/

namespace State

def core (s : State) (c : CoreId) : Core := smGet {} s.plane.cores c.toNat
def setCore (s : State) (c : CoreId) (k : Core) : State :=
  { s with plane := { s.plane with cores := smSet s.plane.cores c.toNat k } }
def hamper (s : State) (h : HamperId) : Hamper := smGet s.plane.hamperDflt s.plane.hampers h.toNat
def setHamper (s : State) (h : HamperId) (k : Hamper) : State :=
  { s with plane := { s.plane with hampers := smSet s.plane.hampers h.toNat k } }
def grove (s : State) (g : GroveId) : Grove := smGet {} s.plane.groves g.toNat
def setGrove (s : State) (g : GroveId) (k : Grove) : State :=
  { s with plane := { s.plane with groves := smSet s.plane.groves g.toNat k } }
def setMesh (s : State) (m : Mesh) : State := { s with plane := { s.plane with mesh := m } }

/-- Counts `n` of event `e` of a grove's hampers (R722). -/
def bumpG (s : State) (g : GroveId) (e n : Nat) : State :=
  if n = 0 then s else s.setGrove g { s.grove g with ctr := smBump (s.grove g).ctr e n }

end State

/-- Counts `n` of event `e` in a core (R722). -/
def Core.bump (k : Core) (e n : Nat) : Core := if n = 0 then k else { k with ctr := smBump k.ctr e n }

/-! ## End codes (R95) -/

/-- A code that may be a source. -/
def endIsSource (c : BitVec 5) : Bool := c.toNat < 16

/-- A code that may be a destination of a field other than LD. -/
def endIsDest (c : BitVec 5) : Bool :=
  c.toNat = 0 || (3 ≤ c.toNat && c.toNat ≤ 6) || (16 ≤ c.toNat && c.toNat ≤ 19)

/-- A code that may be LD's destination: ld0 or ld1 for core, so0 to so3 for stream, or none. -/
def endIsLdDest (own : BitVec 2) (c : BitVec 5) : Bool :=
  c.toNat = 0 || (if own = 1 then c.toNat = 1 || c.toNat = 2 else 16 ≤ c.toNat && c.toNat ≤ 19)

/-- A source code that pops an entry. -/
def endPops (c : BitVec 5) : Bool := c.toNat != 0 && c.toNat != 7 && c.toNat < 16

/-- An internal queue's code. -/
def endInternal (c : BitVec 5) : Bool := 1 ≤ c.toNat && c.toNat ≤ 6

/-- A receive queue's code. -/
def endReceive (c : BitVec 5) : Bool := 8 ≤ c.toNat && c.toNat ≤ 15

/-- A send end's code. -/
def endSend (c : BitVec 5) : Bool := 16 ≤ c.toNat && c.toNat ≤ 19

/-! ## Rows as words -/

/-- Word `w` of a 32-byte value. -/
def wordOf (d : BitVec 256) (w : Nat) : BitVec 64 := d.extractLsb' (64 * w) 64

/-- A 32-byte value made of 64-bit words, first word lowest. -/
def rowOfWords : List (BitVec 64) → BitVec 256
  | [] => 0
  | w :: ws => (rowOfWords ws <<< 64) ||| w.zeroExtend 256

/-- A mark for each of four words. -/
def marksOf : List Bool → BitVec 4
  | [] => 0
  | b :: bs => (marksOf bs <<< 1) ||| (if b then 1 else 0)

/-- Byte `k` of a wide value. -/
def byteAt {w : Nat} (d : BitVec w) (k : Nat) : Nat := (d.extractLsb' (8 * k) 8).toNat

/-- A value with `n` bits of `v` at bit `at_`. -/
def putAt {w : Nat} (d : BitVec w) (at_ n v : Nat) : BitVec w :=
  (d &&& ~~~(BitVec.ofNat w ((2 ^ n - 1) * 2 ^ at_))) ||| BitVec.ofNat w (v % 2 ^ n * 2 ^ at_)

/-! ## Queues of a core -/

namespace Core

def mask (k : Core) (i : BitVec 2) : BitVec 32 := smGet 0xFFFFFFFF k.masks i.toNat
def setMask (k : Core) (i : BitVec 2) (v : BitVec 32) : Core := { k with masks := smSet k.masks i.toNat v }
def agu (k : Core) (g : BitVec 3) : Agu := smGet {} k.agus g.toNat
def setAgu (k : Core) (g : BitVec 3) (a : Agu) : Core := { k with agus := smSet k.agus g.toNat a }
def queue (k : Core) (c : BitVec 5) : List QSlot := smGet [] k.iq c.toNat
def setQueue (k : Core) (c : BitVec 5) (q : List QSlot) : Core := { k with iq := smSet k.iq c.toNat q }
def tile (k : Core) (t : BitVec 5) : Tile := smGet {} k.tiles t.toNat
def setTile (k : Core) (t : BitVec 5) (v : Tile) : Core := { k with tiles := smSet k.tiles t.toNat v }
def rqueue (k : Core) (n : Nat) : RQueue := smGet {} k.net.rq n
def setRqueue (k : Core) (n : Nat) (q : RQueue) : Core :=
  { k with net := { k.net with rq := smSet k.net.rq n q } }
def sendEnd (k : Core) (n : Nat) : SendEnd := smGet {} k.net.send n
def setSendEnd (k : Core) (n : Nat) (e : SendEnd) : Core :=
  { k with net := { k.net with send := smSet k.net.send n e } }

/-- Notes event bits of the register at offset `o` that hardware sets in cycle `cyc` (R11). -/
def noteSet (k : Core) (cyc o : Nat) (bits : BitVec 64) : Core := { k with fresh := k.fresh.note cyc o bits }

/-- Sets a CORE_STATUS bit in cycle `cyc` (R135). -/
def setStatusBit (k : Core) (cyc b : Nat) : Core :=
  { k with status := k.status ||| BitVec.ofNat 64 (2 ^ b) }.noteSet cyc 0x010 (BitVec.ofNat 64 (2 ^ b))

/-- Sets CORE_FLAGS bits in cycle `cyc`. -/
def addFlags (k : Core) (cyc : Nat) (f : FlagSet) : Core := { k with flags := k.flags ||| f }.noteSet cyc 0x030 f

/-- Sets VX_STATUS bits in cycle `cyc` (R313). -/
def addVxStatus (k : Core) (cyc : Nat) (b : BitVec 64) : Core := { k with vxStatus := k.vxStatus ||| b }.noteSet cyc 0x068 b

/-- Sets NET_RQ_STAT bits in cycle `cyc`. -/
def addRqStat (k : Core) (cyc : Nat) (b : BitVec 64) : Core :=
  { k with net := { k.net with rqStat := k.net.rqStat ||| b } }.noteSet cyc 0x560 b

/-- Sets a ROUTER_STAT bit in cycle `cyc`. -/
def setRouterStat (k : Core) (cyc b : Nat) : Core :=
  { k with net := { k.net with routerStat := k.net.routerStat ||| BitVec.ofNat 64 (2 ^ b) } }.noteSet cyc 0x1140 (BitVec.ofNat 64 (2 ^ b))

end Core

/-! ## Settling what has come due -/

/-- Marks the entries of an internal queue whose data has been written by the end of cycle `e` (R100). -/
def landSlots (e : Nat) (q : List QSlot) : List QSlot :=
  q.map fun x => if x.filled && x.due ≤ e then { x with landed := true } else x

/-- Applies the mask writes in effect by cycle `now`, earliest first (R306, R307). -/
def applyMasks (now : Nat) (k : Core) : Core :=
  let due := k.maskWr.filter fun w => w.due ≤ now
  let k := due.foldl (fun (k : Core) w => k.setMask w.mask w.val) k
  { k with maskWr := k.maskWr.filter fun w => now < w.due }

/-- A mask write placed after those with effect no later than its own. -/
def addMaskWrite (w : MaskWrite) : List MaskWrite → List MaskWrite
  | [] => [w]
  | x :: xs => if w.due < x.due then w :: x :: xs else x :: addMaskWrite w xs

/-- A TLD's bytes and marks written into its tile (R274). -/
def tileWritten (t : Tile) (w : TileWrite) : Tile :=
  let base := if w.part then 32 else 0
  (List.range 4).foldl (fun (t : Tile) j =>
    let lo := base + 8 * j
    if w.size ≤ lo then t
    else
      let n := min 8 (w.size - lo)
      let bits := (wordOf w.entry.data j).toNat % 2 ^ (8 * n)
      let m := lo / 8
      { t with
        data := putAt t.data (8 * lo) (8 * n) bits
        marks := putAt t.marks m 1 (if w.entry.poison.getLsbD j then 1 else 0) }) t

/-- Applies the tile loads in effect by cycle `now`, in issue order (R306). -/
def applyTiles (now : Nat) (k : Core) : Core :=
  let k' := (k.tileWr.filter fun w => w.due ≤ now).foldl
    (fun (k : Core) w => k.setTile w.tile (tileWritten (k.tile w.tile) w)) k
  { k' with tileWr := k.tileWr.filter fun w => now < w.due }

/-! ## Potluck read-out (R341 to R345) -/

/-- The weight of a potluck entry's bit 0. -/
def potluckExp : Int := -123

/-- A potluck entry rounded to 32 bits, with the flags of the popping core (R344). -/
def Potluck.readOut (e : Potluck) (bf : Bool) : BitVec 32 × FlagSet :=
  let f := if bf then bf16 else fp32
  let pos := e.infP || e.rngP
  let ng := e.infN || e.rngN
  if e.nan || (pos && ng) then (BitVec.ofNat 32 f.nanBits, if pos && ng then flNV else 0)
  else if pos then (BitVec.ofNat 32 (f.infBits false), if e.rngP then flOF else 0)
  else if ng then (BitVec.ofNat 32 (f.infBits true), if e.rngN then flOF else 0)
  else
    let r := f.roundInt (!e.nonneg0) e.val.toInt potluckExp
    (BitVec.ofNat 32 r.1, r.2)

/-- The entry with sequence number `n` of a potluck queue. -/
def RQueue.slot (q : RQueue) (n : Nat) : Potluck := smGet {} q.window n

/-- The tuple width in words. -/
def RQueue.width (q : RQueue) : Nat := q.tw.toNat + 1

/-- Whether a pop in cycle `now` finds its tuple (R97, R343). -/
def RQueue.ready (q : RQueue) (now : Nat) : Bool :=
  if q.potluck then
    (List.range (2 * q.width)).all fun j =>
      let e := q.slot (q.head + j)
      q.expm1.toNat + 1 ≤ e.count && e.due < now
  else q.width ≤ q.entries.length && (q.entries.take q.width).all fun e => e.due < now

/-- The tuple a pop returns, with the flags it raises (R97, R343 to R345). -/
def RQueue.peek (q : RQueue) : Entry × FlagSet :=
  if q.potluck then
    let ws := (List.range q.width).map fun j =>
      let lo := q.slot (q.head + 2 * j)
      let hi := q.slot (q.head + 2 * j + 1)
      let a := lo.readOut q.rfmt
      let b := hi.readOut q.rfmt
      (((b.1 ++ a.1 : BitVec 64), lo.poison || hi.poison), a.2 ||| b.2)
    (⟨rowOfWords (ws.map fun x => x.1.1), marksOf (ws.map fun x => x.1.2)⟩,
     ws.foldl (fun f x => f ||| x.2) 0)
  else
    let es := q.entries.take q.width
    (⟨rowOfWords (es.map (·.data)), marksOf (es.map (·.poison))⟩, 0)

/-- The queue after a pop, and the mesh words whose credits the pop frees (R332, R343, R347). -/
def RQueue.pop (q : RQueue) : RQueue × List WordRef :=
  if q.potluck then
    let ids := (List.range (2 * q.width)).flatMap fun j => (q.slot (q.head + j)).words
    let h := q.head + 2 * q.width
    ({ q with head := h, window := smDrop (fun n => n < h) q.window }, ids)
  else ({ q with entries := q.entries.drop q.width }, (q.entries.take q.width).filterMap (·.word))

/-! ## Popping an end (R97, R100, R104) -/

/-- Whether source end `c` can be popped in cycle `now`. -/
def Core.popReady (k : Core) (now : Nat) (c : BitVec 5) : Bool :=
  if endInternal c then
    match k.queue c with
    | [] => false
    | x :: _ => x.landed && x.due < now
  else if endReceive c then (k.rqueue (c.toNat - 8)).ready now
  else true

/-- The entry at a source end: zero bytes for none and zero. -/
def Core.peek (k : Core) (c : BitVec 5) : Entry :=
  if endInternal c then (match k.queue c with | [] => {} | x :: _ => x.entry)
  else if endReceive c then (k.rqueue (c.toNat - 8)).peek.1
  else {}

/-- The core after a pop of end `c`, and the mesh words whose credits it frees. -/
def Core.pop (k : Core) (c : BitVec 5) : Core × List WordRef :=
  if endInternal c then (k.setQueue c (k.queue c).tail, [])
  else if endReceive c then
    let r := (k.rqueue (c.toNat - 8)).pop
    (k.setRqueue (c.toNat - 8) r.1, r.2)
  else (k, [])

/-- The flags that the read-outs of the potluck queues among a list of ends raise (R344, R345). -/
def Core.readFlags (k : Core) (cs : List (BitVec 5)) : FlagSet :=
  cs.foldl (fun f c => if endReceive c then f ||| (k.rqueue (c.toNat - 8)).peek.2 else f) 0

/-- Pops each of a list of ends once. -/
def Core.popAll (k : Core) (cs : List (BitVec 5)) : Core × List WordRef :=
  cs.foldl (fun (a : Core × List WordRef) c => let r := a.1.pop c; (r.1, a.2 ++ r.2)) (k, [])

/-! ## Address generators (R121 to R129) -/

/-- An address modulo the row count. -/
def rowOf (a : Int) : BitVec 16 := BitVec.ofNat 16 (a % Config.rows).toNat

/-- What one use of a generator yields: the row, its phase, and the generator after it (R122). `kIdx` is
the popped index of the indirect mode. -/
def Agu.use (a : Agu) (kIdx : BitVec 16) : BitVec 16 × Bool × Agu :=
  let b : Int := a.base.toNat
  match a.mode.toNat with
  | 0 =>
    (rowOf (b + a.i.toNat * a.stride1.toInt), false,
     { a with i := if a.i = a.count1 then 0 else a.i + 1 })
  | 1 =>
    (rowOf (b + a.i.toNat * a.stride1.toInt + a.j.toNat * a.stride2.toInt), false,
     if a.i = a.count1 then { a with i := 0, j := if a.j = a.count2 then 0 else a.j + 1 }
     else { a with i := a.i + 1 })
  | 2 =>
    if a.ringHi < a.ringLo then (rowOf a.ringLo.toNat, a.phase, a)
    else
      let p := a.ringHi.toNat - a.ringLo.toNat + 1
      let i := a.i.toNat + a.stride1.toNat
      (rowOf (a.ringLo.toNat + a.i.toNat), a.phase,
       if p ≤ i then { a with i := BitVec.ofNat 16 (i - p), phase := !a.phase }
       else { a with i := BitVec.ofNat 16 i })
  | 4 => (rowOf (b + kIdx.toNat * a.stride1.toInt), false, a)
  | _ => (rowOf b, false, a)

/-- ASKIP (R155): advances as a use would, except in fixed and indirect modes. -/
def Agu.skip (a : Agu) : Agu := if a.mode = 3 ∨ a.mode = 4 then a else (a.use 0).2.2

/-- ARST (R155). -/
def Agu.rewind (a : Agu) : Agu := { a with i := 0, j := 0, phase := false }

/-- A generator with MODE, where no reserved code, and SRC written (R14, R127). -/
def Agu.setMode (a : Agu) (m : BitVec 3) (r : BitVec 5) : Agu := { a.rewind with mode := if 4 < m then a.mode else m, src := r }

/-- ASET of one configuration value (R129, R153, R154), with whether a popped value held a reserved MODE
or SRC. The old SRC stays where the popped code is reserved (R154; log entry 112). -/
def Agu.put (a : Agu) (sel : BitVec 3) (v : BitVec 16) : Agu × Bool :=
  match sel.toNat with
  | 0 => ({ a with base := v }, false)
  | 1 => ({ a.rewind with stride1 := v }, false)
  | 2 => ({ a.rewind with stride2 := v }, false)
  | 3 => ({ a.rewind with count1 := v }, false)
  | 4 => ({ a.rewind with count2 := v }, false)
  | 5 => ({ a.rewind with ringLo := v }, false)
  | 6 => ({ a.rewind with ringHi := v }, false)
  | _ =>
    let m := v.extractLsb' 0 3
    let r := v.extractLsb' 3 5
    (a.setMode m (if 19 < r then a.src else r), asetBad v)

/-- The index source an LD or ST use pops: SRC in indirect mode, none otherwise. -/
def Agu.popEnd (a : Agu) : BitVec 5 := if a.mode = 4 then a.src else 0

/-- An indirect generator whose SRC R95 does not allow as a source (R127). -/
def Agu.badEnd (a : Agu) : Bool := a.mode = 4 && !endIsSource a.src

/-! ## Tile operands (R223, R275) -/

/-- A tile's size in bytes (R271). -/
def Tile.size (t : Tile) : Nat := min 64 (tileRows t.rows * tileBpr t.bpr)

/-- The tile's bytes below its size, zero above (R223). -/
def Tile.bytes (t : Tile) : BitVec 512 := t.data &&& BitVec.ofNat 512 (2 ^ (8 * t.size) - 1)

/-- The marks of the words that lie at least partly below the size (R223). -/
def Tile.liveMarks (t : Tile) : BitVec 8 := t.marks &&& BitVec.ofNat 8 (2 ^ ((t.size + 7) / 8) - 1)

/-- Half `part` of a tile as TST pushes it (R275). -/
def Tile.half (t : Tile) (part : Bool) : Entry :=
  let o := if part then 1 else 0
  ⟨t.bytes.extractLsb' (256 * o) 256, t.liveMarks.extractLsb' (4 * o) 4⟩

/-! ## Elements -/

/-- Bits per element of a VX type (R279). -/
def vxBits (ty : BitVec 3) : Nat := 256 / vxCount ty

/-- Element `i` of a 32-byte operand (R279). -/
def elemOf (ty : BitVec 3) (d : BitVec 256) (i : Nat) : Nat :=
  (d.toNat / 2 ^ (i * vxBits ty)) % 2 ^ vxBits ty

/-- The 64-bit word that holds element `i`. -/
def elemWord (ty : BitVec 3) (i : Nat) : Nat := i * vxBits ty / 64

/-- A 32-byte value made of elements of `w` bits, first element lowest. -/
def packElems (w : Nat) : List Nat → Nat
  | [] => 0
  | x :: xs => x % 2 ^ w + 2 ^ w * packElems w xs

end Sys2Proof.Machine
end

