-- ==== Sys2Proof/Machine/Time.lean ====
section
/-! DEFINITION. Grove cycles, schedule cycles, drift and the hold state of groves (R41 to R67). -/

namespace Sys2Proof.Machine

/-! ## Cycles of a grove -/

/-- The number of the cycle a grove is in when the level's clock is in period `p`: each leap takes two
periods, and periods without a clock are not counted (R41). -/
def Grove.cycle (g : Grove) (p : Nat) : Nat :=
  p - g.lost - g.lostLeaps - (g.leaps.filter fun l => l.1 < p).length

/-- The second period of a leap. -/
def Grove.inSecond (g : Grove) (p : Nat) : Bool := g.leaps.any fun l => l.1 + 1 = p

/-- The first period of a leap. -/
def Grove.inFirst (g : Grove) (p : Nat) : Bool := g.leaps.any fun l => l.1 = p

/-- Catch-up cycles since the release that lie before cycle `c`. -/
def Grove.catchesBefore (g : Grove) (c : Nat) : Nat := if g.lastCatch = c + 1 then g.catches - 1 else g.catches

/-- The schedule cycle count: cycles since the release that were no catch-up hold (R63, R65). -/
def Grove.sched (g : Grove) (p : Nat) : Nat := g.cycle p - g.relCycle - g.catchesBefore (g.cycle p)

/-- Schedule cycles counted over all intervals, on which links and credits are timed. -/
def Grove.total (g : Grove) (p : Nat) : Nat := g.cycle p - g.allCatches - g.catchesBefore (g.cycle p)

/-- The grove is in a catch-up hold (R65). -/
def Grove.inCatch (g : Grove) (p : Nat) : Bool := g.lastCatch = g.cycle p + 1

namespace State

/-- The grove's gate, or its field's, is off (R685). -/
def gated (s : State) (g : GroveId) : Bool :=
  !((s.reg CLK_GATE_FIELD.off).getLsbD (fieldOfGrove g) && (s.reg (CLK_GATE_GROVE.off (g.toNat / 64))).getLsbD (g.toNat % 64))

/-- The period that a grove is in: a gated grove keeps the one it was gated in (R686). -/
def periodOf (s : State) (g : GroveId) : Nat := if s.gated g then (s.grove g).gatedAt else s.time.periods

def cycle (s : State) (g : GroveId) : Nat := (s.grove g).cycle (s.periodOf g)
def sched (s : State) (g : GroveId) : Nat := (s.grove g).sched (s.periodOf g)
def total (s : State) (g : GroveId) : Nat := (s.grove g).total (s.periodOf g)

/-- The frame slot of a grove's routers (R319). -/
def slot (s : State) (g : GroveId) : Nat := s.sched g % 16

/-- A grove is in a catch-up hold (R65). -/
def catching (s : State) (g : GroveId) : Bool := (s.grove g).inCatch (s.periodOf g)

/-- A grove's clock runs: it is not gated, stopped or gated at the root, and the device is not in FAILED (R634, R682,
R685, R692). -/
def clockOn (s : State) (g : GroveId) : Bool := !s.time.stopped && !s.time.rootGated && !s.time.failed && !s.gated g

end State

/-! ## Sequencer states (R209) -/

def stIdle : BitVec 3 := 0
def stArmed : BitVec 3 := 1
def stRunning : BitVec 3 := 2
def stHolding : BitVec 3 := 3
def stDone : BitVec 3 := 4
def stStopped : BitVec 3 := 5
def stAbort : BitVec 3 := 6

/-- A hamper that runs the schedule (R51, R67). -/
def Hamper.runs (h : Hamper) : Bool := h.state = stRunning || h.state = stHolding || h.state = stAbort

/-- A hamper whose registers and grove blocks the service mesh may write (R132, R186, R205). -/
def Hamper.quiet (h : Hamper) : Bool := h.state = stIdle || h.state = stStopped || h.state = stDone

namespace State

/-- The numbers of the hampers of a grove. -/
def groveHampers (g : GroveId) : List HamperId := (List.range 64).map (hamperAt g)

/-- Every hamper of the grove satisfies `p`. -/
def allHampers (s : State) (g : GroveId) (p : Hamper → Bool) : Bool :=
  (groveHampers g).all fun h => p (s.hamper h)

/-- Some hamper of the grove runs the schedule. -/
def groveRuns (s : State) (g : GroveId) : Bool := (groveHampers g).any fun h => (s.hamper h).runs

/-- Some hamper of the device is in a state that satisfies `p`. -/
def anyHamper (s : State) (p : Hamper → Bool) : Bool :=
  p s.plane.hamperDflt || s.plane.hampers.any fun e => p e.2

/-- Changes every hamper of the device. -/
def mapHampers (s : State) (f : Hamper → Hamper) : State :=
  { s with plane := { s.plane with
      hamperDflt := f s.plane.hamperDflt
      hampers := s.plane.hampers.map fun e => (e.1, f e.2) } }

/-! ## Drift (R63 to R67) -/

/-- The neighbouring grove on side `d` (0 north, 1 east, 2 south, 3 west), where there is one. -/
def neighbour (g : GroveId) (d : Nat) : Option GroveId :=
  let x := g.toNat % 16
  let y := g.toNat / 16
  match d with
  | 0 => if y = 0 then none else some (BitVec.ofNat 8 (16 * (y - 1) + x))
  | 1 => if x = 15 then none else some (BitVec.ofNat 8 (16 * y + x + 1))
  | 2 => if y = 15 then none else some (BitVec.ofNat 8 (16 * (y + 1) + x))
  | _ => if x = 0 then none else some (BitVec.ofNat 8 (16 * y + x - 1))

/-- The core beside `c` on side `d`; `none` at the die edge. -/
def coreBeside (c : CoreId) (d : Nat) : Option CoreId :=
  let x := coreX c
  let y := coreY c
  match d with
  | 0 => if y = 0 then none else some (coreAt x (y - 1))
  | 1 => if x = 1023 then none else some (coreAt (x + 1) y)
  | 2 => if y = 1023 then none else some (coreAt x (y + 1))
  | _ => if x = 0 then none else some (coreAt (x - 1) y)

/-- OUT of a route entry names side `d`, or the local output for 4 (R327). -/
def routeOut (e : BitVec 32) (d : Nat) : Bool := e.getLsbD 31 && e.getLsbD (30 - d)

/-- Some route entry of a router forwards a flit from grove `a` to grove `b` or back (R67). -/
def crossingUsed (s : State) (a b : GroveId) : Bool :=
  s.plane.cores.any fun e =>
    let c : CoreId := BitVec.ofNat 20 e.1
    let here := groveOf c
    (here = a || here = b) &&
    (List.range 4).any fun d =>
      match coreBeside c d with
      | none => false
      | some c' =>
        let there := groveOf c'
        here != there && (there = a || there = b) && e.2.net.routes.any fun r => routeOut r.2 d

/-- The crossing between two groves can cause catch-up holds (R67). -/
def crossingActive (s : State) (a b : GroveId) : Bool := s.clockOn b && s.groveRuns b && s.crossingUsed a b

/-- The current cycle of a grove ends with the current period and is a schedule cycle. -/
def cycleEnds (s : State) (g : GroveId) : Bool :=
  let k := s.grove g
  !k.inFirst s.time.periods && !k.inCatch s.time.periods

/-- The drift that grove `a` would have against `b` after its current cycle (R65, R66). -/
def nextDrift (s : State) (a b : GroveId) : Int :=
  let ga := s.grove a
  let gb := s.grove b
  let p := s.time.periods
  if gb.interval < ga.interval then (ga.sched p + 1 : Nat)
  else if ga.interval < gb.interval then 0
  else (ga.sched p + 1 : Nat) - ((gb.sched p + (if s.cycleEnds b then 1 else 0) : Nat) : Int)

/-- R65: the grove's current cycle must be a catch-up hold. -/
def catchUpDue (s : State) (a : GroveId) : Bool :=
  (List.range 4).any fun d =>
    match neighbour a d with
    | none => false
    | some b => s.crossingActive a b && 4 ≤ s.nextDrift a b

/-! ## The scale (R69 to R74) -/

/-- The effective scale S of R44. -/
def scaleField (s : State) : Nat := s.fld ALM_SCALE.EFFECTIVE

/-- ceil(d × S / 65536) (R44). -/
def scaledBy (S d : Nat) : Nat := (d * S + 65535) / 65536

end State

/-- Index of the set bit of a grove map register: map `k`, bit `b` (R60, R366, R400). -/
def groveBit (off : Nat → Nat) (g : GroveId) : Fld := ⟨off (g.toNat / 64), g.toNat % 64, g.toNat % 64⟩

end Sys2Proof.Machine
end

