-- ==== Sys2Proof/Machine/Abort.lean ====
section
/-! DEFINITION. Abort requests, step-fatal hamper faults and overruns (R55 to R60, R196 to R203). -/

namespace Sys2Proof.Machine

/-! ## Bits of SEQ_FAULT (R211) -/

def sfBadEnc : Nat := 0
def sfHoldOrder : Nat := 1
def sfBadLoop : Nat := 2
def sfBadCall : Nat := 3
def sfParamLate : Nat := 4
def sfBadEnd : Nat := 5
def sfAbortTaken : Nat := 6
def sfSovf : Nat := 7

/-- Notes W1C bits of the register at offset `o` that hardware sets in cycle `cyc` (R11). -/
def Hamper.noteSet (h : Hamper) (cyc o : Nat) (bits : BitVec 64) : Hamper := { h with fresh := h.fresh.note cyc o bits }

/-- Sets a bit of SEQ_FAULT in cycle `cyc`. -/
def Hamper.setFault (h : Hamper) (cyc b : Nat) : Hamper :=
  { h with fault := h.fault ||| BitVec.ofNat 64 (2 ^ b) }.noteSet cyc 0x018 (BitVec.ofNat 64 (2 ^ b))

/-- Notes W1C bits of a grove's register at offset `o` that hardware sets in cycle `cyc` (R11). -/
def Grove.noteSet (k : Grove) (cyc o : Nat) (bits : BitVec 64) : Grove := { k with fresh := k.fresh.note cyc o bits }

/-- An action of the pending request is still to come in this hamper (R201). -/
def Hamper.owes (h : Hamper) : Bool := h.runs && !h.acted

namespace State

/-- The ABORT_DONE entry, the end of a request that every running hamper has acted on, and its event (R201, R608). -/
def abortSettle (s : State) : State :=
  match s.plane.abort with
  | none => s
  | some r =>
    if s.anyHamper Hamper.owes then s
    else
      let s := { s with plane := { s.plane with abort := none } }
      ((s.mapHampers fun h => { h with acted := false }).faultEntry classStep 2 0 0x0004 r.at_.toNat).irqEvt 2

/-- An abort request with value `a` (R196, R202). -/
def abortRequest (s : State) (a : BitVec 64) (force : Bool) : State :=
  if !s.anyHamper Hamper.runs then s
  else
    match s.plane.abort with
    | some r => if force then { s with plane := { s.plane with abort := some { r with force := true } } } else s
    | none =>
      let s := s.setReg CP_ABORT_AT.off a
      { s with plane := { s.plane with abort := some ⟨a, force⟩ } }

/-- A step-fatal fault outside the hampers: its entry and a force-stop request (R198, R657). -/
def stepFatal (s : State) (src index code detail : Nat) : State :=
  (s.faultEntry classStep src index code detail).abortRequest s.time.almanac true

/-- A hamper fault: its flag, and for the faults of R198 the entry HAMPER_FAULT and a force-stop
request. -/
def hamperFault (s : State) (h : HamperId) (b : Nat) : State :=
  let s := s.setHamper h ((s.hamper h).setFault (s.cycle (groveOfHamper h)) b)
  let s := if s.plane.abort.isNone then
      s.faultEntry classStep 1 (groveOfHamper h).toNat 0x0002 ((s.hamper h).fault.toNat % 2 ^ 50 + h.toNat * 2 ^ 50)
    else s
  s.abortRequest s.time.almanac true

/-- Raises a hamper fault where `e` holds. -/
def hamperFaultIf (s : State) (h : HamperId) (b : Nat) (e : Bool) : State := if e then s.hamperFault h b else s

/-- Records an overrun of `late` ticks against `target` (R55 to R60). -/
def overrun (s : State) (h : HamperId) (late : Nat) (target : BitVec 64) : State :=
  let g := groveOfHamper h
  let k := s.grove g
  let cyc := s.cycle g
  let n := getBits k.ovr 63 48
  let first := n = 0 || (k.ovrCycle = cyc && hamperIndex h < getBits k.ovr 13 8)
  let ovr := putBits k.ovr 63 48 (satAdd 0xFFFF n 1)
  let ovr := putBits ovr 47 32 (max (getBits k.ovr 47 32) (min late 0xFFFF))
  let k := { k with
    ovr := if first then putBits ovr 13 8 (hamperIndex h) else ovr
    ovrFirst := if first then target else k.ovrFirst
    ovrCycle := if n = 0 then cyc else k.ovrCycle }
  (s.setGrove g k).setFlag (groveBit ALM_OVR_MAP.off g)

/-- The stop or vectored action that a hamper takes on a request (R199). A line fill that the front end waits for goes on,
and the abort routine's first word waits for it (DESIGN CHOICE, log entry 117). -/
def abortAct (s : State) (h : HamperId) (force : Bool) : State :=
  let k := s.hamper h
  let k := { k.setFault (s.cycle (groveOfHamper h)) sfAbortTaken with
    iq := [], loops := [], calls := [], hold := none, waitUntil := 0, swapWait := false, smad := none
    refused := 0, stalls := 0, wdFired := false, stepPush := false, stepOne := false, acted := true }
  let k :=
    if force || !k.abortCfg.getLsbD 25 then { k with state := stStopped, stopped := true }
    else
      { k with
        state := stAbort, stopped := false
        calls := [k.abortCfg.extractLsb' 32 25]
        pc := BitVec.ofNat 25 (2 ^ 24 + getBits k.abortCfg 12 0)
        pushFrom := s.cycle (groveOfHamper h) + 3 }
  (s.setHamper h k).abortSettle

end State

/-- CP_ABORT_REQ: a write of CP_ABORT.REQ (R198, R202 to R204). -/
def execCpAbortReq (useAt force : Bool) (s : State) : Host.Outcome State Fault Refusal :=
  let now := s.time.almanac
  let at_ := s.reg CP_ABORT_AT.off
  .next (s.abortRequest (if useAt then (if at_ < now then now else at_) else now) force)

end Sys2Proof.Machine
end

