-- ==== Sys2Proof/Machine/Mx.lean ====
section
/-! DEFINITION. The MX unit of a core: operand capture, block summers, pass groups, the effects that
land on an accumulator, and what each MX operation does at issue (R222 to R265, R781). -/

namespace Sys2Proof.Machine

/-! ## Layout of an operand (R224, R251) -/

/-- Bits per element. -/
def mxWidth (fmt : BitVec 4) : Nat :=
  match fmt.toNat with
  | 0 => 4
  | 1 | 2 => 6
  | 3 | 4 | 5 => 8
  | 9 => 32
  | _ => 16

/-- K: elements of a vector. -/
def mxK (fmt : BitVec 4) : Nat :=
  match fmt.toNat with
  | 0 => 16
  | 1 | 2 | 3 | 4 | 5 => 8
  | 9 => 1
  | _ => 4

/-- Bytes of a vector. -/
def mxVecBytes (fmt : BitVec 4) : Nat :=
  match fmt.toNat with
  | 1 | 2 => 6
  | 9 => 4
  | _ => 8

/-- Element `e` of vector `v` of an operand. -/
def mxElem (fmt : BitVec 4) (d : BitVec 512) (v e : Nat) : Nat :=
  d.toNat / 2 ^ (8 * mxVecBytes fmt * v + mxWidth fmt * e) % 2 ^ mxWidth fmt

/-- Element `e` of vector `v` of the 64-byte A of MMAS (R251). -/
def mxSparseElem (fmt : BitVec 4) (d : BitVec 512) (v e : Nat) : Nat :=
  d.toNat / 2 ^ (128 * v + mxWidth fmt * e) % 2 ^ mxWidth fmt

/-- The element pairs of output element (i, j) of a dense operation. -/
def densePairs (fmt : BitVec 4) (a b : BitVec 512) (i j : Nat) : List (Nat × Nat) :=
  (List.range (mxK fmt)).map fun e => (mxElem fmt a i e, mxElem fmt b j e)

/-- The element pairs of output element (i, j) of MMAS; `oc` is the operand-cache entry (R251, R252). -/
def sparsePairs (fmt : BitVec 4) (a b oc : BitVec 512) (i j : Nat) : List (Nat × Nat) :=
  let n := if fmt = 0 then 16 else 8
  let col := if fmt = 0 then oc.toNat / 2 ^ (8 * (40 + 4 * j)) else oc.toNat / 2 ^ (8 * (40 + 2 * j))
  (List.range n).map fun m =>
    (mxSparseElem fmt a i (4 * (m / 2) + col / 2 ^ (2 * m) % 4), mxElem fmt b j m)

/-- The element format of a floating-point FMT. -/
def mxFmt (fmt : BitVec 4) : FFmt :=
  match fmt.toNat with
  | 0 => e2m1
  | 1 => e2m3
  | 2 => e3m2
  | 3 => e4m3
  | 4 => e5m2
  | 6 => bf16
  | 7 => fp16
  | _ => fp32

/-- An MX format (R236). -/
def isMxFmt (fmt : BitVec 4) : Bool := fmt ≤ 4

/-- An integer format (R241). -/
def isIntFmt (fmt : BitVec 4) : Bool := fmt = 5 || fmt = 8

/-- Passes of a format's group (R247). -/
def mxPasses (fmt : BitVec 4) : Nat := if fmt = 7 ∨ fmt = 8 then 4 else if fmt = 9 then 9 else 1

/-- The logical depth an operation adds to the block count (R236, R251). -/
def mxDepth (op : BitVec 5) (fmt : BitVec 4) : Nat :=
  if op = 3 then (if fmt = 0 then 32 else 16) else mxK fmt

/-! ## Block summers (R235, R236, R240) -/

/-- Adds one product to a summer; a NaN element, of either kind, raises no flag (R240, R244). -/
def Summer.addProduct (s : Summer) (f : FFmt) (neg : Bool) (x y : Nat) : Summer :=
  match FVal.mul (f.decode x) (f.decode y) with
  | (.nan _, _) =>
    if (f.decode x).isNan || (f.decode y).isNan then { s with nan := true } else { s with inval := true }
  | (.inf ng, _) => if ng != neg then { s with infN := true } else { s with infP := true }
  | (.fin ng m e, _) =>
    let v := m * 2 ^ (e + 32).toNat
    if ng != neg then { s with val := s.val - BitVec.ofNat 72 v }
    else { s with val := s.val + BitVec.ofNat 72 v }

/-- Adds a list of products and a poison mark. -/
def Summer.addAll (s : Summer) (f : FFmt) (neg poison : Bool) (ps : List (Nat × Nat)) : Summer :=
  let s := ps.foldl (fun (s : Summer) p => s.addProduct f neg p.1 p.2) s
  { s with poison := s.poison || poison }

/-- The contribution of a closing block to element (i, j) and its flags (R237, R240). `scales` holds
the scales of A rows in bytes 0 to 3 and of B columns in bytes 4 to 7. -/
def Summer.close (s : Summer) (scales : BitVec 64) (i j : Nat) : FVal × FlagSet :=
  let sa := byteAt scales i
  let sb := byteAt scales (4 + j)
  let mixed := s.infP && s.infN
  let nv := if s.inval || mixed then flNV else 0
  if s.nan || s.inval || mixed || sa = 255 || sb = 255 then (.nan false, nv)
  else if s.infP then (.inf false, 0)
  else if s.infN then (.inf true, 0)
  else
    let v := s.val.toInt
    (.fin (v < 0) v.natAbs ((sa : Int) + sb - 254 - 32), 0)

/-! ## The accumulator -/

namespace Mx

def accElem (m : Mx) (a : BitVec 3) (e : Nat) : BitVec 32 := smGet 0 m.acc (16 * a.toNat + e)
def setAccElem (m : Mx) (a : BitVec 3) (e : Nat) (v : BitVec 32) : Mx :=
  { m with acc := smSet m.acc (16 * a.toNat + e) v }
def accMark (m : Mx) (a : BitVec 3) (e : Nat) : Bool := smGet false m.accPoison (16 * a.toNat + e)
def setAccMark (m : Mx) (a : BitVec 3) (e : Nat) (v : Bool) : Mx :=
  { m with accPoison := smSet m.accPoison (16 * a.toNat + e) v }
def summer (m : Mx) (a : BitVec 3) (e : Nat) : Summer := smGet {} m.sums (16 * a.toNat + e)
def setSummer (m : Mx) (a : BitVec 3) (e : Nat) (v : Summer) : Mx :=
  { m with sums := smSet m.sums (16 * a.toNat + e) v }
def block (m : Mx) (a : BitVec 3) : Block := smGet {} m.blocks a.toNat
def setBlock (m : Mx) (a : BitVec 3) (b : Block) : Mx := { m with blocks := smSet m.blocks a.toNat b }
def ocEntry (m : Mx) (n : BitVec 2) : OcEntry := smGet {} m.oc n.toNat
def setOc (m : Mx) (n : BitVec 2) (v : OcEntry) : Mx := { m with oc := smSet m.oc n.toNat v }
def setStat (m : Mx) (b : Nat) : Mx := { m with status := m.status ||| BitVec.ofNat 64 (2 ^ b) }

/-- Clears the summers and the count of an accumulator. -/
def clearBlock (m : Mx) (a : BitVec 3) : Mx :=
  ({ m with sums := smDrop (fun k => k / 16 = a.toNat) m.sums } : Mx).setBlock a {}

/-- Half `h` of an accumulator as 32 bytes, with the marks of its words (R225, R255, R265). -/
def half (m : Mx) (a : BitVec 3) (h : Bool) : Entry :=
  let o := if h then 8 else 0
  ⟨BitVec.ofNat 256 (packElems 32 ((List.range 8).map fun i => (m.accElem a (o + i)).toNat)),
   marksOf ((List.range 4).map fun w => m.accMark a (o + 2 * w) || m.accMark a (o + 2 * w + 1))⟩

/-- A result added behind those before it on its accumulator (R260). -/
def addResult (m : Mx) (a : BitVec 3) (due : Nat) (ef : MxEffect) (poison : Bool) : Mx :=
  let last := m.results.foldl (fun (n : Nat) r => if r.acc = a then max n r.due else n) 0
  let due := if due < last then last + 1 else due
  { m with results := m.results ++ [⟨a, due, ef, poison⟩] }

end Mx

/-! ## Effects on an accumulator -/

/-- The new value of element (i, j) under the close of a block. -/
def closeElem (acc : BitVec 32) (s : Summer) (scales : BitVec 64) (i j : Nat) : BitVec 32 × FlagSet :=
  let c := s.close scales i j
  let r := fp32.sum [fp32.decode acc.toNat, c.1]
  (BitVec.ofNat 32 r.1, r.2 ||| c.2)

/-- The new value of an INT32 element (R241). -/
def intElem (fmt : BitVec 4) (neg : Bool) (acc : BitVec 32) (ps : List (Nat × Nat)) : BitVec 32 × FlagSet :=
  let w := mxWidth fmt
  let p := ps.foldl (fun (n : Int) x => n + signedOf w x.1 * signedOf w x.2) 0
  let r := clampInt 32 (acc.toInt + if neg then -p else p)
  (BitVec.ofInt 32 r.1, if r.2 then flSAT else 0)

/-- The new value of an FP32 element under BF16, FP16 or FP32 products (R242). An infinity times zero sets NV beside a quiet NaN
too (DESIGN CHOICE, log entry 137). -/
def floatElem (fmt : BitVec 4) (neg : Bool) (acc : BitVec 32) (ps : List (Nat × Nat)) : BitVec 32 × FlagSet :=
  let f := mxFmt fmt
  let xs := ps.map fun p => FVal.mul (f.decode p.1) (f.decode p.2)
  let r := fp32.sum (fp32.decode acc.toNat :: xs.map fun x => if neg then x.1.neg else x.1)
  (BitVec.ofNat 32 r.1, xs.foldl (fun fl x => fl ||| x.2) r.2)

/-- The new value of an element under MCHAIN (R254). -/
def chainElem (acc x : BitVec 32) : BitVec 32 × FlagSet :=
  let r := fp32.sum [fp32.decode acc.toNat, fp32.decode x.toNat]
  (BitVec.ofNat 32 r.1, r.2)

/-- What an effect makes of element `e`; `none` where it leaves the element (R254). MCHAIN adds to what its accumulator held
when it issued (R261). -/
def MxEffect.elem (ef : MxEffect) (e : Nat) (acc : BitVec 32) : Option (BitVec 32 × FlagSet) :=
  match ef with
  | .close sums scales => some (closeElem acc ((sums[e]?).getD {}) scales (e / 4) (e % 4))
  | .products fmt neg a b =>
    let ps := densePairs fmt a b (e / 4) (e % 4)
    some (if isIntFmt fmt then intElem fmt neg acc ps else floatElem fmt neg acc ps)
  | .chain was _ h0 h1 =>
    match (if e < 8 then h0 else h1) with
    | none => none
    | some d => some (chainElem (was.extractLsb' (32 * e) 32) (d.extractLsb' (32 * (e % 8)) 32))
  | .zero => some (0, 0)

/-- The mark that an effect adds to, of element `e`: MZERO clears it, and MCHAIN reads it at its issue (R261, R264). -/
def MxEffect.mark (ef : MxEffect) (e : Nat) (now : Bool) : Bool :=
  match ef with
  | .zero => false
  | .chain _ marks _ _ => marks.getLsbD e
  | _ => now

/-- One element of a landing result (R246, R264). -/
def landElem (r : MxResult) (m : Mx × FlagSet) (e : Nat) : Mx × FlagSet :=
  match r.effect.elem e (m.1.accElem r.acc e) with
  | none => m
  | some v =>
    let mark := r.effect.mark e (m.1.accMark r.acc e) || r.poison
    ((m.1.setAccElem r.acc e v.1).setAccMark r.acc e mark, m.2 ||| v.2)

/-- A result landing. -/
def landResult (m : Mx × FlagSet) (r : MxResult) : Mx × FlagSet :=
  (List.range 16).foldl (landElem r) m

/-- Lands the results readable in cycle `now`, in issue order (R259 to R261). Their flags are set at the end of the cycle
before the one in which the result is first readable. -/
def Core.landMx (now : Nat) (k : Core) : Core :=
  let m := { k.mx with results := k.mx.results.filter fun r => now < r.due }
  let r := (k.mx.results.filter fun r => r.due ≤ now).foldl landResult (m, 0)
  { k with mx := r.1, flags := k.flags ||| r.2 }

/-! ## Operands at issue (R223, R226 to R229) -/

/-- The operand a code names: `src` gives the entries of this word's source ends. -/
def Core.mxOperand (k : Core) (src : BitVec 5 → Entry) (code : BitVec 6) : OcEntry :=
  if isTileCode code then
    let t := k.tile (code.extractLsb' 0 5)
    ⟨t.bytes, t.liveMarks⟩
  else
    let e := src (code.extractLsb' 0 5)
    ⟨e.data.zeroExtend 512, e.poison.zeroExtend 8⟩

/-- The words of an operand that a format uses. -/
def usedMarks (fmt : BitVec 4) (sparseA : Bool) (m : BitVec 8) : BitVec 8 :=
  let n := if sparseA then 8 else (4 * mxVecBytes fmt + 7) / 8
  m &&& BitVec.ofNat 8 (2 ^ n - 1)

/-- What an array operation captured. -/
structure Captured where
  a      : BitVec 512
  b      : BitVec 512
  poison : Bool
  deriving DecidableEq, Repr

/-- Captures the operands of an array operation and loads held operands (R226 to R228, R251, R253). -/
def Core.capture (k : Core) (src : BitVec 5 → Entry) (f : MxF) : Captured × Mx :=
  let m := k.mx
  let oc := m.ocEntry f.ocs
  let m := if f.mode = 2 ∧ f.opa ≠ 0 then { m with heldA := k.mxOperand src f.opa } else m
  let m := if f.mode = 0 ∧ f.op ≠ 4 ∧ f.opb ≠ 0 then { m with heldB := k.mxOperand src f.opb } else m
  let a := if f.mode = 2 then m.heldA else k.mxOperand src f.opa
  let b : OcEntry :=
    if f.op = 4 then ⟨oc.data &&& BitVec.ofNat 512 (2 ^ 256 - 1), oc.marks &&& 0x0F⟩
    else if f.mode = 0 then m.heldB else k.mxOperand src f.opb
  let meta_ := if f.op = 3 then oc.marks &&& (if f.fmt = 0 then 0x60 else 0x20) else 0
  (⟨a.data, b.data,
    usedMarks f.fmt (f.op = 3) a.marks != 0 || usedMarks f.fmt false b.marks != 0 || meta_ != 0⟩, m)

/-! ## Array operations -/

/-- Cycles an array operation occupies the array (R259). -/
def mxOccupancy (f : MxF) : Nat :=
  if mxPasses f.fmt = 4 then 4 else if mxPasses f.fmt = 9 ∧ f.pass.toNat < 8 then 1 else 8

/-- The open group continues with this operation (R249). -/
def PassGroup.accepts (g : PassGroup) (f : MxF) : Bool :=
  g.op = f.op && g.fmt = f.fmt && g.mode = f.mode && g.acc = f.acc && g.ocs = f.ocs && g.next = f.pass.toNat

/-- An MX-format operation: the products enter the summers, and the block closes at 32 (R236 to R240). -/
def Mx.blockOp (m : Mx) (f : MxF) (c : Captured) (now : Nat) : Mx :=
  let oc := m.ocEntry f.ocs
  let n := mxDepth f.op f.fmt
  let b := m.block f.acc
  let broken := b.count ≠ 0 ∧ (b.fmt ≠ f.fmt ∨ 32 < b.count + n)
  let m := if broken then (m.clearBlock f.acc).setStat 0 else m
  let count := (if broken then 0 else b.count) + n
  let sums := (List.range 16).map fun e =>
    let ps := if f.op = 3 then sparsePairs f.fmt c.a c.b oc.data (e / 4) (e % 4)
              else densePairs f.fmt c.a c.b (e / 4) (e % 4)
    (m.summer f.acc e).addAll (mxFmt f.fmt) (f.op = 2) c.poison ps
  if count < 32 then
    let m := (List.range 16).foldl (fun (m : Mx) e => m.setSummer f.acc e ((sums[e]?).getD {})) m
    m.setBlock f.acc ⟨count, f.fmt⟩
  else
    let poison := sums.any (·.poison) || oc.marks.getLsbD 4
    (m.clearBlock f.acc).addResult f.acc (now + 12) (.close sums (oc.data.extractLsb' 256 64)) poison

/-- A pending block met by an operation of another class is discarded (R239). -/
def Mx.breakBlock (m : Mx) (a : BitVec 3) : Mx :=
  if (m.block a).count ≠ 0 then (m.clearBlock a).setStat 0 else m

/-- An array operation whose predicate is true (R236 to R242, R247 to R249, R258). One that R258 discards leaves an open pass
group open: it is not the next array operation that R249 speaks of (DESIGN CHOICE, log entry 135). -/
def Core.arrayOp (k : Core) (src : BitVec 5 → Entry) (f : MxF) (now : Nat) : Core :=
  if now < k.mx.busyUntil then { k with mx := k.mx.setStat 2 }
  else
    let m := { k.mx with busyUntil := now + mxOccupancy f }
    let keep := match m.pass with | some g => g.accepts f | none => false
    let m := if m.pass.isSome && !keep then { m with pass := none }.setStat 1 else m
    match m.pass with
    | some g =>
      let m := m.breakBlock f.acc
      let m := { m with pass := if g.next + 1 < mxPasses f.fmt then some { g with next := g.next + 1 } else none }
      if g.next + 1 < mxPasses f.fmt then { k with mx := m }
      else { k with mx := m.addResult f.acc (now + if mxPasses f.fmt = 4 then 7 else 11)
                            (.products f.fmt (f.op = 2) g.a g.b) g.poison }
    | none =>
      if f.pass ≠ 0 then { k with mx := m.setStat 1 }
      else
        let r := ({ k with mx := m } : Core).capture src f
        if isMxFmt f.fmt then { k with mx := r.2.blockOp f r.1 now }
        else
          let m := r.2.breakBlock f.acc
          if 1 < mxPasses f.fmt then
            { k with mx := { m with pass := some ⟨f.op, f.fmt, f.mode, f.acc, f.ocs, 1, r.1.a, r.1.b, r.1.poison⟩ } }
          else { k with mx := m.addResult f.acc (now + 11) (.products f.fmt (f.op = 2) r.1.a r.1.b) r.1.poison }

/-! ## The other operations -/

/-- MOCL (R231). -/
def Core.mocl (k : Core) (src : BitVec 5 → Entry) (f : MxF) : Core :=
  let x := k.mxOperand src f.opb
  let o := k.mx.ocEntry f.ocs
  let v : OcEntry :=
    if isTileCode f.opb then x
    else ⟨x.data.extractLsb' 0 256 ++ o.data.extractLsb' 0 256,
          x.marks.extractLsb' 0 4 ++ o.marks.extractLsb' 0 4⟩
  { k with mx := k.mx.setOc f.ocs v }

/-- MZERO (R250, R259). -/
def Core.mzero (k : Core) (a : BitVec 3) (now : Nat) : Core :=
  let m := k.mx.clearBlock a
  let m := { m with pass := m.pass.filter fun g => g.acc ≠ a }
  { k with mx := m.addResult a (now + 1) .zero false }

/-- The elements of an accumulator, and their marks. -/
def Mx.accAll (m : Mx) (a : BitVec 3) : BitVec 512 × BitVec 16 :=
  (BitVec.ofNat 512 (packElems 32 ((List.range 16).map fun e => (m.accElem a e).toNat)),
   BitVec.ofNat 16 (packElems 1 ((List.range 16).map fun e => (m.accMark a e).toNat)))

/-- MCHAIN (R254), which reads its accumulator in the cycle of issue (R261). Where OPB is a tile, or OPA is one and OPB is not
none, the half is the tile's bytes 0 to 31 (DESIGN CHOICE, log entry 136). -/
def Core.mchain (k : Core) (src : BitVec 5 → Entry) (f : MxF) (now : Nat) : Core :=
  let x := k.mxOperand src f.opa
  let y := k.mxOperand src f.opb
  let both := isTileCode f.opa && f.opb = 0
  let h0 := if f.opa = 0 then none else some (x.data.extractLsb' 0 256)
  let h1 := if both then some (x.data.extractLsb' 256 256)
            else if f.opb = 0 then none else some (y.data.extractLsb' 0 256)
  let px := (if both then x.marks else x.marks &&& 0x0F) != 0 && f.opa != 0
  let py := y.marks &&& 0x0F != 0 && f.opb != 0
  let was := k.mx.accAll f.acc
  { k with mx := k.mx.addResult f.acc (now + 3) (.chain was.1 was.2 h0 h1) (px || py) }

/-- An array operation with the MX_STATUS bits that it sets in cycle `now` noted (R11). -/
def Core.arrayOpIn (k : Core) (src : BitVec 5 → Entry) (f : MxF) (now : Nat) : Core :=
  let r := ({ k with mx := { k.mx with status := 0 } } : Core).arrayOp src f now
  { r with mx := { r.mx with status := k.mx.status ||| r.mx.status } }.noteSet now 0x038 r.mx.status

/-- The MX operation of an issued word in a core: `pred` is false where it is governed by a false
predicate (R262). MOUT's push is made by the issuing word. -/
def Core.mxIssue (k : Core) (src : BitVec 5 → Entry) (f : MxF) (pred : Bool) (now : Nat) : Core :=
  if isArrayOp f.op then
    if pred then k.arrayOpIn src f now
    else if now < k.mx.busyUntil then k
    else { k with mx := { k.mx with busyUntil := now + mxOccupancy f } }
  else if !pred then k
  else
    match f.op.toNat with
    | 5 => k.mocl src f
    | 6 => k.mzero f.acc now
    | 7 => k.mchain src f now
    | _ => k

/-- The entry MOUT pushes (R255, R262). -/
def Core.mout (k : Core) (f : MxF) (pred : Bool) : Entry :=
  if pred then k.mx.half f.acc (f.pass.getLsbD 0) else {}

end Sys2Proof.Machine
end

