-- ==== Sys2Proof/Machine/Scratchpad.lean ====
section
/-! DEFINITION. The scratchpad: SECDED words, fill tags, the two port cycles, scrubbing and its
registers (R109 to R113, R370 to R400). -/

namespace Sys2Proof.Machine

/-! ## Check bits (R372, R373) -/

/-- The number of set bits of an 8-bit value. -/
def popcount8 (v : Nat) : Nat := ((List.range 8).filter fun i => v / 2 ^ i % 2 = 1).length

/-- The column codes c(0) to c(64). -/
def columnCodes : List (BitVec 8) :=
  (((List.range 256).filter fun v => popcount8 v = 3) ++
    ((List.range 256).filter fun v => popcount8 v = 5).take 9).map (BitVec.ofNat 8)

/-- The exclusive OR of the codes of the set bits. -/
def xorCodes : List (BitVec 8) → Nat → BitVec 8
  | [], _ => 0
  | c :: cs, n => (if n % 2 = 1 then c else 0) ^^^ xorCodes cs (n / 2)

/-- The eight check bits of a word and its mark. -/
def checkBits (d : BitVec 64) (mark : Bool) : BitVec 8 :=
  xorCodes columnCodes (d.toNat + (if mark then 2 ^ 64 else 0))

/-- The protected bit whose column code is the syndrome. -/
def codeIndex (sy : BitVec 8) : List (BitVec 8) → Nat → Option Nat
  | [], _ => none
  | c :: cs, i => if c = sy then some i else codeIndex sy cs (i + 1)

/-- How a word decodes. -/
inductive EccKind where
  | clean
  | corrected
  | uncorrectable
  deriving DecidableEq, Repr

/-- Data and mark delivered for a syndrome (R373). -/
def decodeSyndrome (d : BitVec 64) (mark : Bool) (sy : BitVec 8) : BitVec 64 × Bool × EccKind :=
  if sy = 0 then (d, mark, .clean)
  else if popcount8 sy.toNat = 1 then (d, mark, .corrected)
  else
    match codeIndex sy columnCodes 0 with
    | some i => if i = 64 then (d, !mark, .corrected) else (d ^^^ BitVec.ofNat 64 (2 ^ i), mark, .corrected)
    | none => (d, true, .uncorrectable)

/-- A word read with its stored check bits: data, mark, how it decoded, and the syndrome. -/
def decodeWord (d : BitVec 64) (mark : Bool) (chk : BitVec 8) : BitVec 64 × Bool × EccKind × BitVec 8 :=
  let sy := chk ^^^ checkBits d mark
  let r := decodeSyndrome d mark sy
  (r.1, r.2.1, r.2.2, sy)

/-! ## Rows -/

namespace Core

def spadRow (k : Core) (r : BitVec 16) : SpadRow := smGet {} k.spad.rows r.toNat
def setSpad (k : Core) (p : Spad) : Core := { k with spad := p }
def setSpadRow (k : Core) (r : BitVec 16) (v : SpadRow) : Core :=
  k.setSpad { k.spad with rows := smSet k.spad.rows r.toNat v }

/-- A row as a read in port cycle `cyc` finds it: as it was before a write of the same port cycle (R111). -/
def rowIn (k : Core) (cyc : Nat) (r : BitVec 16) : SpadRow :=
  if k.spad.lastWrite = (cyc, r) then k.spad.lastOld.getD (k.spadRow r) else k.spadRow r

/-- A row written in port cycle `cyc`. -/
def putRow (k : Core) (cyc : Nat) (r : BitVec 16) (v : SpadRow) : Core :=
  let p := k.spad
  (k.setSpadRow r v).setSpad { (k.setSpadRow r v).spad with
    lastWrite := (cyc, r), lastOld := some (k.rowIn cyc r), writtenAt := smSet p.writtenAt r.toNat (cyc + 1) }

end Core

/-- Check bits of the four words of a row. -/
def rowChecks (e : Entry) : BitVec 32 :=
  checkBits (wordOf e.data 3) (e.poison.getLsbD 3) ++ checkBits (wordOf e.data 2) (e.poison.getLsbD 2) ++
  checkBits (wordOf e.data 1) (e.poison.getLsbD 1) ++ checkBits (wordOf e.data 0) (e.poison.getLsbD 0)

/-- The row with fresh data, marks and check bits and its tag unchanged (R374, R389). -/
def SpadRow.store (r : SpadRow) (e : Entry) : SpadRow := { r with data := e.data, marks := e.poison, chk := rowChecks e }

/-- The four decoded words of a row. -/
def SpadRow.decode (r : SpadRow) : List (BitVec 64 × Bool × EccKind × BitVec 8) :=
  (List.range 4).map fun w => decodeWord (wordOf r.data w) (r.marks.getLsbD w) (r.chk.extractLsb' (8 * w) 8)

/-- The row as delivered (R373). -/
def SpadRow.entry (r : SpadRow) : Entry :=
  ⟨rowOfWords (r.decode.map (·.1)), marksOf (r.decode.map (·.2.1))⟩

/-- Tag parity is right: an even number of ones among tag and parity bit (R371). -/
def SpadRow.tagOk (r : SpadRow) : Bool := r.parity = (r.tag.getLsbD 0 != r.tag.getLsbD 1)

/-- The row with a tag and its right parity. -/
def SpadRow.setTag (r : SpadRow) (t : BitVec 2) : SpadRow :=
  { r with tag := t, parity := t.getLsbD 0 != t.getLsbD 1 }

/-! ## Records (R375, R392 to R396) -/

/-- Who read (R393). -/
def agentCore : Nat := 0
def agentStream : Nat := 1
def agentScrub : Nat := 2
def agentSvc : Nat := 3

/-- Counts and logs the errors of a read of row `r` in cycle `cyc`; the truth value says that the grove's event bit is
to be set (R375). -/
def Core.logEcc (k : Core) (alm : BitVec 64) (cyc agent : Nat) (r : BitVec 16) (ws : List (BitVec 64 × Bool × EccKind × BitVec 8)) : Core × Bool :=
  let ce := (ws.filter fun w => w.2.2.1 = .corrected).length
  let ue := (ws.filter fun w => w.2.2.1 = .uncorrectable).length
  let p := k.spad
  let ecc := putBits p.ecc 63 32 (satAdd 0xFFFFFFFF (getBits p.ecc 63 32) ce)
  let ecc := putBits ecc 31 16 (satAdd 0xFFFF (getBits ecc 31 16) ue)
  let log :=
    if p.errLog.getLsbD 63 then p.errLog
    else
      match (List.range 4).find? fun w => match ws[w]? with | some x => x.2.2.1 = .uncorrectable | none => false with
      | none => p.errLog
      | some w =>
        let sy := match ws[w]? with | some x => x.2.2.2.toNat | none => 0
        BitVec.ofNat 64 (2 ^ 63 + agent * 2 ^ 58 + w * 2 ^ 56 + sy * 2 ^ 48 + r.toNat * 2 ^ 32 + alm.toNat % 2 ^ 32)
  let k := k.setSpad { p with ecc := ecc, errLog := log }
  let k := if p.errLog.getLsbD 63 then k else k.noteSet cyc 0x608 (log &&& 0x8000000000000000#64)
  (k.bump 0x0E ce, ue != 0)

/-- Event kinds of SPAD_CHK_LOG (R395). -/
def evUnderrun : Nat := 1
def evStale : Nat := 2
def evOverrun : Nat := 3
def evClobber : Nat := 4
def evCollision : Nat := 5
def evTagParity : Nat := 6

/-- The SPAD_CHK_STAT bit of an event kind (R394). -/
def statBit (kind : Nat) : Nat :=
  match kind with | 1 => 0 | 2 => 1 | 3 => 2 | 4 => 3 | 5 => 4 | _ => 5

/-- Makes a SPAD_CHK_LOG record where the log is empty (R395). -/
def logChk (p : Spad) (alm : BitVec 64) (kind : Nat) (tag : BitVec 2) (phase : Bool) (stream : Bool) (r : BitVec 16) : Spad :=
  if p.chkLog.getLsbD 63 then p
  else { p with chkLog := BitVec.ofNat 64 (2 ^ 63 + kind * 2 ^ 56 + tag.toNat * 2 ^ 54 + phase.toNat * 2 ^ 53 +
            stream.toNat * 2 ^ 52 + r.toNat * 2 ^ 32 + alm.toNat % 2 ^ 32) }

/-- Adds one to the SPAD_CHK_CNT field at [hi:lo] (R396). -/
def bumpChk (p : Spad) (hi lo : Nat) : Spad :=
  { p with chkCnt := putBits p.chkCnt hi lo (satAdd 0xFFFF (getBits p.chkCnt hi lo) 1) }

/-- Records an unmasked checking event; every one sets the grove's event bit (R394 to R396, R400). -/
def Spad.event (p : Spad) (alm : BitVec 64) (kind : Nat) (isRead : Bool) (tag : BitVec 2) (phase stream : Bool) (r : BitVec 16) : Spad :=
  let p := { p with chkStat := p.chkStat ||| BitVec.ofNat 64 (2 ^ statBit kind) }
  let p := logChk p alm kind tag phase stream r
  if kind = evUnderrun ∨ kind = evStale then bumpChk p 63 48
  else if isRead then bumpChk p 31 16 else bumpChk p 47 32

/-- Records a read event under a false predicate (R386). -/
def Spad.maskedEvent (p : Spad) (kind : Nat) : Spad :=
  bumpChk { p with chkStat := p.chkStat ||| BitVec.ofNat 64 (2 ^ statBit kind) } 15 0

/-! ## Checked accesses (R381 to R386) -/

/-- A core with a checking record `p` of an event in cycle `cyc`, its new event bits noted (R11). -/
def Core.setEvent (k : Core) (cyc kind : Nat) (p : Spad) : Core :=
  let k' := (k.setSpad p).noteSet cyc 0x610 (BitVec.ofNat 64 (2 ^ statBit kind))
  if k.spad.chkLog.getLsbD 63 then k' else k'.noteSet cyc 0x618 (p.chkLog &&& 0x8000000000000000#64)

/-- The FULL tag of a phase (R379). -/
def tagFull (phase : Bool) : BitVec 2 := if phase then 2 else 1
def tagEmpty : BitVec 2 := 0
def tagClobbered : BitVec 2 := 3

/-- A checked read: the tag afterwards and the event, if any (R381, R383). -/
def checkRead (r : SpadRow) (e : Bool) : BitVec 2 × Option Nat :=
  if !r.tagOk then (tagEmpty, some evTagParity)
  else if r.tag = tagFull e then (tagEmpty, none)
  else if r.tag = tagEmpty then (tagEmpty, some evUnderrun)
  else if r.tag = tagClobbered then (tagEmpty, some evClobber)
  else (r.tag, some evStale)

/-- A checked write: the tag afterwards and the event, if any (R382, R383). -/
def checkWrite (r : SpadRow) (w : Bool) : BitVec 2 × Option Nat :=
  if !r.tagOk then (tagClobbered, some evTagParity)
  else if r.tag = tagEmpty then (tagFull w, none)
  else (tagClobbered, some evOverrun)

/-- Element `el` of `bsz` bytes repeated over an entry, with the mark of its word (R148). -/
def broadcast (e : Entry) (bsz : BitVec 2) (el : BitVec 5) : Entry :=
  let n := 2 ^ bsz.toNat
  let v := e.data.toNat / 2 ^ (8 * n * el.toNat) % 2 ^ (8 * n)
  let m := e.poison.getLsbD (n * el.toNat / 8)
  ⟨BitVec.ofNat 256 (packElems (8 * n) (List.replicate (32 / n) v)), if m then 15 else 0⟩

/-- Puts a row that LD read into the first entry of its queue that still waits for one. -/
def fillSlot (e : Entry) (due : Nat) : List QSlot → List QSlot
  | [] => []
  | x :: xs => if x.filled then x :: fillSlot e due xs else { entry := e, due := due, landed := false, filled := true } :: xs

/-- A tuple in a send end's buffer, before those ready later (R330). -/
def insertTuple (t : Tuple) : List Tuple → List Tuple
  | [] => [t]
  | x :: xs => if t.ready < x.ready then t :: x :: xs else x :: insertTuple t xs

/-- A send of the low words of an entry on a send end, placed at the end of cycle `ready` (R98, R330). -/
def Core.send (k : Core) (c : BitVec 5) (e : Entry) (ready cost : Nat) : Core :=
  let n := c.toNat - 16
  let se := k.sendEnd n
  let ws := (List.range (se.tw.toNat + 1)).map fun w => (wordOf e.data w, e.poison.getLsbD w)
  k.setSendEnd n { se with buf := insertTuple { words := ws, ready := ready, cost := cost } se.buf }

/-- The read port's pending operation carried out (R109 to R111, R131, R146, R148, R373, R381). The
truth value says that the grove's event bit is to be set. -/
def Core.readPort (k : Core) (alm : BitVec 64) : Core × Bool :=
  match k.spad.portRd with
  | none => (k, false)
  | some p =>
    let row := k.spadRow p.row
    let ws := row.decode
    let r := (k.setSpad { k.spad with portRd := none, lastRead := some p, lastTag := row.tag }).logEcc alm p.cycle
      (if p.toCore then agentCore else agentStream) p.row ws
    let c := if p.tag then checkRead row p.phase else (row.tag, none)
    let k := if p.tag then r.1.setSpadRow p.row (row.setTag c.1) else r.1
    let k :=
      match c.2 with
      | none => k
      | some kind =>
        k.setEvent p.cycle kind
          (if p.masked then k.spad.maskedEvent kind else k.spad.event alm kind true row.tag p.phase (!p.toCore) p.row)
    let k := if p.toCore then k.bump 0x0B 1 else k
    let k := k.bump 0x0F c.2.isSome.toNat
    let e := if c.2.isSome then ⟨row.data, 15⟩ else row.entry
    let e := if p.bc then broadcast e p.bsz p.el else e
    let k :=
      if p.dest = 0 then k
      else if p.toCore then k.setQueue p.dest (fillSlot e (p.cycle + 1) (k.queue p.dest))
      else k.send p.dest e (p.cycle + 1) p.cost
    (k, r.2 || (c.2.isSome && !p.masked))

/-- Writes a row for a write port cycle, with its tag rule (R374, R382). -/
def Core.writeRow (k : Core) (alm : BitVec 64) (cyc : Nat) (r : BitVec 16) (e : Entry) (tag phase stream : Bool) : Core × Bool :=
  let row := k.spadRow r
  let c := if tag then checkWrite row phase else (row.tag, none)
  let row' := row.store e
  let row' := if tag then row'.setTag c.1 else row'
  let k := k.putRow cyc r row'
  let k := (if stream then k.bump 0x0C 1 else k).bump 0x0F c.2.isSome.toNat
  match c.2 with
  | none => (k, false)
  | some kind => (k.setEvent cyc kind (k.spad.event alm kind false row.tag phase stream r), true)

/-- The collision warning of a stream write against a core read of the same row (R388). -/
def Core.collide (k : Core) (alm : BitVec 64) (p : PortWrite) (r : BitVec 16) (phase : Bool) : Core :=
  match k.spad.lastRead with
  | none => k
  | some q =>
    if p.coll && q.toCore && q.cycle = p.cycle && q.row = r then
      let s := { k.spad with chkStat := k.spad.chkStat ||| BitVec.ofNat 64 (2 ^ statBit evCollision) }
      k.setEvent p.cycle evCollision (logChk s alm evCollision k.spad.lastTag phase true r)
    else k

/-- The write port's pending operation carried out, with the mesh words whose credits an inlet pop frees
(R109 to R111, R382, R386, R388). -/
def Core.writePort (k : Core) (alm : BitVec 64) : Core × Bool × List WordRef :=
  match k.spad.portWr with
  | none => (k, false, [])
  | some p =>
    let k := k.setSpad { k.spad with portWr := none }
    if p.byCore then
      if p.masked then (k, false, [])
      else let r := k.writeRow alm p.cycle p.row p.entry p.tag p.phase false; (r.1, r.2, [])
    else
      match k.net.inlet with
      | [] => ((k.setStatusBit p.cycle 2).bump 0x0D 1, false, [])
      | x :: xs =>
        if p.cycle ≤ x.due then ((k.setStatusBit p.cycle 2).bump 0x0D 1, false, []) else
        let k := { k with net := { k.net with inlet := xs } }
        if p.masked then (k, false, x.words)
        else
          let row := rowOf x.row.toNat
          let k := k.collide alm p row x.phase
          let r := k.writeRow alm p.cycle row x.entry p.tag x.phase true
          (r.1, r.2, x.words)

/-- What the control word that owns port cycle `cyc` left of it (R109, R112). -/
def Spad.portAt (p : Spad) (cyc : Nat) : PortCycle :=
  if p.port.cycle = cyc then p.port else if p.portWas.cycle = cyc then p.portWas else { cycle := cyc }

/-- A port of port cycle `cyc` is used. -/
def Spad.takePort (p : Spad) (cyc : Nat) (write : Bool) : Spad :=
  let x := p.portAt cyc
  let x := if write then { x with wrOwned := true } else { x with rdOwned := true }
  if p.port.cycle = cyc then { p with port := x }
  else if p.port.cycle < cyc then { p with portWas := p.port, port := x }
  else if p.portWas.cycle ≤ cyc then { p with portWas := x }
  else p

/-- The reads of injections that are due by port cycle `cyc` (R398). -/
def Core.injectRead (k : Core) (cyc : Nat) : Core :=
  let due := fun (x : Inject) => x.was.isNone && x.cycle ≤ cyc
  let p := (k.spad.injecting.filter due).foldl (fun p x => p.takePort x.cycle false) k.spad
  let read := fun (x : Inject) => if due x then { x with was := some (k.rowIn x.cycle x.row) } else x
  k.setSpad { p with injecting := k.spad.injecting.map read }

/-- The write-back of an injection that has read its row: FLIP inverts check bits of that row (R398). -/
def Core.injectBack (k : Core) (x : Inject) : Core :=
  match x.was with
  | none => k
  | some r => (k.setSpad (k.spad.takePort (x.cycle + 1) true)).putRow (x.cycle + 1) x.row { r with chk := r.chk ^^^ x.flip }

/-- The write-backs of injections that are due by port cycle `cyc`, in the order of their GO (R398; log entry 142). -/
def Core.injectWrite (k : Core) (cyc : Nat) : Core :=
  let due := fun (x : Inject) => x.was.isSome && x.cycle + 1 ≤ cyc
  (k.spad.injecting.filter due).foldl Core.injectBack (k.setSpad { k.spad with injecting := k.spad.injecting.filter fun x => !due x })

/-- The injections carried on up to port cycle `cyc`. -/
def Core.injectTo (k : Core) (cyc : Nat) : Core := ((k.injectWrite cyc).injectRead cyc).injectWrite cyc

/-- The port cycle, up to `cyc`, of the operations that the latest word owns. -/
def Spad.portCycle (p : Spad) (cyc : Nat) : Nat :=
  match p.portRd, p.portWr with
  | some x, _ => min x.cycle cyc
  | none, some x => min x.cycle cyc
  | none, none => cyc

/-- Both ports' operations that a port cycle before or in `cyc` owes: the read first (R111, R385). -/
def Core.wordPorts (k : Core) (alm : BitVec 64) (cyc : Nat) : Core × Bool × List WordRef :=
  let rd : Bool := match k.spad.portRd with | some p => decide (p.cycle ≤ cyc) | none => false
  let wr : Bool := match k.spad.portWr with | some p => decide (p.cycle ≤ cyc) | none => false
  let a := if rd then k.readPort alm else (k, false)
  let b := if wr then a.1.writePort alm else (a.1, false, [])
  (b.1, a.2 || b.2.1, b.2.2)

/-- Everything that the port cycles up to `cyc` owe: the word's operations, and an injection's before, with and after them. -/
def Core.ports (k : Core) (alm : BitVec 64) (cyc : Nat) : Core × Bool × List WordRef :=
  let p := k.spad.portCycle cyc
  let k := if 0 < p then k.injectTo (p - 1) else k
  let r := (k.injectRead p).wordPorts alm cyc
  (r.1.injectTo cyc, r.2)

namespace State

/-- Sets a grove's bit of SPAD_EVT_MAP; the change from 0 to 1 writes a contained fault entry (R390, R400). -/
def spadEvent (s : State) (g : GroveId) : State :=
  let f := groveBit SPAD_EVT_MAP.off g
  if s.flag f then s else (s.setFlag f).faultEntry classContained 1 g.toNat 0x0001 0

/-- Sets the event bit where `e` holds. -/
def spadEventIf (s : State) (g : GroveId) (e : Bool) : State := if e then s.spadEvent g else s

end State

/-! ## Scrubbing (R376 to R378) -/

/-- Port cycle `cyc` is owned by a word with the scrub mark. -/
def Spad.scrubMark (p : Spad) (cyc : Nat) : Bool := (p.portAt cyc).scrub

/-- The pointer moved to the next row. -/
def Spad.nextPtr (p : Spad) : Spad := { p with ptr := rowOf (p.ptr.toNat + 1) }

/-- A rewrite that is due in port cycle `cyc` carried out or abandoned; one that is still to come waits (R377). -/
def Core.scrubWrite (k : Core) (cyc : Nat) : Core :=
  match k.spad.scrubWr with
  | none => k
  | some w =>
    let p := { k.spad with scrubWr := none }
    if cyc < w.cycle then k
    else if w.cycle = cyc && p.scrubMark cyc && !(p.portAt cyc).wrOwned && smGet 0 p.writtenAt w.row.toNat ≠ cyc then
      (k.setSpad (p.takePort cyc true).nextPtr).putRow cyc w.row ((k.spadRow w.row).store w.entry)
    else k.setSpad p

/-- The scrubber's read in port cycle `cyc` (R376, R377), with whether the event bit is to be set. -/
def Core.scrubRead (k : Core) (alm : BitVec 64) (cyc : Nat) : Core × Bool :=
  let p := k.spad
  if p.scrubMark cyc && !(p.portAt cyc).rdOwned && p.scrubEn && p.scrubWr.isNone then
    let row := k.rowIn cyc p.ptr
    let ws := row.decode
    let r := (k.setSpad (p.takePort cyc false)).logEcc alm cyc agentScrub p.ptr ws
    if ws.all fun w => w.2.2.1 = .clean then (r.1.setSpad r.1.spad.nextPtr, false)
    else (r.1.setSpad { r.1.spad with scrubWr := some ⟨cyc + 1, p.ptr, row.entry⟩ }, r.2)
  else (k, false)

/-! ## Maintenance (R387, R397 to R399) -/

/-- Every tag of a core EMPTY with right parity (R387). -/
def Core.clearTags (k : Core) : Core :=
  k.setSpad { k.spad with rows := k.spad.rows.map fun e => (e.1, e.2.setTag tagEmpty) }

/-- SPAD_ECC and SPAD_CHK_CNT cleared (R397). -/
def Core.clearLogs (k : Core) : Core := k.setSpad { k.spad with ecc := 0, chkCnt := 0 }

/-- SPAD_INJECT.GO in cycle `now`: the row is read in the next cycle, and written back in the one after with the stored
check bits of one word inverted by FLIP (R398). -/
def Core.inject (k : Core) (now : Nat) (v : BitVec 64) : Core :=
  let flip := BitVec.ofNat 32 (getBits v 7 0 * 2 ^ (8 * getBits v 17 16))
  k.setSpad { k.spad with injecting := k.spad.injecting ++ [⟨now + 1, rowOf (getBits v 47 32), flip, none⟩] }

/-- A write of SPAD_INJECT in cycle `now`: ROW, WORD and FLIP are stored, GO acts (R398). -/
def Core.writeInject (k : Core) (now : Nat) (v : BitVec 64) : Core :=
  let k := k.setSpad { k.spad with inject := v &&& 0x0000FFFF000300FF#64 }
  if v.getLsbD 8 then k.inject now v else k

/-- A write of SPAD_TAGk: 32 tags with right parity (R399). -/
def Core.writeTags (k : Core) (n : Nat) (v : BitVec 64) : Core :=
  (List.range 32).foldl (fun (k : Core) m =>
    let r := BitVec.ofNat 16 (32 * n + m)
    k.setSpadRow r ((k.spadRow r).setTag (v.extractLsb' (2 * m) 2))) k

/-- The value of SPAD_TAGk (R399). -/
def Core.readTags (k : Core) (n : Nat) : BitVec 64 :=
  BitVec.ofNat 64 (packElems 2 ((List.range 32).map fun m => (k.spadRow (BitVec.ofNat 16 (32 * n + m))).tag.toNat))

end Sys2Proof.Machine
end

