-- ==== Sys2Proof/Machine/Vfn.lean ====
section
/-! DEFINITION. The table-driven functions of the vector engine (R302): the exact mathematical value
rounded once to nearest even. A value is enclosed between two integers over 2 ^ p by interval
arithmetic; the precision rises until both ends round to the same encoding. -/

namespace Sys2Proof.Machine

/-! ## Intervals of numbers n / 2 ^ p -/

/-- An enclosure: both ends in units of 2 ^ -p, p being an argument of each operation. -/
structure Ival where
  lo : Int
  hi : Int
  deriving DecidableEq, Repr

/-- Quotient rounded down, for a positive divisor. -/
def divDn (a b : Int) : Int := a / b

/-- Quotient rounded up, for a positive divisor. -/
def divUp (a b : Int) : Int := -(-a / b)

namespace Ival

def ofInt (p : Nat) (n : Int) : Ival := ⟨n * 2 ^ p, n * 2 ^ p⟩

/-- The exact number n × 2 ^ e. -/
def ofExact (p : Nat) (d : Exact) : Ival :=
  let s : Int := d.e + p
  if 0 ≤ s then ⟨d.n * 2 ^ s.toNat, d.n * 2 ^ s.toNat⟩
  else ⟨divDn d.n (2 ^ (-s).toNat), divUp d.n (2 ^ (-s).toNat)⟩

def add (a b : Ival) : Ival := ⟨a.lo + b.lo, a.hi + b.hi⟩
def neg (a : Ival) : Ival := ⟨-a.hi, -a.lo⟩
def sub (a b : Ival) : Ival := a.add b.neg

def min4 (a b c d : Int) : Int := min (min a b) (min c d)
def max4 (a b c d : Int) : Int := max (max a b) (max c d)

def mul (p : Nat) (a b : Ival) : Ival :=
  let w := a.lo * b.lo
  let x := a.lo * b.hi
  let y := a.hi * b.lo
  let z := a.hi * b.hi
  ⟨divDn (min4 w x y z) (2 ^ p), divUp (max4 w x y z) (2 ^ p)⟩

/-- Division by a positive integer. -/
def divNat (a : Ival) (n : Nat) : Ival := ⟨divDn a.lo n, divUp a.hi n⟩

/-- Division by an interval of positive numbers. -/
def div (p : Nat) (a b : Ival) : Ival :=
  let m : Int := 2 ^ p
  ⟨min (divDn (a.lo * m) b.lo) (divDn (a.lo * m) b.hi),
   max (divUp (a.hi * m) b.lo) (divUp (a.hi * m) b.hi)⟩

/-- Doubles the width by `k` units at each end. -/
def widen (a : Ival) (k : Int) : Ival := ⟨a.lo - k, a.hi + k⟩

end Ival

/-- Integer square root by bits, `fuel` of them. -/
def isqrtGo (n : Nat) : Nat → Nat → Nat
  | 0, r => r
  | k + 1, r => let t := r + 2 ^ k; if t * t ≤ n then isqrtGo n k t else isqrtGo n k r

/-- The integer square root, rounded down. -/
def isqrt (n : Nat) : Nat := isqrtGo n (Nat.log2 n / 2 + 1) 0

/-- Square root of an interval of numbers that are not negative. -/
def Ival.sqrt (p : Nat) (a : Ival) : Ival :=
  ⟨isqrt (a.lo.toNat * 2 ^ p), isqrt (a.hi.toNat * 2 ^ p) + 1⟩

/-- Sum of r ^ i / i! for i from `i` up to `i + n`, by Horner's rule from the last term. -/
def expHorner (p : Nat) (r : Ival) : Nat → Nat → Ival
  | 0, _ => Ival.ofInt p 1
  | n + 1, i => (Ival.ofInt p 1).add ((r.mul p (expHorner p r n (i + 1))).divNat i)

/-- Squares `k` times. -/
def squares (p : Nat) : Nat → Ival → Ival
  | 0, a => a
  | k + 1, a => squares p k (a.mul p a)

/-- e ^ x for an interval of numbers that are not negative. -/
def expPos (p : Nat) (x : Ival) : Ival :=
  let k := 8 + (Nat.log2 (x.hi.toNat / 2 ^ p + 1) + 1)
  let r := x.divNat (2 ^ k)
  squares p k ((expHorner p r (p / 8 + 2) 1).widen 2)

/-- e ^ x. -/
def Ival.exp (p : Nat) (x : Ival) : Ival :=
  let one := Ival.ofInt p 1
  if 0 ≤ x.lo then expPos p x
  else if x.hi ≤ 0 then one.div p (expPos p x.neg)
  else ⟨(one.div p (expPos p ⟨0, -x.lo⟩)).lo, (expPos p ⟨0, x.hi⟩).hi⟩

/-- Sum of z2 ^ i / (2i + 1), `n` terms from index `i`. -/
def atanhHorner (p : Nat) (z2 : Ival) (alt : Bool) : Nat → Nat → Ival
  | 0, _ => ⟨0, 0⟩
  | n + 1, i =>
    let t := z2.mul p (atanhHorner p z2 alt n (i + 1))
    ((Ival.ofInt p 1).divNat (2 * i + 1)).add (if alt then t.neg else t)

/-- ln ((1 + z) / (1 - z)) for |z| at most 1/3. -/
def lnRatio (p : Nat) (z : Ival) : Ival :=
  ((z.mul p (atanhHorner p (z.mul p z) false (p / 3 + 2) 0)).mul p (Ival.ofInt p 2)).widen 4

/-- ln 2. -/
def ln2 (p : Nat) : Ival := lnRatio p ((Ival.ofInt p 1).divNat 3)

/-- arctan of 1 / n for n at least 5. -/
def atanInv (p n : Nat) : Ival :=
  let z := (Ival.ofInt p 1).divNat n
  (z.mul p (atanhHorner p (z.mul p z) true (p / 4 + 2) 0)).widen 4

/-- π by Machin's formula. -/
def piIval (p : Nat) : Ival :=
  ((atanInv p 5).mul p (Ival.ofInt p 16)).sub ((atanInv p 239).mul p (Ival.ofInt p 4))

/-- ln of the positive number m × 2 ^ e. -/
def lnOf (p m : Nat) (e : Int) : Ival :=
  let l := Nat.log2 m
  -- m × 2 ^ e = f × 2 ^ k with f from 3/4 to 3/2
  let up := 3 * 2 ^ l < 2 * m
  let k : Int := e + l + (if up then 1 else 0)
  let fe : Int := -(l : Int) - (if up then 1 else 0)
  let f := Ival.ofExact p ⟨m, fe⟩
  let one := Ival.ofInt p 1
  let z := (f.sub one).div p (f.add one)
  (lnRatio p z).add ((ln2 p).mul p (Ival.ofInt p k))

/-- Sum over i of the terms t × (2 y2) ^ i / (3 × 5 × … × (2i + 1)), `n` of them. -/
def erfSeries (p : Nat) (y2 : Ival) : Nat → Nat → Ival → Ival → Ival
  | 0, _, t, acc => (acc.add t).add ⟨0, t.hi⟩
  | n + 1, i, t, acc => erfSeries p y2 n (i + 1) (((t.mul p y2).mul p (Ival.ofInt p 2)).divNat (2 * i + 3)) (acc.add t)

/-- erf of an interval of numbers from 0 to 16, given their squares. -/
def erfPos (p : Nat) (y y2 : Ival) : Ival :=
  let n := 4 * (y2.hi.toNat / 2 ^ p + 1) + p
  let s := erfSeries p y2 n 0 y ⟨0, 0⟩
  let c := (Ival.ofInt p 2).div p ((piIval p).sqrt p)
  (c.mul p (s.mul p (Ival.exp p y2.neg)))

/-! ## Rounding an enclosure -/

/-- The rounded value when both ends of the enclosure give it, with its flags and NX. -/
def FFmt.roundIval (f : FFmt) (p : Nat) (v : Ival) : Option (Nat × FlagSet) :=
  if v.lo < 0 ∧ 0 < v.hi then none
  else
    let ng : Bool := v.lo < 0
    let a := f.roundInt ng v.lo (-(p : Int))
    let b := f.roundInt ng v.hi (-(p : Int))
    if a.1 = b.1 ∧ (a.2 ||| flNX = b.2 ||| flNX ∨ v.lo = 0 ∨ v.hi = 0) then some (a.1, a.2 ||| b.2 ||| flNX)
    else none

/-- Tries rising precisions. -/
def FFmt.refine (f : FFmt) (g : Nat → Ival) : List Nat → Option (Nat × FlagSet)
  | [] => none
  | p :: ps => match f.roundIval p (g p) with | some r => some r | none => f.refine g ps

/-- The precisions tried. -/
def vfnPrecisions : List Nat := [128, 256, 512, 1024, 2048]

/-! ## The functions -/

/-- The enclosure of a function at a nonzero finite x = ± m × 2 ^ e of moderate size. -/
def vfnIval (fn : Nat) (neg : Bool) (m : Nat) (e : Int) (p : Nat) : Ival :=
  let one := Ival.ofInt p 1
  let x := Ival.ofExact p (exactOf neg m e)
  let ax := Ival.ofExact p (exactOf false m e)
  let x2 := Ival.ofExact p ⟨(m * m : Nat), 2 * e⟩
  let sig (t : Ival) := one.div p (one.add (Ival.exp p t.neg))
  match fn with
  | 0 => x.exp p
  | 1 => (x.mul p (ln2 p)).exp p
  | 2 => lnOf p m e
  | 3 => (lnOf p m e).div p (ln2 p)
  | 4 => let q := one.div p ax; if neg then q.neg else q
  | 5 => (one.div p ax).sqrt p
  | 6 => ax.sqrt p
  | 7 => sig x
  | 8 =>
    let t := Ival.exp p (ax.add ax).neg
    let q := (one.sub t).div p (one.add t)
    if neg then q.neg else q
  | 9 =>
    let x3 := Ival.ofExact p ⟨(if neg then -1 else 1) * (m * m * m : Nat), 3 * e⟩
    let in_ := x.add ((x3.mul p (Ival.ofInt p 44715)).divNat 1000000)
    let c := ((Ival.ofInt p 2).div p (piIval p)).sqrt p
    let u := c.mul p in_
    x.mul p (sig (u.add u))
  | 10 =>
    let y := ax.div p ((Ival.ofInt p 2).sqrt p)
    let er := erfPos p y (x2.divNat 2)
    let half := (one.add (if neg then er.neg else er)).divNat 2
    x.mul p half
  | 11 => x.mul p (sig x)
  | _ => let er := erfPos p ax x2; if neg then er.neg else er

/-- Whether |x| = m × 2 ^ e is at least 2 ^ k. -/
def atLeastPow (m : Nat) (e k : Int) : Bool := k ≤ e + Nat.log2 m

/-- A finite nonzero argument (R302). `none` where no precision tried decides the rounding. -/
def FFmt.vfnFin (f : FFmt) (fn : Nat) (neg : Bool) (m : Nat) (e : Int) : Option (Nat × FlagSet) :=
  let under (ng : Bool) : Option (Nat × FlagSet) := some (f.sign ng, flUF ||| flNX)
  let one : Nat × FlagSet := f.round false 1 0
  let same : Option (Nat × FlagSet) := let r := f.round neg m e; some (r.1, r.2 ||| flNX)
  let big := atLeastPow m e 8
  -- m × 2 ^ e as an integer, where it is one
  let isInt := 0 ≤ e ∨ m % 2 ^ (-e).toNat = 0
  let pow2 := m = 2 ^ Nat.log2 m
  let lg : Int := e + Nat.log2 m
  match fn with
  | 0 => if big then (if neg then under false else some (f.infBits false, flOF ||| flNX))
         else f.refine (vfnIval 0 neg m e) vfnPrecisions
  | 1 =>
    if atLeastPow m e 9 then (if neg then under false else some (f.infBits false, flOF ||| flNX))
    else if isInt then
      let k : Int := if 0 ≤ e then (m * 2 ^ e.toNat : Nat) else (m / 2 ^ (-e).toNat : Nat)
      some (f.round false 1 (if neg then -k else k))
    else f.refine (vfnIval 1 neg m e) vfnPrecisions
  | 2 => if neg then some (f.nanBits, flNV)
         else if pow2 ∧ lg = 0 then some (0, 0) else f.refine (vfnIval 2 neg m e) vfnPrecisions
  | 3 => if neg then some (f.nanBits, flNV)
         else if pow2 then some (f.roundInt false lg 0) else f.refine (vfnIval 3 neg m e) vfnPrecisions
  | 4 => if pow2 then some (f.round neg 1 (-lg)) else f.refine (vfnIval 4 neg m e) vfnPrecisions
  | 5 => if neg then some (f.nanBits, flNV)
         else if pow2 ∧ lg % 2 = 0 then some (f.round false 1 (-lg / 2)) else f.refine (vfnIval 5 neg m e) vfnPrecisions
  | 6 =>
    if neg then some (f.nanBits, flNV)
    else
      let n := if e % 2 = 0 then m else 2 * m
      let d : Int := if e % 2 = 0 then e / 2 else (e - 1) / 2
      let r := isqrt n
      if r * r = n then some (f.round false r d) else f.refine (vfnIval 6 neg m e) vfnPrecisions
  | 7 => if big then (if neg then under false else some (one.1, flNX)) else f.refine (vfnIval 7 neg m e) vfnPrecisions
  | 8 => if big then some (f.sign neg + one.1, flNX) else f.refine (vfnIval 8 neg m e) vfnPrecisions
  | 9 => if big then (if neg then under true else same) else f.refine (vfnIval 9 neg m e) vfnPrecisions
  | 10 => if atLeastPow m e 4 then (if neg then under true else same) else f.refine (vfnIval 10 neg m e) vfnPrecisions
  | 11 => if big then (if neg then under true else same) else f.refine (vfnIval 11 neg m e) vfnPrecisions
  | _ => if atLeastPow m e 4 then some (f.sign neg + one.1, flNX) else f.refine (vfnIval 12 neg m e) vfnPrecisions

/-- The functions at zero (R302). -/
def FFmt.vfnZero (f : FFmt) (fn : Nat) (neg : Bool) : Nat × FlagSet :=
  let one := (f.round false 1 0).1
  match fn with
  | 0 | 1 => (one, 0)
  | 2 | 3 => (f.infBits true, flDZ)
  | 4 | 5 => (f.infBits neg, flDZ)
  | 7 => ((f.round false 1 (-1)).1, 0)
  | _ => (f.sign neg, 0)

/-- The functions at an infinity (R302). -/
def FFmt.vfnInf (f : FFmt) (fn : Nat) (neg : Bool) : Nat × FlagSet :=
  let one := (f.round false 1 0).1
  match fn with
  | 0 | 1 => if neg then (0, 0) else (f.infBits false, 0)
  | 2 | 3 => if neg then (f.nanBits, flNV) else (f.infBits false, 0)
  | 4 => (f.sign neg, 0)
  | 5 => if neg then (f.nanBits, flNV) else (0, 0)
  | 6 => if neg then (f.nanBits, flNV) else (f.infBits false, 0)
  | 7 => if neg then (0, 0) else (one, 0)
  | 8 | 12 => (f.sign neg + one, 0)
  | _ => if neg then (f.sign true, 0) else (f.infBits false, 0)

/-- VFN of one element. `none` where no precision settles the rounding (log entry 11). -/
def FFmt.vfn (f : FFmt) (fn : Nat) (v : FVal) : Option (Nat × FlagSet) :=
  match v with
  | .nan sg => some (f.nanBits, if sg then flNV else 0)
  | .inf ng => some (f.vfnInf fn ng)
  | .fin ng m e => if m = 0 then some (f.vfnZero fn ng) else f.vfnFin fn ng m e

end Sys2Proof.Machine
end

