-- ==== Sys2Proof/Machine/Vx.lean ====
section
/-! DEFINITION. The vector engine: what one VXA or VXB operation computes from its operand entries, the
vector length, the masks and an accumulator half (R278 to R310). -/

namespace Sys2Proof.Machine

/-! ## Elements by type (R279) -/

/-- A floating-point TYPE. -/
def vxIsFloat (ty : BitVec 3) : Bool := ty ≤ 2 || ty = 6 || ty = 7

/-- The format of a floating-point TYPE. -/
def vxFmt (ty : BitVec 3) : FFmt :=
  match ty.toNat with
  | 1 => bf16
  | 2 => fp16
  | 6 => e4m3
  | 7 => e5m2
  | _ => fp32

/-- The value of a float element. An FP8 NaN is never signalling (R244). -/
def vxDecode (ty : BitVec 3) (x : Nat) : FVal :=
  match (vxFmt ty).decode x with
  | .nan sg => .nan (sg && ty ≤ 2)
  | v => v

/-- Element count of an operation (R281). -/
def vxLen (vl : BitVec 6) (ty : BitVec 3) : Nat := min vl.toNat (vxCount ty)

/-- An operand as the engine sees it: its entry, and whether it is there at all. -/
structure VxIn where
  a    : Entry
  b    : Entry
  c    : Entry
  half : Entry          -- the accumulator half that VACC reads
  halfMarks : BitVec 8  -- and the marks of its eight elements
  noA  : Bool           -- SRCA is the none code
  deriving DecidableEq, Repr

/-- What an operation produces. -/
structure VxOut where
  entry  : Entry := {}
  flags  : FlagSet := 0
  mask   : Option (BitVec 2 × BitVec 32) := none
  poisonCmp : Bool := false
  vl     : Option (BitVec 6 × Bool) := none   -- new length and whether it was clamped
  deriving DecidableEq, Repr

/-- One result element: its bits, flags and mark. -/
structure VxElem where
  bits  : Nat := 0
  flags : FlagSet := 0
  mark  : Bool := false
  deriving DecidableEq, Repr

/-- The mark of the word that holds element `i`. -/
def markOf (ty : BitVec 3) (e : Entry) (i : Nat) : Bool := e.poison.getLsbD (elemWord ty i)

/-- An output entry of elements of type `ty`; elements at `n` and above are zero and unmarked (R284, R309). -/
def vxPack (ty : BitVec 3) (n : Nat) (g : Nat → VxElem) : Entry × FlagSet :=
  let es := (List.range n).map g
  let w := vxBits ty
  (⟨BitVec.ofNat 256 (packElems w (es.map (·.bits))),
    marksOf ((List.range 4).map fun k => (List.range n).any fun i => elemWord ty i = k && ((es[i]?).getD {}).mark)⟩,
   es.foldl (fun f e => f ||| e.flags) 0)

/-! ## Elementwise operations -/

/-- VADD, VSUB, VMUL and VFMA of one element (R288, R289, R291). -/
def vxArith (op : BitVec 6) (ty : BitVec 3) (x y z : Nat) : Nat × FlagSet :=
  if vxIsFloat ty then
    let f := vxFmt ty
    let a := vxDecode ty x
    let b := vxDecode ty y
    match op.toNat with
    | 1 => f.sum [a, b]
    | 2 => f.sum [a, b.neg]
    | 3 => f.mul a b
    | _ => f.fma a b (vxDecode ty z)
  else
    let w := vxBits ty
    let a := signedOf w x
    let b := signedOf w y
    (match op.toNat with
      | 1 => lowBits w (a + b)
      | 2 => lowBits w (a - b)
      | 3 => lowBits w (a * b)
      | _ => lowBits w (a * b + signedOf w z), 0)

/-- VMIN and VMAX of one element (R290, R291). -/
def vxMinMax (isMax : Bool) (ty : BitVec 3) (x y : Nat) : Nat × FlagSet :=
  if vxIsFloat ty then
    let a := vxDecode ty x
    let b := vxDecode ty y
    let fl := if a.isSnan || b.isSnan then flNV else 0
    if a.isNan || b.isNan then ((vxFmt ty).nanBits, fl)
    else (if (if isMax then b.before a else a.before b) then x else y, 0)
  else
    let w := vxBits ty
    (if (if isMax then signedOf w y ≤ signedOf w x else signedOf w x ≤ signedOf w y) then x else y, 0)

/-- The truth of a comparison and its flags (R292, R293). -/
def vxCompare (cond : BitVec 3) (ty : BitVec 3) (x y : Nat) : Bool × FlagSet :=
  if vxIsFloat ty then
    let a := vxDecode ty x
    let b := vxDecode ty y
    let un := a.isNan || b.isNan
    let snan := if a.isSnan || b.isSnan then flNV else 0
    match cond.toNat with
    | 0 => (!un && a.cmp b = 0, snan)
    | 1 => (un || a.cmp b != 0, snan)
    | 2 => (!un && a.cmp b < 0, if un then flNV else 0)
    | 3 => (!un && a.cmp b ≤ 0, if un then flNV else 0)
    | 4 => (!un && 0 < a.cmp b, if un then flNV else 0)
    | 5 => (!un && 0 ≤ a.cmp b, if un then flNV else 0)
    | _ => (un, snan)
  else
    let w := vxBits ty
    let a := signedOf w x
    let b := signedOf w y
    (match cond.toNat with
      | 0 => a = b
      | 1 => a ≠ b
      | 2 => a < b
      | 3 => a ≤ b
      | 4 => b < a
      | 5 => b ≤ a
      | _ => false, 0)

/-- VSHL and VSHR of one element (R295). -/
def vxShift (op : BitVec 6) (ty : BitVec 3) (imm : BitVec 8) (x : Nat) : Nat :=
  let w := vxBits ty
  let n := (imm.extractLsb' 0 5).toNat
  if op = 0x0C then x * 2 ^ n % 2 ^ w
  else if imm.getLsbD 5 then lowBits w (signedOf w x / 2 ^ n)
  else x / 2 ^ n

/-- VAND, VOR and VXOR of one element. -/
def vxLogic (op : BitVec 6) (x y : Nat) : Nat :=
  match op.toNat with
  | 0x09 => x &&& y
  | 0x0A => x ||| y
  | _ => x ^^^ y

/-- VCVT of one element (R234, R296, R297); a widening float conversion is exact whatever the saturate bit holds. From FP32 to
FP32 the saturate bit turns an infinity into the largest finite value (DESIGN CHOICE, log entry 138). -/
def vxConvert (src dst : BitVec 3) (sat : Bool) (x : Nat) : Nat × FlagSet :=
  if vxIsFloat src then
    if vxIsFloat dst then (vxFmt dst).convert (sat && decide (vxBits dst ≤ vxBits src)) (vxDecode src x)
    else convertToInt (vxBits dst) (vxDecode src x)
  else
    let i := signedOf (vxBits src) x
    if vxIsFloat dst then (vxFmt dst).ofInt sat i else intToInt (vxBits dst) i

/-- The source element of destination element `i` of a VCVT (R296): operand, index; `none` for a zero. -/
def vxCvtSource (src dst : BitVec 3) (i : Nat) : Option (Bool × Nat) :=
  let ns := vxCount src
  if vxCount dst ≤ ns then some (false, i)
  else if i < ns then some (false, i)
  else if i < 2 * ns then some (true, i - ns)
  else none

/-! ## Compress, expand and reductions -/

/-- The indices below `n` whose mask bit is set, in order. -/
def maskIndices (m : BitVec 32) (n : Nat) : List Nat := (List.range n).filter fun i => m.getLsbD i

/-- The number of set mask bits below `i`. -/
def maskRank (m : BitVec 32) (i : Nat) : Nat := (maskIndices m i).length

/-- VRSUM (R300): the sum in FP32 or INT32. -/
def vxSum (ty : BitVec 3) (xs : List Nat) : Nat × FlagSet :=
  if vxIsFloat ty then fp32.sum (xs.map (vxDecode ty))
  else
    let r := clampInt 32 (xs.foldl (fun (n : Int) x => n + signedOf (vxBits ty) x) 0)
    (lowBits 32 r.1, if r.2 then flSAT else 0)

/-- VRMAX (R301). -/
def vxMax (ty : BitVec 3) : List Nat → Nat × FlagSet
  | [] => (if vxIsFloat ty then (vxFmt ty).infBits true else 2 ^ (vxBits ty - 1), 0)
  | [x] =>
    if vxIsFloat ty && (vxDecode ty x).isNan then
      ((vxFmt ty).nanBits, if (vxDecode ty x).isSnan then flNV else 0)
    else (x, 0)
  | x :: xs =>
    let r := vxMax ty xs
    let s := vxMinMax true ty x r.1
    (s.1, s.2 ||| r.2)

/-! ## The random generator (R303 to R305) -/

/-- One round's output of Philox-4×32. -/
def philoxRound (k0 k1 : BitVec 32) (ctr : List (BitVec 32)) : List (BitVec 32) :=
  let g := fun i => (ctr[i]?).getD 0
  let p0 : BitVec 64 := 0xD2511F53#64 * (g 0).zeroExtend 64
  let p1 : BitVec 64 := 0xCD9E8D57#64 * (g 2).zeroExtend 64
  [p1.extractLsb' 32 32 ^^^ g 1 ^^^ k0, p1.extractLsb' 0 32,
   p0.extractLsb' 32 32 ^^^ g 3 ^^^ k1, p0.extractLsb' 0 32]

/-- `n` rounds. -/
def philoxGo : Nat → BitVec 32 → BitVec 32 → List (BitVec 32) → List (BitVec 32)
  | 0, _, _, c => c
  | n + 1, k0, k1, c => philoxGo n (k0 + 0x9E3779B9) (k1 + 0xBB67AE85) (philoxRound k0 k1 c)

/-- The four output words of a block. -/
def philox (k0 k1 c0 c1 c2 c3 : BitVec 32) : List (BitVec 32) := philoxGo 10 k0 k1 [c0, c1, c2, c3]

/-- The eight output words for an entry (R303, R304). -/
def vrngWords (d : BitVec 256) : List (BitVec 32) :=
  let w := fun i => d.extractLsb' (32 * i) 32
  philox (w 0) (w 1) (w 2) (w 3) (w 4) (w 5) ++ philox (w 0) (w 1) (w 2) (w 3) (w 4) (w 5 + 1)

/-- A word as VRNG pushes it (R305). -/
def vrngElem (ty : BitVec 3) (w : BitVec 32) : Nat :=
  if ty = 0 then (fp32.round false (w.toNat / 256) (-24)).1 else w.toNat

/-! ## One operation -/

/-- Latency n of an operation: poppable from c + n (R306). -/
def vxLatency (op : BitVec 6) : Nat :=
  match op.toNat with
  | 0x01 | 0x02 | 0x03 | 0x0E | 0x13 | 0x14 => 3
  | 0x04 | 0x12 => 4
  | 0x11 => 5
  | 0x10 => 9
  | 0x15 => 12
  | _ => 2

/-- An operation of element results in its own TYPE. -/
def vxEach (ty : BitVec 3) (n : Nat) (g : Nat → Nat × FlagSet) (mark : Nat → Bool) : VxOut :=
  let r := vxPack ty n fun i => let v := g i; ⟨v.1, v.2, mark i⟩
  { entry := r.1, flags := r.2 }

/-- VCMP (R292, R293, R310). -/
def vxCmp (f : VxF) (n : Nat) (x : VxIn) : VxOut :=
  let pois := fun i => markOf f.ty x.a i || markOf f.ty x.b i
  let one := fun i => vxCompare (f.imm.extractLsb' 0 3) f.ty (elemOf f.ty x.a.data i) (elemOf f.ty x.b.data i)
  let truth := fun i => (one i).1 && !pois i
  let r := vxPack f.ty n fun i => ⟨if truth i then 2 ^ vxBits f.ty - 1 else 0, (one i).2, pois i⟩
  { entry := r.1
    flags := r.2
    mask := some (f.imm.extractLsb' 3 2, BitVec.ofNat 32 (packElems 1 ((List.range n).map fun i => if truth i then 1 else 0)))
    poisonCmp := (List.range n).any pois }

/-- VCVT (R285, R296, R297, R309). -/
def vxCvt (f : VxF) (vl : BitVec 6) (x : VxIn) : VxOut :=
  let dst := f.imm.extractLsb' 0 3
  let n := vxLen vl dst
  let r := vxPack dst n fun i =>
    match vxCvtSource f.ty dst i with
    | none => {}
    | some (second, j) =>
      let e := if second then x.b else x.a
      let v := vxConvert f.ty dst (f.imm.getLsbD 3) (elemOf f.ty e.data j)
      ⟨v.1, v.2, markOf f.ty e j⟩
  { entry := r.1, flags := r.2 }

/-- VACC (R287, R309). -/
def vxAcc (f : VxF) (n : Nat) (x : VxIn) : VxOut :=
  vxEach f.ty n
    (fun i =>
      let h := elemOf 0 x.half.data i
      let a := elemOf 0 x.a.data i
      if x.noA then (h, 0)
      else if f.ty = 0 then fp32.sum [fp32.decode h, fp32.decode a]
      else
        let r := clampInt 32 (signedOf 32 h + signedOf 32 a)
        (lowBits 32 r.1, if r.2 then flSAT else 0))
    (fun i => x.halfMarks.getLsbD i || (!x.noA && markOf 0 x.a i))

/-- VSETVL (R282). -/
def vxSetVl (f : VxF) (x : VxIn) : VxOut :=
  let n := if f.imm.getLsbD 7 then x.a.data.toNat % 65536 else (f.imm.extractLsb' 0 6).toNat
  { vl := some (if 32 < n then (32, true) else (BitVec.ofNat 6 n, false)) }

/-- A function element whose value the precision of `FFmt.vfn` does not settle takes this value; no
input of a 32-bit type reaches it. -/
def vfnElem (ty : BitVec 3) (fn : Nat) (x : Nat) : Nat × FlagSet :=
  ((vxFmt ty).vfn fn (vxDecode ty x)).getD ((vxFmt ty).nanBits, 0)

/-- What an operation produces; `mask` gives the mask registers (R287 to R310). -/
def vxRun (f : VxF) (vl : BitVec 6) (mask : BitVec 2 → BitVec 32) (x : VxIn) : VxOut :=
  let n := vxLen vl f.ty
  let a := elemOf f.ty x.a.data
  let b := elemOf f.ty x.b.data
  let c := elemOf f.ty x.c.data
  let ma := markOf f.ty x.a
  let mb := markOf f.ty x.b
  let mc := markOf f.ty x.c
  let m := mask (f.imm.extractLsb' 0 2)
  match f.op.toNat with
  | 0x01 | 0x02 | 0x03 => vxEach f.ty n (fun i => vxArith f.op f.ty (a i) (b i) 0) (fun i => ma i || mb i)
  | 0x04 => vxEach f.ty n (fun i => vxArith f.op f.ty (a i) (b i) (c i)) (fun i => ma i || mb i || mc i)
  | 0x05 | 0x06 => vxEach f.ty n (fun i => vxMinMax (f.op = 0x06) f.ty (a i) (b i)) (fun i => ma i || mb i)
  | 0x07 => vxCmp f n x
  | 0x08 => vxEach f.ty n (fun i => (if m.getLsbD i then a i else b i, 0)) (fun i => if m.getLsbD i then ma i else mb i)
  | 0x09 | 0x0A | 0x0B => vxEach f.ty n (fun i => (vxLogic f.op (a i) (b i), 0)) (fun i => ma i || mb i)
  | 0x0C | 0x0D => vxEach f.ty n (fun i => (vxShift f.op f.ty f.imm (a i), 0)) ma
  | 0x0E => vxCvt f vl x
  | 0x0F => vxEach f.ty n (fun i => (a i, 0)) ma
  | 0x10 => vxEach f.ty n (fun i => vfnElem f.ty (f.imm.extractLsb' 0 4).toNat (a i)) ma
  | 0x11 =>
    let r := vxSum f.ty ((List.range n).map a)
    { entry := ⟨BitVec.ofNat 256 r.1, if (List.range n).any ma then 1 else 0⟩, flags := r.2 }
  | 0x12 =>
    let r := vxMax f.ty ((List.range n).map a)
    { entry := ⟨BitVec.ofNat 256 r.1, if (List.range n).any ma then 1 else 0⟩, flags := r.2 }
  | 0x13 =>
    let is := maskIndices m n
    vxEach f.ty is.length (fun i => (a ((is[i]?).getD 0), 0)) (fun i => ma ((is[i]?).getD 0))
  | 0x14 =>
    vxEach f.ty n (fun i => (if m.getLsbD i then a (maskRank m i) else b i, 0))
      (fun i => if m.getLsbD i then ma (maskRank m i) else mb i)
  | 0x15 =>
    let ws := vrngWords x.a.data
    vxEach f.ty n (fun i => (vrngElem f.ty ((ws[i]?).getD 0), 0)) (fun _ => x.a.poison &&& 7 != 0)
  | 0x16 => vxAcc f n x
  | 0x17 => vxSetVl f x
  | _ => {}

end Sys2Proof.Machine
end

