-- ==== Sys2Proof/Machine/Issue.lean ====
section
/-! DEFINITION. One control word in one core: the ends its fields name, the conditions of its issue, and
everything it does when it issues (R94 to R129, R142 to R169, R262, R306 to R308). -/

namespace Sys2Proof.Machine

/-! ## The ends that a word names (R95, R96) -/

/-- One field of a word that names ends: its number (R211), its sources and its destination (`0`: none),
and whether it names an end in a position that R95 does not allow. -/
structure FieldUse where
  field : Nat
  srcs  : List (BitVec 5)
  dst   : BitVec 5
  bad   : Bool
  deriving DecidableEq, Repr

/-- A field with its sources and a destination that R95 allows or not. -/
def fieldUse (n : Nat) (srcs : List (BitVec 5)) (dst : BitVec 5) (dstOk : Bool) : FieldUse :=
  ⟨n, srcs, dst, !dstOk || srcs.any fun c => !endIsSource c⟩

/-- The end that a six-bit operand code names; none for a tile. -/
def codeEnd (o : BitVec 6) : BitVec 5 := if isTileCode o then 0 else o.extractLsb' 0 5

/-- The ends of MX (R165, R166, R248). -/
def mxUse (f : MxF) : List FieldUse :=
  match f.op.toNat with
  | 1 | 2 | 3 | 4 | 7 => [fieldUse 1 [codeEnd f.opa, codeEnd f.opb] 0 true]
  | 5 => [fieldUse 1 [codeEnd f.opb] 0 true]
  | 8 => [fieldUse 1 [] (f.opb.extractLsb' 0 5) (endIsDest (f.opb.extractLsb' 0 5))]
  | _ => []

/-- SRCB is a source end of the operation (R168). -/
def vxUsesB (op : BitVec 6) : Bool :=
  match op.toNat with
  | 0x01 | 0x02 | 0x03 | 0x04 | 0x05 | 0x06 | 0x07 | 0x08 | 0x09 | 0x0A | 0x0B | 0x0E | 0x14 => true
  | _ => false

/-- SRCA is a source end of the operation (R168, R282). -/
def vxUsesA (f : VxF) : Bool := f.op != 0x17 || f.imm.getLsbD 7

/-- The ends of VXA or VXB. -/
def vxUse (n : Nat) (f : VxF) : List FieldUse :=
  if f.op = 0 then []
  else
    [fieldUse n
      ((if vxUsesA f then [f.sa] else []) ++ (if vxUsesB f.op then [f.sb] else []) ++
       (if f.op = 0x04 then [f.imm.extractLsb' 0 5] else []))
      (if f.op = 0x17 then 0 else f.dst) (f.op = 0x17 || endIsDest f.dst)]

/-- The ends of LD in a core: an indirect generator's SRC and the destination (R127, R146). -/
def ldUse (k : Core) (f : LdF) : List FieldUse :=
  if f.own = 0 then [] else [fieldUse 4 [(k.agu f.gen).popEnd] f.fin (endIsLdDest f.own f.fin)]

/-- The ends of ST in a core. A stream write names none. -/
def stUse (k : Core) (f : StF) : List FieldUse :=
  if f.own = 1 then [fieldUse 5 [(k.agu f.gen).popEnd, f.src] 0 true] else []

/-- The ends of NET (R152). -/
def netUse (f : NetF) : List FieldUse :=
  match f.op.toNat with
  | 1 => [fieldUse 6 [f.src] f.dst (endIsDest f.dst)]
  | 2 => [fieldUse 6 [f.src] 0 true]
  | _ => []

/-- The end that an ASET pops (R154). -/
def aguUse (f : AguF) : List FieldUse :=
  if f.op = 1 ∧ f.vsrc = 2 then [fieldUse 7 [f.val.extractLsb' 9 5] 0 true] else []

/-- The end of a TLD or TST. -/
def tileEnd (f : TileF) : BitVec 5 := f.rest.extractLsb' 4 5

/-- The ends of TILE (R156). -/
def tileUse (f : TileF) : List FieldUse :=
  match f.op.toNat with
  | 1 => [fieldUse 8 [tileEnd f] 0 true]
  | 2 => [fieldUse 8 [] (tileEnd f) (endIsDest (tileEnd f))]
  | _ => []

/-- Every field of a word that names ends, highest control-word bits first. -/
def Core.uses (k : Core) (w : Cw) : List FieldUse :=
  mxUse w.mx ++ vxUse 2 w.vxa ++ vxUse 3 w.vxb ++ ldUse k w.ld ++ stUse k w.st ++ netUse w.net ++
  aguUse w.agu ++ tileUse w.tile

/-- The fields that name a bad end. -/
def badFields (us : List FieldUse) : List Nat := (us.filter (·.bad)).map (·.field)

/-- The word without the fields whose unit does nothing (R96). -/
def dropFields (w : Cw) (ns : List Nat) : Cw := ns.foldl zeroField w

/-- The ends that a word pops, each once (R102). -/
def wordPops (us : List FieldUse) : List (BitVec 5) :=
  ((us.filter fun u => !u.bad).flatMap (·.srcs)).filter endPops |>.eraseDups

/-- The destinations that a word pushes, each by the first field that names it (R103). -/
def pushesGo : List (BitVec 5) → List FieldUse → List (Nat × BitVec 5) × List Nat
  | _, [] => ([], [])
  | seen, u :: us =>
    if u.bad || u.dst = 0 then pushesGo seen us
    else if seen.contains u.dst then let r := pushesGo seen us; (r.1, u.field :: r.2)
    else let r := pushesGo (u.dst :: seen) us; ((u.field, u.dst) :: r.1, r.2)

/-- The pushes of a word that take place. -/
def wordPushes (us : List FieldUse) : List (Nat × BitVec 5) := (pushesGo [] us).1

/-- The fields whose push R103 discards. -/
def lostFields (us : List FieldUse) : List Nat := (pushesGo [] us).2

/-! ## The issue rule (R101, R104, R331, R351) -/

/-- A failed condition: field, kind (R364) and end. -/
structure Refused where
  field : Nat
  kind  : Nat
  code  : Nat
  deriving DecidableEq, Repr

/-- The order of R351 among the conditions of one core. -/
def Refused.before (a b : Refused) : Bool :=
  a.field < b.field || (a.field = b.field && (a.kind < b.kind || (a.kind = b.kind && a.code < b.code)))

/-- The first of the failed conditions in R351's order. -/
def firstRefused : List Refused → Option Refused
  | [] => none
  | r :: rs => match firstRefused rs with
    | none => some r
    | some q => if q.before r then some q else some r

/-- Entries of an internal queue plus those reserved, less the word's pop (R101). -/
def Core.occupancy (k : Core) (pops : List (BitVec 5)) (c : BitVec 5) : Nat :=
  (k.queue c).length - if pops.contains c then 1 else 0

/-- A field waits for the end it pops. -/
def Core.refusedPops (k : Core) (now : Nat) (u : FieldUse) : List Refused :=
  ((u.srcs.filter endPops).filter fun c => !k.popReady now c).map fun c => ⟨u.field, 0, c.toNat⟩

/-- The conditions of R104 that fail for a word in a core in cycle `now`; `cost n` is what a send on
so(n) consumes, `none` for an unbound end (R331, R358). -/
def Core.refusals (k : Core) (now : Nat) (cost : Nat → Option Nat) (w : Cw) : List Refused :=
  let us := k.uses w
  let good := us.filter fun u => !u.bad
  let pops := wordPops us
  let ps := wordPushes us
  good.flatMap (k.refusedPops now) ++
  ((ps.filter fun p => endInternal p.2 && 4 ≤ k.occupancy pops p.2).map fun p => ⟨p.1, 1, p.2.toNat⟩) ++
  ((ps.filter fun p => endSend p.2 && (match cost (p.2.toNat - 16) with
      | none => true
      | some n => (k.sendEnd (p.2.toNat - 16)).credit.toNat < n)).map fun p => ⟨p.1, 2, p.2.toNat⟩) ++
  (if w.st.own = 2 ∧ w.st.iwait = 1 ∧ (k.net.inlet.all fun x => now ≤ x.due) then [⟨5, 3, 0⟩] else [])

/-- The first condition that refuses the word in a core. -/
def Core.refusal (k : Core) (now : Nat) (cost : Nat → Option Nat) (w : Cw) : Option Refused :=
  firstRefused (k.refusals now cost w)

/-! ## Settling a core before an issue -/

/-- The core with the service-mesh writes of enables, masks and generators in effect (R130). -/
def Core.cfgDone (k : Core) : Core :=
  match k.cfgNext with
  | none => k
  | some x => { k with en := x.en, masks := x.masks, agus := x.agus, cfgNext := none }

/-- The same in cycle `now`: the writes of earlier cycles are in effect (R130). -/
def Core.cfgBy (k : Core) (now : Nat) : Core :=
  match k.cfgNext with
  | none => k
  | some x => if x.cycle < now then k.cfgDone else k

/-- Everything that has come due in the core by cycle `now`: its port operations, landed entries, masks,
tiles and accumulators. Port cycle `now` is carried out before the word of cycle `now` is tried, so that an inlet-wait word
does not count a row that the port cycle pops (DESIGN CHOICE, log entry 113). -/
def Core.settle (k : Core) (alm : BitVec 64) (now : Nat) : Core × Bool × List WordRef :=
  let r := (k.cfgBy now).ports alm now
  let k := { r.1 with iq := r.1.iq.map fun e => (e.1, landSlots (now - 1) e.2) }
  (((applyTiles now (applyMasks now k)).landMx now), r.2.1, r.2.2)

/-! ## What an issued word does in an enabled core -/

/-- Where a word stands: the cycle, the AGU scalar that travelled with it, and what a send on each send
end consumes. -/
structure IssueAt where
  now  : Nat
  aset : BitVec 16
  cost : Nat → Nat

/-- Takes a send's credits (R104, R331). -/
def Core.takeCredit (k : Core) (n cost : Nat) : Core :=
  let e := k.sendEnd n
  k.setSendEnd n { e with credit := BitVec.ofNat 4 (e.credit.toNat - cost) }

/-- A push of an entry whose data lands at the end of cycle `due`: a reserved place in an internal
queue, or a send issued in cycle `due` (R98, R100, R101). -/
def Core.push (k : Core) (x : IssueAt) (c : BitVec 5) (e : Entry) (due : Nat) : Core :=
  if endInternal c then k.setQueue c (k.queue c ++ [{ entry := e, due := due }])
  else if endSend c then
    let n := x.cost (c.toNat - 16)
    (k.takeCredit (c.toNat - 16) n).send c e due n
  else k

/-- The predicate of a word (R115). -/
def Core.predicate (k : Core) (f : MaskF) : Bool := f.pv = 0 || k.mask f.pm != 0

/-- A unit acts: the predicate holds or does not govern it (R116, R161). `bit` is its place in GOV. -/
def Core.acts (k : Core) (f : MaskF) (bit : Nat) : Bool := k.predicate f || !f.gov.getLsbD bit

/-- The MASK operation of a word (R114, R118, R161). -/
def Core.maskOp (k : Core) (f : MaskF) (now : Nat) : Core :=
  let put := fun (v : BitVec 32) => { k with maskWr := addMaskWrite ⟨now + 1, f.mi, v⟩ k.maskWr }
  match f.mop.toNat with
  | 1 => { k with en := k.mask f.mi != 0 }
  | 2 => { k with en := true }
  | 3 => put 0xFFFFFFFF
  | 4 => put 0
  | 5 => put (~~~ k.mask f.mi)
  | _ => k

/-- Uses the generators that LD and ST name (R122 to R127). `src` gives the popped entries. -/
def Core.useAgus (k : Core) (src : BitVec 5 → Entry) (w : Cw) : Core :=
  let gens := (if w.ld.own ≠ 0 then [w.ld.gen] else []) ++ (if w.st.own = 1 then [w.st.gen] else [])
  gens.eraseDups.foldl (fun (k : Core) g =>
    k.setAgu g ((k.agu g).use ((src (k.agu g).popEnd).data.extractLsb' 0 16)).2.2) k

/-- The address and phase that a generator yields (R124). -/
def Core.yields (k : Core) (src : BitVec 5 → Entry) (g : BitVec 3) : BitVec 16 × Bool :=
  let r := (k.agu g).use ((src (k.agu g).popEnd).data.extractLsb' 0 16)
  (r.1, r.2.1)

/-- The ports' ownership in port cycle now + 1 (R109, R112, R116, R146, R149, R386). `old` is the core
before the word. -/
def Core.ownPorts (k old : Core) (x : IssueAt) (src : BitVec 5 → Entry) (w : Cw) (lost : List Nat) : Core :=
  let pred := old.predicate w.mask
  let cyc := x.now + 1
  let coll := w.check.coll = 1
  let dst := if lost.contains 4 then 0 else w.ld.fin
  let cost := if endSend dst then x.cost (dst.toNat - 16) else 0
  let rd : Option PortRead :=
    if w.ld.own = 0 then none
    else
      let y := old.yields src w.ld.gen
      some { cycle := cyc, toCore := w.ld.own = 1, row := y.1, phase := y.2, dest := dst, tag := w.ld.tag = 1,
             bc := w.ld.bc = 1, bsz := w.ld.bsz, el := w.ld.el, masked := !pred, coll := coll, cost := cost }
  let wr : Option PortWrite :=
    if w.st.own = 0 then none
    else
      let y := old.yields src w.st.gen
      some { cycle := cyc, byCore := w.st.own = 1, row := y.1, phase := y.2, entry := src w.st.src,
             tag := w.st.tag = 1, masked := !old.acts w.mask 1, coll := coll }
  let k := if endSend dst && w.ld.own != 0 then k.takeCredit (dst.toNat - 16) cost else k
  let k := if w.ld.own = 1 ∧ dst ≠ 0 then k.setQueue dst (k.queue dst ++ [{ filled := false }]) else k
  k.setSpad { k.spad with
    portRd := rd, portWr := wr, portWas := k.spad.port
    port := { cycle := cyc, rdOwned := rd.isSome, wrOwned := wr.isSome, scrub := w.check.scrub = 1 } }

/-- MX's part of a word. -/
def Core.doMx (k old : Core) (x : IssueAt) (src : BitVec 5 → Entry) (w : Cw) (lost : List Nat) : Core :=
  let on := old.acts w.mask 4
  let k := k.mxIssue src w.mx on x.now
  if w.mx.op = 8 ∧ !lost.contains 1 then k.push x (w.mx.opb.extractLsb' 0 5) (old.mout w.mx on) (x.now + 1) else k

/-- What a vector slot computes. -/
def Core.vxOut (old : Core) (src : BitVec 5 → Entry) (f : VxF) : VxOut :=
  let acc := f.sb.extractLsb' 0 3
  let h := f.imm.getLsbD 0
  let o := if h then 8 else 0
  vxRun f old.vl old.mask
    { a := src f.sa, b := if vxUsesB f.op then src f.sb else {}
      c := if f.op = 0x04 then src (f.imm.extractLsb' 0 5) else {}
      half := old.mx.half acc h
      halfMarks := BitVec.ofNat 8 (packElems 1 ((List.range 8).map fun i => if old.mx.accMark acc (o + i) then 1 else 0))
      noA := f.sa = 0 }

/-- One vector slot's part of a word (R278, R283, R306 to R308). `n` is the field's number, `bit` its
place in GOV. -/
def Core.doVx (k old : Core) (x : IssueAt) (src : BitVec 5 → Entry) (m : MaskF) (n bit : Nat) (f : VxF) (lost : List Nat) : Core :=
  if f.op = 0 then k
  else
    let on := old.acts m bit
    let r := old.vxOut src f
    let k := if on then
        let k := k.addFlags x.now r.flags
        let k := if r.poisonCmp then k.addVxStatus x.now 4 else k
        let k := match r.mask with
          | none => k
          | some (i, v) => { k with maskWr := addMaskWrite ⟨x.now + 2, i, v⟩ k.maskWr }
        match r.vl with
          | none => k
          | some (v, clamped) =>
            let k := { k with vl := v }
            if clamped then k.addVxStatus x.now 2 else k
      else k
    if f.op = 0x17 ∨ lost.contains n then k
    else k.push x f.dst (if on then r.entry else {}) (x.now + vxLatency f.op - 1)

/-- VXA and VXB of one word write vl or the same mask (R283, R307). -/
def Core.vxConflict (old : Core) (w : Cw) : Bool :=
  old.acts w.mask 3 && old.acts w.mask 2 &&
  ((w.vxa.op = 0x17 && w.vxb.op = 0x17) ||
   (w.vxa.op = 0x07 && w.vxb.op = 0x07 && w.vxa.imm.extractLsb' 3 2 = w.vxb.imm.extractLsb' 3 2))

/-- NET's part of a word (R131, R152). -/
def Core.doNet (k : Core) (x : IssueAt) (src : BitVec 5 → Entry) (f : NetF) (lost : List Nat) : Core :=
  if f.op = 1 ∧ !lost.contains 6 then
    k.push x f.dst (src f.src) (if endSend f.dst then x.now else x.now + 1)
  else k

/-- AGU's part of a word (R128, R129, R153 to R155). ASET and ARST override a use's advance, ASKIP
adds to it. -/
def Core.doAgu (k old : Core) (x : IssueAt) (src : BitVec 5 → Entry) (f : AguF) : Core :=
  match f.op.toNat with
  | 1 =>
    let v := if f.vsrc = 0 then asetImm f else if f.vsrc = 1 then x.aset
             else (src (f.val.extractLsb' 9 5)).data.extractLsb' 0 16
    let r := (old.agu f.gen).put f.sel v
    let k := k.setAgu f.gen r.1
    if r.2 && f.vsrc = 2 then k.setStatusBit x.now 3 else k
  | 2 => k.setAgu f.gen (old.agu f.gen).rewind
  | 3 => k.setAgu f.gen (k.agu f.gen).skip
  | _ => k

/-- TILE's part of a word (R156 to R160, R274, R275, R306, R308). -/
def Core.doTile (k old : Core) (x : IssueAt) (src : BitVec 5 → Entry) (w : Cw) (lost : List Nat) : Core :=
  let f := w.tile
  let on := old.acts w.mask 0
  let t := old.tile f.tile
  let part := f.rest.getLsbD 3
  match f.op.toNat with
  | 1 => if on then { k with tileWr := k.tileWr ++ [⟨x.now + 3, f.tile, part, t.size, src (tileEnd f)⟩] } else k
  | 2 => if lost.contains 8 then k else k.push x (tileEnd f) (if on then t.half part else {}) (x.now + 1)
  | 3 => if on then k.setTile f.tile { k.tile f.tile with rows := f.rest.extractLsb' 6 3, bpr := f.rest.extractLsb' 3 3 } else k
  | _ => k

/-- The place in GOV of the unit of a field that a predicate may govern (R161). -/
def govBit (field : Nat) : Option Nat :=
  match field with
  | 1 => some 4
  | 2 => some 3
  | 3 => some 2
  | 5 => some 1
  | 8 => some 0
  | _ => none

/-- The ends that some unit of the word pops which no false predicate governs: their read-outs raise flags (R116, R262,
R308). -/
def Core.heardPops (old : Core) (m : MaskF) (us : List FieldUse) : List (BitVec 5) :=
  wordPops (us.filter fun u => (govBit u.field).all (old.acts m))

/-- A word issued in an enabled core (R102 to R129), with the mesh words whose credits its pops free. -/
def Core.issue (old : Core) (x : IssueAt) (w : Cw) : Core × List WordRef :=
  let us := old.uses w
  let lost := lostFields us
  let w := dropFields w (badFields us)
  let src := old.peek
  let popped := old.popAll (wordPops us)
  let k := (popped.1.addFlags x.now (old.readFlags (old.heardPops w.mask us))).useAgus src w
  let k := k.doMx old x src w lost
  let k := k.doVx old x src w.mask 3 2 w.vxb lost
  let k := k.doVx old x src w.mask 2 3 w.vxa lost
  let k := if old.vxConflict w then k.addVxStatus x.now 1 else k
  let k := k.ownPorts old x src w lost
  let k := k.doNet x src w.net lost
  let k := k.doAgu old x src w.agu
  let k := k.doTile old x src w lost
  (k.maskOp w.mask x.now, popped.2)

/-- A word issued in one core of the hamper: a disabled core executes only the MASK operation (R114). -/
def Core.issueAny (k : Core) (x : IssueAt) (w : Cw) : Core × List WordRef :=
  if k.en then k.issue x w else (k.maskOp w.mask x.now, [])

/-! ## Words and service-mesh writes of one cycle (R132) -/

/-- The offset of AGU_n_CFG0, AGU_n_CFG1 (1) or AGU_n_PTR (2) in the core control block. -/
def aguOffset (g : BitVec 3) (w : Nat) : Nat := 0x100 + 0x20 * g.toNat + 8 * w

/-- The registers of its control block, but for those of event bits, that a word changes in a core, by offset (R114, R118, R128,
R156, R231, R282, R331). -/
def Core.touches (old : Core) (w : Cw) : List Nat :=
  (match w.mask.mop.toNat with
   | 1 | 2 => [0x008]
   | 3 | 4 | 5 => [0x020 + 8 * (w.mask.mi.toNat / 2)]
   | _ => []) ++
  if !old.en then []
  else
    let us := old.uses w
    let w := dropFields w (badFields us)
    (match w.agu.op.toNat with
     | 1 => aguOffset w.agu.gen (if w.agu.sel ∈ [0, 1, 2, 4] then 0 else 1) :: (if w.agu.sel = 0 then [] else [aguOffset w.agu.gen 2])
     | 2 | 3 => [aguOffset w.agu.gen 2]
     | _ => []) ++
    (if w.ld.own ≠ 0 then [aguOffset w.ld.gen 2] else []) ++ (if w.st.own = 1 then [aguOffset w.st.gen 2] else []) ++
    (if w.tile.op = 3 && old.acts w.mask 0 then [0x040 + 8 * (w.tile.tile.toNat / 8)] else []) ++
    (if (w.vxa.op = 0x17 && old.acts w.mask 3) || (w.vxb.op = 0x17 && old.acts w.mask 2) then [0x060] else []) ++
    (if w.mx.op = 5 && old.acts w.mask 4 then
      (List.range 8).filterMap fun i =>
        if i < 4 && !isTileCode w.mx.opb then none else some (0x400 + 0x40 * w.mx.ocs.toNat + 8 * i)
     else []) ++
    ((wordPushes us).filter fun p => endSend p.2).map fun p => 0x500 + 8 * (p.2.toNat - 16)

/-- The registers of event bits that differ between a core before and after a word, by offset. -/
def Core.eventsDiffer (k old : Core) : List Nat :=
  (if k.status = old.status then [] else [0x010]) ++ (if k.flags = old.flags then [] else [0x030]) ++
  (if k.mx.status = old.mx.status then [] else [0x038]) ++ (if k.vxStatus = old.vxStatus then [] else [0x068])

/-- A generator after a word and a service-mesh write of one cycle: the registers that the word changed are the word's. -/
def Agu.merge (word svc : Agu) (g : BitVec 3) (ts : List Nat) : Agu :=
  let a := if ts.contains (aguOffset g 0) then { svc with base := word.base, stride1 := word.stride1, stride2 := word.stride2, count2 := word.count2 } else svc
  let a := if ts.contains (aguOffset g 1) then { a with count1 := word.count1, ringLo := word.ringLo, ringHi := word.ringHi, mode := word.mode, src := word.src } else a
  if ts.contains (aguOffset g 2) then { a with i := word.i, j := word.j, phase := word.phase } else a

/-- What waits for the next cycle after a word that changed the registers `ts`. -/
def CfgNext.merge (x : CfgNext) (k : Core) (ts : List Nat) : CfgNext :=
  let mask := fun (m : SMap (BitVec 32)) (i : BitVec 2) => smSet m i.toNat (k.mask i)
  let m := if ts.contains 0x020 then mask (mask x.masks 0) 1 else x.masks
  let m := if ts.contains 0x028 then mask (mask m 2) 3 else m
  { x with
    en := if ts.contains 0x008 then k.en else x.en
    masks := m
    agus := (List.range 8).foldl (fun as n =>
      let g := BitVec.ofNat 3 n
      smSet as n (Agu.merge (k.agu g) (smGet {} x.agus n) g ts)) x.agus }

/-- A service-mesh write of TILE_SHAPEk, NET_SEND_n or event bits in the word's cycle taken back but for what the word changed:
register `o` held `v` before that write. `old` is the core before the word. -/
def Core.undoSvc (k old : Core) (w : Cw) (o : Nat) (v : BitVec 64) : Core :=
  if o = 0x010 then { k with status := k.status ||| v }
  else if o = 0x030 then { k with flags := k.flags ||| v }
  else if o = 0x038 then { k with mx := { k.mx with status := k.mx.status ||| (v &&& 7#64) } }
  else if o = 0x068 then { k with vxStatus := k.vxStatus ||| v }
  else if o < 0x060 then
    (List.range 8).foldl (fun (k : Core) m =>
      let i := BitVec.ofNat 5 (o - 0x040 + m)
      if i = w.tile.tile then k
      else k.setTile i { k.tile i with rows := v.extractLsb' (8 * m + 3) 3, bpr := v.extractLsb' (8 * m) 3 }) k
  else
    let n := (o - 0x500) / 8
    let e := k.sendEnd n
    let spent := (old.sendEnd n).credit - e.credit
    k.setSendEnd n { e with cinit := v.extractLsb' 12 4, tw := v.extractLsb' 4 2, type := v.extractLsb' 0 2
                            credit := v.extractLsb' 16 4 - spent }

/-- The core after word `w` of cycle `now`: where a service-mesh write of the same cycle changed a register that the word
changes too, the word's change stands (R132). -/
def Core.afterWord (k old : Core) (now : Nat) (w : Cw) : Core :=
  let ts := old.touches w ++ k.eventsDiffer old
  let k := if k.svcOld.1 = now then (k.svcOld.2.filter fun e => ts.contains e.1).foldl (fun k e => k.undoSvc old w e.1 e.2) k else k
  { k with wordSet := (now, ts), cfgNext := k.cfgNext.map fun x => x.merge k ts }

/-- The status bits that every enabled core of the hamper sets (R96, R103). -/
def Core.markEnds (k : Core) (now : Nat) (wasEn bad conflict : Bool) : Core :=
  if !wasEn then k
  else
    let k := if bad then k.setStatusBit now 0 else k
    if conflict then k.setStatusBit now 1 else k

end Sys2Proof.Machine
end

