-- ==== Sys2Proof/Machine/Sampler.lean ====
section
/-! DEFINITION. Control-word sampling (R731 to R733): the selection sequence, the records, and the rows that
complete and free them. -/

namespace Sys2Proof.Machine

/-- One step of the Galois LFSR with tap mask 0x8020_0003, shifting right (R731; log entry 40). -/
def lfsrStep (x : BitVec 32) : BitVec 32 := if x.getLsbD 0 then (x >>> 1) ^^^ 0x80200003 else x >>> 1

/-- A selection: the LFSR steps once, then chooses the hamper and the countdown. -/
def Sampler.select (p : Sampler) : Sampler :=
  let l := lfsrStep p.lfsr
  { p with lfsr := l, chosen := l.toNat % 64, count := l.toNat / 64 % 2 ^ 25 % 2 ^ (p.mean + 1) + 1 }

/-- A write of SAMP_CFG (R731, R737): setting EN loads the LFSR from SEED and makes the first selection. -/
def Sampler.config (p : Sampler) (v : BitVec 64) : Sampler :=
  let on := v.getLsbD 0
  let mean := getBits v 4 1
  let q := { p with en := on, seed := v.extractLsb' 32 32, mean := if 4 ≤ mean then mean else p.mean }
  if on && !p.en then { q with lfsr := if q.seed = 0 then 1 else q.seed }.select else q

/-- A tagged word's offset, 0xFF where the stage did not occur or came later than 254 cycles (R732). -/
def sampleOffset (n : Option Nat) : Nat := match n with | some k => if k ≤ 254 then k else 255 | none => 255

/-- The record of a tagged word (R732). -/
def Sample.record (x : Sample) : BitVec 256 :=
  BitVec.ofNat 256 (ofBytes
    (bytesOf 4 x.pushAlm.toNat ++ bytesOf 2 (min x.dt 0xFFFF) ++ bytesOf 2 (min x.stall 0xFFFF) ++ bytesOf 1 x.kind ++
     bytesOf 2 x.hamper ++ bytesOf 1 x.ldLand ++ bytesOf 1 x.mxRdy ++ bytesOf 1 x.vxaRdy ++ bytesOf 1 x.vxbRdy ++
     bytesOf 1 (sampleOffset x.inj) ++ bytesOf 4 x.pc.toNat ++ bytesOf 12 0))

/-- The lowest free entry. -/
def Sampler.freeEntry (p : Sampler) : Option Nat := (List.range 16).find? fun k => !p.recs.any fun e => e.1 = k

/-- A record is written to the lowest free entry or counted lost (R733). -/
def Sampler.keep (p : Sampler) (x : Sample) : Sampler :=
  match p.freeEntry with
  | none => { p with lost := satAdd 0xFFFF p.lost 1 }
  | some k => { p with recs := smSet p.recs k x.record }

/-- A tuple of hamper `h`'s send end `n`, placed at the end of cycle `ready`, is injected in cycle `now`. -/
def Sampler.injected (p : Sampler) (h n ready now : Nat) : Sampler :=
  { p with live := p.live.map fun x =>
      if x.hamper = h && x.inj.isNone && x.sends.contains (n, ready) then { x with inj := some (now - x.issued) } else x }

namespace State

/-- Changes a grove's sampler. -/
def setSamp (s : State) (g : GroveId) (p : Sampler) : State := s.setGrove g { s.grove g with samp := p }

/-- The first flit of a tuple of core `c` is injected. -/
def sampInject (s : State) (c : CoreId) (n ready : Nat) : State :=
  let g := groveOf c
  let p := (s.grove g).samp
  if p.live.isEmpty then s else s.setSamp g (p.injected (hamperIndex (hamperOf c)) n ready (s.cycle g))

end State

/-- SAMPLE_RECORD_COMPLETE: the oldest tagged word of a grove has issued 255 cycles ago (R733). -/
def execSampleRecordComplete (g : GroveId) (s : State) : Host.Outcome State Fault Refusal :=
  let p := (s.grove g).samp
  match p.live with
  | [] => .next s
  | x :: xs =>
    if x.issued + 255 ≤ s.cycle g then .next (s.setSamp g ({ p with live := xs }.keep x)) else .next s

/-- SAMP_FREE: a write of SAMP_STAT frees the entries whose bits are 1 (R733). -/
def execSampFree (g : GroveId) (v : BitVec 64) (s : State) : Host.Outcome State Fault Refusal :=
  let p := (s.grove g).samp
  .next (s.setSamp g { p with recs := smDrop (fun k => k < 16 && v.getLsbD k) p.recs })

/-- SAMP_CFG_WRITE (R731). -/
def execSampCfgWrite (g : GroveId) (v : BitVec 64) (s : State) : Host.Outcome State Fault Refusal :=
  .next (s.setSamp g ((s.grove g).samp.config v))

end Sys2Proof.Machine
end

