-- ==== Sys2Proof/Machine/Mesh.lean ====
section
/-! DEFINITION. The data mesh: routes, injection, forwarding, delivery, crossings and credits (R317 to
R347, R780). -/

namespace Sys2Proof.Machine

/-! ## Route entries (R327) -/

/-- The route entry of an input and slot. -/
def Core.route (k : Core) (input slot : Nat) : BitVec 32 := smGet 0 k.net.routes (16 * input + slot)

def routeValid (e : BitVec 32) : Bool := e.getLsbD 31
def routeTgt (e : BitVec 32) : Nat := (e.extractLsb' 22 4).toNat
def routeContrib (e : BitVec 32) : Nat := (e.extractLsb' 17 5).toNat
def routeSend (e : BitVec 32) : Nat := (e.extractLsb' 15 2).toNat

/-- The input on which a flit that leaves on side `d` arrives next. -/
def inputFrom (d : Nat) : Nat := (d + 2) % 4

/-- Slots that a hop from one core to the next takes (R320, R325): 1, across a grove boundary 4, across a
field boundary 7. -/
def hopSlots (a b : CoreId) : Nat :=
  if groveOf a = groveOf b then 1 else if fieldOf a = fieldOf b then 4 else 7

/-! ## Receiving ends of a channel (R331, R780) -/

/-- A kind of receiving end, with its tuple width. -/
inductive RecvKind where
  | queue (tw : BitVec 2)
  | potluck (tw : BitVec 2)
  | inlet
  | edge
  deriving DecidableEq, Repr

namespace State

/-- The kind of the local target of a route entry. -/
def localKind (s : State) (c : CoreId) (e : BitVec 32) : List RecvKind :=
  if !routeOut e 4 then []
  else if routeTgt e = 8 then [.inlet]
  else if 8 < routeTgt e then []
  else
    let q := (s.core c).rqueue (routeTgt e)
    [if q.potluck then .potluck q.tw else .queue q.tw]

/-- Where a route entry forwards: core, input and slot of each next router. -/
def nextRouters (c : CoreId) (e : BitVec 32) (slot : Nat) : List (CoreId × Nat × Nat) :=
  (List.range 4).flatMap fun d =>
    if !routeOut e d then []
    else match coreBeside c d with
      | none => []
      | some c' => [(c', inputFrom d, (slot + hopSlots c c') % 16)]

/-- Some outward output of a route entry leads to an edge port. -/
def edgeKinds (c : CoreId) (e : BitVec 32) : List RecvKind :=
  (List.range 4).flatMap fun d => if routeOut e d && (coreBeside c d).isNone then [.edge] else []

/-- The receiving ends that a list of router inputs reaches, following the route tables (R320, R321). -/
def traceKinds (s : State) : Nat → List (CoreId × Nat × Nat) → List (CoreId × Nat × Nat) → List RecvKind
  | 0, _, _ => []
  | _, [], _ => []
  | n + 1, x :: xs, seen =>
    if seen.contains x then s.traceKinds n xs seen
    else
      let e := (s.core x.1).route x.2.1 x.2.2
      if !routeValid e then s.traceKinds n xs (x :: seen)
      else s.localKind x.1 e ++ edgeKinds x.1 e ++ s.traceKinds n (nextRouters x.1 e x.2.2 ++ xs) (x :: seen)

/-- The most routers a trace follows. -/
def traceFuel : Nat := 65536

/-- The receiving ends of a channel that starts at a list of router inputs, each kind once. -/
def channelKinds (s : State) (from_ : List (CoreId × Nat × Nat)) : List RecvKind :=
  (s.traceKinds traceFuel from_ []).eraseDups

/-- The kinds of receiving ends of send end `n` of core `c`. -/
def sendKinds (s : State) (c : CoreId) (n : Nat) : List RecvKind :=
  s.channelKinds (((List.range 16).filter fun sl =>
    let e := (s.core c).route 4 sl
    routeValid e && routeSend e = n).map fun sl => (c, 4, sl))

/-- A channel into receiving ends of different kinds or widths (R780). -/
def sendMixed (s : State) (c : CoreId) (n : Nat) : Bool := 1 < (s.sendKinds c n).length

/-- The free number of credits that a send on end `n` of core `c` consumes where the spec leaves it open
(R780): four free values hold one number for each lane and send end. -/
def freeCost (s : State) (c : CoreId) (n : Nat) : Nat :=
  (Config.freeBits (s.free + n)).toNat / 2 ^ (4 * laneOf c) % 16

/-- What a send consumes (R331): `none` for an unbound end (R358). A service request consumes nothing
(log entry 21), a channel into mixed ends a free number of credits (R780), and one that reaches no
receiving end its words (log entry 22). -/
def sendCost (s : State) (c : CoreId) (n : Nat) : Option Nat :=
  let e := (s.core c).sendEnd n
  let w := e.tw.toNat + 1
  if e.type = 1 then
    match s.sendKinds c n with
    | [] => some w
    | [.queue _] => some w
    | [.potluck _] => some (2 * w)
    | [.inlet] => some 1
    | [.edge] => some 1
    | _ => some (s.freeCost c n)
  else if e.type = 2 then some 0
  else none

/-! ## Credits (R332) -/

/-- Credits given to a send end; a count holds at most 15. -/
def giveCredit (s : State) (c : CoreId) (n k : Nat) : State :=
  let e := (s.core c).sendEnd n
  s.setCore c ((s.core c).setSendEnd n { e with credit := BitVec.ofNat 4 (min 15 (e.credit.toNat + k)) })

/-- The credits of a source that may be used by now. -/
def creditsDue (s : State) (src : Source) : Nat :=
  s.plane.mesh.credits.foldl (fun n b => if b.src = src && b.due ≤ s.total b.grove then n + b.n else n) 0

/-- The mesh without the credits of a source that may be used by now. -/
def dropCredits (s : State) (src : Source) : State :=
  s.setMesh { s.plane.mesh with credits := s.plane.mesh.credits.filter fun b => !(b.src = src && b.due ≤ s.total b.grove) }

/-- A send end takes the credits that have come back to it. -/
def settleCredit (s : State) (c : CoreId) (n : Nat) : State :=
  let k := s.creditsDue (.core c n)
  if k = 0 then s else (s.dropCredits (.core c n)).giveCredit c n k

/-- The sender's schedule cycle, over all intervals, that is `lat` cycles after now at the receiver; both
sides count from their release when they are in the same interval (R66, R332). -/
def creditCycle (s : State) (sender receiver : GroveId) (lat : Nat) : Nat :=
  if (s.grove sender).interval = (s.grove receiver).interval then
    s.total sender - s.sched sender + s.sched receiver + lat
  else s.total sender + lat

/-- A word whose last copy is gone: its credits travel back, unless every copy was discarded. -/
def endWord (s : State) (w : MeshWord) : State :=
  let m := { s.plane.mesh with words := s.plane.mesh.words.filter fun x => x.id ≠ w.id }
  match w.due with
  | none => s.setMesh m
  | some d => s.setMesh { m with credits := m.credits ++ (if w.credit = 0 then [] else [⟨w.src, w.grove, w.credit, d⟩]) }

/-- Stores a word record. -/
def putWord (s : State) (w : MeshWord) : State :=
  s.setMesh { s.plane.mesh with words := s.plane.mesh.words.map fun x => if x.id = w.id then w else x }

/-- The record of a word. -/
def findWord (s : State) (id : Nat) : Option MeshWord := s.plane.mesh.words.find? fun w => w.id = id

/-- A receiver in grove `g` returns a word's credit: of several, the last pop counts, with its receiver's latency, and of pops
in the same cycle the longest latency (R332). -/
def wordBack (s : State) (g : GroveId) (r : WordRef) : State :=
  match s.findWord r.id with
  | none => s
  | some w =>
    let p := s.creditCycle w.grove g 0
    let d := s.creditCycle w.grove g r.lat
    let keep := match w.due with
      | none => d
      | some e => if w.popAt < p then d else if p < w.popAt then e else max d e
    let w := { w with due := some keep, popAt := max w.popAt p, copies := w.copies - 1 }
    if w.copies = 0 then s.endWord w else s.putWord w

/-- A copy of a word is discarded without reaching a receiving end. -/
def wordLost (s : State) (id : Nat) : State :=
  match s.findWord id with
  | none => s
  | some w =>
    let w := { w with copies := w.copies - 1 }
    if w.copies = 0 then s.endWord w else s.putWord w

/-- A word is copied to `n` further places. -/
def wordCopied (s : State) (n id : Nat) : State :=
  match s.findWord id with
  | none => s
  | some w => s.putWord { w with copies := w.copies + n }

/-- Returns the credits of several words. -/
def wordsBack (s : State) (g : GroveId) (rs : List WordRef) : State := rs.foldl (fun s r => s.wordBack g r) s

/-! ## Delivery -/

/-- The latency L of a flit that has reached its receiver (R334). -/
def flitLatency (f : Flit) : Nat := f.hops + 2 + 3 * f.groves + 6 * f.fields

/-- The words of a flit with their marks and records. -/
def flitWords (f : Flit) (cyc : Nat) : List RqEntry :=
  let l := flitLatency f
  let one := fun (w : BitVec 64) (i : Nat) =>
    if f.valid.getLsbD i then
      [({ data := w, poison := f.poison.getLsbD i, due := cyc
          word := (f.ids[i]?).map fun id => ⟨id, l⟩ } : RqEntry)]
    else []
  one f.w0 0 ++ one f.w1 1

end State

/-- A word reaching a normal receive queue (R333): the queue, whether it overflowed, and the record whose
credit returns at once. -/
def RQueue.arrive (q : RQueue) (e : RqEntry) : RQueue × Bool × List WordRef :=
  if q.entries.length < 8 then ({ q with entries := q.entries ++ [e] }, false, [])
  else
    let n := q.entries.length
    ({ q with entries := q.entries.take (n - 1) ++ (q.entries.drop (n - 1)).map fun x => { x with poison := true } },
     true, e.word.toList)

/-- The fixed-point value of a finite FP32 contribution in units of 2^-123. -/
def potluckFixed (x : BitVec 32) : BitVec 256 :=
  let v := (fp32.decode x.toNat).exact_
  BitVec.ofInt 256 (v.n * 2 ^ (v.e + 123).toNat)

/-- One contribution to an entry, with whether it was flushed (R342). -/
def Potluck.add (p : Potluck) (x : BitVec 32) (poison : Bool) (due : Nat) (words : List WordRef) : Potluck × Bool :=
  let p := { p with count := p.count + 1, poison := p.poison || poison, due := due, words := p.words ++ words }
  match fp32.decode x.toNat with
  | .nan _ => ({ p with nan := true }, false)
  | .inf ng => (if ng then { p with infN := true } else { p with infP := true }, false)
  | .fin ng m e =>
    if m = 0 then (if ng then p else { p with nonneg0 := true }, false)
    else if (Nat.log2 m : Int) + e < -100 then ({ p with nonneg0 := true }, true)
    else if 127 ≤ (Nat.log2 m : Int) + e then (if ng then { p with rngN := true } else { p with rngP := true }, false)
    else ({ p with val := p.val + potluckFixed x }, false)

/-- A word reaching a potluck queue as contributor `c`, with the number of flushed contributions; `none`
for an index of E or more (R339, R340, R346). -/
def RQueue.contribute (q : RQueue) (c : Nat) (e : RqEntry) : Option (RQueue × Nat) :=
  if q.expm1.toNat < c then none
  else
    let p := smGet 0 q.ptrs c
    let lo := (q.slot p).add (e.data.extractLsb' 0 32) e.poison (e.due + 1) e.word.toList
    let hi := (q.slot (p + 1)).add (e.data.extractLsb' 32 32) e.poison (e.due + 1) []
    some ({ q with window := smSet (smSet q.window p lo.1) (p + 1) hi.1, ptrs := smSet q.ptrs c (p + 2) },
          lo.2.toNat + hi.2.toNat)

namespace Core

/-- One word delivered to receive queue `n` (R333, R339, R340, R342). -/
def recvWord (k : Core) (n contrib : Nat) (e : RqEntry) : Core × List WordRef :=
  let q := k.rqueue n
  if q.potluck then
    match q.contribute contrib e with
    | none => (k.addRqStat e.due (BitVec.ofNat 64 (2 ^ (10 + n))), e.word.toList)
    | some (q, fl) =>
      let k := k.setRqueue n q
      let lo := if n = 7 then 32 else 0
      let v := satAdd 0xFFFFFFFF (getBits k.net.flush (lo + 31) lo) fl
      (({ k with net := { k.net with flush := putBits k.net.flush (lo + 31) lo v } } : Core).bump 0x12 fl, [])
  else
    let r := q.arrive e
    let k := k.setRqueue n r.1
    (if r.2.1 then k.addRqStat e.due (BitVec.ofNat 64 (2 ^ n)) else k, r.2.2)

/-- The words of a tuple delivered in word order. -/
def recvWords (k : Core) (n contrib : Nat) (es : List RqEntry) : Core × List WordRef :=
  es.foldl (fun (a : Core × List WordRef) e => let r := a.1.recvWord n contrib e; (r.1, a.2 ++ r.2)) (k, [])

/-- A row delivered to the stream inlet (R425, R779). -/
def recvRow (k : Core) (side : BitVec 12) (cyc : Nat) (es : List RqEntry) : Core × List WordRef :=
  let refs := es.filterMap (·.word)
  if k.net.inlet.length < 4 then
    let row : InletRow :=
      { entry := ⟨rowOfWords ((es.take 4).map (·.data)), marksOf ((es.take 4).map (·.poison))⟩
        row := (side.extractLsb' 0 9).zeroExtend 16, phase := side.getLsbD 9, due := cyc, words := refs }
    ({ k with net := { k.net with inlet := k.net.inlet ++ [row] } }, [])
  else
    let n := k.net.inlet.length
    let inlet := k.net.inlet.take (n - 1) ++
      (k.net.inlet.drop (n - 1)).map fun x => { x with entry := { x.entry with poison := 15 } }
    (({ k with net := { k.net with inlet := inlet } } : Core).setStatusBit cyc 4, refs)

/-- A flit delivered to the local output (R327, R329). -/
def deliver (k : Core) (tgt contrib cyc : Nat) (f : Flit) : Core × List WordRef :=
  let es := smGet [] k.net.part tgt ++ State.flitWords f cyc
  if !f.last then ({ k with net := { k.net with part := smSet k.net.part tgt es } }, [])
  else
    let k := { k with net := { k.net with part := smDrop (fun n => n = tgt) k.net.part } }
    let es := es.map fun e => { e with due := cyc }
    if tgt = 8 then k.recvRow f.side cyc es else k.recvWords tgt contrib es

end Core

/-! ## Forwarding (R320 to R325) -/

namespace State

/-- A grove takes part in a crossing: its clock is not gated and it runs the schedule (R67). -/
def crosses (s : State) (g : GroveId) : Bool := !s.gated g && s.groveRuns g

/-- A flit leaves core `c` on side `d` in its grove's schedule cycle; `lag` cycles ago. A crossing carries no flit while
either of its groves takes no part in it (R67): a flit sent into it is discarded without a flag and returns no credit (DESIGN
CHOICE, log entry 139). -/
def sendOut (s : State) (c : CoreId) (d lag : Nat) (f : Flit) : State :=
  let g := groveOf c
  let m := s.plane.mesh
  match coreBeside c d with
  | none =>
    let f := { f with hops := f.hops + 1 }
    s.setMesh { m with edges := m.edges ++ [⟨c, d, (s.sched g + 16 - lag % 16) % 16, f⟩] }
  | some c' =>
    if groveOf c' = g then
      s.setMesh { m with links := m.links ++ [⟨c', inputFrom d, s.total g + 1 - lag, { f with hops := f.hops + 1 }⟩] }
    else if !s.crosses g || !s.crosses (groveOf c') then f.ids.foldl wordLost s
    else
      let field := fieldOf c ≠ fieldOf c'
      let f := { f with hops := f.hops + 1, groves := f.groves + (if field then 0 else 1), fields := f.fields + (if field then 1 else 0) }
      s.setMesh { m with crossing := m.crossing ++
        [⟨c', inputFrom d, (s.grove g).interval, s.sched g - lag + (if field then 7 else 4), f⟩] }

/-- A flit at input `input` of core `c`'s router, `lag` schedule cycles ago (R320, R321, R323, R324,
R327). -/
def routeFlit (s : State) (c : CoreId) (input lag : Nat) (f : Flit) : State :=
  let g := groveOf c
  let slot := (s.sched g + 16 - lag % 16) % 16
  let bad := f.badPar &&& f.valid
  let s := if bad = 0 then s else s.setCore c ((s.core c).setRouterStat (s.cycle g - lag) 0)
  let f := { f with poison := f.poison ||| bad, badPar := f.badPar &&& ~~~bad }
  let e := (s.core c).route input slot
  if !routeValid e then
    f.ids.foldl wordLost (s.setCore c ((s.core c).setRouterStat (s.cycle g - lag) 1))
  else
    let outs := (List.range 4).filter (routeOut e)
    let here := routeOut e 4 && routeTgt e ≤ 8
    let n := outs.length + here.toNat
    if n = 0 then f.ids.foldl wordLost s
    else
      let s := if n = 1 then s else f.ids.foldl (wordCopied · (n - 1)) s
      let s := s.setCore c ((s.core c).bump 0x11 n)
      let s := outs.foldl (fun s d => s.sendOut c d lag f) s
      if here then
        let r := (s.core c).deliver (routeTgt e) (routeContrib e) (s.cycle g - lag) f
        (s.setCore c r.1).wordsBack g r.2
      else s

/-- Mesh-word records for the words of a tuple: `cost` credits over `n` words. -/
def newWords (s : State) (src : Source) (g : GroveId) (cost n : Nat) : State × List Nat :=
  let m := s.plane.mesh
  let ids := (List.range n).map (m.nextId + ·)
  let ws := (List.range n).map fun i =>
    { id := m.nextId + i, src := src, grove := g, copies := 1, due := none
      credit := cost / n + (if i = 0 then cost % n else 0) : MeshWord }
  (s.setMesh { m with words := m.words ++ ws, nextId := m.nextId + n }, ids)

/-- Takes the first element that satisfies `p` out of a list. -/
def takeFirst {α : Type} (p : α → Bool) : List α → Option (α × List α)
  | [] => none
  | x :: xs => if p x then some (x, xs) else (takeFirst p xs).map fun r => (r.1, x :: r.2)

/-- The crossing flit's cycle has come in the receiver (R63, R66, R326). -/
def crossingDue (s : State) (x : CrossFlit) : Bool :=
  let g := groveOf x.core
  let k := s.grove g
  x.interval < k.interval || (x.interval = k.interval && x.count ≤ s.sched g)

end State

/-- An odd number of bits is set. -/
def oddBits {w : Nat} (v : BitVec w) : Bool := ((List.range w).filter fun i => v.getLsbD i).length % 2 = 1

/-- A flit of which bits have flipped on the way: of each word its 64 bits and, on top, its parity bit (R318, R324). -/
def Flit.noisy (f : Flit) (n0 n1 : BitVec 65) : Flit :=
  { f with
    w0 := f.w0 ^^^ n0.extractLsb' 0 64, w1 := f.w1 ^^^ n1.extractLsb' 0 64
    badPar := f.badPar ^^^ BitVec.ofNat 2 ((oddBits n0).toNat + 2 * (oddBits n1).toNat) }

/-- FLIT_ARRIVAL: the flit that reaches an input of a router is forwarded and delivered (R320), with the bits that flipped on
the way (R324). -/
def execFlitArrival (c : CoreId) (x : RouterIn) (s : State) : Host.Outcome State Fault Refusal :=
  let g := groveOf c
  let now := s.total g
  if s.catching g then .next s
  else
    match State.takeFirst (fun l : LinkFlit => l.core = c && l.input = x.input.toNat && l.due ≤ now) s.plane.mesh.links with
    | none => .next s
    | some (l, rest) => .next ((s.setMesh { s.plane.mesh with links := rest }).routeFlit c l.input (now - l.due) (l.flit.noisy x.n0 x.n1))

/-- The schedule cycle, over all intervals, in which the receiver is presented with a flit: its planned one, also where the
command comes later; the present one where the receiver released meanwhile (R63, R66). -/
def State.presentedIn (s : State) (x : CrossFlit) : Nat :=
  let g := groveOf x.core
  if x.interval = (s.grove g).interval then s.total g - (s.sched g - x.count) else s.total g

/-- CROSSING_PRESENT: the crossing buffer presents a flit to the receiving router in its planned cycle
(R63, R66); a receiver that no longer takes part in the crossing is presented with none (R67), and the flit is discarded (log
entry 139). -/
def execCrossingPresent (c : CoreId) (input : BitVec 2) (s : State) : Host.Outcome State Fault Refusal :=
  let g := groveOf c
  if s.catching g then .next s
  else
    match State.takeFirst (fun x : CrossFlit => x.core = c && x.input = input.toNat && s.crossingDue x) s.plane.mesh.crossing with
    | none => .next s
    | some (x, rest) =>
      let t := s.setMesh { s.plane.mesh with crossing := rest }
      if !s.crosses g then .next (x.flit.ids.foldl State.wordLost t)
      else .next (t.setMesh { t.plane.mesh with links := t.plane.mesh.links ++ [⟨c, x.input, s.presentedIn x, x.flit⟩] })

/-- The words of a tuple's next flit. -/
def Tuple.nextFlit (t : Tuple) : Flit :=
  let ws := (t.words.drop t.sent).take 2
  let w := fun i => ((ws[i]?).getD (0, false))
  { w0 := (w 0).1, w1 := (w 1).1, valid := if ws.length = 2 then 3 else 1
    poison := BitVec.ofNat 2 ((w 0).2.toNat + 2 * (w 1).2.toNat)
    side := t.side, last := t.words.length ≤ t.sent + 2, ids := (t.ids.drop t.sent).take 2 }

/-- INJECTION: the router injects the next flit of the send end that its local input's entry names in
this slot (R318, R329, R330). -/
def execInjection (c : CoreId) (s : State) : Host.Outcome State Fault Refusal :=
  let g := groveOf c
  let k := s.core c
  let e := k.route 4 (s.slot g)
  let n := routeSend e
  let se := k.sendEnd n
  match se.buf with
  | [] => .next s
  | t :: rest =>
    if s.catching g || !routeValid e || se.type ≠ 1 || s.cycle g ≤ t.ready || s.total g < k.net.injected then .next s
    else
      let r := if t.sent = 0 then s.newWords (.core c n) g t.cost t.words.length else (s, t.ids)
      let t := { t with ids := r.2 }
      let f := t.nextFlit
      let buf := if f.last then rest else { t with sent := t.sent + 2 } :: rest
      let k := k.setSendEnd n { se with buf := buf }
      let k := { k with net := { k.net with injected := s.total g + 1 } }
      let s' := r.1.setCore c k
      let s' := if t.sent = 0 then s'.sampInject c n t.ready else s'
      .next (s'.routeFlit c 4 0 f)

end Sys2Proof.Machine
end

