-- ==== Sys2Proof/Machine/Stream.lean ====
section
/-! DEFINITION. The HBM controllers and the stream engines: refresh windows, descriptors, blocks, bursts,
forwarding, status, aborts and the channel registers' rules (R401 to R459), and the parts that the host DMA
engine shares (R611 to R615). -/

/-! ## Units -/

namespace Sys2Proof.SeUnit

/-- The key of a channel. -/
def key : SeUnit → Nat
  | .se n c => 32 * n.val + c.toNat
  | .hdma c => 640 + c.toNat

/-- The number of the engine; 20 is the host DMA engine. -/
def eng : SeUnit → Nat
  | .se n _ => n.val
  | .hdma _ => 20

/-- The channel's number within its engine. -/
def ch : SeUnit → Nat
  | .se _ c => c.toNat
  | .hdma c => c.toNat

/-- The channel's block of registers. -/
def base : SeUnit → Nat
  | .se n c => Machine.SE_CH_CFG.off n.val c.toNat
  | .hdma c => Machine.HDMA_CH_CFG.off c.toNat

def isHdma : SeUnit → Bool
  | .se _ _ => false
  | .hdma _ => true

def fOutstanding (u : SeUnit) : Machine.Fld := ⟨u.base, 14, 8⟩
def fPoisonOn (u : SeUnit) : Machine.Fld := ⟨u.base, 2, 2⟩
def fKind (u : SeUnit) : Machine.Fld := ⟨u.base, 1, 0⟩
def fRingBase (u : SeUnit) : Machine.Fld := ⟨u.base + 8, 41, 12⟩
def fRingSize (u : SeUnit) : Machine.Fld := ⟨u.base + 8, 4, 0⟩
def fTail (u : SeUnit) : Machine.Fld := ⟨u.base + 0x10, 15, 0⟩
def fDone (u : SeUnit) : Machine.Fld := ⟨u.base + 0x18, 31, 16⟩
def fHead (u : SeUnit) : Machine.Fld := ⟨u.base + 0x18, 15, 0⟩
def fLastCode (u : SeUnit) : Machine.Fld := ⟨u.base + 0x28, 63, 48⟩
def fHeld (u : SeUnit) : Machine.Fld := ⟨u.base + 0x28, 38, 32⟩
def fCredit (u : SeUnit) : Machine.Fld := ⟨u.base + 0x28, 23, 20⟩
def fCmdRefused (u : SeUnit) : Machine.Fld := ⟨u.base + 0x28, 2, 2⟩
def fState (u : SeUnit) : Machine.Fld := ⟨u.base + 0x28, 1, 0⟩

end Sys2Proof.SeUnit

namespace Sys2Proof.Machine


/-- The status registers of an engine. -/
def engBase (e : Nat) : Nat := if e = 20 then HDMA_CFG.off - 8 else SE_ID.off e
def engRetryLimit (e : Nat) : Fld := ⟨engBase e + 8, 2, 0⟩
def engForceSerial (e : Nat) : Fld := ⟨engBase e + 8, 8, 8⟩
def engFenced (e : Nat) : Fld := ⟨engBase e + 0x10, 15, 8⟩
def engCfgRefused (e : Nat) : Fld := ⟨engBase e + 0x10, 2, 2⟩
def engBufFault (e : Nat) : Fld := ⟨engBase e + 0x10, 1, 1⟩
def engSerial (e : Nat) : Fld := ⟨engBase e + 0x10, 0, 0⟩

/-- Units of 1 KiB in an engine's buffer (R412, R611). -/
def engUnits (e : Nat) : Nat := if e = 20 then 1024 else 4096

/-- Channels of an engine. -/
def engChans (e : Nat) : Nat := if e = 20 then 16 else 32

/-- Channel `c` of engine `e`. -/
def unitOf (e c : Nat) : SeUnit :=
  if h : e < 20 then .se ⟨e, h⟩ (BitVec.ofNat 5 c) else .hdma (BitVec.ofNat 4 c)

/-- Counts `n` of event `ev` of engine `e` (R722). -/
def State.bumpE (s : State) (e ev n : Nat) : State :=
  let k : Engine := smGet {} s.se.engines e
  if n = 0 then s else { s with se := { s.se with engines := smSet s.se.engines e { k with ctr := smBump k.ctr ev n } } }

/-- STATE of a channel (R459). -/
def chDisabled : Nat := 0
def chRunning : Nat := 1
def chHalted : Nat := 2

/-- Status codes (R428). -/
def codeAborted : Nat := 1
def codeWithheldFault : Nat := 2
def codeWithheldLate : Nat := 3
def codeReadError : Nat := 4
def codeWriteError : Nat := 5
def codeAddrError : Nat := 6
def codeDescError : Nat := 7

/-- The code that a descriptor's status records (R440, R442, R443). -/
def Job.status (j : Job) : Nat := if 4 ≤ j.code then j.code else if j.aborted then codeAborted else j.code

/-- Rows of a descriptor. -/
def Job.total (j : Job) : Nat := if j.desc.len ≠ 0 then j.desc.len else j.desc.brows * j.desc.nblk

/-- Rows not moved. -/
def Job.left (j : Job) : Nat := j.residue.getD (j.total - j.moved)

/-- A descriptor that writes: WRITE, or either host DMA operation. -/
def Job.writes (u : SeUnit) (j : Job) : Bool := u.isHdma || j.desc.op = 3

/-- A code that halts the channel (R428). -/
def halts (code : Nat) : Bool := code = 1 || 4 ≤ code

/-- SFLAGS (R428). -/
def Job.sflags (j : Job) : Nat :=
  1 + 2 * j.aborted.toNat + 4 * j.abortLate.toNat + 8 * j.poisoned.toNat + (if j.left = 0 then 16 else 0)

/-- Units in which a descriptor's blocks are started: blocks, or for host DMA 32-byte units. -/
def Job.units (u : SeUnit) (j : Job) : Nat := if u.isHdma then j.desc.len else j.desc.nblk

/-- The descriptor will halt its channel, or is aborted. -/
def Job.ending (j : Job) : Bool := j.aborted || 4 ≤ j.code

/-- A descriptor whose blocks are read from HBM: a read descriptor, or TO_HOST. -/
def Job.reads (u : SeUnit) (j : Job) : Bool := if u.isHdma then j.desc.op = 2 else j.desc.op ≠ 3

/-- Two entries are the same block. -/
def Blk.same (a b : Blk) : Bool := a.job = b.job && a.seq = b.seq

/-- Words of one tuple of a read descriptor (R425, R427). -/
def Desc.tupleWords (d : Desc) : Nat := if d.op = 1 then 4 else d.tw

/-- The flits that a tuple takes. -/
def Desc.tupleFlits (d : Desc) : Nat := (d.tupleWords + 1) / 2

/-- Rows of a block of a read descriptor that have been forwarded whole (R428). -/
def Job.sentRows (u : SeUnit) (j : Job) (b : Blk) : Nat :=
  if Job.writes u j then 0 else b.done / j.desc.tupleFlits * j.desc.tupleWords / 4

/-- Blocks of a descriptor that have not started. -/
def Job.unstarted (u : SeUnit) (j : Job) : Nat := if u.isHdma then 0 else j.desc.nblk - j.next

namespace State

def chan (s : State) (u : SeUnit) : Chan := smGet {} s.se.chans u.key
def setChan (s : State) (u : SeUnit) (k : Chan) : State :=
  { s with se := { s.se with chans := smSet s.se.chans u.key k } }
def engine (s : State) (e : Nat) : Engine := smGet {} s.se.engines e
def setEngine (s : State) (e : Nat) (k : Engine) : State :=
  { s with se := { s.se with engines := smSet s.se.engines e k } }
def stack (s : State) (n : Nat) : Stack := smGet {} s.se.hstacks n
def setStack (s : State) (n : Nat) (k : Stack) : State :=
  { s with se := { s.se with hstacks := smSet s.se.hstacks n k } }

/-- The engine works in serial mode (R447). -/
def serial (s : State) (e : Nat) : Bool := s.flag (engSerial e) || s.flag (engForceSerial e)

/-- Sets STATE of a channel. -/
def setChState (s : State) (u : SeUnit) (st : Nat) : State := s.setFld u.fState st

/-- The first descriptor in progress of a channel. -/
def job (s : State) (u : SeUnit) : Option Job := (s.chan u).jobs.head?

/-- The descriptor in progress with ring index `i`. -/
def jobAt (s : State) (u : SeUnit) (i : Nat) : Option Job := (s.chan u).jobs.find? fun j => j.idx = i

/-- Replaces the descriptor in progress with its ring index. -/
def putJob (s : State) (u : SeUnit) (j : Job) : State :=
  let k := s.chan u
  s.setChan u { k with jobs := k.jobs.map fun x => if x.idx = j.idx then j else x }

/-- The descriptors in progress before the one with ring index `i`. -/
def jobsBefore (s : State) (u : SeUnit) (i : Nat) : List Job := (s.chan u).jobs.takeWhile fun j => j.idx ≠ i

/-- Replaces the blocks of a channel and reports their number in HELD (R459). -/
def setBlks (s : State) (u : SeUnit) (bs : List Blk) : State :=
  (s.setChan u { s.chan u with blks := bs }).setFld u.fHeld bs.length

/-- Replaces a block. -/
def putBlk (s : State) (u : SeUnit) (b : Blk) : State :=
  s.setBlks u ((s.chan u).blks.map fun x => if x.same b then b else x)

/-- The block has left the buffer. -/
def dropBlk (s : State) (u : SeUnit) (b : Blk) : State := s.setBlks u ((s.chan u).blks.filter fun x => !x.same b)

/-- Units that an engine's blocks occupy (R412). -/
def unitsUsed (s : State) (e : Nat) : Nat :=
  (List.range (engChans e)).foldl (fun n c =>
    (s.chan (unitOf e c)).blks.foldl (fun n b => n + (32 * b.rows + 1023) / 1024) n) 0

/-- Blocks that an engine holds. -/
def blocksHeld (s : State) (e : Nat) : Nat :=
  (List.range (engChans e)).foldl (fun n c => n + (s.chan (unitOf e c)).blks.length) 0

/-! ## HBM rows (R409, R410) -/

/-- A 32-byte row as stored: its four words with their decoded data, mark and kind. -/
def hbmRow (s : State) (a : Nat) : List (BitVec 64 × Bool × EccKind) :=
  (List.range 4).map fun w =>
    let m := s.hbmWordMeta (a + 8 * w)
    decodeSyndrome (BitVec.ofNat 64 (s.hbmNat (a + 8 * w) 8)) m.mark m.err

/-- A row stored with the marks of its words and right check bits (R410). -/
def hbmStoreRow (s : State) (a : Nat) (e : Entry) : State :=
  let s := s.hbmStore a (bytesOf 32 e.data.toNat)
  { s with hbmMeta := (List.range 4).foldl (fun m w =>
      if e.poison.getLsbD w then smSet m (a / 8 + w) { mark := true } else m) s.hbmMeta }

/-- `n` rows from `a` on hold undefined content (R437, R444): each row a free value. -/
def hbmFree (s : State) (a : Nat) : Nat → State
  | 0 => s
  | n + 1 => ((s.hbmPut a (bytesOf 32 (s.freeNat 256))).tookFree).hbmFree (a + 32) n

/-- The bit of the pseudo-channel that holds an address (R402). -/
def pseudo (a : Nat) : BitVec 32 := BitVec.ofNat 32 (2 ^ (a / 256 % 32))

/-- An access at an address may take place now: no window is open, or it was in progress when the window opened. Of the
accesses to a pseudo-channel that had been asked for by then, the first to complete is the one in progress (R404, R405; log
entry 144). -/
def burstOk (s : State) (a : Nat) : Bool :=
  let k := s.stack (a / 2 ^ 37)
  k.closes = 0 || (k.done &&& pseudo a = 0 && k.asked.contains a)

/-- Notes a completion inside an open window. -/
def noteBurst (s : State) (a : Nat) : State :=
  let n := a / 2 ^ 37
  let k := s.stack n
  if k.closes = 0 then s else s.setStack n { k with done := k.done ||| pseudo a }

/-- The HBM_ERR counters of the stack that holds an address. -/
def countErr (s : State) (f : Nat → Fld) (a k : Nat) : State := s.incSat (f (a / 2 ^ 37)) k

/-- Counts the corrected words of a read (R409). -/
def countFixed (s : State) (a : Nat) (ws : List (BitVec 64 × Bool × EccKind)) : State :=
  s.countErr HBM_ERR.CE a (ws.filter fun w => w.2.2 = .corrected).length

/-! ## Reads of HBM that no channel makes (R409) -/

/-- The 64-bit words that hold `n` bytes from `a` on. -/
def wordSpan (a n : Nat) : Nat := (a % 8 + n + 7) / 8

/-- Words of HBM from the one that holds `a` on, as a read delivers them. -/
def hbmWords (s : State) (a n : Nat) : List (BitVec 64 × Bool × EccKind) :=
  (List.range n).map fun w =>
    let b := a - a % 8 + 8 * w
    let m := s.hbmWordMeta b
    decodeSyndrome (BitVec.ofNat 64 (s.hbmNat b 8)) m.mark m.err

/-- `n` bytes of HBM from `a` on as an agent without a channel takes them: of a word that no retry reads, a free value (log
entry 145). -/
def hbmTaken (s : State) (a n : Nat) : List Byte :=
  (((s.hbmWords a (wordSpan a n)).flatMap fun w =>
    bytesOf 8 (if w.2.2 = .uncorrectable then (Config.freeBits s.free).extractLsb' 0 64 else w.1).toNat).drop (a % 8)).take n

/-- A little-endian number so taken. -/
def hbmTakenNat (s : State) (a n : Nat) : Nat := ofBytes (s.hbmTaken a n)

/-- The 32-byte bursts of such a read that hold an uncorrectable word. -/
def badBursts (s : State) (a n : Nat) : Nat :=
  ((List.range (pinBytes a n / 32)).filter fun i =>
    (s.hbmRow (32 * (a / 32 + i))).any fun w => w.2.2 = .uncorrectable).length

/-- A read by an agent without a channel: its bytes and its corrected words count, and every attempt at a burst that does not
decode (R409, R435, R453, R725). -/
def countTaken (s : State) (a n : Nat) : State :=
  let bad := s.badBursts a n
  let s := (s.countRead a n).countFixed a (s.hbmWords a (wordSpan a n))
  if bad = 0 then s
  else
    let limit := s.fld (engRetryLimit (a / 2 ^ 37))
    ((s.countErr HBM_ERR.RETRIES a (bad * limit)).countErr HBM_ERR.EXHAUSTED a bad).tookFree

/-! ## Requests of host memory (R586, R611; log entry 60) -/

/-- Channel `c` of host DMA makes a request; one that the function may not send waits. -/
def hostReq (s : State) (c : Nat) (o : Output) : State :=
  if s.mastering then s.emit o else { s with se := { s.se with hostHeld := s.se.hostHeld ++ [(c, o)] } }

/-- Once the function may send requests, those that wait go out in order. -/
def hostFlush (s : State) : State :=
  if s.mastering then s.se.hostHeld.foldl (fun s x => s.emit x.2) { s with se := { s.se with hostHeld := [] } } else s

/-- Channel `c`'s read of host address `a` has not been sent. -/
def hostWaits (s : State) (c a : Nat) : Bool :=
  s.se.hostHeld.any fun x => x.1 = c && match x.2 with | .hostRead b _ _ _ => b = a | _ => false

/-! ## Reads and writes that an engine makes -/

/-- Counts a retry of an engine's access (R722). -/
def bumpRetry (s : State) (u : SeUnit) : State := s.bumpE u.eng (if u.isHdma then 8 else 5) 1

/-- An engine reads, or writes, bytes of HBM for itself (R722, R725). -/
def engineRead (s : State) (u : SeUnit) (a n : Nat) : State :=
  let s := (s.noteBurst a).countRead a n
  if u.isHdma then s else s.bumpE u.eng 2 (pinBytes a n)
def engineWrote (s : State) (u : SeUnit) (a n : Nat) : State :=
  let s := s.noteBurst a
  if u.isHdma then s else s.bumpE u.eng 3 (pinBytes a n)

/-! ## Status (R428 to R431, R438) -/

/-- The interrupt of a channel (R608). -/
def chanIrq (s : State) (u : SeUnit) : State :=
  match u with
  | .se n c => s.irqReg (HIF_SE_IRQ.off n.val) c.toNat (16 + n.val)
  | .hdma c =>
    if getBits (s.reg HIF_HDMA_IRQ.off) c.toNat c.toNat = 1 then s.setFlag ⟨HIF_HDMA_IRQ.off, c.toNat, c.toNat⟩
    else (s.setFlag ⟨HIF_HDMA_IRQ.off, c.toNat, c.toNat⟩).signal (36 + c.toNat)

/-- A contained fault entry of a channel (R436, R438, R446). -/
def chanFault (s : State) (u : SeUnit) (code detail : Nat) : State :=
  if u.isHdma then s.faultEntry classContained 4 0 code detail
  else s.faultEntry classContained 3 u.eng code detail

/-- Entries of a channel's ring. -/
def ringSize (s : State) (u : SeUnit) : Nat := 2 ^ s.fld u.fRingSize

/-- The address of ring entry `i`. -/
def ringAddr (s : State) (u : SeUnit) (i : Nat) : Nat := s.fld u.fRingBase * 4096 + 64 * i

/-- Withhold notices for `n` dropped blocks of the descriptor with ring index `i` (R434). -/
def notices (s : State) (u : SeUnit) (i : Nat) (d : Desc) (code n : Nat) : State :=
  let s := if u.isHdma then s else s.bumpE u.eng 8 n
  if u.isHdma || d.slot = 0xFFFF then s
  else { s with se := { s.se with
      notices := s.se.notices ++ List.replicate n ⟨d.slot, code, d.tag, s.time.almanac, some (u.key, i, s.time.ticks)⟩ } }

/-- Blocks of a descriptor among `bs` that are dropped without being forwarded: of a read descriptor those of which no
flit has left. -/
def unforwarded (u : SeUnit) (j : Job) (bs : List Blk) : Nat :=
  (bs.filter fun b => b.job = j.idx && (Job.writes u j || b.done = 0)).length

/-- The channel halts behind its first descriptor: the others are forgotten, with the blocks of theirs that have started
(log entry 126). -/
def haltDrop (s : State) (u : SeUnit) (code : Nat) : State :=
  let k := s.chan u
  let s := k.jobs.tail.foldl (fun s j => s.notices u j.idx j.desc code (unforwarded u j k.blks)) s
  let s := s.setBlks u []
  (s.setChan u { s.chan u with jobs := [], fetchTries := 0 }).setChState u chHalted

/-- The status of the first descriptor is written, DONE advances, and the channel halts or goes on. -/
def writeStatus (s : State) (u : SeUnit) (j : Job) (alm : BitVec 64) : State :=
  let code := Job.status j
  let bs := bytesOf 2 code ++ bytesOf 2 (Job.sflags j) ++ bytesOf 4 (Job.left j) ++ bytesOf 8 alm.toNat
  let a := s.ringAddr u j.idx + 48
  let s := (s.hbmStore a bs).engineWrote u a 16
  let s := s.setFld u.fDone ((j.idx + 1) % s.ringSize u)
  let s := (s.setFld u.fLastCode code).bumpE u.eng 7 1
  let s := if halts code then s.haltDrop u code else s.setChan u { s.chan u with jobs := (s.chan u).jobs.tail }
  let s := if 4 ≤ code then s.chanFault u 0x0011 (u.ch + code * 2 ^ 32) else s
  if j.desc.irq || halts code || j.aborted || j.abortLate then s.chanIrq u else s

/-- Ticks from a status point to the status write (log entry 23). -/
def statusLag : Nat := 2

/-- The descriptor with ring index `i` reaches its end or its status point: nothing is left to start or in the buffer, and
a write has its read-back checked. A read descriptor's status point is that of its last forwarded flit (R429, R430, R440,
R614). -/
def checkDone (s : State) (u : SeUnit) (i : Nat) : State :=
  match s.jobAt u i with
  | none => s
  | some j =>
    if j.point.isSome || j.next < Job.units u j || (s.chan u).blks.any fun b => b.job = i then s
    else if Job.writes u j && j.lastWr.isSome && j.readback ≠ 2 then
      let s := s.putJob u { j with readback := 1 }
      if j.readback = 0 && u.isHdma && j.desc.op = 2 then
        s.hostReq u.ch (.hostRead (j.lastWr.getD 0) 32 j.desc.relaxed j.desc.noSnoop)
      else s
    else
      let now := (s.time.ticks, s.time.almanac)
      let s := s.putJob u { j with
        point := some (if Job.writes u j then now else j.lastOut.getD now), ended := s.time.ticks + 1 }
      if (s.engine u.eng).serial = some u.ch && (s.engine u.eng).serialJob = i then s.setEngine u.eng { s.engine u.eng with serial := none } else s

/-- Writes the status of a channel whose status point lies far enough back, outside refresh windows. -/
def statusDue (s : State) (u : SeUnit) : State :=
  match s.job u with
  | none => s
  | some j =>
    match j.point with
    | none => s
    | some (t, alm) =>
      if t + statusLag ≤ s.time.ticks && s.burstOk (s.ringAddr u j.idx + 48) then s.writeStatus u j alm else s

/-! ## Dropping (R432 to R434) -/

/-- Of the descriptor with ring index `i`, every block from number `b` on is dropped; its first code stands. -/
def dropFrom (s : State) (u : SeUnit) (i b code : Nat) : State :=
  match s.jobAt u i with
  | none => s
  | some j =>
    if j.point.isSome then s
    else
      let bs := (s.chan u).blks
      let gone := fun (x : Blk) => x.job = i && b ≤ x.seq
      let rows := ((bs.filter gone).map (Job.sentRows u j)).sum
      let n := unforwarded u j (bs.filter gone) + Job.unstarted u j
      let s := s.setBlks u (bs.filter fun x => !gone x)
      let s := s.notices u i j.desc code n
      let s := s.putJob u { j with next := Job.units u j, moved := j.moved + rows
                                   code := if j.code = 0 ∨ (j.code < 4 ∧ 4 ≤ code) then code else j.code }
      s.checkDone u i

end State

/-! ## Descriptors (R422 to R424, R612) -/

/-- A little-endian field of a descriptor. -/
def bytesField (bs : List Byte) (at_ n : Nat) : Nat := ofBytes ((bs.drop at_).take n)

/-- The fields of a stream engine's descriptor. -/
def parseDesc (bs : List Byte) : Desc :=
  let f := bytesField bs
  { op := f 20 1, addr := f 0 8, brows := f 8 2 + 1, nblk := f 10 2 + 1, stride := f 12 4, rowBase := f 16 2
    ringRows := f 18 2, phase0 := f 21 1 % 2 = 1, trans := f 21 1 / 2 % 2 = 1, irq := f 21 1 / 4 % 2 = 1
    dlEn := f 21 1 / 8 % 2 = 1, tw := f 22 1 + 1, rep := f 23 1 + 1, slot := f 24 2, tag := f 28 4
    deadline := f 32 8 }

/-- The fields of a host DMA descriptor (R612). -/
def parseHdma (bs : List Byte) : Desc :=
  let f := bytesField bs
  { op := f 20 1, host := f 0 8, addr := f 8 8, len := f 16 4 / 32, irq := f 21 1 % 2 = 1
    relaxed := f 21 1 / 2 % 2 = 1, noSnoop := f 21 1 / 4 % 2 = 1, tag := f 28 4 }

/-- Some block of a translated descriptor would cross a 64 KiB boundary (R423). -/
def Desc.crosses (d : Desc) : Bool :=
  (List.range d.nblk).any fun b => 65536 < (d.addr + b * d.stride) % 65536 + 32 * d.brows

/-- The error with which a stream engine's descriptor fails at fetch, 0 for none (R423). -/
def descError (bs : List Byte) (kind stack : Nat) : Nat :=
  let d := parseDesc bs
  let f := bytesField bs
  let op := d.op
  if op = 0 ∨ 3 < op ∨ (op = 2 ∧ (d.tw = 3 ∨ 4 < d.tw)) ∨ (op ≠ 2 ∧ d.tw ≠ 1) then codeDescError
  else if 2 ^ 42 ≤ d.addr ∨ 16 ≤ f 21 1 ∨ f 26 2 ≠ 0 ∨ f 40 8 ≠ 0 ∨ f 48 8 ≠ 0 ∨ f 56 8 ≠ 0 then codeDescError
  else if op ≠ 1 ∧ (d.rowBase ≠ 0 ∨ d.ringRows ≠ 0 ∨ d.rep ≠ 1) then codeDescError
  else if 2048 < d.brows ∨ d.addr % 32 ≠ 0 ∨ d.stride % 32 ≠ 0 ∨ (4095 < d.slot ∧ d.slot ≠ 0xFFFF) then codeDescError
  else if kind ≠ (if op = 3 then 2 else 1) then codeDescError
  else if op = 3 ∧ (d.trans ∨ d.dlEn) then codeDescError
  else if d.trans then (if d.crosses then codeDescError else 0)
  else if d.addr / 2 ^ 37 ≠ stack ∨ (d.addr + (d.nblk - 1) * d.stride + 32 * d.brows - 1) / 2 ^ 37 ≠ stack then codeAddrError
  else 0

/-- The error with which a host DMA descriptor ends, 0 for none (R612). -/
def hdmaError (bs : List Byte) : Nat :=
  let d := parseHdma bs
  let f := bytesField bs
  if d.op = 0 ∨ 2 < d.op ∨ 8 ≤ f 21 1 ∨ f 22 6 ≠ 0 ∨ f 32 8 ≠ 0 ∨ f 40 8 ≠ 0 ∨ f 48 8 ≠ 0 ∨ f 56 8 ≠ 0 then codeDescError
  else if d.host % 32 ≠ 0 ∨ d.addr % 32 ≠ 0 ∨ 2 ^ 42 ≤ d.addr then codeDescError
  else if f 16 4 % 32 ≠ 0 ∨ d.len = 0 ∨ 2 ^ 25 < d.len then codeDescError
  else if hbmEnd < d.addr + 32 * d.len then codeAddrError
  else 0

/-- Row and phase of row `k` of a READ_INLET descriptor (R424). -/
def Desc.rowOf (d : Desc) (k : Nat) : Nat × Bool :=
  let j := k / d.rep
  if d.ringRows = 0 then ((d.rowBase + j) % Config.rows, d.phase0)
  else ((d.rowBase + j % d.ringRows) % Config.rows, d.phase0 != (j / d.ringRows % 2 = 1))

/-- The words of a block as one list, with marks. -/
def Blk.words (b : Blk) : List (BitVec 64 × Bool) :=
  b.data.flatMap fun e => (List.range 4).map fun w => (wordOf e.data w, e.poison.getLsbD w)

/-! ## Edge ports (R27, R413 to R417) -/

/-- Starts and widths of the five spans of a side. -/
def spanStart (i : Nat) : Nat := match i with | 0 => 0 | 1 => 208 | 2 => 416 | 3 => 608 | _ => 816
def spanWidth (i : Nat) : Nat := if i = 2 then 192 else 208

/-- The span of stack `n` on its side (R27). -/
def stackSpan (n : Nat) : Nat := if n < 10 then n % 5 else 4 - n % 5

/-- The side of stack `n`: 0 north, 1 east, 2 south, 3 west. -/
def stackSide (n : Nat) : Nat := n / 5

/-- The core at offset `o` along a side. -/
def sideCore (side o : Nat) : CoreId :=
  match side with
  | 0 => coreAt o 0
  | 1 => coreAt 1023 o
  | 2 => coreAt o 1023
  | _ => coreAt 0 o

/-- The core whose edge port is port `p` of stack `n`. -/
def portCore (n p : Nat) : CoreId := sideCore (stackSide n) (spanStart (stackSpan n) + p)

/-- The offset of an edge core along a side. -/
def sideOffset (side : Nat) (c : CoreId) : Nat := if side % 2 = 0 then coreX c else coreY c

/-- The stack and port of the edge port of core `c` on side `side`. -/
def corePort (c : CoreId) (side : Nat) : Nat × Nat :=
  let o := sideOffset side c
  let i := if o < 208 then 0 else if o < 416 then 1 else if o < 608 then 2 else if o < 816 then 3 else 4
  (if side < 2 then 5 * side + i else 5 * side + (4 - i), o - spanStart i)

namespace State

/-- The configuration of a channel gives it slot `slot` at port `p`. -/
def ownsSlot (s : State) (n c kind p slot : Nat) : Bool :=
  s.fld (SE_CH_CFG.KIND n c) = kind && s.fld (SE_CH_CFG.PORT n c) = p &&
  s.fld (SE_CH_CFG.SLOTS n c) / 2 ^ slot % 2 = 1

/-- The enabled write channel of stack `n` that owns a slot at a port. -/
def writeOwner (s : State) (n p slot : Nat) : Option Nat :=
  (List.range 32).find? fun c => s.ownsSlot n c 2 p slot && s.fld (SE_CH_STAT.STATE n c) ≠ chDisabled

/-! ## Rows entering a write channel (R419) -/

/-- Moves inlet rows into started blocks that still take rows; their credits return. -/
def fillBlks (u : SeUnit) (g : GroveId) : Nat → State → State
  | 0, s => s
  | n + 1, s =>
    let k := s.chan u
    match k.inlet, k.blks.find? fun b => b.phase = .filling with
    | r :: rest, some b =>
      let d := b.data ++ [r.1]
      let b := { b with data := d, phase := if d.length < b.rows then .filling else .full }
      let s := (s.setChan u { k with inlet := rest }).putBlk u b
      fillBlks u g n (s.wordsBack g r.2)
    | _, _ => s

/-- The grove of a channel's edge port. -/
def chanGrove (s : State) (u : SeUnit) : GroveId :=
  match u with
  | .se n c => groveOf (portCore n.val (s.fld (SE_CH_CFG.PORT n.val c.toNat)))
  | .hdma _ => 0

/-- A flit reaches the inlet of a write channel (R419). A row that finds the inlet full is lost (log
entry 24). -/
def rowFlit (s : State) (u : SeUnit) (f : Flit) : State :=
  let k := s.chan u
  let es := k.part ++ flitWords f 0
  if !f.last then s.setChan u { k with part := es }
  else
    let row : Entry := ⟨rowOfWords ((es.take 4).map (·.data)), marksOf ((es.take 4).map (·.poison))⟩
    let k := { k with part := [] }
    if k.inlet.length < 8 then
      fillBlks u (s.chanGrove u) 8 (s.setChan u { k with inlet := k.inlet ++ [(row, es.filterMap (·.word))] })
    else s.setChan u k

/-! ## Fetch and start (R412, R420, R447) -/

/-- A fetched descriptor that ends at its fetch with an error: it is not started, and `n` blocks of it are dropped. -/
def endFetch (s : State) (u : SeUnit) (j : Job) (n : Nat) : State :=
  let k := s.chan u
  ((s.setChan u { k with jobs := k.jobs ++ [j] }).notices u j.idx j.desc j.code n).checkDone u j.idx

/-- A read error of the fetch of entry `head`: it is fetched again, or the descriptor ends with READ_ERROR, its blocks and
rows unknown (R409, R435, R436; log entry 126). -/
def fetchFailed (s : State) (u : SeUnit) (head : Nat) : State :=
  let k := s.chan u
  let a := s.ringAddr u head
  if k.fetchTries < s.fld (engRetryLimit u.eng) then
    ((s.setChan u { k with fetchTries := k.fetchTries + 1 }).bumpRetry u).countErr HBM_ERR.RETRIES a 1
  else
    let s := (s.setChan u { k with fetchTries := 0 }).countErr HBM_ERR.EXHAUSTED a 1
    let s := s.setFld u.fHead ((head + 1) % s.ringSize u)
    s.tookFree.endFetch u { idx := head, desc := { nblk := 0 }, code := codeReadError, residue := some (s.freeNat 32) } 0

/-- A descriptor from its decoded bytes: in progress, or ended with the error that the fetch finds. -/
def takeDesc (s : State) (u : SeUnit) (head : Nat) (bs : List Byte) : State :=
  let err := if u.isHdma then hdmaError bs else descError bs (s.fld u.fKind) u.eng
  let d := if u.isHdma then parseHdma bs else parseDesc bs
  let s := s.setFld u.fHead ((head + 1) % s.ringSize u)
  let j : Job := { idx := head, desc := d }
  let k := { s.chan u with fetchTries := 0 }
  if err = 0 then s.setChan u { k with jobs := k.jobs ++ [j] }
  else (s.setChan u k).endFetch u { j with next := Job.units u j, code := err } d.nblk

/-- The ring entry that a channel fetches next. -/
def fetchHead (s : State) (u : SeUnit) : Nat := s.fld u.fHead % s.ringSize u

/-- A channel asks for its next descriptor (R420, R440). -/
def fetches (s : State) (u : SeUnit) : Bool :=
  s.fld u.fState = chRunning && s.fetchHead u != s.fld u.fTail % s.ringSize u && !(s.chan u).jobs.any Job.ending

/-- DESCRIPTOR_FETCH's effect: the entry at HEAD is read, outside refresh windows, decoded and checked. -/
def fetchDesc (s : State) (u : SeUnit) (e : BurstEnd) : State :=
  let head := s.fetchHead u
  let a := s.ringAddr u head
  if !s.fetches u || !s.burstOk a then s
  else
    let ws := s.hbmRow a ++ s.hbmRow (a + 32)
    let s := s.engineRead u a 64
    if e ≠ .ok || ws.any fun w => w.2.2 = .uncorrectable then s.fetchFailed u head
    else (s.countFixed a ws).takeDesc u head (ws.flatMap fun w => bytesOf 8 w.1.toNat)

/-- Rows of the next block: BROWS, or for host DMA at most 4 KiB up to a 4 KiB boundary (R411, R613). -/
def nextRows (u : SeUnit) (j : Job) : Nat :=
  if u.isHdma then
    let toEdge := (4096 - (j.desc.host + 32 * j.next) % 4096) / 32
    min toEdge (j.desc.len - j.next)
  else j.desc.brows

/-- The descriptor whose block a channel starts next: the first with blocks left, behind none that ends the channel (R412,
R420). -/
def startJob (s : State) (u : SeUnit) : Option Job :=
  match (s.chan u).jobs.find? fun j => j.ending || decide (j.next < Job.units u j) with
  | none => none
  | some j => if j.ending then none else some j

/-- A channel may start a block (R412); in serial mode only of a descriptor that follows none in progress (R447). -/
def canStart (s : State) (u : SeUnit) : Bool :=
  match s.startJob u with
  | none => false
  | some j =>
    let room := engUnits u.eng - 64 * s.fld (engFenced u.eng) - s.unitsUsed u.eng
    let alone := s.blocksHeld u.eng = 0 && ((s.engine u.eng).serial.isNone || (s.engine u.eng).serial = some u.ch) &&
      (s.jobsBefore u j.idx).all fun x => x.point.isSome
    s.fld u.fState = chRunning &&
    decide ((s.chan u).blks.length < s.fld u.fOutstanding) &&
    decide ((32 * nextRows u j + 1023) / 1024 ≤ room) &&
    (!s.serial u.eng || alone)

/-- A channel starts its next block. -/
def startBlk (s : State) (u : SeUnit) : State :=
  match s.startJob u with
  | none => s
  | some j =>
    let rows := nextRows u j
    let d := j.desc
    let b : Blk :=
      if u.isHdma then
        { job := j.idx, seq := j.seq, addr := d.addr + 32 * j.next, host := d.host + 32 * j.next, rows := rows
          phase := .reading }
      else
        { job := j.idx, seq := j.seq, addr := d.addr + j.next * d.stride, rows := rows
          phase := if d.op = 3 then .filling else if d.trans then .translating else .reading }
    let s := s.putJob u { j with next := j.next + (if u.isHdma then rows else 1), seq := j.seq + 1 }
    let s := s.setBlks u ((s.chan u).blks ++ [b])
    if u.isHdma then
      if d.op = 1 then s.hostReq u.ch (.hostRead b.host (32 * rows) d.relaxed d.noSnoop) else s
    else if d.op = 3 then fillBlks u (s.chanGrove u) 8 s
    else s

/-- The arbiter of an engine starts one block a tick, in round-robin order (R412). -/
def arbitrate (s : State) (e : Nat) : State :=
  let k := s.engine e
  if k.tick = s.time.ticks + 1 then s
  else
    let n := engChans e
    match ((List.range n).map fun i => (k.last + i) % n).find? fun c => s.canStart (unitOf e c) with
    | none => s
    | some c =>
      let s := s.setEngine e { k with
        last := (c + 1) % n, tick := s.time.ticks + 1, serial := if s.serial e then some c else k.serial
        serialJob := ((s.startJob (unitOf e c)).map (·.idx)).getD 0 }
      s.startBlk (unitOf e c)

/-! ## Errors (R435 to R437, R446) -/

/-- A failed read attempt of a block's current burst or host read: retried, or exhausted.
`poisoned` are the rows that take the burst's place. -/
def readFailed (s : State) (u : SeUnit) (b : Blk) (hbm : Bool) (poisoned : List Entry) : State :=
  if b.tries < s.fld (engRetryLimit u.eng) then
    let s := (s.putBlk u { b with tries := b.tries + 1 }).bumpRetry u
    if hbm then s.countErr HBM_ERR.RETRIES b.addr 1
    else
      match s.jobAt u b.job with
      | none => s
      | some j => s.hostReq u.ch (.hostRead b.host (32 * b.rows) j.desc.relaxed j.desc.noSnoop)
  else
    let s := if hbm then s.countErr HBM_ERR.EXHAUSTED b.addr 1 else s
    if s.flag u.fPoisonOn then
      let s := s.chanFault u 0x0010 u.ch
      s.putBlk u { b with tries := 0, exh := true, data := b.data ++ poisoned }
    else s.dropFrom u b.job b.seq codeReadError

/-- A write channel halts with WRITE_ERROR: the rows from the failing burst on are not moved and their
HBM content is undefined (R437). -/
def writeFailed (s : State) (u : SeUnit) (b : Blk) : State :=
  match s.jobAt u b.job with
  | none => s
  | some j =>
    let left := Job.total j - j.moved
    let s := s.putJob u { j with residue := some left }
    let s :=
      if u.isHdma then s.hbmFree (b.addr + 32 * b.done) left
      else
        let first := s.hbmFree (b.addr + 32 * b.done) (b.rows - b.done)
        (List.range (j.desc.nblk - b.seq - 1)).foldl (fun s i =>
          s.hbmFree (j.desc.addr + (b.seq + 1 + i) * j.desc.stride) j.desc.brows) first
    s.dropFrom u b.job b.seq codeWriteError

/-- A segment of the buffer is fenced, unless it was, and the engine turns serial (R446). -/
def bufferFault (s : State) (u : SeUnit) (seg : BitVec 6) : State :=
  let e := u.eng
  let k := s.engine e
  let s := if k.fenced.contains seg.toNat then s
    else (s.setEngine e { k with fenced := k.fenced ++ [seg.toNat] }).setFld (engFenced e) (min (engUnits e / 64) (s.fld (engFenced e) + 1))
  let s := (s.setFlag (engBufFault e)).setFlag (engSerial e)
  s.chanFault u 0x0012 seg.toNat

/-- A read block whose rows are in a fenced segment is read again, which counts as a retry. Marks that this engine has set
in what was forwarded of it stay in the descriptor's POISONED flag; those in the buffer are gone. -/
def rereadBlk (s : State) (u : SeUnit) (b : Blk) (j : Job) : State :=
  let s := (s.countErr HBM_ERR.RETRIES b.addr 1).bumpRetry u
  let s := s.putJob u { j with poisoned := j.poisoned || (b.exh && b.done ≠ 0) }
  s.putBlk u { b with data := [], tries := 1, exh := false, phase := .reading }

/-- Marks of rows set in a block's data. -/
def markRows (ms : List RowMark) (data : List Entry) : List Entry :=
  data.zipIdx.map fun x =>
    (ms.filter fun m => m.row.toNat = x.2).foldl (fun e m => { e with poison := e.poison ||| m.words }) x.1

/-- What a buffer fault does to a block that the segment holds (R446): a read block with rows in the buffer is read again,
a write block keeps its rows with the marks. -/
def faultBlk (s : State) (u : SeUnit) (b : Blk) (ms : List RowMark) : State :=
  match s.jobAt u b.job with
  | none => s
  | some j =>
    if Job.reads u j then (if b.data.isEmpty then s else s.rereadBlk u b j)
    else s.putBlk u { b with data := markRows ms b.data, exh := b.exh || !ms.isEmpty }

/-- A buffer fault met at a block: the segment is fenced, and every block that it holds is treated. -/
def takeFault (s : State) (u : SeUnit) (b : Blk) (f : BufFault) : State :=
  let s := (s.bufferFault u f.seg).faultBlk u b f.marks
  f.others.foldl (fun s h =>
    let v := unitOf u.eng h.ch.toNat
    match (s.chan v).blks[h.place.toNat]? with
    | none => s
    | some x => if v.ch = u.ch && x.same b then s else s.faultBlk v x h.marks) s

/-! ## Bursts (R405, R409, R410) -/

/-- A TO_HOST block that is wholly read leaves in a posted write, in a poisoned TLP where it holds a mark (R615). -/
def postBlk (s : State) (u : SeUnit) (j : Job) (b : Blk) : State :=
  let bytes := b.data.flatMap fun e => bytesOf 32 e.data.toNat
  let bad := b.data.any fun e => e.poison ≠ 0
  let s := if bad then s.masterParity else s
  let s := (s.hostReq u.ch (.hostWrite b.host bytes bad j.desc.relaxed j.desc.noSnoop)).bumpE u.eng 3 bytes.length
  let s := s.putJob u { j with moved := j.moved + b.rows, lastWr := some (b.host + 32 * (b.rows - 1))
                               poisoned := j.poisoned || b.exh }
  (s.dropBlk u b).checkDone u b.job

/-- A block whose rows are all in the buffer is ready. -/
def readDone (s : State) (u : SeUnit) (b : Blk) : State :=
  match (s.chan u).blks.find? b.same with
  | none => s
  | some x => if x.data.length < x.rows then s else s.putBlk u { x with phase := .ready }

/-- A read burst completes for the next row of a block. -/
def readBurst (s : State) (u : SeUnit) (b : Blk) (e : BurstEnd) : State :=
  let a := b.addr + 32 * b.data.length
  let s := s.engineRead u a 32
  let ws := s.hbmRow a
  let raw : Entry := ⟨BitVec.ofNat 256 (s.hbmNat a 32), 15⟩
  match e with
  | .parity d => (s.readFailed u b true [⟨d, 15⟩]).readDone u b
  | .ok =>
    if ws.any fun w => w.2.2 = .uncorrectable then (s.readFailed u b true [raw]).readDone u b
    else
      let s := s.countFixed a ws
      let row : Entry := ⟨rowOfWords (ws.map (·.1)), marksOf (ws.map (·.2.1))⟩
      (s.putBlk u { b with data := b.data ++ [row], tries := 0 }).readDone u b

/-- A block whose write has ended, whole or cut, leaves the buffer. -/
def blkWritten (s : State) (u : SeUnit) (b : Blk) : State := (s.dropBlk u b).checkDone u b.job

/-- A write burst completes for the next row of the channel's first block. One that meets a parity error has moved its
bytes on the pins too. -/
def writeBurst (s : State) (u : SeUnit) (b : Blk) (e : BurstEnd) : State :=
  let a := b.addr + 32 * b.done
  let s := s.engineWrote u a 32
  match e, s.jobAt u b.job with
  | .parity _, _ =>
    let s := s.countWrite a 32
    if b.tries < s.fld (engRetryLimit u.eng) then
      ((s.putBlk u { b with tries := b.tries + 1 }).bumpRetry u).countErr HBM_ERR.RETRIES a 1
    else (s.countErr HBM_ERR.EXHAUSTED a 1).writeFailed u b
  | .ok, some j =>
    let s := s.hbmStoreRow a ((b.data[b.done]?).getD {})
    let s := s.putJob u { j with moved := j.moved + 1, lastWr := some a, poisoned := j.poisoned || b.exh }
    let b := { b with done := b.done + 1, tries := 0 }
    if b.cut || b.rows ≤ b.done then s.blkWritten u b else s.putBlk u b
  | .ok, none => s

end State

/-! ## Commands of the HBM controllers -/

/-- The phase that a stack's windows use. -/
def Stack.usedPhase (k : Stack) (n : Nat) : BitVec 9 := k.phase.getD (BitVec.ofNat 9 (24 * n))

/-- The descriptor whose read-back is in progress. -/
def State.backJob (s : State) (u : SeUnit) : Option Job := (s.chan u).jobs.find? fun j => j.readback = 1 && j.point.isNone

/-- The HBM addresses of the accesses that a channel has asked for: its next descriptor, its blocks' next bursts, a read-back
and a status (R405). -/
def State.asksFor (s : State) (u : SeUnit) : List Nat :=
  (if s.fetches u then [s.ringAddr u (s.fetchHead u)] else []) ++
  ((s.chan u).blks.filterMap fun b =>
    if b.phase = .reading && (s.jobAt u b.job).any (Job.reads u) then some (b.addr + 32 * b.data.length) else if b.phase = .writing then some (b.addr + 32 * b.done) else none) ++
  (match s.backJob u with | none => [] | some j => [j.lastWr.getD 0]) ++
  (match s.job u with | none => [] | some j => if j.point.isSome then [s.ringAddr u j.idx + 48] else [])

/-- The addresses in stack `n` of all that the channels have asked for. -/
def State.asksIn (s : State) (n : Nat) : List Nat :=
  (s.se.chans.flatMap fun e => s.asksFor (unitOf (e.1 / 32) (e.1 % 32))).filter fun a => a / 2 ^ 37 = n

/-- An opening under a new phase that falls before the window of the old one has closed: it is not used (R451). -/
def Stack.unused (k : Stack) (n now : Nat) : Bool := now < k.closes && k.under != k.usedPhase n

/-- REFRESH_WINDOW: a window opens, and the temperature read in this window period selects the mode of the
next (R404 to R407, R451). A window that a step of the Almanac makes due while one is open runs on from it (R77). In self refresh the controller
opens none. -/
def execRefreshWindow (n : StackId) (temp : BitVec 8) (s : State) : Host.Outcome State Fault Refusal :=
  let k := s.stack n.val
  let due := (s.time.almanac - (k.usedPhase n.val).zeroExtend 64).toNat % 512 = 0
  if !due || s.se.selfRefresh || k.opened = s.time.ticks + 1 || k.unused n.val s.time.ticks then .next s
  else
    let len := if k.hot then 80 else 40
    let hot := if 85 < temp.toNat then true else if temp.toNat < 80 then false else k.hot
    let s' := (s.setFld (HBM_REF.LEN n.val) len).setFld (HBM_REF.HOT n.val) k.hot.toNat
    .next (s'.setStack n.val
      { phase := some (BitVec.ofNat 9 (s.fld (HBM_REF.PHASE n.val))), closes := max k.closes (s.time.ticks + len)
        opened := s.time.ticks + 1, under := k.usedPhase n.val, hot := hot
        asked := if k.closes = 0 then s.asksIn n.val else k.asked, done := if k.closes = 0 then 0 else k.done })

/-- REFRESH_WINDOW_CLOSE: after LEN ticks waiting accesses start (R405). -/
def execRefreshWindowClose (n : StackId) (s : State) : Host.Outcome State Fault Refusal :=
  let k := s.stack n.val
  if k.closes = 0 || s.time.ticks < k.closes then .next s
  else .next (s.setStack n.val { k with closes := 0, asked := [], done := 0 })

/-- HBM_REF_WRITE: PHASE is stored for the management processor and takes effect at the next opening under
the old phase (R451). -/
def execHbmRefWrite (agent : Agent) (n : StackId) (v : BitVec 64) (s : State) : Host.Outcome State Fault Refusal :=
  if agent = .manager then .next (s.setFld (HBM_REF.PHASE n.val) (getBits v 8 0)) else .next s

/-! ## Commands of the channels -/

/-- SE_CH_TAIL_WRITE (R420, R456). -/
def execSeChTailWrite (u : SeUnit) (v : BitVec 64) (s : State) : Host.Outcome State Fault Refusal :=
  .next (s.setFld u.fTail (getBits v 15 0))

/-- DESCRIPTOR_FETCH (R420, R423, R612). -/
def execDescriptorFetch (r : DescRead) (s : State) : Host.Outcome State Fault Refusal := .next (s.fetchDesc r.u r.e)

/-- BLOCK_START: a stream engine starts a block (R412). -/
def execBlockStart (n : StackId) (s : State) : Host.Outcome State Fault Refusal := .next (s.arbitrate n.val)

/-- HDMA_BLOCK: the host DMA engine starts a block of at most 4 KiB (R613). -/
def execHdmaBlock (s : State) : Host.Outcome State Fault Refusal := .next (s.arbitrate 20)

/-- HBM_BURST_COMPLETE: a read burst of the block at place `b`, or a write burst of the first block
(R405, R409, R410, R435 to R437). -/
def execHbmBurstComplete (u : SeUnit) (b : BitVec 6) (e : BurstEnd) (s : State) : Host.Outcome State Fault Refusal :=
  let bs := (s.chan u).blks
  let toDevice := fun (y : Blk) => u.isHdma && (match s.jobAt u y.job with | some j => j.desc.op = 1 | none => false)
  match bs with
  | [] => .next s
  | x :: _ =>
    if x.phase = .writing then
      if s.burstOk (x.addr + 32 * x.done) then .next (s.writeBurst u x e) else .next s
    else
      match bs[b.toNat]? with
      | none => .next s
      | some y =>
        if y.phase = .reading && !toDevice y && y.data.length < y.rows && s.burstOk (y.addr + 32 * y.data.length) then
          .next (s.readBurst u y e)
        else .next s

namespace State

/-! ## Forwarding (R415, R418, R425, R427) -/

/-- Takes `k` credits of a read channel. -/
def takeChCredit (s : State) (u : SeUnit) (k : Nat) : State := s.setFld u.fCredit (s.fld u.fCredit - k)

/-- A read channel takes the credits that have come back to it. -/
def settleChCredit (s : State) (n c : Nat) : State :=
  let src := Source.engine n c
  let k := s.creditsDue src
  if k = 0 then s
  else (s.dropCredits src).setFld (SE_CH_STAT.CREDIT n c) (min 15 (s.fld (SE_CH_STAT.CREDIT n c) + k))

/-- The side field of the flit with half `h` of a row (R425). -/
def inletSide (row : Nat) (phase : Bool) (h : Nat) : BitVec 12 :=
  BitVec.ofNat 12 (row % 512 + 512 * phase.toNat + 1024 * h)

/-- The edge port may inject in this cycle: the slot is the channel's, below STOP, and the router's grove
runs (R415). -/
def mayInject (s : State) (n c : Nat) : Bool :=
  let p := s.fld (SE_CH_CFG.PORT n c)
  let g := groveOf (portCore n p)
  let stop := s.fld (SE_CH_CFG.STOP n c)
  s.clockOn g && !s.catching g && s.ownsSlot n c 1 p (s.slot g) && (stop = 0 || s.sched g < stop) &&
  (s.chan (unitOf n c)).injected ≤ s.total g

/-- The next flit of the block being forwarded. -/
def forwardFlit (s : State) (n c : Nat) (j : Job) (b : Blk) : State :=
  let u := unitOf n c
  let d := j.desc
  let tw := Desc.tupleWords d
  let per := d.tupleFlits
  let tup := b.done / per
  let part := b.done % per
  let cost := if d.op = 1 then 1 else tw
  if part = 0 && s.fld u.fCredit < cost then s
  else
    let core := portCore n (s.fld (SE_CH_CFG.PORT n c))
    let g := groveOf core
    let r := if part = 0 then ((s.takeChCredit u cost).newWords (.engine n c) g cost tw) else (s, b.ids)
    let s := r.1
    let ids := r.2
    let ws := ((Blk.words b).drop (tw * tup + 2 * part)).take (min 2 (tw - 2 * part))
    let w := fun i => ((ws[i]?).getD (0, false))
    let rp := d.rowOf (b.seq * d.brows + tup)
    let f : Flit :=
      { w0 := (w 0).1, w1 := (w 1).1, valid := if ws.length = 2 then 3 else 1
        poison := BitVec.ofNat 2 ((w 0).2.toNat + 2 * (w 1).2.toNat)
        side := if d.op = 1 then inletSide rp.1 rp.2 part else 0
        last := part + 1 = per, ids := (ids.drop (2 * part)).take 2, hops := 1 }
    let s := s.setMesh { s.plane.mesh with
      links := s.plane.mesh.links ++ [⟨core, stackSide n, s.total g + 1, f⟩] }
    let s := s.setChan u { s.chan u with injected := s.total g + 1 }
    let j := { j with lastOut := some (s.time.ticks, s.time.almanac) }
    let b := { b with done := b.done + 1, ids := ids }
    if b.done < b.rows * 4 / tw * per then (s.putJob u j).putBlk u b
    else
      let s := s.putJob u { j with moved := j.moved + b.rows, poisoned := j.poisoned || b.exh }
      (s.dropBlk u b).checkDone u b.job

/-- A block's descriptor stands behind one that ends the channel: it is not forwarded any more. -/
def behindEnd (s : State) (u : SeUnit) (b : Blk) : Bool := (s.jobsBefore u b.job).any Job.ending

end State

/-- BLOCK_FORWARD: the channel's first block, wholly in the buffer, sends its next flit, a TO_HOST block is posted to the
host, or a buffer fault in a segment is met (R411, R415, R418, R425, R427, R446, R611). -/
def execBlockForward (u : SeUnit) (seg : Option (BitVec 6)) (hits : SegHits) (s : State) : Host.Outcome State Fault Refusal :=
  match (s.chan u).blks with
  | [] => .next s
  | b :: _ =>
    match s.jobAt u b.job with
    | none => .next s
    | some j =>
      if b.phase ≠ .ready || s.behindEnd u b then .next s
      else
        match seg, u with
        | some g, _ => .next (s.takeFault u b { hits with seg := g })
        | none, .se n c =>
          let s := s.settleChCredit n.val c.toNat
          if s.mayInject n.val c.toNat then .next (s.forwardFlit n.val c.toNat j b) else .next s
        | none, .hdma _ => .next (s.postBlk u j b)

/-- BLOCK_WRITE: the HBM write of the first block begins once its rows have all arrived; a buffer fault
marks words (R411, R446). -/
def execBlockWrite (u : SeUnit) (f : Option BufFault) (s : State) : Host.Outcome State Fault Refusal :=
  match (s.chan u).blks with
  | [] => .next s
  | b :: _ =>
    if b.phase ≠ .full || s.behindEnd u b then .next s
    else
      let t := match f with | none => s | some x => s.takeFault u b x
      match (t.chan u).blks with
      | [] => .next t
      | x :: _ => .next (t.putBlk u { x with phase := .writing })

namespace State

/-- The outcome of a read-back: checked, or retried as a write error (R430, R614). -/
def readbackEnds (s : State) (u : SeUnit) (ok : Bool) : State :=
  match s.backJob u with
  | none => s
  | some j =>
    if ok then (s.putJob u { j with readback := 2 }).checkDone u j.idx
    else
      let a := j.lastWr.getD 0
      let hbm := !(u.isHdma && j.desc.op = 2)
      if j.rbTries < s.fld (engRetryLimit u.eng) then
        let s := (s.putJob u { j with rbTries := j.rbTries + 1 }).bumpRetry u
        if hbm then s.countErr HBM_ERR.RETRIES a 1 else s.hostReq u.ch (.hostRead a 32 j.desc.relaxed j.desc.noSnoop)
      else
        let s := if hbm then s.countErr HBM_ERR.EXHAUSTED a 1 else s
        (s.putJob u { j with readback := 2, code := if 4 ≤ j.code then j.code else codeWriteError }).checkDone u j.idx

end State

/-- WRITE_READBACK_CHECK: the read-back of the last address written is checked by its decode, outside refresh windows (R405,
R409, R430). -/
def execWriteReadbackCheck (u : SeUnit) (e : BurstEnd) (s : State) : Host.Outcome State Fault Refusal :=
  match s.backJob u with
  | none => .next s
  | some j =>
    let a := j.lastWr.getD 0
    if (u.isHdma && j.desc.op = 2) || !s.burstOk a then .next s
    else
      let ws := s.hbmRow a
      let ok := e = .ok && !(ws.any fun w => w.2.2 = .uncorrectable)
      let s := s.engineRead u a 32
      .next ((if ok then s.countFixed a ws else s).readbackEnds u ok)

/-- HDMA_HOST_READBACK: the completion of the read after a TO_HOST descriptor's last write (R614). A successful one brings
32 bytes. -/
def execHdmaHostReadback (c : BitVec 4) (e : Option CplError) (s : State) : Host.Outcome State Fault Refusal :=
  match s.backJob (.hdma c) with
  | none => .next s
  | some j =>
    if j.desc.op = 2 && !s.hostWaits c.toNat (j.lastWr.getD 0) then
      match e with
      | none => .next (((s.bumpE 20 2 32).addTotal 73 32).readbackEnds (.hdma c) true)
      | some e => if e = .timeout && s.noTimeout then .next s else .next ((s.recordCpl e).readbackEnds (.hdma c) false)
    else .next s

/-- The rows of a host read's data. -/
def hostRows (bs : List Byte) (n : Nat) (poison : BitVec 4) : List Entry :=
  (List.range n).map fun i => ⟨BitVec.ofNat 256 (ofBytes ((bs.drop (32 * i)).take 32)), poison⟩

/-- `n` marked rows of free values. -/
def State.freeRows (s : State) (n : Nat) : List Entry :=
  (List.range n).map fun i => ⟨(Config.freeBits (s.free + i)).setWidth 256, 15⟩

/-- Counts `n` free values as taken. -/
def State.tookFrees (s : State) (n : Nat) : State := { s with free := s.free + n }

/-- Bytes that a completion brings. -/
def cplSize (e : HostCpl) : Nat := match e with | .data bs => bs.length | .poisoned bs => bs.length | .failed _ => 0

/-- What a completion records of its error (R586, R615). -/
def State.recordHostCpl (s : State) (e : HostCpl) : State :=
  match e with
  | .data _ => s
  | .poisoned _ => s.recordPoisoned.masterParity
  | .failed why => s.recordCpl why

/-- HDMA_HOST_COMPLETION: the data of a TO_DEVICE block arrives, or a read error (R615). -/
def execHdmaHostCompletion (c : BitVec 4) (b : BitVec 6) (e : HostCpl) (s : State) : Host.Outcome State Fault Refusal :=
  let u := SeUnit.hdma c
  if e = .failed .timeout && s.noTimeout then .next s
  else
  let s := ((s.bumpE 20 2 (cplSize e)).addTotal 73 (cplSize e)).recordHostCpl e
  match (s.chan u).blks[b.toNat]? with
  | none => .next s
  | some x =>
    if !((s.jobAt u x.job).any fun j => j.desc.op = 1) || x.phase ≠ .reading || s.hostWaits c.toNat x.host then .next s
    else
      let full := fun (s : State) =>
        match (s.chan u).blks.find? x.same with
        | none => s
        | some y => if y.data.length < y.rows then s else s.putBlk u { y with phase := .full }
      match e with
      | .data bs => .next (s.putBlk u { x with data := hostRows bs x.rows 0, phase := .full, tries := 0 })
      | .poisoned bs => .next (full (s.readFailed u x false (hostRows bs x.rows 15)))
      | .failed _ => .next (full ((s.tookFrees x.rows).readFailed u x false (s.freeRows x.rows)))

/-- At a descriptor's DEADLINE its first block not wholly in the buffer, of which no flit has left, and every later one are
dropped (R433, R434). -/
def State.deadlineOf (s : State) (u : SeUnit) (i : Nat) : State :=
  match s.jobAt u i with
  | none => s
  | some j =>
    if !j.desc.dlEn || j.point.isSome || s.time.almanac.toNat < j.desc.deadline then s
    else
      match (s.chan u).blks.find? fun b => b.job = i && b.phase ≠ .ready && b.done = 0 with
      | some b => s.dropFrom u i b.seq codeWithheldLate
      | none => if j.next < j.desc.nblk then s.dropFrom u i j.seq codeWithheldLate else s

/-- DEADLINE (R433): for every descriptor in progress of the channel. -/
def execDeadline (n : StackId) (c : BitVec 5) (s : State) : Host.Outcome State Fault Refusal :=
  let u := SeUnit.se n c
  .next ((s.chan u).jobs.foldl (fun s j => s.deadlineOf u j.idx) s)

/-! ## Channel control (R439 to R445, R454 to R458) -/

namespace State

/-- CREDIT is loaded for a read channel. -/
def loadCredit (s : State) (u : SeUnit) : State :=
  match u with
  | .se n c =>
    if s.fld u.fKind = 1 then s.setFld u.fCredit (s.fld (SE_CH_CFG.CINIT n.val c.toNat)) else s
  | .hdma _ => s

/-- ENABLE (R458). -/
def chEnable (s : State) (u : SeUnit) : State :=
  if s.fld u.fState = chDisabled && s.time.failed then s
  else if s.fld u.fState = chDisabled then (s.loadCredit u).setChState u chRunning else s.setFlag u.fCmdRefused

/-- RESUME (R458). -/
def chResume (s : State) (u : SeUnit) : State :=
  if s.fld u.fState = chHalted then (s.setFld u.fHead (s.fld u.fDone)).setChState u chRunning
  else s.setFlag u.fCmdRefused

/-- The blocks that an honoured abort keeps: a read block of which a flit has left, and a write block in its burst in
progress (R440). -/
def abortKeeps (b : Blk) : Bool := ((b.phase = .ready || b.phase = .reading) && b.done ≠ 0) || b.phase = .writing

/-- A withhold of a descriptor in the tick of its honoured abort resolves as the abort: its notices carry that code
(R443). -/
def asAborted (s : State) (u : SeUnit) (i : Nat) : State :=
  let mine := fun (n : Notice) => n.owner = some (u.key, i, s.time.ticks) && n.code < 4
  { s with se := { s.se with notices := s.se.notices.map fun n => if mine n then { n with code := codeAborted } else n } }

/-- The rows in a channel's inlet are discarded, and their credits return (R440). -/
def dropInlet (s : State) (u : SeUnit) : State :=
  let g := s.chanGrove u
  (s.chan u).inlet.foldl (fun s r => s.wordsBack g r.2) (s.setChan u { s.chan u with inlet := [] })

/-- ABORT of the oldest descriptor whose status has not been written (R439 to R443): honoured up to the tick of its status
point, and in the tick of a withhold that brings it to its end. -/
def chAbort (s : State) (u : SeUnit) : State :=
  match s.job u with
  | none => s
  | some j =>
    match j.point with
    | some (t, _) =>
      if t = s.time.ticks || j.ended = s.time.ticks + 1 then
        ((s.putJob u { j with aborted := true }).asAborted u j.idx).dropInlet u
      else s.putJob u { j with abortLate := true }
    | none =>
      if j.aborted then s
      else
        let k := s.chan u
        let mine := fun (b : Blk) => b.job = j.idx
        let gone := unforwarded u j (k.blks.filter fun b => !abortKeeps b) + Job.unstarted u j
        let s := s.setBlks u ((k.blks.filter fun b => !mine b || abortKeeps b).map fun b =>
          if mine b && b.phase = .writing then { b with cut := true } else b)
        let s := (s.asAborted u j.idx).notices u j.idx j.desc codeAborted gone
        let s := s.dropInlet u
        let s := s.putJob u { j with aborted := true, next := Job.units u j }
        s.checkDone u j.idx

/-- DISABLE (R444): HEAD, DONE, CREDIT, the status area and the rows of a write in progress take free
values. -/
def chDisable (s : State) (u : SeUnit) : State :=
  let k := s.chan u
  let s := if u.isHdma then { s with se := { s.se with hostHeld := s.se.hostHeld.filter fun x => x.1 ≠ u.ch } } else s
  let s := (s.setChan u {}).setChState u chDisabled
  let s := s.setFld u.fHeld 0
  let s := if (s.engine u.eng).serial = some u.ch then s.setEngine u.eng { s.engine u.eng with serial := none } else s
  let s := (s.setFld u.fHead (s.freeNat 16)).tookFree
  let s := (s.setFld u.fDone (s.freeNat 16)).tookFree
  let s := if u.isHdma then s else (s.setFld u.fCredit (s.freeNat 4)).tookFree
  let s :=
    match k.jobs.head? with
    | none => s
    | some j => (s.hbmPut (s.ringAddr u j.idx + 48) (bytesOf 16 (s.freeNat 128))).tookFree
  k.blks.foldl (fun s b =>
    if b.phase = .writing then s.hbmFree (b.addr + 32 * b.done) (b.rows - b.done) else s) s

/-- A write of SE_CH_CTRL or HDMA_CH_CTRL (R444, R458). -/
def chCtrl (s : State) (u : SeUnit) (v : BitVec 64) : State :=
  if v.getLsbD 1 then s.chDisable u
  else
    let s := if v.getLsbD 0 then s.chEnable u else s
    let s := if v.getLsbD 3 then s.chResume u else s
    if v.getLsbD 2 then s.chAbort u else s

/-- A write of SE_CH_RING or HDMA_CH_RING (R455, R630). A reserved SIZE_LOG2 keeps the old one. -/
def chRingWrite (s : State) (u : SeUnit) (v : BitVec 64) : State :=
  let base := getBits v 41 12
  let stack := base / 2 ^ 25
  let inside := match u with | .se n _ => stack = n.val | .hdma _ => stack < 20
  if s.fld u.fState ≠ chDisabled || !inside then s.setFlag (engCfgRefused u.eng)
  else
    let size := getBits v 4 0
    let s := s.setFld u.fRingBase base
    let s := if 1 ≤ size ∧ size ≤ 16 then s.setFld u.fRingSize size else s
    ((s.setFld u.fHead 0).setFld u.fDone 0).setFld u.fTail 0

end State

/-- CHANNEL_ENABLE (R458). -/
def execChannelEnable (u : SeUnit) (s : State) : Host.Outcome State Fault Refusal := .next (s.chEnable u)

/-- CHANNEL_RESUME (R458). -/
def execChannelResume (u : SeUnit) (s : State) : Host.Outcome State Fault Refusal := .next (s.chResume u)

/-- CHANNEL_ABORT (R439 to R443, R458). -/
def execChannelAbort (u : SeUnit) (s : State) : Host.Outcome State Fault Refusal := .next (s.chAbort u)

/-- CHANNEL_DISABLE (R444, R458). -/
def execChannelDisable (u : SeUnit) (s : State) : Host.Outcome State Fault Refusal := .next (s.chDisable u)

/-- SE_CH_RING_WRITE (R455). -/
def execSeChRingWrite (u : SeUnit) (v : BitVec 64) (s : State) : Host.Outcome State Fault Refusal :=
  .next (s.chRingWrite u v)

end Sys2Proof.Machine
end

