-- ==== Sys2Proof/Machine/HostRings.lean ====
section
/-! DEFINITION. The completion store, the completion rings and their interrupt moderation, and the ring base
registers (R597 to R607, R621, R623). -/

namespace Sys2Proof.Machine

namespace State

def setSch (s : State) (k : Sched) : State := { s with sch := k }
def cring (s : State) (n : Nat) : CRing := smGet {} s.sch.cq n
def setCring (s : State) (n : Nat) (k : CRing) : State := s.setSch { s.sch with cq := smSet s.sch.cq n k }

/-- Records held in the store that satisfy `p`. -/
def heldCount (s : State) (p : CRecord → Bool) : Nat :=
  s.sch.cq.foldl (fun n e => n + (e.2.held.filter p).length) 0

/-- General entries of the store (R605). -/
def generalEntries : Nat := 12288

/-- Free general entries. -/
def genFree (s : State) : Nat := generalEntries - s.heldCount (·.general)

/-- Holds a record for ring `n`; a TOKEN record that finds the general entries full is dropped (R605). -/
def post (s : State) (n : Nat) (r : CRecord) : State :=
  if r.general && !r.final && s.genFree = 0 then
    (s.incSat HIF_CQ_STORE.LOST_TOKENS 1).setFlag HIF_STATUS.CQ_LOST
  else
    let k := s.cring n
    s.setCring n { k with held := k.held ++ [r] }

/-- Records of ring `n`. -/
def cqSize (s : State) (n : Nat) : Nat := 2 ^ s.fld (HIF_CQ_BASE.SIZE_LOG2 n)

/-- Host address of a ring's header. -/
def cqBase (s : State) (n : Nat) : Nat := s.fld (HIF_CQ_BASE.BASE n) * 4096

/-- Room of a ring by the HEAD last read; one entry stays empty (R602). -/
def cqRoom (s : State) (n : Nat) : Nat :=
  let k := s.cring n
  s.cqSize n - 1 - (k.tail + s.cqSize n - k.head) % s.cqSize n

/-- A ring's HEAD as the device reads it at a poll tick (R586, R603, R604). -/
def readCqHead (s : State) (n : Nat) (h : Nat) : State :=
  let k := s.cring n
  let size := s.cqSize n
  if !s.flag (HIF_CQ_BASE.EN n) || !s.mastering || !(k.reread || s.cqRoom n < k.held.length) then s
  else
    let s := (s.emit (.hostRead (s.cqBase n) 4 false false)).addTotal 73 4
    if h < size && (h + size - k.head) % size ≤ (k.tail + size - k.head) % size then
      s.setCring n { k with head := h, reread := false }
    else ((s.setCring n { k with reread := true }).setFld (HIF_CQ_BASE.EN n) 0).setFlag HIF_STATUS.CQ_ERR

/-- Signals a ring's vector; its count and timer restart (R607). -/
def cqSignal (s : State) (n : Nat) : State :=
  (s.setCring n { s.cring n with unsig := 0, final := false }).signal n

/-- A ring's vector is due by count or by a final record (R607). -/
def cqDue (s : State) (n : Nat) : Bool :=
  let k := s.cring n
  k.unsig ≠ 0 && (s.fld (HIF_CQ_MOD.COUNT n) ≤ k.unsig || (s.flag (HIF_CQ_MOD.FINAL_NOW n) && k.final))

/-- Writes held records, as many as the ring has room for, and then TAIL (R586, R602, R606). -/
def cqWrite (s : State) (n : Nat) : State :=
  let k := s.cring n
  let size := s.cqSize n
  let m := min k.held.length (s.cqRoom n)
  if !s.flag (HIF_CQ_BASE.EN n) || !s.mastering || k.reread || m = 0 then s
  else
    let s := (List.range m).foldl (fun s i =>
      s.emit (.hostWrite (s.cqBase n + 64 + 32 * ((k.tail + i) % size)) (((k.held[i]?).map (·.bytes)).getD [])
        false false false)) s
    let tail := (k.tail + m) % size
    let s := s.emit (.hostWrite (s.cqBase n + 32) (bytesOf 4 tail) false false false)
    let s := s.setCring n { k with
      held := k.held.drop m, tail := tail, unsig := k.unsig + m
      oldest := if k.unsig = 0 then s.time.ticks else k.oldest
      final := k.final || (k.held.take m).any (·.final) }
    if s.cqDue n then s.cqSignal n else s

/-- A write of HIF_SQ_BASE (R621, R623). A reserved SIZE_LOG2 keeps the old one. -/
def sqBaseWrite (s : State) (v : BitVec 64) : State :=
  if s.flag HIF_CTRL.SQ_EN then s.setFlag HIF_STATUS.CFG_REFUSED
  else
    let s := s.setFld HIF_SQ_BASE.BASE (getBits v 63 12)
    if 4 ≤ getBits v 3 0 then s.setFld HIF_SQ_BASE.SIZE_LOG2 (getBits v 3 0) else s

/-- A write of HIF_CQ_n_BASE (R604, R606, R621, R623). -/
def cqBaseWrite (s : State) (n : Nat) (v : BitVec 64) : State :=
  let size := if 4 ≤ getBits v 3 0 then getBits v 3 0 else s.fld (HIF_CQ_BASE.SIZE_LOG2 n)
  let moves := s.fld (HIF_CQ_BASE.BASE n) ≠ getBits v 63 12 ∨ s.fld (HIF_CQ_BASE.SIZE_LOG2 n) ≠ size
  if s.flag (HIF_CQ_BASE.EN n) && v.getLsbD 4 && moves then s.setFlag HIF_STATUS.CFG_REFUSED
  else
    let s := (s.setFld (HIF_CQ_BASE.BASE n) (getBits v 63 12)).setFld (HIF_CQ_BASE.SIZE_LOG2 n) size
    s.setFld (HIF_CQ_BASE.EN n) (getBits v 4 4)

end State

/-- CQ_WRITE: held records and then TAIL are written to a ring with room (R602, R606, R607). -/
def execCqWrite (n : BitVec 4) (s : State) : Host.Outcome State Fault Refusal := .next (s.cqWrite n.toNat)

/-- CQ_MOD_TIMER: TIME ticks after the oldest record not yet signalled was written (R607). -/
def execCqModTimer (n : BitVec 4) (s : State) : Host.Outcome State Fault Refusal :=
  let k := s.cring n.toNat
  if k.unsig ≠ 0 ∧ k.oldest + s.fld (HIF_CQ_MOD.TIME n.toNat) ≤ s.time.ticks then .next (s.cqSignal n.toNat)
  else .next s

/-- RING_BASE_WRITE: a write of HIF_SQ_BASE or HIF_CQ_n_BASE (R604, R606, R621). -/
def execRingBaseWrite (n : Option (BitVec 4)) (v : BitVec 64) (s : State) : Host.Outcome State Fault Refusal :=
  match n with
  | none => .next (s.sqBaseWrite v)
  | some n => .next (s.cqBaseWrite n.toNat v)

end Sys2Proof.Machine
end

