-- ==== Sys2Proof/Machine/Pod.lean ====
section
/-! DEFINITION. Pods: topology, the state of ports, and the sending of service messages (R567 to R575,
R580). -/

namespace Sys2Proof.Machine

/-! ## Topology (R572 to R574) -/

/-- What PSIUD_POD says. TOPO: 0 standalone, 1 all-to-all, 2 torus. -/
structure PodCfg where
  dev  : Nat
  head : Nat
  topo : Nat
  n    : Nat
  dbl  : Bool
  deriving DecidableEq, Repr

/-- The coordinate of a torus device in a dimension: 0 x, 1 y, 2 z. -/
def torusCoord (d dim : Nat) : Nat := d / 4 ^ dim % 4

/-- The primary port of a torus direction. -/
def torusPort (dim : Nat) (up : Bool) : Nat :=
  match dim, up with
  | 0, true => 0
  | 0, false => 1
  | 1, true => 2
  | 1, false => 4
  | 2, true => 5
  | _, _ => 6

/-- The first dimension in which two torus devices differ. -/
def torusDim (a b : Nat) : Option Nat := (List.range 3).find? fun k => torusCoord a k ≠ torusCoord b k

/-- The dimension and direction of a torus port's primary. -/
def torusRole (p : Nat) : Option (Nat × Bool) :=
  match p with
  | 0 => some (0, true)
  | 1 => some (0, false)
  | 2 => some (1, true)
  | 4 => some (1, false)
  | 5 => some (2, true)
  | 6 => some (2, false)
  | _ => none

/-- The device one step away in a torus dimension. -/
def torusStep (d dim : Nat) (up : Bool) : Nat :=
  let x := torusCoord d dim
  d - x * 4 ^ dim + (x + if up then 1 else 3) % 4 * 4 ^ dim

/-- The device and port that the topology predicts at the other end of a port; `none` for a port that is
not part of the pod (R573, R574). -/
def PodCfg.peer (c : PodCfg) (p : Nat) : Option (Nat × Nat) :=
  match c.topo with
  | 1 =>
    if p + 1 < c.n then some ((c.dev + p + 1) % c.n, c.n - p - 2)
    else if c.dbl && 8 ≤ p && p - 8 + 1 < c.n then some ((c.dev + p - 8 + 1) % c.n, c.n - (p - 8) + 6)
    else none
  | 2 =>
    let q := p % 8
    match torusRole q with
    | none => none
    | some (dim, up) => some (torusStep c.dev dim up, torusPort dim (!up) + (if 8 ≤ p then 8 else 0))
  | _ => none

/-- The primary port towards a device, and whether it has a twin (R568). -/
def PodCfg.toward (c : PodCfg) (dst : Nat) : Option Nat :=
  if dst = c.dev then none
  else
    match c.topo with
    | 1 => if dst < c.n then some ((dst + c.n - c.dev - 1) % c.n) else none
    | 2 =>
      match torusDim c.dev dst with
      | none => none
      | some k => some (torusPort k (torusCoord c.dev k < torusCoord dst k))
    | _ => none

/-- A port is the second one of a doubled link (R573, R574). -/
def PodCfg.isTwin (c : PodCfg) (p : Nat) : Bool := 8 ≤ p && (c.dbl || c.topo = 2)

/-- The links of the pod by their primary ports. -/
def PodCfg.links (c : PodCfg) : List Nat := (List.range 16).filter fun p => (c.peer p).isSome && !c.isTwin p

/-- Port states (R580). -/
def psDown : Nat := 0
def psTraining : Nat := 1
def psQualifying : Nat := 2
def psUp : Nat := 3
def psRetraining : Nat := 4
def psFailed : Nat := 5
def psMiswired : Nat := 6

namespace State

def port (s : State) (p : Nat) : Port := smGet {} s.ports p
def setPort (s : State) (p : Nat) (k : Port) : State := { s with ports := smSet s.ports p k }

/-- The pod configuration. -/
def pod (s : State) : PodCfg :=
  { dev := s.fld PSIUD_POD.DEV, head := s.fld PSIUD_POD.HEAD, topo := s.fld PSIUD_POD.TOPO
    n := s.fld PSIUD_POD.NM1 + 1, dbl := s.flag PSIUD_POD.DOUBLE }

/-- The state of a port. -/
def portState (s : State) (p : Nat) : Nat := s.fld (PSIUD_STAT.STATE p)

/-- Changes a port's state; a change raises the event of its die (R608). -/
def setPortState (s : State) (p st : Nat) : State :=
  if s.portState p = st then s else (s.setFld (PSIUD_STAT.STATE p) st).irqEvt (4 + p / 4)

/-- DOWN: a port goes down from any state (R579). -/
def down (s : State) (p : Nat) : State :=
  (s.setPort p { s.port p with swapping := false, replay := none }).setPortState p psDown

/-- A port carries flits. -/
def portCarries (s : State) (p : Nat) : Bool := s.portState p = psUp && !(s.port p).swapping

/-! ## Service messages (R567 to R569) -/

/-- Queues a service message on a port. -/
def sendOnPort (s : State) (p : Nat) (m : SvcMsg) : State :=
  let k := s.port p
  s.setPort p { k with svcOut := k.svcOut ++ [m] }

/-- The port that works for a link: the primary while it is up, or its twin (R569). -/
def linkPort (s : State) (p : Nat) : Option Nat :=
  if s.portState p = psUp then some p
  else if s.pod.dbl || s.pod.topo = 2 then (if s.portState (p + 8) = psUp then some (p + 8) else none)
  else none

/-- The working port towards a device (R569). -/
def workingPort (s : State) (dst : Nat) : Option Nat := (s.pod.toward dst).bind s.linkPort

/-- Bytes 4 to 7 of a service header. -/
def svcWord (m : SvcMsg) : Nat :=
  m.type.toNat + 2 ^ 8 * m.src.toNat + 2 ^ 16 * m.dst.toNat + 2 ^ 24 * m.hops.toNat

/-- A message goes on a port, or is discarded where no path works; `p` is the port that the fault entry names (R569). -/
def sendOr (s : State) (working : Option Nat) (p : Nat) (m : SvcMsg) : State :=
  match working with
  | some q => s.sendOnPort q m
  | none => (s.incSat PSIUD_SVC_STAT.DROPPED 1).faultEntry classContained 5 p 0x0024 (svcWord m)

/-- Sends a service message on its way (R568, R569). -/
def sendSvc (s : State) (m : SvcMsg) : State :=
  s.sendOr (s.workingPort m.dst.toNat) ((s.pod.toward m.dst.toNat).getD 0) m

/-- Sends a message to the device at the other end of a link, named by a port of it (R568, R569). -/
def sendLink (s : State) (p type : Nat) (arg : BitVec 64) (payload : List Byte) : State :=
  let p := if s.pod.isTwin p then p - 8 else p
  s.sendOr (s.linkPort p) p
    { type := BitVec.ofNat 8 type, src := BitVec.ofNat 8 s.pod.dev
      dst := BitVec.ofNat 8 ((s.pod.peer p).map (·.1) |>.getD (s.fld (PSIUD_STAT.PEER_DEV p))), arg := arg, payload := payload }

/-- Sends a service message of this device. -/
def sendTo (s : State) (dst type : Nat) (arg : BitVec 64) (payload : List Byte) : State :=
  s.sendSvc { type := BitVec.ofNat 8 type, src := BitVec.ofNat 8 s.pod.dev, dst := BitVec.ofNat 8 dst, arg := arg, payload := payload }

/-- Sends a service message to every other device of the pod. -/
def sendAll (s : State) (type : Nat) (arg : BitVec 64) (payload : List Byte) : State :=
  if s.pod.topo = 0 then s
  else ((List.range s.pod.n).filter fun d => d ≠ s.pod.dev).foldl (fun s d => s.sendTo d type arg payload) s

end State

/-! ## Service message types (R567) -/

def stTimeReq : Nat := 1
def stTimeResp : Nat := 2
def stScale : Nat := 3
def stDepart : Nat := 4
def stDepartState : Nat := 5
def stStepCopy : Nat := 6
def stMask : Nat := 7
def stSpillReq : Nat := 8
def stSpillAck : Nat := 9
def stPageData : Nat := 10
def stFetchReq : Nat := 11
def stFree : Nat := 12

end Sys2Proof.Machine
end

