-- ==== Sys2Proof/Machine/Slots.lean ====
section
/-! DEFINITION. The slot table, admission, completion records, retirement, the step descriptor and masking
(R460 to R469, R476 to R480, R488 to R491, R496 to R498). -/

namespace Sys2Proof.Machine

/-! ## Scheduler states and roles -/

def schIdle : Nat := 0
def schRunning : Nat := 1
def schHalted : Nat := 2
def roleHead : Nat := 1
def roleFollower : Nat := 2

/-- Slots of the slot table (R460). -/
def slotCount : Nat := 4096

/-- Codes of completion records (R498). -/
def crToken : Nat := 0
def crDoneStop : Nat := 1
def crDoneMax : Nat := 2
def crCancelled : Nat := 3
def crKvExhausted : Nat := 4
def crPoisoned : Nat := 5
def crRefusedRecord : Nat := 0x10
def crRefusedLength : Nat := 0x11
def crRefusedDuplicate : Nat := 0x12
def crRefusedFull : Nat := 0x13
def crCancelUnknown : Nat := 0x14

namespace State

def slotOf (s : State) (i : Nat) : SeqSlot := smGet {} s.sch.slots i
def setSlot (s : State) (i : Nat) (q : SeqSlot) : State := s.setSch { s.sch with slots := smSet s.sch.slots i q }
def schState (s : State) : Nat := s.fld SCH_STATUS.STATE
def schRole (s : State) : Nat := s.fld SCH_CFG.ROLE

/-- Sets a flag of SCH_STATUS and raises its event (R608). -/
def schFlag (s : State) (f : Fld) : State := (s.setFlag f).irqEvt 1

/-- Tokens in a KV page (R500). -/
def tpp (s : State) : Nat := 2 ^ (16 - s.fld PG_CFG.TOKEN_LOG2)

end State

/-! ## The order of sequences (R461) -/

/-- A sequence comes before another: class, then age, then slot index. -/
def seqBefore (a b : Nat × SeqSlot) : Bool :=
  a.2.cls < b.2.cls || (a.2.cls = b.2.cls &&
    (a.2.age.toNat < b.2.age.toNat || (a.2.age = b.2.age && a.1 < b.1)))

/-- Insertion into a list in the order of R461. -/
def insertSeq (x : Nat × SeqSlot) : List (Nat × SeqSlot) → List (Nat × SeqSlot)
  | [] => [x]
  | y :: ys => if seqBefore x y then x :: y :: ys else y :: insertSeq x ys

namespace State

/-- The occupied slots that satisfy `p`, in the order of R461. -/
def seqsInOrder (s : State) (p : SeqSlot → Bool) : List (Nat × SeqSlot) :=
  (s.sch.slots.filter fun e => e.2.state ≠ .free_ && p e.2).foldl (fun l e => insertSeq e l) []

/-- The lowest FREE slot (R467). -/
def freeSlot (s : State) : Option Nat := (List.range slotCount).find? fun i => (s.slotOf i).state = .free_

/-- The entry of the completion store that is reserved for a slot holds a final record (R605). -/
def reservedHeld (s : State) (i : Nat) : Bool :=
  (List.range 16).any fun n => (s.cring n).held.any fun r => r.slot = some i

/-- The slot that a SEQ_ID occupies. -/
def slotOfSeq (s : State) (id : BitVec 32) : Option Nat :=
  (s.sch.slots.find? fun e => e.2.state ≠ .free_ && e.2.seqId = id).map (·.1)

/-- Occupied slots of a lane. -/
def laneCount (s : State) (l : Nat) : Nat :=
  (s.sch.slots.filter fun e => e.2.state ≠ .free_ && e.2.lane = l).length

/-- The lane a new sequence takes: the one with the fewest occupied slots, the lowest on a tie (R462). -/
def pickLane (s : State) : Nat :=
  (List.range (s.fld SCH_CFG.ROT)).foldl (fun b l => if s.laneCount l < s.laneCount b then l else b) 0

end State

/-! ## Completion records (R498) -/

/-- The 32 bytes of a completion record. -/
def crBytes (seqId : BitVec 32) (code pos : Nat) (token : BitVec 32) (tag alm : BitVec 64) : List Byte :=
  bytesOf 4 seqId.toNat ++ bytesOf 2 code ++ bytesOf 2 0 ++ bytesOf 4 pos ++ bytesOf 4 token.toNat ++
  bytesOf 8 tag.toNat ++ bytesOf 8 alm.toNat

namespace State

/-- A record of a refused submission record, or CANCEL_UNKNOWN (R465, R466). -/
def postRefusal (s : State) (ring code : Nat) (seqId : BitVec 32) (tag : BitVec 64) : State :=
  let s := if code = crCancelUnknown then s else s.incSat SCH_EVENTS.REFUSED 1
  s.post ring { final := true, general := true, bytes := crBytes seqId code 0 0xFFFFFFFF tag s.time.almanac }

/-- Moves a sequence to RETIRING and posts its final record, in the slot's reserved entry or, where that still holds one of a
former sequence, in a general entry (R497, R499, R605; log entry 127). A sequence that no step has
carried holds no page, and its slot is free at once. A follower retires nothing (R486). -/
def retire (s : State) (i code pos : Nat) (token : BitVec 32) : State :=
  let q := s.slotOf i
  if q.state = .retiring || q.state = .free_ || s.schRole = roleFollower then s
  else
    let full := s.reservedHeld i
    let s := s.post q.cring { final := true, general := full, slot := if full then none else some i
                              bytes := crBytes q.seqId code pos token q.userTag s.time.almanac }
    s.setSlot i (if q.carried then { q with state := .retiring } else {})

end State

/-! ## Submission records (R464 to R469) -/

/-- A little-endian field of a submission record. -/
def recField (r : BitVec 512) (at_ n : Nat) : Nat := r.toNat / 2 ^ (8 * at_) % 2 ^ (8 * n)

/-- The check of R465 that a record fails first. -/
def State.admitError (s : State) (r : BitVec 512) : Option Nat :=
  let f := recField r
  let addr := f 8 8
  if f 0 1 ≠ 1 ∨ f 3 1 / 2 ≠ 0 ∨ f 56 8 ≠ 0 ∨ 3 < f 1 1 ∨ f 4 4 = 0 ∨ 15 < f 2 1 ∨ f 20 4 = 0 ∨ addr % 4 ≠ 0 ∨
      hbmEnd < addr + 4 * f 16 4 ∨ f 16 4 = 0 then some crRefusedRecord
  else if s.fld SCH_LIMIT.MAX_TOKENS < f 16 4 + f 20 4 then some crRefusedLength
  else if (s.slotOfSeq (BitVec.ofNat 32 (f 4 4))).isSome then some crRefusedDuplicate
  else if s.freeSlot.isNone then some crRefusedFull
  else none

namespace State

/-- An ADMIT record (R465, R467). A follower admits nothing (R486). -/
def admitRec (s : State) (r : BitVec 512) : State :=
  let f := recField r
  if s.schRole = roleFollower then s
  else
    match s.admitError r with
    | some code =>
      s.postRefusal (if f 2 1 ≤ 15 then f 2 1 else 0) code (BitVec.ofNat 32 (f 4 4)) (BitVec.ofNat 64 (f 48 8))
    | none =>
      match s.freeSlot with
      | none => s
      | some i => s.setSlot i
          { state := .prefill, cls := f 1 1, age := s.time.almanac, lane := s.pickLane
            seqId := BitVec.ofNat 32 (f 4 4), cring := f 2 1, perToken := f 3 1 % 2 = 1, prompt := f 8 8
            plen := f 16 4, maxNew := f 20 4, key := BitVec.ofNat 64 (f 24 8)
            stops := (List.range 4).map fun k => BitVec.ofNat 32 (f (32 + 4 * k) 4)
            userTag := BitVec.ofNat 64 (f 48 8) }

/-- A CANCEL record (R466, R469). -/
def cancel (s : State) (r : BitVec 512) : State :=
  let id := BitVec.ofNat 32 (recField r 4 4)
  if s.schRole = roleFollower then s
  else if id = 0 ∨ recField r 0 4 ≠ 2 ∨ recField r 8 56 ≠ 0 then s.postRefusal 0 crRefusedRecord id 0
  else
    match s.slotOfSeq id with
    | none => s.postRefusal 0 crCancelUnknown id 0
    | some i =>
      if (s.slotOf i).state = .retiring then s.postRefusal 0 crCancelUnknown id 0
      else s.retire i crCancelled 0 0xFFFFFFFF

/-- A submission record (R465, R466). -/
def record (s : State) (r : BitVec 512) : State :=
  match recField r 0 1 with
  | 1 => s.admitRec r
  | 2 => s.cancel r
  | _ => if s.schRole = roleFollower then s else s.postRefusal 0 crRefusedRecord (BitVec.ofNat 32 (recField r 4 4)) 0

end State

/-! ## The step descriptor (R476 to R480) -/

/-- The entry's result is a token (R476). -/
def StepEntry.gives (e : StepEntry) : Bool := !e.prefill || e.lastCh

/-- The rows of an entry as bits of a live mask. -/
def StepEntry.mask (e : StepEntry) : BitVec 256 := BitVec.ofNat 256 ((2 ^ e.rows - 1) * 2 ^ e.row0)

/-- The largest of a list of numbers. -/
def listMax (xs : List Nat) : Nat := xs.foldl max 0

/-- The eight bytes of row `r` of the row table (R479). -/
def rowBytes (st : SchStep) (r : Nat) : List Byte :=
  match (List.range st.entries.length).find? fun i =>
      match st.entries[i]? with
      | some e => e.row0 ≤ r && r < e.row0 + e.rows
      | none => false with
  | none => bytesOf 8 0
  | some i =>
    match st.entries[i]? with
    | none => bytesOf 8 0
    | some e =>
      let last := e.gives && r + 1 = e.row0 + e.rows
      bytesOf 4 ((st.tokens[r]?).getD 0).toNat ++ bytesOf 1 i ++ bytesOf 1 (r - e.row0) ++
      bytesOf 1 ((!e.masked).toNat + 2 * last.toNat) ++ bytesOf 1 0

/-- The 64 bytes of an entry (R480). -/
def entryBytes (ptBase : Nat) (e : StepEntry) : List Byte :=
  bytesOf 4 e.seqId.toNat ++ bytesOf 2 e.slot ++ bytesOf 1 e.row0 ++ bytesOf 1 e.rows ++
  bytesOf 1 (e.prefill.toNat + 2 * e.lastCh.toNat + 4 * e.masked.toNat) ++ bytesOf 1 e.cls ++ bytesOf 2 0 ++
  bytesOf 4 e.position ++ bytesOf 4 e.kvLen ++ bytesOf 4 0 ++ bytesOf 8 (ptBase + 256 * e.slot) ++
  bytesOf 8 e.key.toNat ++ bytesOf 24 0

/-- An entry of a received step descriptor. -/
def parseEntry (bs : List Byte) : StepEntry :=
  let f := bytesField bs
  { slot := f 4 2, seqId := BitVec.ofNat 32 (f 0 4), cls := f 9 1, row0 := f 6 1, rows := f 7 1
    prefill := f 8 1 % 2 = 1, lastCh := f 8 1 / 2 % 2 = 1, masked := f 8 1 / 4 % 2 = 1
    position := f 12 4, kvLen := f 16 4, key := BitVec.ofNat 64 (f 32 8) }

/-- The byte of a step descriptor at which entry `e` begins (R477). -/
def entryAt (e : Nat) : Nat := 2304 + 64 * e

/-- Entry `e` of a received step descriptor. -/
def headEntry (d : List Byte) (e : Nat) : StepEntry := parseEntry ((d.drop (entryAt e)).take 64)

namespace State

/-- The address of the page-table region (R503). -/
def ptBase (s : State) : Nat := s.fld PG_PT_BASE.BASE * 2 ^ 20

/-- The count section of a step (R478). -/
def countSection (s : State) (st : SchStep) : List (BitVec 32) :=
  match st.count with
  | some c => c
  | none =>
    let es := st.entries
    let ends := es.map fun e => e.kvLen + e.rows
    let used := es.foldl (fun n e => n + e.rows) 0
    let vals := [st.num, es.length, used, listMax (ends.map fun n => (n + s.tpp - 1) / s.tpp), listMax ends,
      (es.filter fun e => !e.prefill).length, (es.filter (·.prefill)).foldl (fun n e => n + e.rows) 0,
      (es.filter (·.gives)).length, st.num % s.fld SCH_CFG.ROT, st.num / 2 ^ 32, 0, 0, 0, 0, 0, 0]
    (vals.map (BitVec.ofNat 32)) ++ (List.range 24).flatMap fun j =>
      [BitVec.ofNat 32 (s.fld (SCH_PARAM_USER.EVEN j)), BitVec.ofNat 32 (s.fld (SCH_PARAM_USER.ODD j))]

/-- The 18,688 bytes of a step descriptor (R477). -/
def stepBytes (s : State) (st : SchStep) : List Byte :=
  ((s.countSection st).flatMap fun w => bytesOf 4 w.toNat) ++ (List.range 256).flatMap (rowBytes st) ++
  (st.entries.flatMap (entryBytes s.ptBase)) ++ bytesOf (64 * (256 - st.entries.length)) 0

/-- The address of a step's buffer (R477). -/
def stepAddr (s : State) (num : Nat) : Nat :=
  s.fld SCH_RING.BASE * 2 ^ 15 + 32768 * (num % 2 ^ s.fld SCH_RING.COUNT_LOG2)

/-- Writes a step's descriptor into its buffer. -/
def writeStep (s : State) (st : SchStep) : State := s.hbmStore (s.stepAddr st.num) (s.stepBytes st)

/-- Writes the FLAGS of entry `e` and of its rows again, and nothing else of the descriptor (R489). -/
def writeMarks (s : State) (st : SchStep) (e : Nat) (x : StepEntry) : State :=
  let a := s.stepAddr st.num
  let s := s.hbmStore (a + 2304 + 64 * e + 8) ((entryBytes 0 x).drop 8 |>.take 1)
  (List.range x.rows).foldl (fun s r => s.hbmStore (a + 256 + 8 * (x.row0 + r) + 6) ((rowBytes st (x.row0 + r)).drop 6 |>.take 1)) s

/-- The live mask block and its mirror (R489, R528). -/
def writeLive (s : State) (m : BitVec 256) : State :=
  let s := s.hbmStore (s.fld SCH_LIVE_ADDR.ADDR * 32) (bytesOf 32 m.toNat)
  (List.range 4).foldl (fun s n => s.setReg (SCH_LIVE.off n) (wordOf m n)) s

/-! ## Masking (R488 to R490) -/

/-- Replaces a step by its local number. -/
def putStep (s : State) (st : SchStep) : State :=
  s.setSch { s.sch with steps := s.sch.steps.map fun x => if x.k = st.k then st else x }

/-- The step most recently delivered, by its local number. -/
def lastDelivered (s : State) : Option Nat :=
  (s.sch.steps.filter (·.delivered)).foldl (fun _ st => some st.k) none

/-- SCH_MASK_LOG takes the first mask. -/
def logMask (s : State) (num e slot reason : Nat) : State :=
  if s.flag SCH_MASK_LOG.VALID then s
  else (s.noteSet SCH_MASK_LOG.off (BitVec.ofNat 64 (2 ^ 63))).setReg SCH_MASK_LOG.off (BitVec.ofNat 64
    (2 ^ 63 + reason * 2 ^ 56 + e * 2 ^ 48 + slot * 2 ^ 36 + num % 2 ^ 32))

/-- The mask of an entry goes to the other devices of the pod (R489, R567). -/
def sendMask (s : State) (num e slot reason : Nat) : State :=
  s.sendAll stMask (BitVec.ofNat 64 (num % 2 ^ 32 + e * 2 ^ 32 + slot * 2 ^ 40 + reason * 2 ^ 52)) []

/-- Masks an entry of a step. -/
def maskEntry (s : State) (k e reason : Nat) : State :=
  match s.sch.steps.find? fun x => x.k = k with
  | none => s
  | some st =>
    match st.entries[e]? with
    | none => s
    | some x =>
      if x.masked then s
      else
        let es := st.entries.set e { x with masked := true, reason := reason }
        let st := { st with entries := es, live := st.live &&& ~~~x.mask }
        let s := (s.putStep st).logMask st.num e x.slot reason
        let s := s.incSat SCH_EVENTS.MASKED 1
        let s := if reason = 8 then s.incSat SCH_EVENTS.TOKEN_LATE 1 else s
        let s := if st.delivered then (if s.lastDelivered = some k then s.writeLive st.live else s)
          else s.writeMarks st e { x with masked := true, reason := reason }
        s.sendMask st.num e x.slot reason

/-- The local number of the step whose number is `n` modulo `m`. -/
def stepMod (s : State) (m n : Nat) : Option Nat := (s.sch.steps.find? fun x => x.num % m = n).map (·.k)

/-- Masks every entry of a step (R565). -/
def maskStep (s : State) (k reason : Nat) : State :=
  match s.sch.steps.find? fun x => x.k = k with
  | none => s
  | some st => (List.range st.entries.length).foldl (fun s e => s.maskEntry k e reason) s

/-- The mask reason of a withhold notice (R488). -/
def noticeReason (code : Nat) : Nat := if code = 2 then 1 else if code = 3 then 2 else 3

end State

/-- ADMIT (R465 to R467). A record with another OP is handled as the record it is (R466). -/
def execAdmitSeq (rec : BitVec 512) (s : State) : Host.Outcome State Fault Refusal :=
  if recField rec 0 1 = 1 then .next (s.admitRec rec) else .next (s.record rec)

/-- CANCEL (R466, R469). -/
def execCancel (rec : BitVec 512) (s : State) : Host.Outcome State Fault Refusal := .next (s.cancel rec)

/-- WITHHOLD_NOTICE: the first notice under way reaches the scheduler (R434, R488, R565). -/
def execWithholdNotice (s : State) : Host.Outcome State Fault Refusal :=
  match s.se.notices with
  | [] => .next s
  | n :: rest =>
    let s := { s with se := { s.se with notices := rest } }
    match s.stepMod (2 ^ 16) (n.tag / 2 ^ 16) with
    | none => .next s
    | some k =>
      if n.slot = 0xFFFF then .next (s.maskStep k 2)
      else .next (s.maskEntry k (n.tag % 2 ^ 16) (State.noticeReason n.code))

/-- Masks entry `e` of a step of the head that waits to be delivered: MASKED stands in the copy, from which the step is formed
(R486, R488, R489). -/
def State.maskCopy (s : State) (num e : Nat) (d : List Byte) : State :=
  let x := headEntry d e
  if min 256 (bytesField d 4 4) ≤ e || x.masked then s
  else
    let flags := entryAt e + 8
    let d := d.set flags ((d[flags]?).getD 0 ||| 4)
    let s := s.setSch { s.sch with copies := s.sch.copies.map fun c => if c.1 = num then (num, d) else c }
    ((s.logMask num e x.slot 6).incSat SCH_EVENTS.MASKED 1).sendMask num e x.slot 6

/-- A mask of an entry received from another device (R488, R489, R567). -/
def State.maskMsg (s : State) (step e : Nat) : State :=
  match s.stepMod (2 ^ 32) step with
  | some k => s.maskEntry k e 6
  | none =>
    match s.sch.copies.find? fun c => c.1 % 2 ^ 32 = step with
    | some c => s.maskCopy c.1 e c.2
    | none => s

/-- MASK (R488, R489, R567). -/
def execMaskEntry (step : BitVec 32) (e : BitVec 8) (_slot : BitVec 12) (_reason : BitVec 4) (s : State) : Host.Outcome State Fault Refusal :=
  .next (s.maskMsg step.toNat e.toNat)

end Sys2Proof.Machine
end

