-- ==== Sys2Proof/Machine/Pager.lean ====
section
/-! DEFINITION. The KV pager: page tables, translation, pools, allocation, spilling, fetch-back and preemption
(R500 to R518), and its service messages (R567). -/

namespace Sys2Proof.Machine

/-! ## Page tables (R501 to R505) -/

/-- The page number VA[41:16] of a page. -/
def pageNum (slot lg page : Nat) : Nat := slot * 2 ^ 14 + lg * 2 ^ 9 + page

/-- States of a level-2 entry. -/
def pteFree : Nat := 0
def pteResident : Nat := 1
def pteSpilled : Nat := 2
def pteTransit : Nat := 3

def pteState (e : BitVec 64) : Nat := getBits e 63 62
def pteHost (e : BitVec 64) : Bool := e.getLsbD 61
def ptePeer (e : BitVec 64) : Nat := getBits e 60 55
def pteFrame (e : BitVec 64) : Nat := getBits e 31 0

/-- A level-2 entry. -/
def mkPte (st : Nat) (host : Bool) (peer frame : Nat) : BitVec 64 :=
  BitVec.ofNat 64 (st * 2 ^ 62 + host.toNat * 2 ^ 61 + peer % 64 * 2 ^ 55 + frame % 2 ^ 32)

namespace State

def l1Addr (s : State) (slot lg : Nat) : Nat := s.ptBase + 256 * slot + 8 * lg
def l2Base (s : State) (slot lg : Nat) : Nat := s.ptBase + 2 ^ 20 + 4096 * (32 * slot + lg)
def bitmapAddr (s : State) : Nat := s.ptBase + 513 * 2 ^ 20

/-- A level-2 entry as a read of HBM delivers it (R409). -/
def pte (s : State) (slot lg page : Nat) : BitVec 64 := BitVec.ofNat 64 (s.hbmTakenNat (s.l2Base slot lg + 8 * page) 8)

/-- Changes a level-2 entry and invalidates it in the translation store (R506). -/
def setPte (s : State) (slot lg page : Nat) (e : BitVec 64) : State :=
  let s := s.hbmStoreNat (s.l2Base slot lg + 8 * page) 8 e.toNat
  let pn := pageNum slot lg page
  let ways := (smGet [] s.sch.tstore (pn % 4096)).filter fun w => w.1 ≠ pn
  s.setSch { s.sch with tstore := smSet s.sch.tstore (pn % 4096) ways }

/-- A word of the page-table region has wrong check bits. -/
def tablesFaulty (s : State) : Bool :=
  s.hbmMeta.any fun e => decide (s.ptBase ≤ 8 * e.1) && decide (8 * e.1 < s.ptBase + 514 * 2 ^ 20) && e.2.err != 0

/-- The pager searches its page tables and bitmap: the bytes that this reads on the stack's pins, which the spec does not state,
are a free value (R725; log entry 55), and so is what it adds to HBM_ERR where a word there has wrong check bits (R409, R453;
log entry 145). -/
def searchTables (s : State) : State :=
  let s := (s.addPins s.ptBase 0 (s.freeNat 32)).tookFree
  if !s.tablesFaulty then s
  else
    let add := fun (s : State) (f : Nat → Fld) => (s.countErr f s.ptBase (s.freeNat 32)).tookFree
    add (add (add s HBM_ERR.CE) HBM_ERR.RETRIES) HBM_ERR.EXHAUSTED

/-- Looks a KV virtual address up in the translation store, or reads both levels, which the byte
totals of the stack count, as its corrected words are (R409, R453, R505, R506, R725). -/
def walk (s : State) (va : Nat) : State × Option Nat :=
  let pn := va / 65536
  let set := pn % 4096
  let ways := smGet [] s.sch.tstore set
  let use := fun (e : BitVec 64) =>
    let s' := s.setSch { s.sch with tstore := smSet s.sch.tstore set (((pn, e) :: ways.filter fun w => w.1 ≠ pn).take 4) }
    (s', if pteState e = pteResident then some (pteFrame e % 2 ^ 26 * 65536 + va % 65536) else none)
  match ways.find? fun w => w.1 = pn with
  | some w => use w.2
  | none =>
    let at1 := s.l1Addr (pn / 2 ^ 14) (pn / 2 ^ 9 % 32)
    let l1 := BitVec.ofNat 64 (s.hbmTakenNat at1 8)
    let at2 := getBits l1 41 0 + 8 * (pn % 512)
    if l1.getLsbD 63 then
      let r := use (BitVec.ofNat 64 (s.hbmTakenNat at2 8))
      ((r.1.countTaken at1 8).countTaken at2 8, r.2)
    else (s.countTaken at1 8, none)

/-! ## Pools (R507, R534) -/

/-- The first frame of a pool and the frames it has, as numbers of 64 KiB from address 0. -/
def poolFirst (s : State) (n : Nat) : Nat := n * 2 ^ 21 + 16 * s.fld (PG_POOL.FIRST_MIB n)
def poolCount (s : State) (n : Nat) : Nat := s.fld (PG_POOL.COUNT n)

/-- A frame belongs to the pool of stack `n`. -/
def inPool (s : State) (n f : Nat) : Bool := s.poolFirst n ≤ f && f < s.poolFirst n + s.poolCount n

/-- Free frames of a pool; a frame that the memory test listed is none (R650). -/
def freeFrames (s : State) (n : Nat) : Nat :=
  s.poolCount n - (s.sch.frames.filter fun e => s.inPool n e.1).length - (s.boot.badFrames.filter (s.inPool n)).length

/-- The lowest number from `lo` on that is missing from a rising list. -/
def firstGap : Nat → List Nat → Nat
  | lo, [] => lo
  | lo, k :: ks => if k < lo then firstGap lo ks else if k = lo then firstGap (lo + 1) ks else lo

/-- The lowest-numbered free frame of a pool; a frame that the memory test listed is never one (R650). -/
def lowestFrame (s : State) (n : Nat) : Option Nat :=
  let taken := s.boot.badFrames.foldl (fun m f => smSet m f ()) (s.sch.frames.map fun e => (e.1, ()))
  let f := firstGap (s.poolFirst n) (taken.map (·.1))
  if s.inPool n f then some f else none

/-- Takes a frame for a use. -/
def takeFrame (s : State) (f : Nat) (u : FrameUse) : State := s.setSch { s.sch with frames := smSet s.sch.frames f u }

/-- Frees a frame. -/
def dropFrame (s : State) (f : Nat) : State := s.setSch { s.sch with frames := smDrop (fun k => k = f) s.sch.frames }

/-! ## Preemption (R515, R516) -/

/-- A sequence holds a resident page in the pool of stack `n`: its entry names the frame. -/
def holdsIn (s : State) (n i : Nat) : Bool :=
  s.sch.frames.any fun e => s.inPool n e.1 &&
    (match e.2 with
     | .page slot lg page =>
       let p := s.pte slot lg page
       slot = i && pteState p = pteResident && pteFrame p % 2 ^ 26 = e.1
     | .lent _ => false)

/-- Frames of a pool that are being freed: those of a sequence that this device preempts or that is RETIRING, and those of a
page that is spilled or was freed in transit (R514). -/
def beingFreed (s : State) (n : Nat) : Nat :=
  (s.sch.frames.filter fun e => s.inPool n e.1 &&
    ((s.sch.transits.any fun t => t.frame = e.1 && (t.out || t.freed)) ||
     match e.2 with
     | .page slot _ _ => let q := s.slotOf slot; (q.state = .preempted && !q.byPod) || q.state = .retiring
     | .lent _ => false)).length

/-- Preempts sequences until the frames free or being freed reach HIGH, or no victim remains. -/
def preempt (n : Nat) : Nat → State → State
  | 0, s => s
  | fuel + 1, s =>
    if s.fld PG_CFG.HIGH ≤ s.freeFrames n + s.beingFreed n then s
    else
      match (s.seqsInOrder fun q => q.state = .prefill || q.state = .decode).filter fun x => s.holdsIn n x.1 with
      | [] => s
      | x :: xs =>
        let v := (x :: xs).foldl (fun _ y => y) x
        let s := s.setSlot v.1 { v.2 with state := .preempted, former := v.2.state }
        preempt n fuel (s.incSat SCH_EVENTS.PREEMPTED 1)

/-! ## Allocation (R502, R508, R509) -/

/-- The home stack of a pair, chosen where it has none; `none` where no pool has a free frame. -/
def homeStack (s : State) (slot lg : Nat) : Option Nat :=
  match s.sch.homes.find? fun e => e.1 = 32 * slot + lg with
  | some e => some e.2
  | none =>
    ((List.range 20).map fun i => (slot + lg + i) % 20).find? fun n => s.freeFrames n ≠ 0

/-- An allocation failed in stack `n`. -/
def allocFailed (s : State) (n : Nat) : State := preempt n slotCount (s.incSat PG_STATUS.ALLOC_FAIL 1)

/-- Preemption starts where an allocation leaves too few frames. -/
def checkLow (s : State) (n : Nat) : State :=
  if s.freeFrames n < s.fld PG_CFG.LOW then preempt n slotCount s else s

/-- Allocates a page; the truth value says that a frame was found. -/
def allocPage (s : State) (slot lg page : Nat) : State × Bool :=
  match s.homeStack slot lg with
  | none => (s.allocFailed ((slot + lg) % 20), false)
  | some n =>
    match s.lowestFrame n with
    | none => (s.allocFailed n, false)
    | some f =>
      let s := s.takeFrame f (.page slot lg page)
      let s := s.setSch { s.sch with homes := smSet s.sch.homes (32 * slot + lg) n }
      let s := s.hbmStoreNat (s.l1Addr slot lg) 8 (2 ^ 63 + s.l2Base slot lg)
      ((s.setPte slot lg page (mkPte pteResident false 0 f)).checkLow n, true)

/-! ## Moving pages through host memory (R512, R513) -/

/-- Appends a descriptor to a channel's ring; `none` where no entry is free (R421). -/
def produce (s : State) (u : SeUnit) (bs : List Byte) : Option State :=
  let size := s.ringSize u
  let t := s.fld u.fTail % size
  if (t + 1) % size = s.fld u.fDone % size then none
  else some ((s.hbmStore (s.ringAddr u t) bs).setFld u.fTail ((t + 1) % size))

/-- The spill channel of the host DMA engine. -/
def spillUnit (s : State) : SeUnit := .hdma (BitVec.ofNat 4 (s.fld PG_SPILL_CFG.DMA_CH))

/-- A descriptor that moves one page between a frame and a host page (R612). -/
def pageDesc (s : State) (out : Bool) (frame hpage : Nat) : List Byte :=
  bytesOf 8 (s.fld PG_SPILL_HOST.BASE * 65536 + 65536 * hpage) ++ bytesOf 8 (frame * 65536) ++ bytesOf 4 65536 ++
  bytesOf 1 (if out then 2 else 1) ++ bytesOf 43 0

/-- The lowest free page of the host spill area from page `i` on. -/
def hostPage (s : State) : Nat → Nat → Option Nat
  | 0, _ => none
  | n + 1, i =>
    if s.hbmTakenNat (s.bitmapAddr + i / 8) 1 / 2 ^ (i % 8) % 2 = 1 then s.hostPage n (i + 1) else some i

/-- Sets or clears a host page's bit and counts it. -/
def setHostPage (s : State) (i : Nat) (used : Bool) : State :=
  let a := s.bitmapAddr + i / 8
  let b : Byte := BitVec.ofNat 8 (s.hbmTakenNat a 1)
  let m : Byte := BitVec.ofNat 8 (2 ^ (i % 8))
  let s := s.hbmStore a [if used then b ||| m else b &&& ~~~m]
  let u := s.fld PG_SPILL_HPAGES.USED
  s.setFld PG_SPILL_HPAGES.USED (if used then u + 1 else u - 1)

/-- The descriptor at a ring entry has ended well. -/
def descOk (s : State) (u : SeUnit) (i : Nat) : Bool :=
  let a := s.ringAddr u i
  s.hbmTakenNat (a + 48) 2 = 0 && s.hbmTakenNat (a + 50) 2 % 2 = 1

/-- Starts the move of a page to or from host memory; `none` where the ring has no free entry. -/
def moveHost (s : State) (t : Transit) : Option State :=
  let u := s.spillUnit
  let idx := s.fld u.fTail % s.ringSize u
  (s.produce u (s.pageDesc t.out t.frame t.remote)).map fun s =>
    s.setSch { s.sch with transits := s.sch.transits ++ [{ t with host := true, ring := some idx }] }

/-! ## Spilling (R512, R517) -/

/-- Devices that may take spills, above `d`. -/
def spillPeers (s : State) (d : Nat) : List Nat :=
  (List.range 64).filter fun x => d ≤ x && x ≠ s.pod.dev && s.fld PG_SPILL_PEERS.PEERS / 2 ^ x % 2 = 1 && (s.workingPort x).isSome

/-- Asks the next peer, or takes host memory; `none` where nothing has room and the page stays. The second
part says that no target is left. -/
def spillTo (s : State) (t : Transit) (from_ : Nat) : State × Bool :=
  let order := s.fld PG_SPILL_CFG.ORDER
  let peers := if order = 0 ∨ order = 2 then s.spillPeers from_ else []
  match peers with
  | d :: _ =>
    let s := s.setSch { s.sch with transits := s.sch.transits ++ [{ t with dev := d }] }
    (s.sendTo d stSpillReq (BitVec.ofNat 64 (pageNum t.slot t.lg t.page * 65536)) [], false)
  | [] =>
    if order ≤ 1 then
      match s.hostPage (s.fld PG_SPILL_HPAGES.PAGES) 0 with
      | none => (s, true)
      | some i =>
        match s.moveHost { t with remote := i } with
        | none => (s, false)
        | some s => (s.setHostPage i true, false)
    else (s, true)

/-- Removes a transit. -/
def dropTransit (s : State) (t : Transit) : State :=
  s.setSch { s.sch with transits := s.sch.transits.filter fun x => x ≠ t }

/-- The transit of a page. -/
def findTransit (s : State) (slot lg page : Nat) (out : Bool) : Option Transit :=
  s.sch.transits.find? fun t => t.slot = slot && t.lg = lg && t.page = page && t.out = out

/-- Frees a spill target. -/
def freeRemote (s : State) (host : Bool) (dev remote : Nat) : State :=
  if host then s.setHostPage remote false else s.sendTo dev stFree (BitVec.ofNat 64 remote) []

/-! ## Fetch-back (R513) -/

/-- Starts the fetch-back of a spilled page, or lets it wait for a frame. -/
def fetchBack (s : State) (slot lg page : Nat) : State :=
  let e := s.pte slot lg page
  if pteState e ≠ pteSpilled then s
  else
    let n := ((s.sch.homes.find? fun h => h.1 = 32 * slot + lg).map (·.2)).getD ((slot + lg) % 20)
    let wait := fun (s : State) =>
      if s.sch.waiting.contains (slot, lg, page) then s
      else s.setSch { s.sch with waiting := s.sch.waiting ++ [(slot, lg, page)] }
    match s.lowestFrame n with
    | none => wait (preempt n slotCount s)
    | some f =>
      let t : Transit := { slot := slot, lg := lg, page := page, out := false, host := pteHost e
                           dev := ptePeer e, frame := f, remote := pteFrame e }
      let started := fun (s : State) =>
        ((s.takeFrame f (.page slot lg page)).setPte slot lg page (mkPte pteTransit t.host t.dev t.remote)).checkLow n
      if t.host then
        match s.moveHost t with
        | none => wait s
        | some s => started s
      else
        started ((s.setSch { s.sch with transits := s.sch.transits ++ [t] }).sendTo t.dev stFetchReq (BitVec.ofNat 64 t.remote) [])

/-- Inserts a waiting fetch-back behind those of earlier sequences in the order of R461 and of its own. -/
def insertWaiting (s : State) (w : Nat × Nat × Nat) : List (Nat × Nat × Nat) → List (Nat × Nat × Nat)
  | [] => [w]
  | y :: ys =>
    if seqBefore (w.1, s.slotOf w.1) (y.1, s.slotOf y.1) then w :: y :: ys else y :: s.insertWaiting w ys

/-- Tries the fetch-backs that wait for a frame, sequence by sequence in the order of R461. -/
def retryWaiting (s : State) : State :=
  let w := s.sch.waiting.foldl (fun l w => s.insertWaiting w l) []
  w.foldl (fun s p => s.fetchBack p.1 p.2.1 p.2.2) (s.setSch { s.sch with waiting := [] })

/-! ## Freeing (R499, R514) -/

/-- Every page of a pair is unallocated. -/
def pairEmpty (s : State) (slot lg : Nat) : Bool :=
  (List.range 512).all fun p => pteState (s.pte slot lg p) = pteFree

/-- Frees one page wherever it stands. -/
def freePage (s : State) (slot lg page : Nat) : State :=
  let e := s.pte slot lg page
  if pteState e = pteFree then s
  else
    let s := s.setPte slot lg page 0
    if pteState e = pteResident then s.dropFrame (pteFrame e)
    else if pteState e = pteSpilled then s.freeRemote (pteHost e) (ptePeer e) (pteFrame e)
    else s.setSch { s.sch with transits := s.sch.transits.map fun t =>
      if t.slot = slot ∧ t.lg = lg ∧ t.page = page then { t with freed := true } else t }

/-- Frees every page of a slot and forgets its home stacks. -/
def freeSlotPages (s : State) (slot : Nat) : State :=
  let s := (List.range 32).foldl (fun s lg =>
    if s.pairEmpty slot lg then s else (List.range 512).foldl (fun s p => s.freePage slot lg p) s) s
  let s := (List.range 32).foldl (fun (s : State) lg =>
    if s.sch.homes.any (fun h => h.1 = 32 * slot + lg) then s.hbmStoreNat (s.l1Addr slot lg) 8 0 else s) s
  let s := s.setSch { s.sch with homes := smDrop (fun k => k / 32 = slot) s.sch.homes
                                 waiting := s.sch.waiting.filter fun w => w.1 ≠ slot }
  s.retryWaiting

/-- Every page of a slot is unallocated or resident. -/
def allResident (s : State) (slot : Nat) : Bool :=
  (List.range 32).all fun lg => (List.range 512).all fun p =>
    let st := pteState (s.pte slot lg p); st = pteFree || st = pteResident

/-- Starts the fetch-back of every spilled page of a slot. -/
def fetchSlot (s : State) (slot : Nat) : State :=
  (List.range 32).foldl (fun s lg => (List.range 512).foldl (fun s p => s.fetchBack slot lg p) s) s

/-- A step of the head that this device has still to deliver carries the sequence of slot `i` (R486). -/
def copyCarries (s : State) (i : Nat) (q : SeqSlot) : Bool :=
  s.sch.copies.any fun c => (List.range (min 256 (bytesField c.2 4 4))).any fun e =>
    let x := headEntry c.2 e
    x.slot = i && x.seqId = q.seqId

/-- The device's first step after the last step that carried the sequence of slot `i` has started (R499, R516). -/
def pastLast (s : State) (i : Nat) (q : SeqSlot) : Bool :=
  !s.copyCarries i q &&
  match q.lastStep, s.sch.cur with
  | none, c => !q.carried || c.isSome
  | some l, some c => l < c
  | some _, none => false

end State

/-- The page index of a block's page, from the descriptor's address on: 512 and above lies past the pair's pages (R501, R505). -/
def pageIndex (k : Chan) (b : Blk) : Nat :=
  match k.jobs.find? fun j => j.idx = b.job with
  | none => b.addr / 65536 % 512
  | some j => (j.desc.addr % 2 ^ 25 + (b.addr - j.desc.addr)) / 65536

/-- A victim has no spill target: it retires with KV_EXHAUSTED; a follower, which posts no record (R486), only moves it to
RETIRING (R517). -/
def State.exhaust (s : State) (i : Nat) : State :=
  if s.schRole = roleFollower then
    (match (s.slotOf i).state with
     | .free_ | .retiring => s
     | _ => s.setSlot i { s.slotOf i with state := .retiring })
  else s.retire i crKvExhausted 0 0xFFFFFFFF

/-- KV_TRANSLATE: the request of the first block of a channel that waits for a translation is answered
(R432, R505, R506, R513). -/
def execKvTranslate (n : StackId) (c : BitVec 5) (s : State) : Host.Outcome State Fault Refusal :=
  let u := SeUnit.se n c
  match (s.chan u).blks.find? fun b => b.phase = .translating with
  | none => .next s
  | some b =>
    let beyond : Bool := 512 ≤ pageIndex (s.chan u) b
    let r := if beyond then (s, none) else s.walk b.addr
    match r.2 with
    | some pa =>
      if pa / 2 ^ 37 = n.val then .next (r.1.putBlk u { b with addr := pa, phase := .reading })
      else .next (r.1.dropFrom u b.job b.seq codeAddrError)
    | none =>
      let pn := b.addr / 65536
      let s := r.1.incSat PG_STATUS.FAULTS 1
      let s := s.dropFrom u b.job b.seq codeWithheldFault
      .next (if beyond then s else s.fetchBack (pn / 2 ^ 14) (pn / 2 ^ 9 % 32) (pn % 512))

/-- SPILL: the pager starts to move a resident page of a preempted sequence (R512, R516, R517). -/
def execSpill (slot : BitVec 12) (lg : BitVec 5) (page : BitVec 9) (s : State) : Host.Outcome State Fault Refusal :=
  let q := s.slotOf slot.toNat
  let e := s.pte slot.toNat lg.toNat page.toNat
  if q.state ≠ .preempted || q.byPod || !s.pastLast slot.toNat q || pteState e ≠ pteResident then .next s
  else
    let t : Transit := { slot := slot.toNat, lg := lg.toNat, page := page.toNat, out := true, host := false, frame := pteFrame e }
    let s := s.searchTables
    let r := s.spillTo t 0
    if r.2 then .next (r.1.exhaust slot.toNat)
    else if r.1.sch.transits = s.sch.transits then .next s
    else .next (r.1.setPte slot.toNat lg.toNat page.toNat (mkPte pteTransit false 0 (pteFrame e)))

/-- SPILL_DONE: the local frame is freed and the page is spilled (R512, R514). -/
def execSpillDone (slot : BitVec 12) (lg : BitVec 5) (page : BitVec 9) (s : State) : Host.Outcome State Fault Refusal :=
  match s.findTransit slot.toNat lg.toNat page.toNat true with
  | none => .next s
  | some t =>
    let done := if t.host then (match t.ring with | some i => s.descOk s.spillUnit i | none => false) else t.moved
    if !done then .next s
    else
      let s := ((s.dropTransit t).dropFrame t.frame).incSat PG_STATUS.SPILLS 1
      let s := if t.freed then s.freeRemote t.host t.dev t.remote
        else s.setPte t.slot t.lg t.page (mkPte pteSpilled t.host t.dev t.remote)
      .next s.retryWaiting

/-- FETCH_BACK_DONE: the page is resident and the spill target is freed (R513, R514). -/
def execFetchBackDone (slot : BitVec 12) (lg : BitVec 5) (page : BitVec 9) (s : State) : Host.Outcome State Fault Refusal :=
  match s.findTransit slot.toNat lg.toNat page.toNat false with
  | none => .next s
  | some t =>
    let done := if t.host then (match t.ring with | some i => s.descOk s.spillUnit i | none => false) else t.moved
    if !done then .next s
    else
      let s := ((s.dropTransit t).incSat PG_STATUS.FETCHES 1).freeRemote t.host t.dev t.remote
      if t.freed then .next (s.dropFrame t.frame).retryWaiting
      else .next (s.setPte t.slot t.lg t.page (mkPte pteResident false 0 t.frame))

/-- RESUME_SEQUENCE: with every pool at HIGH the first PREEMPTED sequence resumes (R518). -/
def execResumeSequence (s : State) : Host.Outcome State Fault Refusal :=
  let high := (List.range 20).all fun n => s.poolCount n = 0 || s.fld PG_CFG.HIGH ≤ s.freeFrames n
  if !high || !(s.seqsInOrder fun q => q.state = .resuming).isEmpty then .next s
  else
    match s.seqsInOrder fun q => q.state = .preempted && !q.byPod with
    | [] => .next s
    | x :: _ => .next ((s.searchTables.setSlot x.1 { x.2 with state := .resuming }).fetchSlot x.1)

namespace State

/-- A peer asks for a frame (R512). -/
def spillReq (s : State) (dev : Nat) : State :=
  let lent := (s.sch.frames.filter fun e => match e.2 with | .lent _ => true | .page _ _ _ => false).length
  let ack := fun (s : State) (v : Nat) => s.sendTo dev stSpillAck (BitVec.ofNat 64 v) []
  match (List.range 20).find? fun n => (s.lowestFrame n).isSome with
  | none => ack s (2 ^ 63)
  | some n =>
    if s.fld PG_SPILL_CFG.LEND ≤ lent then ack s (2 ^ 63)
    else
      match s.lowestFrame n with
      | none => ack s (2 ^ 63)
      | some f => ack ((s.takeFrame f (.lent dev)).checkLow n) f

/-- A peer lends a frame, and the page's data is sent, or refuses, and the next target is tried; where none is left the
page stays, and one that was freed meanwhile gives its frame up (R512, R514, R517). -/
def spillAck (s : State) (dev frame : Nat) (refused : Bool) : State :=
  match s.sch.transits.find? fun t => t.out && !t.host && !t.moved && t.dev = dev with
  | none => s
  | some t =>
    if refused then
      let r := (s.dropTransit t).spillTo { t with dev := 0 } (dev + 1)
      if r.1.sch.transits.length < s.sch.transits.length then
        if t.freed then (r.1.dropFrame t.frame).retryWaiting
        else
          let s := r.1.setPte t.slot t.lg t.page (mkPte pteResident false 0 t.frame)
          if r.2 then s.exhaust t.slot else s
      else r.1
    else
      let s := s.setSch { s.sch with transits := s.sch.transits.map fun x =>
        if x = t then { t with moved := true, remote := frame } else x }
      let d := s.hbmTaken (t.frame * 65536) 65536
      (s.countTaken (t.frame * 65536) 65536).sendTo dev stPageData (BitVec.ofNat 64 frame) d

/-- The bytes of a page come in for a frame lent to the sender, or for a page fetched back from it (R512, R513, R567). -/
def pageData (s : State) (dev frame : Nat) (d : List Byte) : State :=
  match s.sch.transits.find? fun t => !t.out && !t.host && !t.moved && t.dev = dev && t.remote = frame with
  | some t =>
    let s := s.hbmStore (t.frame * 65536) (d.take 65536)
    s.setSch { s.sch with transits := s.sch.transits.map fun x => if x = t then { t with moved := true } else x }
  | none =>
    match s.sch.frames.find? fun e => e.1 = frame with
    | some (f, .lent d') => if d' = dev then s.hbmStore (f * 65536) (d.take 65536) else s
    | _ => s

/-- A peer asks for a page that this device holds for it (R513). -/
def fetchReq (s : State) (dev frame : Nat) : State :=
  match s.sch.frames.find? fun e => e.1 = frame with
  | some (f, .lent d) =>
    if d = dev then (s.countTaken (f * 65536) 65536).sendTo dev stPageData (BitVec.ofNat 64 frame) (s.hbmTaken (f * 65536) 65536)
    else s
  | _ => s

/-- A peer gives a lent frame back (R499, R514). -/
def freeMsg (s : State) (dev frame : Nat) : State :=
  match s.sch.frames.find? fun e => e.1 = frame with
  | some (f, .lent d) => if d = dev then (s.dropFrame f).retryWaiting else s
  | _ => s

end State

/-- SPILL_REQ (R512). -/
def execSpillReq (dev : BitVec 8) (_va : BitVec 42) (s : State) : Host.Outcome State Fault Refusal := .next (s.spillReq dev.toNat)

/-- SPILL_ACK (R512, R517). -/
def execSpillAck (dev : BitVec 8) (frame : BitVec 32) (refused : Bool) (s : State) : Host.Outcome State Fault Refusal :=
  .next (s.spillAck dev.toNat frame.toNat refused)

/-- PAGE_DATA (R512, R513, R567). -/
def execPageData (dev : BitVec 8) (frame : BitVec 32) (d : List Byte) (s : State) : Host.Outcome State Fault Refusal :=
  .next (s.pageData dev.toNat frame.toNat d)

/-- FETCH_REQ (R513). -/
def execFetchReq (dev : BitVec 8) (frame : BitVec 32) (s : State) : Host.Outcome State Fault Refusal :=
  .next (s.fetchReq dev.toNat frame.toNat)

/-- FREE (R499, R514). -/
def execFreeFrame (dev : BitVec 8) (frame : BitVec 32) (s : State) : Host.Outcome State Fault Refusal :=
  .next (s.freeMsg dev.toNat frame.toNat)

end Sys2Proof.Machine
end

