-- ==== Sys2Proof/Machine/Formation.lean ====
section
/-! DEFINITION. The sequence scheduler at work: forming, delivering and appending steps, token records, the
reference hamper's PSWAP, polls of the submission ring, and the scheduler's commands (R470 to R499, R508 to R511,
R519 to R534, R597 to R604). -/

namespace Sys2Proof.Machine

namespace State

/-! ## When (R470 to R473) -/

/-- The reference hamper (R470). -/
def refHamper (s : State) : HamperId := BitVec.ofNat 14 (s.fld SCH_TIMING.REF_HAMPER)

/-- The scheduler is in state running (R519). -/
def schRuns (s : State) : Bool := s.fld SCH_STATUS.STATE = 1

/-- The reference hamper is neither idle nor stopped. -/
def refAlive (s : State) : Bool :=
  let h := s.hamper s.refHamper
  h.state != stIdle && h.state != stStopped

/-- A running scheduler notes that its reference hamper is neither idle nor stopped (R471). -/
def noteRef (s : State) : State :=
  if s.schRuns && s.refAlive then s.setSch { s.sch with refLive := true } else s

/-- A running scheduler notes the departure count that is reached, and whether its reference hamper is armed (R471, R472). -/
def refDepart (s : State) (count : BitVec 64) : State :=
  if !s.schRuns || s.sch.ended then s
  else s.setSch { s.sch with
    begun := some count, refGone := s.sch.refGone || decide ((s.hamper s.refHamper).state ≠ stArmed) }

/-- A count is armed. A head that accepted its count still launches where a peer has missed or refused (R85). -/
def departArmed (s : State) : Bool := s.fld ALM_DEPART_CTRL.STATE = 1 || s.plane.launch

def formLead (s : State) : Nat := s.fld SCH_TIMING.FORM_LEAD

/-- The formation instant of the next step, where it is known: of step 0 from the armed departure count, or from the one
reached since ENABLE (R472). -/
def formInstant (s : State) : Option (BitVec 64) :=
  if s.sch.ended then none
  else
    match s.sch.forms.find? fun e => e.1 = s.sch.next with
    | some e => some e.2
    | none =>
      if s.sch.next = 0 && s.schState = schRunning then
        (match s.sch.begun with
         | some c => some (c - BitVec.ofNat 64 s.formLead)
         | none => if s.departArmed then some (s.reg ALM_DEPART.off - BitVec.ofNat 64 s.formLead) else none)
      else none

/-- A halted scheduler without a step in flight is idle (log entry 30). -/
def settleHalt (s : State) : State :=
  if s.schState = schHalted && s.sch.steps.isEmpty then s.setFld SCH_STATUS.STATE schIdle else s

/-- Formation ends and the steps in flight are not appended (R471, R520). -/
def endFormation (s : State) : State :=
  (s.setSch { s.sch with ended := true, steps := [], forms := [], bcast := none, deliver := [] }).settleHalt

/-! ## Appending (R494 to R497) -/

/-- The code with which a sequence retires after appending token `t` as its `n`-th (R497). -/
def retireCode (q : SeqSlot) (t : BitVec 32) (n : Nat) : Option Nat :=
  if t ≠ 0xFFFFFFFF && q.stops.contains t then some crDoneStop
  else if q.maxNew ≤ n then some crDoneMax
  else none

/-- The state that a sequence is in, or returns to. -/
def toDecode (q : SeqSlot) : SeqSlot :=
  if q.state = .prefill then { q with state := .decode } else { q with former := .decode }

/-- An entry's token is appended at position `p`. -/
def appendToken (s : State) (i : Nat) (q : SeqSlot) (p : Nat) (t : BitVec 32) : State :=
  let s := s.setSlot i (toDecode { q with held := p + 1, token := t, appended := q.appended + 1, poisoned := 0 })
  let s := if q.perToken then
      s.post q.cring { final := false, general := true, bytes := crBytes q.seqId crToken p t q.userTag s.time.almanac }
    else s
  match retireCode q t (q.appended + 1) with
  | none => s
  | some code => s.retire i code p t

/-- Appends one entry of a step: a token that has not arrived masks it, whatever has become of its sequence; only a step
masked with reason 0x7 continues a run of poisoned steps (R494, R496). -/
def appendEntry (s : State) (k e : Nat) : State :=
  match s.sch.steps.find? fun x => x.k = k with
  | none => s
  | some st =>
    match st.entries[e]? with
    | none => s
    | some x =>
      let q := s.slotOf x.slot
      let late := !x.masked && x.gives && x.token.isNone
      let s := if late then s.maskEntry k e 8 else s
      if q.seqId ≠ x.seqId || q.age ≠ x.age || q.state = .free_ || q.state = .retiring then s
      else if late then s.setSlot x.slot { q with poisoned := 0 }
      else if x.masked then
        if x.reason ≠ 7 then s.setSlot x.slot { q with poisoned := 0 }
        else
          let s := s.setSlot x.slot { q with poisoned := q.poisoned + 1 }
          if s.fld SCH_LIMIT.POISON_LIMIT ≤ q.poisoned + 1 then s.retire x.slot crPoisoned 0 0xFFFFFFFF else s
      else if !x.gives then s.setSlot x.slot { q with position := q.position + x.rows, poisoned := 0 }
      else s.appendToken x.slot q (x.position + x.rows) (x.token.getD 0)

/-- Appends the entries of a step; the step is no longer in flight. -/
def appendStep (s : State) (k : Nat) : State :=
  match s.sch.steps.find? fun x => x.k = k with
  | none => s
  | some st =>
    let s := (List.range st.entries.length).foldl (fun s e => s.appendEntry k e) s
    s.setSch { s.sch with steps := s.sch.steps.filter fun x => x.k ≠ k }

/-- Appends every step that the formation of step `k` appends; a follower only lets them go. -/
def appendBefore (s : State) (k : Nat) : State :=
  let due := (s.sch.steps.filter fun x => x.k + s.fld SCH_CFG.ROT ≤ k).map (·.k)
  if s.schRole = roleFollower then
    s.setSch { s.sch with steps := s.sch.steps.filter fun x => !due.contains x.k }
  else due.foldl appendStep s

/-! ## Filling the budget (R474 to R476) -/

/-- A step in flight carries the sequence of slot `i`. -/
def inFlight (s : State) (i : Nat) (q : SeqSlot) : Bool :=
  s.sch.steps.any fun st => st.entries.any fun e => e.slot = i && e.seqId = q.seqId && e.age = q.age

/-- The sequence is eligible for step `k`. -/
def eligible (s : State) (k : Nat) (x : Nat × SeqSlot) : Bool :=
  (x.2.state = .prefill || x.2.state = .decode) && x.2.lane = k % s.fld SCH_CFG.ROT && !s.inFlight x.1 x.2

/-- The rows that a sequence takes of a budget, 0 where it is skipped. -/
def rowsFor (s : State) (q : SeqSlot) (budget : Nat) : Nat :=
  if q.state = .decode then min 1 budget
  else
    let left := q.plen - q.position
    let n := min (min (s.fld SCH_CFG.CHUNK_MAX) left) budget
    if n < min (s.fld SCH_CFG.MIN_CHUNK) left then 0 else n

/-- The entry of a sequence. -/
def entryOf (i : Nat) (q : SeqSlot) (row0 n : Nat) : StepEntry :=
  let pre := q.state = .prefill
  { slot := i, seqId := q.seqId, cls := q.cls, row0 := row0, rows := n, prefill := pre
    lastCh := pre && q.position + n = q.plen, position := if pre then q.position else q.held - 1
    kvLen := if pre then q.position else q.held - 1, key := q.key, age := q.age }

/-- The input tokens of a sequence's rows. -/
def rowTokens (s : State) (q : SeqSlot) (n : Nat) : List (BitVec 32) :=
  if q.state = .prefill then
    (List.range n).map fun r => BitVec.ofNat 32 (s.hbmTakenNat (q.prompt + 4 * (q.position + r)) 4)
  else [q.token]

/-- Fills what is left of the 256 rows. -/
def fillRows (s : State) : List (Nat × SeqSlot) → Nat → List StepEntry × List (BitVec 32)
  | [], _ => ([], [])
  | x :: xs, used =>
    let n := if used < 256 then s.rowsFor x.2 (256 - used) else 0
    if n = 0 then s.fillRows xs used
    else
      let r := s.fillRows xs (used + n)
      (entryOf x.1 x.2 used n :: r.1, s.rowTokens x.2 n ++ r.2)

/-- The live mask of entries. -/
def liveOf (es : List StepEntry) : BitVec 256 :=
  es.foldl (fun m e => if e.masked then m else m ||| e.mask) 0

/-! ## Formation and delivery (R477 to R487) -/

/-- Sequences that resume return to their former state once every page is resident (R518). -/
def resumeSlots (s : State) : State :=
  (s.seqsInOrder fun q => q.state = .resuming).foldl (fun s x =>
    let s := s.searchTables
    if s.allResident x.1 then s.setSlot x.1 { x.2 with state := x.2.former } else s.fetchSlot x.1) s

/-- The carried slots note the step. -/
def noteCarried (s : State) (st : SchStep) : State :=
  st.entries.foldl (fun s e => s.setSlot e.slot { s.slotOf e.slot with carried := true, lastStep := some st.k }) s

/-- A follower takes over what an entry of the head's step says of its slot. -/
def followSlot (s : State) (e : StepEntry) : State :=
  let q := s.slotOf e.slot
  let st := if e.prefill then SlotState.prefill else .decode
  if q.state = .free_ || q.seqId ≠ e.seqId then
    (if q.state = .free_ then s else s.freeSlotPages e.slot).setSlot e.slot
      { state := st, cls := e.cls, seqId := e.seqId, key := e.key }
  else if q.state = .prefill || q.state = .decode then s.setSlot e.slot { q with state := st }
  else s

/-- The step that a follower delivers as its local step `j`; `none` where the head's copy is missing. -/
def followStep (s : State) (j : Nat) : Option SchStep :=
  let num := (2 ^ 64 + j - s.fld SCH_CFG.STAGE) % 2 ^ 64
  if j < s.fld SCH_CFG.STAGE then some { k := j, num := num }
  else
    (s.sch.copies.find? fun c => c.1 = num).map fun c =>
      let word := fun i => BitVec.ofNat 32 (bytesField c.2 (4 * i) 4)
      let es := (List.range (min 256 (word 1).toNat)).map (headEntry c.2)
      { k := j, num := num, entries := es
        tokens := (List.range (word 2).toNat).map fun r => BitVec.ofNat 32 (bytesField c.2 (256 + 8 * r) 4)
        live := liveOf es, count := some ((List.range 64).map word) }

/-- A formed step is written, broadcast and delivered; its count section is what SCH_PARAM_USER holds now (R478). -/
def deliverStep (s : State) (st : SchStep) (f : BitVec 64) : State :=
  let st := { st with count := some (s.countSection st) }
  let s := s.setSch { s.sch with steps := s.sch.steps ++ [st], next := st.k + 1, forms := s.sch.forms.filter fun e => e.1 ≠ st.k }
  let s := (s.noteCarried st).setReg SCH_STEP.off (BitVec.ofNat 64 st.k)
  let s := s.writeStep st
  let at_ := fun n => f + BitVec.ofNat 64 (scaledBy s.scaleField (s.fld (SCH_DELIV_SEL.AT n)))
  let ds := ((List.range 8).filter fun n => s.flag (SCH_DELIV_SEL.EN n)).map fun n => (⟨n, at_ n, s.stepAddr st.num⟩ : Delivery)
  let s := s.setSch { s.sch with
    bcast := some (st.k, s.time.almanac.toNat + 1024, s.countSection st), deliver := s.sch.deliver ++ ds }
  if s.schRole = roleHead then s.sendAll stStepCopy (BitVec.ofNat 64 st.num) (s.stepBytes st) else s

/-- Counts the reads of the prompt tokens that the rows of prefill entries take (R409, R476, R725). -/
def countPrompts (s : State) (es : List StepEntry) : State :=
  es.foldl (fun s e => if e.prefill then s.countTaken ((s.slotOf e.slot).prompt + 4 * e.position) (4 * e.rows) else s) s

/-- Forms the next step at its instant. -/
def formStep (s : State) (f : BitVec 64) : State :=
  let k := s.sch.next
  let s := s.appendBefore k
  if s.schState = schHalted then
    (s.setSch { s.sch with next := k + 1, forms := s.sch.forms.filter fun e => e.1 ≠ k }).settleHalt
  else if s.schRole = roleFollower then
    let s := s.resumeSlots
    match s.followStep k with
    | none =>
      let num := (2 ^ 64 + k - s.fld SCH_CFG.STAGE) % 2 ^ 64
      (s.schFlag SCH_STATUS.LEAD_MISS).deliverStep { k := k, num := num } f
    | some st =>
      let s := s.setSch { s.sch with copies := s.sch.copies.filter fun c => c.1 ≠ st.num }
      (st.entries.foldl followSlot s).deliverStep st f
  else
    let s := s.resumeSlots
    let r := s.fillRows ((s.seqsInOrder fun _ => true).filter (s.eligible k)) 0
    let s := s.countPrompts r.1
    s.deliverStep { k := k, num := k, entries := r.1, tokens := r.2, live := liveOf r.1 } f

end State

/-- What the pod's other devices did to a slot (R486, R499, R516 to R518); a standalone device hears of none. -/
def State.podNews (s : State) (n : PodNews) : State :=
  if s.schRole = 0 then s
  else
    match n with
    | .preempted i =>
      let q := s.slotOf i.toNat
      if q.state = .prefill || q.state = .decode then
        (s.setSlot i.toNat { q with state := .preempted, former := q.state, byPod := true }).incSat SCH_EVENTS.PREEMPTED 1
      else s
    | .resumed i =>
      let q := s.slotOf i.toNat
      if q.byPod && q.state = .preempted then s.setSlot i.toNat { q with state := q.former, byPod := false } else s
    | .retired i =>
      let q := s.slotOf i.toNat
      if s.schRole = roleFollower && q.state ≠ .free_ then s.setSlot i.toNat { q with state := .retiring } else s
    | .freed i =>
      let q := s.slotOf i.toNat
      if s.schRole ≠ roleHead || q.state ≠ .retiring then s
      else s.setSlot i.toNat (if q.ownFreed then {} else { q with podFreed := true })
    | .exhausted i =>
      if s.schRole = roleHead && (s.slotOf i.toNat).state = .preempted then s.exhaust i.toNat else s

/-- STEP_FORMATION (R472, R474, R485, R494). -/
def execStepFormation (s : State) : Host.Outcome State Fault Refusal :=
  match s.formInstant with
  | none => .next s
  | some f =>
    if s.time.almanac < f then .next s
    else
      .next ((if f < s.time.almanac then s.schFlag SCH_STATUS.LEAD_MISS else s).formStep f)

/-- PARAM_DELIVERY: the count section of the step formed last is in the inactive bank of every hamper
(R176, R481, R485); the step is delivered from here on (log entry 31). -/
def execParamDelivery (s : State) : Host.Outcome State Fault Refusal :=
  match s.sch.bcast with
  | none => .next s
  | some b =>
    let s := if b.2.1 < s.time.almanac.toNat then s.schFlag SCH_STATUS.LEAD_MISS else s
    let put := fun (h : Hamper) (p : SMap (BitVec 32)) (i : Nat) => smSet p (64 * (!h.paramAct).toNat + i) ((b.2.2[i]?).getD 0)
    let s := s.mapHampers fun h => { h with paramReady := true, params := (List.range 64).foldl (put h) h.params }
    let s := s.setSch { s.sch with bcast := none }
    match s.sch.steps.find? fun x => x.k = b.1 with
    | none => .next s
    | some st => .next ((s.putStep { st with delivered := true }).writeLive st.live)

namespace State

/-- The descriptor that delivery template `n` makes. -/
def deliveryDesc (s : State) (d : Delivery) : List Byte :=
  let bs := (List.range 8).flatMap fun w => bytesOf 8 (s.reg (SCH_DELIV_TMPL.off (8 * d.n + w))).toNat
  let addr := if s.flag (SCH_DELIV_SEL.SRC d.n) then s.fld SCH_LIVE_ADDR.ADDR * 32 else bytesField bs 0 8 + d.addr
  bytesOf 8 addr ++ bs.drop 8

/-- Appends a delivery's descriptor to its channel; it waits where the ring has no free entry (log entry 32). -/
def deliverOne (s : State) (d : Delivery) : State :=
  let u := unitOf (s.fld SCH_RING.BASE / 2 ^ 22) (s.fld (SCH_DELIV_SEL.CHAN d.n))
  match s.produce u (s.deliveryDesc d) with
  | none => s
  | some s => s.setSch { s.sch with deliver := s.sch.deliver.filter fun x => x ≠ d }

end State

/-- DELIVERY_TEMPLATE: the descriptor of template `n` is appended at its instant (R483). -/
def execDeliveryTemplate (n : BitVec 3) (s : State) : Host.Outcome State Fault Refusal :=
  match s.sch.deliver.find? fun d => d.n = n.toNat with
  | none => .next s
  | some d => if d.due ≤ s.time.almanac then .next (s.deliverOne d) else .next s

/-- The reference hamper is lost: not armed at the departure, idle or stopped after it was neither, or its grove re-initialised
or clock-gated (R471). -/
def State.refIsLost (s : State) : Bool :=
  s.sch.refGone || (s.sch.refLive && !s.refAlive) || s.gated (groveOfHamper s.refHamper) || s.time.rootGated

/-- REF_LOST: the reference hamper is lost while the scheduler runs (R471). -/
def execRefLost (s : State) : Host.Outcome State Fault Refusal :=
  let gone := s.refIsLost
  if s.schState = schRunning && !s.sch.ended && gone then
    .next ((s.endFormation.schFlag SCH_STATUS.REF_LOST).stepFatal 6 0 0x0006 s.refHamper.toNat)
  else .next s

/-- TOKEN_RECORD: a record from the local mesh or, `peer`, from a follower (R488, R492, R493). -/
def execTokenRecord (peer : Bool) (v : BitVec 64) (poison : Bool) (s : State) : Host.Outcome State Fault Refusal :=
  if !s.flag (if peer then SCH_TOKEN_CFG.PEN else SCH_TOKEN_CFG.MEN) then .next s
  else
    match s.sch.steps.find? fun x => x.num % 2 ^ 16 = getBits v 63 48 with
    | none => .next s
    | some st =>
      let row := getBits v 47 40
      let hit := fun i => match st.entries[i]? with
        | some e => e.gives && e.row0 + e.rows = row + 1
        | none => false
      match (List.range st.entries.length).find? hit with
      | none => .next s
      | some i =>
        match st.entries[i]? with
        | none => .next s
        | some e =>
          let id := v.extractLsb' 0 32
          if poison || s.fld SCH_LIMIT.VOCAB ≤ id.toNat then .next (s.maskEntry st.k i 7)
          else .next (s.putStep { st with entries := st.entries.set i { e with token := some id } })

namespace State

/-! ## The reference hamper's PSWAP (R472, R499, R508 to R511) -/

/-- Sequences that have retired free their pages at the first step after their last; the head's slot is FREE once every
device has freed its pages (R499). -/
def freeRetired (s : State) : State :=
  (s.seqsInOrder fun q => q.state = .retiring && !q.ownFreed).foldl (fun s x =>
    if s.pastLast x.1 x.2 then
      (s.freeSlotPages x.1).setSlot x.1 (if s.schRole = roleHead && !x.2.podFreed then { x.2 with ownFreed := true } else {})
    else s) s

/-- Pages that the positions of an entry touch. -/
def entryPages (s : State) (e : StepEntry) : List Nat :=
  let a := e.position / s.tpp
  (List.range ((e.position + e.rows - 1) / s.tpp + 1 - a)).map (a + ·)

/-- Allocates the missing pages of an entry; false where an allocation found no frame. -/
def allocEntry (s : State) (e : StepEntry) : State × Bool :=
  ((List.range (s.fld PG_CFG.LG_COUNT_M1 + 1)).flatMap fun lg => (s.entryPages e).map fun p => (lg, p)).foldl
    (fun r x =>
      if r.2 && pteState (r.1.pte e.slot x.1 x.2) = pteFree then r.1.allocPage e.slot x.1 x.2 else r) (s, true)

/-- Bytes 0 to 63 of a descriptor that the pager writes. -/
def pagerDesc (d : Desc) : List Byte :=
  bytesOf 8 d.addr ++ bytesOf 2 (d.brows - 1) ++ bytesOf 2 (d.nblk - 1) ++ bytesOf 4 d.stride ++ bytesOf 2 d.rowBase ++
  bytesOf 2 d.ringRows ++ bytesOf 1 d.op ++ bytesOf 1 (2 * d.trans.toNat + 8 * d.dlEn.toNat) ++ bytesOf 1 0 ++
  bytesOf 1 (d.rep - 1) ++ bytesOf 2 d.slot ++ bytesOf 2 0 ++ bytesOf 4 d.tag ++ bytesOf 8 d.deadline ++ bytesOf 24 0

/-- The descriptors that KV template `n` produces for entry `i` of a step (R510). -/
def kvDescs (s : State) (st : SchStep) (base : BitVec 64) (i : Nat) (e : StepEntry) (n : Nat) : List Desc :=
  let lg := s.fld (PG_KVT_A.LG n)
  let bpp := s.fld (PG_KVT_A.BPP_LOG2 n)
  let tag := st.num % 2 ^ 16 * 2 ^ 16 + i
  let tok := 2 ^ s.fld PG_CFG.TOKEN_LOG2
  if !s.flag (PG_KVT_A.KIND n) then
    if e.kvLen = 0 then []
    else [{ op := 1, addr := pageNum e.slot lg 0 * 65536, trans := true, stride := 65536 / 2 ^ bpp, brows := 2048 / 2 ^ bpp
            nblk := (e.kvLen + s.tpp - 1) / s.tpp * 2 ^ bpp
            rowBase := (s.fld (PG_KVT_A.ROW_BASE n) + i * s.fld (PG_KVT_B.ROW_STEP n)) % Config.rows
            ringRows := s.fld (PG_KVT_A.RING_ROWS n), rep := s.fld (PG_KVT_A.REPEAT_M1 n) + 1, slot := e.slot, tag := tag
            deadline := (base.toNat + scaledBy s.scaleField (s.fld (PG_KVT_B.DL_OFS n))) % 2 ^ 64
            dlEn := s.flag (PG_KVT_A.DL_EN n) }]
  else
    (s.entryPages e).map fun p =>
      let lo := max e.position (p * s.tpp)
      let hi := min (e.position + e.rows) ((p + 1) * s.tpp)
      { op := 3, addr := pteFrame (s.pte e.slot lg p) % 2 ^ 26 * 65536 + lo % s.tpp * tok
        brows := (hi - lo) * tok / 32, slot := e.slot, tag := tag }

/-- The channel of a template for an entry: that of the entry's home stack. -/
def kvUnit (s : State) (e : StepEntry) (n : Nat) : SeUnit :=
  let lg := s.fld (PG_KVT_A.LG n)
  unitOf (((s.sch.homes.find? fun h => h.1 = 32 * e.slot + lg).map (·.2)).getD ((e.slot + lg) % 20)) (s.fld (PG_KVT_A.CHAN n))

/-- Writes the descriptors of an entry until a ring is full (R511). -/
def kvEntry (s : State) (st : SchStep) (base : BitVec 64) (i : Nat) (e : StepEntry) : State :=
  let all := ((List.range 16).filter fun n => s.flag (PG_KVT_A.VALID n)).flatMap fun n =>
    (s.kvDescs st base i e n).map fun d => (s.kvUnit e n, d)
  (all.foldl (fun (r : State × Bool) x =>
    if !r.2 then r
    else
      match r.1.produce x.1 (pagerDesc x.2) with
      | none => (r.1.maskEntry st.k i 5, false)
      | some s => (s, true)) (s, true)).1

/-- Entry `i` of the step whose PSWAP has issued: pages, then descriptors. -/
def pageEntry (k : Nat) (base : BitVec 64) (s : State) (i : Nat) : State :=
  match s.sch.steps.find? fun x => x.k = k with
  | none => s
  | some st =>
    match st.entries[i]? with
    | none => s
    | some e =>
      let r := s.allocEntry e
      if !r.2 then r.1.maskEntry k i 4
      else if e.masked then r.1
      else r.1.kvEntry st base i e

/-- What the scheduler and the pager do when the reference hamper's PSWAP issues, with STEP_BASE `base`. -/
def schPswap (s : State) (base : BitVec 64) : State :=
  if s.schState = schIdle || s.sch.ended then s
  else
    let k := match s.sch.cur with | none => 0 | some c => c + 1
    let f := base + BitVec.ofNat 64 (scaledBy s.scaleField (s.fld SCH_TIMING.STEP_TICKS)) - BitVec.ofNat 64 s.formLead
    let s := (s.setReg SCH_STEP_BASE.off base).setSch { s.sch with cur := some k, forms := s.sch.forms ++ [(k + 1, f)] }
    let s := s.freeRetired.searchTables
    match s.sch.steps.find? fun x => x.k = k with
    | none => s
    | some st =>
      (List.range st.entries.length).foldl (pageEntry k base) (s.putStep { st with base := some base })

end State

/-! ## The submission ring (R597 to R604) -/

namespace State

/-- The reads of one poll and the new HEAD; no record is read while the completion store has less than 64 general
entries free (R598). -/
def sqRead (s : State) (tail : Nat) (recs : List (BitVec 512)) : State :=
  let size := 2 ^ s.fld HIF_SQ_BASE.SIZE_LOG2
  let base := s.fld HIF_SQ_BASE.BASE * 4096
  let s := ((s.emit (.hostRead base 4 false false)).addTotal 73 4).setFld HIF_SQ_POS.TAIL tail
  if size ≤ tail then (s.setFlag HIF_STATUS.SQ_ERR).setFld HIF_CTRL.SQ_EN 0
  else
    let head := s.fld HIF_SQ_POS.HEAD % size
    let n := if s.genFree < 64 then 0 else min (min 64 ((tail + size - head) % size)) recs.length
    let s := (List.range n).foldl (fun s i => (s.emit (.hostRead (base + 64 + 64 * ((head + i) % size)) 64 false false)).addTotal 73 64) s
    let s := (recs.take n).foldl record s
    let s := s.setFld HIF_SQ_POS.HEAD ((head + n) % size)
    s.emit (.hostWrite (base + 32) (bytesOf 4 ((head + n) % size)) false false false)

/-- A poll tick, at which no poll has been made yet; after a step of the Almanac none is made twice within one period
of real time; a new TICKS takes effect at the next poll (R77, R598). -/
def pollDue (s : State) : Bool :=
  decide (s.time.almanac.toNat % s.sch.tick = 0) &&
  match s.sch.polled with
  | none => true
  | some (a, t) => a != s.time.almanac &&
    match s.time.stepAt with
    | none => true
    | some u => u < t || t + s.sch.tick ≤ s.time.ticks

end State

/-- SQ_POLL: at a poll tick the device reads the submission ring, where it is enabled, and the HEAD of every
completion ring that lacks room, where the function may send requests; `busy` where the previous poll is still in progress
(R586, R598, R600, R603, R604). -/
def execSqPoll (tail : BitVec 32) (recs : List (BitVec 512)) (heads : List (BitVec 32)) (busy : Bool) (s : State) :
    Host.Outcome State Fault Refusal :=
  if !s.pollDue then .next s
  else
    let s := s.setSch { s.sch with polled := some (s.time.almanac, s.time.ticks), tick := s.fld HIF_POLL.TICKS }
    if busy then .next (if s.flag HIF_CTRL.SQ_EN then s.setFlag HIF_STATUS.POLL_SKIP else s)
    else
      let s := if s.flag HIF_CTRL.SQ_EN && s.mastering then s.sqRead tail.toNat recs else s
      .next ((List.range 16).foldl (fun s n =>
        match heads[n]? with
        | some h => s.readCqHead n h.toNat
        | none => s) s)

/-- The head's step `k` (R486, R567). -/
def State.stepCopy (s : State) (k : Nat) (d : List Byte) : State :=
  s.setSch { s.sch with copies := (s.sch.copies.filter fun c => c.1 ≠ k) ++ [(k, d)] }

/-- STEP_COPY (R486, R567). -/
def execStepCopy (k : BitVec 64) (d : List Byte) (s : State) : Host.Outcome State Fault Refusal := .next (s.stepCopy k.toNat d)

/-! ## Commands (R519 to R534) -/

namespace State

def cmdRefused (s : State) : State := s.schFlag SCH_STATUS.CMD_REFUSED

/-- ENABLE. -/
def schEnable (s : State) : State :=
  if s.schState ≠ schIdle then s.cmdRefused
  else
    let s := s.setFld SCH_STATUS.STATE schRunning
    s.setSch { s.sch with
      slots := s.sch.slots.map fun e => (e.1, { e.2 with lastStep := none })
      steps := [], next := 0, forms := [], ended := false, cur := none, bcast := none, deliver := [], copies := [], tstore := []
      begun := none, refLive := s.refAlive, refGone := false }

/-- HALT, with ABORT where `abort` (R520). -/
def schHalt (s : State) (abort : Bool) : State :=
  if s.schState ≠ schRunning then s.cmdRefused
  else
    let s := s.setFld SCH_STATUS.STATE schHalted
    if !abort then (if s.sch.ended then s.endFormation else s.settleHalt)
    else
      let now := s.time.almanac
      let a := s.reg SCH_STEP_BASE.off + BitVec.ofNat 64 (scaledBy s.scaleField (s.fld SCH_TIMING.STEP_TICKS)) - 64
      s.endFormation.abortRequest (if a < now then now else a) false

/-- Frees every page of every slot. -/
def freeAllPages (s : State) : State :=
  let slots : List Nat := (s.sch.slots.map (fun e => e.1)).append (s.sch.homes.map fun e => e.1 / 32)
  slots.eraseDups.foldl freeSlotPages s

/-- INIT. -/
def schInit (s : State) : State :=
  if s.schState = schRunning then s.cmdRefused
  else
    let s := s.freeAllPages
    let s := (s.resetReg SCH_EVENTS.off).resetReg PG_STATUS.off
    let s := s.setFld SCH_STATUS.STATE schIdle
    s.setSch { s.sch with
      slots := [], steps := [], next := 0, forms := [], ended := false, cur := none, bcast := none, deliver := []
      copies := [], tstore := [], waiting := [], begun := none, refLive := false, refGone := false }

/-- A write of SCH_CTRL (R519, R520). -/
def schCtrl (s : State) (v : BitVec 64) : State :=
  match getBits v 1 0 with
  | 1 => s.schEnable
  | 2 => s.schHalt (v.getLsbD 2)
  | 3 => s.schInit
  | _ => s

/-- MAX_TOKENS never exceeds 512 pages (R501, R524). -/
def clipTokens (s : State) : State :=
  s.setFld SCH_LIMIT.MAX_TOKENS (min (s.fld SCH_LIMIT.MAX_TOKENS) (512 * s.tpp))

/-- The offset of a register that SCH_CONFIG_WRITE names. -/
def schRegOff : SchReg → Nat
  | .schCfg => SCH_CFG.off
  | .schTiming => SCH_TIMING.off
  | .pgCfg => PG_CFG.off
  | .ptBase => PG_PT_BASE.off

/-- A write of SCH_CFG, SCH_TIMING, PG_CFG or PG_PT_BASE (R522, R531). -/
def schConfig (s : State) (r : SchReg) (v : BitVec 64) : State :=
  if s.schState ≠ schIdle then s.cmdRefused
  else (s.regWrite .host (schRegOff r) v).clipTokens

/-- A write of SCH_LIMIT (R524). -/
def schLimit (s : State) (v : BitVec 64) : State := (s.regWrite .host SCH_LIMIT.off v).clipTokens

/-- A write of PG_POOL_n (R534). -/
def pgPool (s : State) (n : Nat) (v : BitVec 64) : State :=
  if s.schState ≠ schIdle || 2 ^ 21 < 16 * getBits v 16 0 + getBits v 41 20 then s.cmdRefused
  else s.regWrite .host (PG_POOL.off n) v

end State

/-- SCH_ENABLE (R519). -/
def execSchEnable (s : State) : Host.Outcome State Fault Refusal := .next s.schEnable

/-- SCH_HALT (R519). -/
def execSchHalt (s : State) : Host.Outcome State Fault Refusal := .next (s.schHalt false)

/-- SCH_HALT_ABORT (R520). -/
def execSchHaltAbort (s : State) : Host.Outcome State Fault Refusal := .next (s.schHalt true)

/-- SCH_INIT (R519). -/
def execSchInit (s : State) : Host.Outcome State Fault Refusal := .next s.schInit

/-- SCH_CONFIG_WRITE (R522, R531). -/
def execSchConfigWrite (reg : SchReg) (v : BitVec 64) (s : State) : Host.Outcome State Fault Refusal :=
  .next (s.schConfig reg v)

/-- SCH_LIMIT_WRITE (R524). -/
def execSchLimitWrite (v : BitVec 64) (s : State) : Host.Outcome State Fault Refusal := .next (s.schLimit v)

/-- PG_POOL_WRITE (R534). -/
def execPgPoolWrite (n : StackId) (v : BitVec 64) (s : State) : Host.Outcome State Fault Refusal := .next (s.pgPool n.val v)

end Sys2Proof.Machine
end

