-- ==== Sys2Proof/Machine/PsiudPort.lean ====
section
/-! DEFINITION. Psiud ports: the flit format, retry, lanes, training, qualification and failure, and the
sending of flits (R540 to R548, R567 to R570, R575, R576, R579 to R585). -/

namespace Sys2Proof.Machine

/-! ## Flits (R543, R544) -/

/-- One bit of the CRC (R544; the bit order is log entry 33). -/
def crcBit (c : BitVec 32) : BitVec 32 := if c.getLsbD 0 then (c >>> 1) ^^^ 0xEDB88320#32 else c >>> 1

/-- The CRC register after more bytes. -/
def crcGo : BitVec 32 → List Byte → BitVec 32
  | c, [] => c
  | c, b :: bs =>
    crcGo (crcBit (crcBit (crcBit (crcBit (crcBit (crcBit (crcBit (crcBit (c ^^^ b.zeroExtend 32))))))))) bs

/-- CRC-32 of bytes. -/
def crc32 (bs : List Byte) : BitVec 32 := crcGo 0xFFFFFFFF bs ^^^ 0xFFFFFFFF

/-- The header of a flit. -/
def PFlit.header (f : PFlit) : Nat :=
  f.type.toNat * 2 ^ 60 + f.seq.toNat * 2 ^ 48 + f.ack.toNat * 2 ^ 36 + f.csvc.toNat * 2 ^ 35 + f.cch.toNat * 2 ^ 29 +
  f.cred.toNat * 2 ^ 16 + f.ch.toNat * 2 ^ 10 + f.first.toNat * 2 ^ 9 + f.last.toNat * 2 ^ 8 + f.payload.length % 32 * 8

/-- Bit `i` of a list of marks as a number. -/
def marksNat : List (BitVec 64 × Bool) → Nat
  | [] => 0
  | w :: ws => w.2.toNat + 2 * marksNat ws

/-- The 252 bytes of a flit before its CRC. -/
def PFlit.body (f : PFlit) : List Byte :=
  bytesOf 8 f.header ++ ((f.payload.take 30).flatMap fun w => bytesOf 8 w.1.toNat) ++
  bytesOf (8 * (30 - f.payload.length)) 0 ++ bytesOf 4 (marksNat (f.payload.take 30))

/-- A flit as it travels. -/
def PFlit.encode (f : PFlit) : BitVec 2048 :=
  BitVec.ofNat 2048 (ofBytes (f.body ++ bytesOf 4 (crc32 f.body).toNat))

/-- A received flit whose CRC passes. -/
def PFlit.decode (b : BitVec 2048) : Option PFlit :=
  let bs := bytesOf 256 b.toNat
  if bytesField bs 252 4 ≠ (crc32 (bs.take 252)).toNat then none
  else
    let h := BitVec.ofNat 64 (bytesField bs 0 8)
    some
      { type := h.extractLsb' 60 4, seq := h.extractLsb' 48 12, ack := h.extractLsb' 36 12, csvc := h.getLsbD 35
        cch := h.extractLsb' 29 6, cred := h.extractLsb' 16 13, ch := h.extractLsb' 10 6
        first := h.getLsbD 9, last := h.getLsbD 8
        payload := (List.range (min 30 (getBits h 7 3))).map fun w =>
          (BitVec.ofNat 64 (bytesField bs (8 + 8 * w) 8), bytesField bs 248 4 / 2 ^ w % 2 = 1) }

/-- Flit types. -/
def ftIdle : BitVec 4 := 0
def ftData : BitVec 4 := 1
def ftService : BitVec 4 := 2
def ftNak : BitVec 4 := 3
def ftAnnounce : BitVec 4 := 4

/-! ## Sending flits (R545 to R547, R570) -/

/-- Flits that a sender holds unacknowledged at most. -/
def txWindow : Nat := 2048

namespace State

/-- The PHY's timestamp: 16 × Almanac plus a fraction that only the PHY knows. -/
def stamp (s : State) : BitVec 64 := s.time.almanac * 16 + BitVec.ofNat 64 (s.freeNat 4)

/-- The service type of a flit that begins a service message. -/
def flitStype (f : PFlit) : Nat :=
  if f.type = ftService && f.first then (match f.payload with | w :: _ => (w.1.extractLsb' 32 8).toNat | [] => 0) else 0

/-- The PHY writes t1 or t3 as a timing flit leaves the port. -/
def stampFlit (s : State) (f : PFlit) : PFlit × State :=
  let put := fun (i : Nat) => f.payload.set i (s.stamp, false)
  match flitStype f with
  | 1 => ({ f with payload := put 1 }, { s.tookFree with time := { s.time with reqT1 := s.stamp } })
  | 2 => ({ f with payload := put 2 }, s.tookFree)
  | _ => (f, s)

/-- The first pending credit return of a port, taken from it, as header fields. -/
def takeReturn (s : State) (p : Nat) : (Bool × BitVec 6 × BitVec 13) × State :=
  let k := s.port p
  match k.returns with
  | [] => ((false, 0, 0), s)
  | r :: rest =>
    let n := min 8191 r.2
    let left := if r.2 - n = 0 then rest else (r.1, r.2 - n) :: rest
    ((r.1.isNone, r.1.getD 0, BitVec.ofNat 13 n), s.setPort p { k with returns := left })

/-- Counts `n` of event `e` of a port (R722). -/
def bumpP (s : State) (p e n : Nat) : State :=
  if n = 0 then s else s.setPort p { s.port p with ctr := smBump (s.port p).ctr e n }

/-- Sends a flit that has no sequence number. -/
def sendPlain (s : State) (p : Nat) (type : BitVec 4) : State :=
  let r := s.takeReturn p
  let f : PFlit := { type := type, ack := (s.port p).expect, csvc := r.1.1, cch := r.1.2.1, cred := r.1.2.2 }
  r.2.emit (.psiud p f.encode)

/-- Sends a sequenced flit for the first time; `frees` is the service-ring space that its acknowledgement
frees. -/
def sendFresh (s : State) (p : Nat) (f : PFlit) (frees : Option (Nat × Nat)) : State :=
  let r := s.takeReturn p
  let x := r.2.stampFlit f
  let k := x.2.port p
  let f := { x.1 with seq := k.base + BitVec.ofNat 12 k.unacked.length, ack := k.expect
                      csvc := r.1.1, cch := r.1.2.1, cred := r.1.2.2 }
  let k := { k with unacked := k.unacked ++ [⟨f, 1, frees⟩], ackTick := if k.unacked.isEmpty then s.time.ticks else k.ackTick }
  let n := 8 * f.payload.length
  (((x.2.setPort p k).bumpP p 2 n).addTotal (40 + 2 * p) n).emit (.psiud p f.encode)

/-- Sends the next flit of a replay. -/
def sendReplay (s : State) (p i : Nat) : State :=
  let k := s.port p
  match k.unacked[i]? with
  | none => s.setPort p { k with replay := none }
  | some u =>
    let x := s.stampFlit u.flit
    let f := { x.1 with ack := k.expect }
    let k := { x.2.port p with
      unacked := k.unacked.set i { u with flit := f, sends := u.sends + 1 }
      replay := if i + 1 < k.unacked.length then some (i + 1) else none }
    ((x.2.setPort p k).bumpP p 5 1).emit (.psiud p f.encode)

/-! ## Port state changes (R540 to R542, R547, R548, R575, R576) -/

/-- Ticks in which training completes: 50 ms. -/
def trainTicks : Nat := 35000000

/-- Every lane on its own circuit. -/
def lanesHome (s : State) (p : Nat) : State :=
  (s.setFld (PSIUD_LANES.TX_SPARE p) 0x1F).setFld (PSIUD_LANES.RX_SPARE p) 0x1F

/-- A port in training sends its device and port number to its peer (R575). -/
def sendIdentity (s : State) (p : Nat) : State := s.emit (.portIdentity p s.pod.dev)

/-- The port retrains, keeping sequence numbers and unacknowledged flits. -/
def retrain (s : State) (p : Nat) : State :=
  let k := s.port p
  let s := s.setPort p { k with
    swapping := false, trainBy := s.time.ticks + trainTicks
    replay := if k.unacked.isEmpty then none else some 0
    unacked := k.unacked.map fun u => { u with sends := 0 } }
  (((s.incSat (PSIUD_ERR.RETRAINS p) 1).lanesHome p).setPortState p psRetraining).sendIdentity p

/-- A replay starts from the oldest flit, or the port retrains where one flit has been sent too often. -/
def startReplay (s : State) (p : Nat) : State :=
  let k := s.port p
  if k.unacked.isEmpty then s
  else if k.unacked.any fun u => s.fld (PSIUD_LINK_CFG.REPLAY_LIMIT p) + 1 ≤ u.sends then s.retrain p
  else (s.setPort p { k with replay := some 0, ackTick := s.time.ticks }).incSat (PSIUD_ERR.REPLAYS p) 1

/-- Transmit and receive side states (R582, R583). -/
def txDisabled : Nat := 0
def txAwaiting : Nat := 1
def txRunning : Nat := 2
def txHalted : Nat := 3
def rxDisabled : Nat := 0
def rxRunning : Nat := 1
def rxHalted : Nat := 2

def txState (s : State) (p c : Nat) : Nat := s.fld (PSIUD_TX_STAT.STATE p c)
def rxState (s : State) (p c : Nat) : Nat := s.fld (PSIUD_RX_STAT.STATE p c)
def txChan (s : State) (p c : Nat) : TxChan := smGet {} (s.port p).tx c
def rxChan (s : State) (p c : Nat) : RxChan := smGet {} (s.port p).rx c
def setTx (s : State) (p c : Nat) (k : TxChan) : State := s.setPort p { s.port p with tx := smSet (s.port p).tx c k }
def setRx (s : State) (p c : Nat) (k : RxChan) : State := s.setPort p { s.port p with rx := smSet (s.port p).rx c k }

/-- A ring without its incomplete messages. -/
def keepComplete (r : List RxItem) : List RxItem :=
  r.filter fun x => match x with | .msg m => m.complete | .skip _ => true

/-- Units of the incomplete messages of a ring, which stand before its tail. -/
def partUnits (r : List RxItem) : Nat :=
  r.foldl (fun n x => n + match x with | .msg m => if m.complete then 0 else m.size | .skip _ => 0) 0

/-- Every channel of a port halts. -/
def haltChannels (s : State) (p : Nat) : State :=
  (List.range 64).foldl (fun s c =>
    let s := if s.txState p c = txDisabled then s else s.setFld (PSIUD_TX_STAT.STATE p c) txHalted
    if s.rxState p c = rxDisabled then s
    else
      let k := s.rxChan p c
      let z := 512 * s.fld (PSIUD_RX_CFG.SIZE p c)
      let tail := (k.tail + z - partUnits k.ring) % z
      (s.setRx p c { k with ring := keepComplete k.ring, tail := tail }).setFld (PSIUD_RX_STAT.STATE p c) rxHalted) s

/-- The port goes to failed (R548). -/
def failPort (s : State) (p : Nat) : State :=
  let s := s.setPort p { s.port p with swapping := false, replay := none }
  let s := (s.haltChannels p).setPortState p psFailed
  s.faultEntry classFunction 5 p 0x0022 (s.reg (PSIUD_STAT.off p)).toNat

/-- TRAIN: training starts from down or failed with a fresh link, and the port sends its device and port number to its
peer (R575). In FAILED ports stay idle (R634). -/
def startTraining (s : State) (p : Nat) : State :=
  if s.time.failed then s
  else
  let k := s.port p
  let s := if s.portState p = psDown then s.resetReg (PSIUD_ERR.off p) else s
  let s := s.setPort p { tx := k.tx, rx := k.rx, announce := k.announce, svcOut := k.svcOut, ctr := k.ctr, pmc := k.pmc
                         trainBy := s.time.ticks + trainTicks }
  (((s.lanesHome p).setFld (PSIUD_STAT.QUAL_PASS p) 0).setPortState p psTraining).sendIdentity p

/-- A command or configuration write of a port is discarded. -/
def portRefused (s : State) (p : Nat) : State := s.setFlag (PSIUD_STAT.CMD_REFUSED p)

/-- TRAIN acts from down or failed on a port that is part of the pod (R573 to R575, R579). -/
def train (s : State) (p : Nat) : State :=
  if (s.portState p = psDown || s.portState p = psFailed) && (s.pod.peer p).isSome then s.startTraining p
  else s.portRefused p

/-- QUALIFY acts from up while every channel is disabled. -/
def qualify (s : State) (p : Nat) : State :=
  let idle := (List.range 64).all fun c => s.txState p c = txDisabled && s.rxState p c = rxDisabled
  if s.portState p = psUp && idle then (s.setFld (PSIUD_STAT.QUAL_PASS p) 0).setPortState p psQualifying
  else s.portRefused p

/-- A write of PSIUD_CTRL. -/
def portCtrl (s : State) (p : Nat) (v : BitVec 64) : State :=
  match getBits v 1 0 with
  | 1 => s.train p
  | 2 => s.down p
  | 3 => s.qualify p
  | _ => s

/-- A write of PSIUD_POD (R585). -/
def podWrite (s : State) (v : BitVec 64) : State :=
  if (List.range 16).all fun p => s.portState p = psDown then s.regWrite .host PSIUD_POD.off v else s

end State

/-- LANE_SPARE: a lane of a direction is declared failed (R540, R541). -/
def execLaneSpare (p : PortId) (tx : Bool) (lane : BitVec 4) (s : State) : Host.Outcome State Fault Refusal :=
  let n := p.toNat
  let f := if tx then PSIUD_LANES.TX_SPARE n else PSIUD_LANES.RX_SPARE n
  if s.portState n ≠ psUp then .next s
  else if s.fld f ≠ 0x1F then .next (s.retrain n)
  else
    let s := (s.setFld f lane.toNat).setFlag (PSIUD_STAT.SPARED n)
    let s := (s.incSat (PSIUD_ERR.SPARES n) 1).bumpP n 9 1
    .next ((s.setPort n { s.port n with swapping := true }).faultEntry 0 5 n 0x0020 lane.toNat)

/-- LANE_SWAP_DONE: flits pass the port again, and what was lost is sent again (R540). -/
def execLaneSwapDone (p : PortId) (s : State) : Host.Outcome State Fault Refusal :=
  if (s.port p.toNat).swapping then .next (s.setPort p.toNat { s.port p.toNat with swapping := false }) else .next s

/-- LASER_LOW (R541). -/
def execLaserLow (p : PortId) (k : BitVec 4) (s : State) : Host.Outcome State Fault Refusal :=
  let n := p.toNat
  let st := s.portState n
  let s := s.setFld (PSIUD_STAT.LASER_OK n) (s.fld (PSIUD_STAT.LASER_OK n) - s.fld (PSIUD_STAT.LASER_OK n) / 2 ^ k.toNat % 2 * 2 ^ k.toNat)
  if st = psDown ∨ st = psFailed then .next s else .next (s.failPort n)

/-- Training that is not complete after 50 ms: of a retrain it fails the port with an entry (R548), and first training leaves
the port failed, without one (R579, R635; log entry 64). -/
def State.trainLate (s : State) (n : Nat) : State :=
  if s.portState n = psRetraining then s.failPort n
  else if s.portState n = psTraining then s.setPortState n psFailed
  else s

/-- TRAINING_COMPLETE: the peer's identity is checked, and qualification begins, or after a retrain traffic
goes on; after 50 ms it comes too late (R542, R547, R548, R575, R657). -/
def execTrainingComplete (p : PortId) (peerDev : BitVec 6) (peerPort : BitVec 4) (laser : BitVec 16) (s : State) :
    Host.Outcome State Fault Refusal :=
  let n := p.toNat
  let st := s.portState n
  if st ≠ psTraining ∧ st ≠ psRetraining then .next s
  else if (s.port n).trainBy < s.time.ticks then .next (s.trainLate n)
  else
    let s := ((s.setFld (PSIUD_STAT.PEER_DEV n) peerDev.toNat).setFld (PSIUD_STAT.PEER_PORT n) peerPort.toNat)
    let s := s.setFld (PSIUD_STAT.LASER_OK n) laser.toNat
    if laser ≠ 0xFFFF then .next (s.failPort n)
    else if s.pod.peer n ≠ some (peerDev.toNat, peerPort.toNat) then .next (s.setPortState n psMiswired)
    else if st = psTraining then .next (s.setPortState n psQualifying)
    else
      let s := if (s.port n).replay.isSome then s.incSat (PSIUD_ERR.REPLAYS n) 1 else s
      .next (((s.setPort n { s.port n with ackTick := s.time.ticks }).setPortState n psUp).faultEntry 0 5 n 0x0021 0)

/-- A lane passes a qualification of `ms` milliseconds at 224 Gb/s: its pre-FEC error rate is below 1 × 10^-8, and no
codeword needed more than 6 symbol corrections (R576). -/
def lanePasses (ms : Nat) (r : LaneRun) : Bool := 100 * r.errors < 224 * ms && r.worst ≤ 6

/-- QUALIFICATION_DONE: the port is up where all 32 lanes pass (R576). -/
def execQualificationDone (p : PortId) (lanes : List LaneRun) (s : State) : Host.Outcome State Fault Refusal :=
  let n := p.toNat
  if s.portState n ≠ psQualifying then .next s
  else if lanes.length = 32 ∧ lanes.all (lanePasses (s.fld (PSIUD_LINK_CFG.QUAL_MS n))) then .next ((s.setFlag (PSIUD_STAT.QUAL_PASS n)).setPortState n psUp)
  else .next ((s.setFld (PSIUD_STAT.QUAL_PASS n) 0).setPortState n psFailed)

/-- PORT_FAILED (R548, R579, R635). -/
def execPortFailed (p : PortId) (s : State) : Host.Outcome State Fault Refusal :=
  if s.time.ticks < (s.port p.toNat).trainBy then .next s else .next (s.trainLate p.toNat)

namespace State

/-! ## Acknowledgement (R545, R546, R568) -/

/-- Space of a service ring is free again. -/
def svcFree (s : State) (x : Nat × Nat) : State :=
  let k := s.port x.1
  s.setPort x.1 { k with returns := k.returns ++ [(none, x.2 / 8)] }

/-- An ACK acknowledges every earlier flit. -/
def ackTo (s : State) (p : Nat) (ack : BitVec 12) : State :=
  let k := s.port p
  let n := (ack - k.base).toNat
  if n = 0 ∨ k.unacked.length < n then s
  else
    let freed := (k.unacked.take n).filterMap (·.frees)
    let s := s.setPort p { k with
      base := ack, unacked := k.unacked.drop n, ackTick := s.time.ticks
      replay := match k.replay with
        | none => none
        | some i => if k.unacked.length - n = 0 then none else some (i - n) }
    freed.foldl svcFree s

end State

/-- NAK: the sender sends its unacknowledged flits again from the named number (R546). -/
def execNak (p : PortId) (ack : BitVec 12) (s : State) : Host.Outcome State Fault Refusal :=
  if s.portCarries p.toNat then .next ((s.ackTo p.toNat ack).startReplay p.toNat) else .next s

/-- REPLAY_TIMEOUT (R547). -/
def execReplayTimeout (p : PortId) (s : State) : Host.Outcome State Fault Refusal :=
  let k := s.port p.toNat
  if s.portCarries p.toNat && !k.unacked.isEmpty && k.ackTick + 2048 ≤ s.time.ticks then .next (s.startReplay p.toNat)
  else .next s

/-- TRAIN (R579). -/
def execTrain (p : PortId) (s : State) : Host.Outcome State Fault Refusal := .next (s.train p.toNat)

/-- DOWN (R579). -/
def execDown (p : PortId) (s : State) : Host.Outcome State Fault Refusal := .next (s.down p.toNat)

/-- QUALIFY (R579). -/
def execQualify (p : PortId) (s : State) : Host.Outcome State Fault Refusal := .next (s.qualify p.toNat)

/-- PSIUD_POD_WRITE (R585). -/
def execPsiudPodWrite (v : BitVec 64) (s : State) : Host.Outcome State Fault Refusal := .next (s.podWrite v)

end Sys2Proof.Machine
end

