-- ==== Sys2Proof/Machine/PsiudChan.lean ====
section
/-! DEFINITION. Psiud channels: the placement rule, transmit queues, receive rings, draining, step-wise
channels, announces, channel commands and configuration, and the edge ports that stream engines and Psiud share
(R413 to R419, R454, R549 to R566, R582 to R584, R630). Sizes and positions are in 8-byte units. -/

namespace Sys2Proof.Machine

/-! ## Edge ports (R557) -/

/-- The stack whose span is span A (`b` false) or B of an optical die. -/
def dieSpan (die : Nat) (b : Bool) : Nat :=
  match die, b with
  | 0, false => 0
  | 0, true => 19
  | 1, false => 4
  | 1, true => 5
  | 2, false => 9
  | 2, true => 10
  | 3, false => 14
  | _, _ => 15

/-- The stack whose span an EPORT value names on a port. -/
def eportStack (p eport : Nat) : Nat := dieSpan (p / 4) (256 ≤ eport)

/-- Side and core of the edge port that an EPORT value names. -/
def eportSide (p eport : Nat) : Nat := stackSide (eportStack p eport)
def eportCore (p eport : Nat) : CoreId := portCore (eportStack p eport) (eport % 256)

/-- An EPORT value names an edge port that exists. -/
def eportOk (p eport : Nat) : Bool := eport % 256 < spanWidth (stackSpan (eportStack p eport))

/-- Two claims hold a slot in common. -/
def SlotClaim.clash (a b : SlotClaim) : Bool := a.side = b.side && a.core = b.core && a.slots &&& b.slots ≠ 0

namespace State

/-- The claim of a stream-engine channel with configuration `v`, where it is of kind `kind`. -/
def seClaim (n : Nat) (v : BitVec 64) (kind : Nat) : List SlotClaim :=
  if getBits v 1 0 = kind then [⟨stackSide n, portCore n (getBits v 31 24), getBits v 47 32⟩] else []

/-- The claims on the edge ports of the spans: `kind` 1 those that inject into the mesh, 2 those that take
from it. A channel of the list `not_` is left out. -/
def seClaims (s : State) (kind : Nat) (not_ : Option (Nat × Nat)) : List SlotClaim :=
  (List.range 20).flatMap fun n => (List.range 32).flatMap fun c =>
    if not_ = some (n, c) then [] else seClaim n (s.reg (SE_CH_CFG.off n c)) kind

/-- The claim that a value of PSIUD_TX_CFG or PSIUD_RX_DRAIN makes. -/
def txClaim (p : Nat) (v : BitVec 64) : SlotClaim := ⟨eportSide p (getBits v 47 39), eportCore p (getBits v 47 39), getBits v 63 48⟩
def rxClaim (p : Nat) (v : BitVec 64) : SlotClaim := ⟨eportSide p (getBits v 31 23), eportCore p (getBits v 31 23), getBits v 47 32⟩

/-- The claims of Psiud channels, of one direction. -/
def psiudClaims (s : State) (kind : Nat) (not_ : Option (Nat × Nat)) : List SlotClaim :=
  (List.range 16).flatMap fun p => (List.range 64).flatMap fun c =>
    if not_ = some (p, c) then []
    else if kind = 1 then [rxClaim p (s.reg (PSIUD_RX_DRAIN.off p c))]
    else [txClaim p (s.reg (PSIUD_TX_CFG.off p c))]

/-- A write of SE_CH_CFG or HDMA_CH_CFG (R416, R454, R558, R630). -/
def chCfgWrite (s : State) (agent : Agent) (u : SeUnit) (v : BitVec 64) : State :=
  if s.fld u.fState ≠ chDisabled then s.setFlag (engCfgRefused u.eng)
  else
    match u with
    | .hdma _ => s.regWrite agent u.base v
    | .se n c =>
      let old := s.reg u.base
      let new := (s.regWrite agent u.base v).reg u.base
      let new := if getBits new 31 24 < spanWidth (stackSpan n.val) then new else putBits new 31 24 (getBits old 31 24)
      let kind := getBits new 1 0
      let others := s.seClaims kind (some (n.val, c.toNat)) ++ s.psiudClaims kind none
      if (seClaim n.val new kind).any fun a => kind ≠ 0 && others.any a.clash then s.setFlag (engCfgRefused u.eng)
      else s.setReg u.base new

/-! ## Transmit side (R550, R552, R554, R559, R560) -/

/-- Rows of a channel's messages. -/
def txRows (s : State) (p c : Nat) : Nat := s.fld (PSIUD_TX_CFG.MROWS_M1 p c) + 1

/-- The number of the step whose PSWAP issued last, as its descriptor carries it; 0 where the scheduler does
not run (R560). -/
def curStepNum (s : State) : Nat :=
  match s.sch.cur with
  | none => 0
  | some k =>
    if s.schState ≠ schRunning then 0
    else
      match s.sch.steps.find? fun x => x.k = k with
      | some st => st.num
      | none => if s.schRole = roleFollower then (2 ^ 64 + k - s.fld SCH_CFG.STAGE) % 2 ^ 64 else k

/-- Moves rows from a channel's inlet into its queue of 64 rows; their credits return. -/
def txMove (p c : Nat) (g : GroveId) : Nat → State → State
  | 0, s => s
  | n + 1, s =>
    let k := s.txChan p c
    match k.inlet with
    | r :: rest =>
      if k.queue.length < 64 then
        txMove p c g n ((s.setTx p c { k with inlet := rest, queue := k.queue ++ [r.1] }).wordsBack g r.2)
      else s
    | [] => s

/-- The grove of a transmit channel's edge port. -/
def txGrove (s : State) (p c : Nat) : GroveId := groveOf (eportCore p (s.fld (PSIUD_TX_CFG.EPORT p c)))

/-- A flit reaches a transmit channel. A row that finds the inlet full is lost (log entry 24). -/
def txFlit (s : State) (p c : Nat) (f : Flit) : State :=
  let k := s.txChan p c
  let es := k.part ++ flitWords f 0
  if !f.last then s.setTx p c { k with part := es }
  else if 8 ≤ k.inlet.length then s.setTx p c { k with part := [] }
  else
    let row : Entry := ⟨rowOfWords ((es.take 4).map (·.data)), marksOf ((es.take 4).map (·.poison))⟩
    let tag := if k.rows = 0 then some (BitVec.ofNat 32 (s.curStepNum % 2 ^ 16 * 2 ^ 16 + k.index % 2 ^ 16)) else none
    let k := { k with
      part := [], inlet := k.inlet ++ [(⟨row, tag⟩, es.filterMap (·.word))]
      rows := if k.rows + 1 < s.txRows p c then k.rows + 1 else 0
      index := if k.rows = 0 then k.index + 1 else k.index }
    txMove p c (s.txGrove p c) 8 (s.setTx p c k)

/-- The placement rule: bytes skipped at the tail and the tail after a message, for a ring of `z` (R552). -/
def place (z t size : Nat) : Nat × Nat :=
  if size ≤ z - t then (0, if t + size = z then 0 else t + size) else (z - t, size)

/-- A transmit channel begins the message at the head of its queue, where it may. -/
def txBegin (s : State) (p c : Nat) : State :=
  let size := 2 + 4 * s.txRows p c
  let z := s.fld (PSIUD_TX_STAT.RING p c)
  let credit := s.fld (PSIUD_TX_STAT.CREDIT p c)
  if z < 2 * size - 1 then
    (s.setFlag (PSIUD_TX_STAT.TOO_BIG p c)).setFld (PSIUD_TX_STAT.STATE p c) txHalted
  else
    let x := place z (s.fld (PSIUD_TX_STAT.TAIL p c)) size
    if credit < x.1 + size then s
    else
      let s := (s.setFld (PSIUD_TX_STAT.CREDIT p c) (credit - (x.1 + size))).setFld (PSIUD_TX_STAT.TAIL p c) x.2
      s.setTx p c { s.txChan p c with sent := 1 }

/-- The two header words of a message. -/
def msgHeader (s : State) (p rows : Nat) (tag : BitVec 32) (poisoned : Bool) : List (BitVec 64 × Bool) :=
  [(BitVec.ofNat 64 (32 * rows + 2 ^ 32 * tag.toNat), false),
   (BitVec.ofNat 64 (1 + 2 ^ 8 * poisoned.toNat + 2 ^ 16 * s.pod.dev + 2 ^ 24 * p + 2 ^ 32 * (s.time.almanac.toNat % 2 ^ 32)), false)]

/-- The words of rows with their marks. -/
def rowWords (rs : List TxRow) : List (BitVec 64 × Bool) :=
  rs.flatMap fun r => (List.range 4).map fun w => (wordOf r.entry.data w, r.entry.poison.getLsbD w)

/-- Sends the next flit of the message that has begun: whole rows, as many as have arrived and fit. -/
def txSend (s : State) (p c : Nat) : State :=
  let k := s.txChan p c
  let done := k.sent - 1
  let n := min (min 7 k.queue.length) (s.txRows p c - done)
  match k.queue with
  | [] => s
  | r :: _ =>
    let rows := k.queue.take n
    let head := if done = 0 then s.msgHeader p (s.txRows p c) (r.tag.getD 0) (rows.any fun x => x.entry.poison ≠ 0) else []
    let last : Bool := done + n = s.txRows p c
    let f : PFlit := { type := ftData, ch := BitVec.ofNat 6 c, first := done = 0, last := last, payload := head ++ rowWords rows }
    let s := s.setTx p c { k with queue := k.queue.drop n, sent := if last then 0 else k.sent + n }
    txMove p c (s.txGrove p c) 8 (s.sendFresh p f none)

/-- A channel's turn to send: it begins a message, or sends the next flit of one. -/
def txTurn (s : State) (p c : Nat) : State :=
  if s.txState p c ≠ txRunning || (s.txChan p c).queue.isEmpty then s
  else
    let s := if (s.txChan p c).sent = 0 then s.txBegin p c else s
    if (s.txChan p c).sent = 0 then s else s.txSend p c

/-! ## Service path (R567, R568) -/

/-- The words of a service message. -/
def svcWords (m : SvcMsg) : List (BitVec 64 × Bool) :=
  let n := (m.payload.length + 7) / 8
  (BitVec.ofNat 64 (m.payload.length + 2 ^ 32 * svcWord m), false) :: (m.arg, false) ::
    (List.range n).map fun i => (BitVec.ofNat 64 (ofBytes ((m.payload.drop (8 * i)).take 8)), false)

/-- Units of a service ring. -/
def svcRing : Nat := 32768

/-- The next service message begins where the peer's service ring has room. -/
def svcBegin (s : State) (p : Nat) : State :=
  let k := s.port p
  match k.svcSend, k.svcOut with
  | none, m :: rest =>
    let ws := svcWords m
    let x := place svcRing (k.svcTail / 8) ws.length
    let cost := 8 * (x.1 + ws.length)
    if k.svcCred < cost then s
    else s.setPort p { k with
      svcOut := rest, svcCred := k.svcCred - cost, svcTail := 8 * x.2, svcSend := some ⟨ws, false, m.ring⟩ }
  | _, _ => s

/-- Sends the next flit of the service message under way. -/
def svcTurn (s : State) (p : Nat) : State :=
  let s := s.svcBegin p
  let k := s.port p
  match k.svcSend with
  | none => s
  | some m =>
    let last : Bool := m.words.length ≤ 30
    let f : PFlit := { type := ftService, first := !m.begun, last := last, payload := m.words.take 30 }
    let s := s.setPort p { k with svcSend := if last then none else some { m with words := m.words.drop 30, begun := true } }
    s.sendFresh p f (if last then m.frees else none)

/-- Sends one announce. -/
def announceTurn (s : State) (p : Nat) : State :=
  let k := s.port p
  match k.announce with
  | [] => s
  | a :: rest =>
    let w := BitVec.ofNat 64 (a.2 % 2 ^ 20 + a.1.toNat * 2 ^ 20)
    (s.setPort p { k with announce := rest }).sendFresh p { type := ftAnnounce, payload := [(w, false)] } none

/-- A port sends one flit: a replay first, then announces, service flits, the data of channel `ch`, and an
idle flit where nothing else can leave. -/
def sendTurn (s : State) (p : Nat) (ch : Option Nat) : State :=
  let k := s.port p
  match k.replay with
  | some i => s.sendReplay p i
  | none =>
    if txWindow ≤ k.unacked.length then s.sendPlain p ftIdle
    else
      let sent := fun (t : State) => t.out.length ≠ s.out.length
      let a := s.announceTurn p
      if sent a then a
      else
        let v := s.svcTurn p
        if sent v then v
        else
          match ch with
          | none => v.sendPlain p ftIdle
          | some c =>
            let d := v.txTurn p c
            if sent d then d else d.sendPlain p ftIdle

/-! ## Receive side (R550 to R566) -/

/-- Units of a receive ring. -/
def rxSize (s : State) (p c : Nat) : Nat := 512 * s.fld (PSIUD_RX_CFG.SIZE p c)

/-- Units that stand in a ring. -/
def ringUsed (r : List RxItem) : Nat :=
  r.foldl (fun n x => n + match x with | .msg m => m.size | .skip k => k) 0

/-- Units freed in a ring go back to the sender. -/
def rxFree (s : State) (p c n : Nat) : State :=
  let k := s.port p
  s.setPort p { k with returns := k.returns ++ [(some (BitVec.ofNat 6 c), n)] }

/-- The step number that a message's TAG carries. -/
def tagStep (m : RxMsg) : Nat := m.tag.toNat / 2 ^ 16

/-- Complete messages of step `e` in a ring. -/
def completeOf (r : List RxItem) (e : Nat) : Nat :=
  (r.filter fun x => match x with | .msg m => m.complete && tagStep m = e | .skip _ => false).length

/-- Step `E` is late at Almanac value `at_`: LATE counts, and a withhold notice names the first missing message (R564). -/
def rxLate (s : State) (p c : Nat) (at_ : BitVec 64) : State :=
  let k := s.rxChan p c
  match k.step with
  | none => s
  | some st =>
    if st.late then s
    else
      let here := st.drained + completeOf k.ring st.step.toNat
      let first := if here < s.fld (PSIUD_RX_ROWS.MSGS p c) then here else st.drained
      let s := (s.setRx p c { k with step := some { st with late := true } }).incSat (PSIUD_RX_STAT.LATE p c) 1
      { s with se := { s.se with
        notices := s.se.notices ++ [⟨0xFFFF, codeWithheldLate, st.step.toNat * 2 ^ 16 + first, at_, none⟩] } }

/-- Frees the first item of a ring. -/
def rxPop (s : State) (p c : Nat) : State :=
  let k := s.rxChan p c
  match k.ring with
  | [] => s
  | x :: rest =>
    let n := match x with | .msg m => m.size | .skip n => n
    (s.setRx p c { k with ring := rest, flits := 0, ids := [] }).rxFree p c n

/-- Distance from step `a` forward to step `b`, modulo 2^16. -/
def stepAfter (a b : Nat) : Nat := (b % 2 ^ 16 + 2 ^ 16 - a % 2 ^ 16) % 2 ^ 16

/-- What stands at the head of a ring is freed, or makes the step late, where the rules say so (R553, R563,
R564). -/
def rxSettle (p c : Nat) : Nat → State → State
  | 0, s => s
  | n + 1, s =>
    let k := s.rxChan p c
    match k.ring with
    | .skip _ :: _ => rxSettle p c n (s.rxPop p c)
    | .msg m :: _ =>
      match k.step with
      | none => s
      | some st =>
        let msgs := s.fld (PSIUD_RX_ROWS.MSGS p c)
        if msgs = 0 || !m.complete || k.flits ≠ 0 then s
        else
          let back := stepAfter (tagStep m) st.step.toNat
          if back = 0 then (if st.late then rxSettle p c n (s.rxPop p c) else s)
          else if back < 2 ^ 15 then rxSettle p c n (s.rxPop p c)
          else if st.drained < msgs then s.rxLate p c s.time.almanac
          else s
    | [] => s

/-- Settles a ring as far as it goes. -/
def rxSettleAll (s : State) (p c : Nat) : State := rxSettle p c ((s.rxChan p c).ring.length + 1) s

/-- The deadline of the expected step: once its tick is over, with fewer than MSGS messages complete the step is late
(R564). Whatever changes a ring looks at it first, so that what completes after the deadline tick does not count. -/
def rxDeadline (s : State) (p c : Nat) : State :=
  let k := s.rxChan p c
  match k.step with
  | none => s
  | some st =>
    if st.dueAt < s.time.almanac && !st.late &&
        st.drained + completeOf k.ring st.step.toNat < s.fld (PSIUD_RX_ROWS.MSGS p c) then
      (s.rxLate p c st.dueAt).rxSettleAll p c
    else s

/-- A mesh-drain channel may drain the message at its head. -/
def rxMayDrain (s : State) (p c : Nat) (k : RxChan) (m : RxMsg) : Bool :=
  m.complete &&
  (k.flits ≠ 0 || s.fld (PSIUD_RX_ROWS.MSGS p c) = 0 ||
    match k.step with
    | none => false
    | some st => st.begun && !st.late && tagStep m = st.step.toNat && st.drained < s.fld (PSIUD_RX_ROWS.MSGS p c))

/-- The drained message is freed. -/
def rxDrained (s : State) (p c : Nat) : State :=
  let k := s.rxChan p c
  let counts : RxStep → Bool := fun st => match k.ring with
    | .msg m :: _ => tagStep m = st.step.toNat
    | _ => false
  let s := s.setRx p c { k with step := k.step.map fun st => if counts st then { st with drained := st.drained + 1 } else st }
  (s.rxPop p c).rxSettleAll p c

/-- The words of a transfer as read from receive memory: a word of `bad` is uncorrectable (R556). -/
def rxRead (s : State) (p c : Nat) (ws : List (BitVec 64 × Bool)) (bad : BitVec 2) : List (BitVec 64 × Bool) × State :=
  let hit := (List.range ws.length).any fun i => bad.getLsbD i
  let ws := (List.range ws.length).map fun i =>
    let w := (ws[i]?).getD (0, false)
    (w.1, w.2 || bad.getLsbD i)
  (ws, if hit then (s.setFlag (PSIUD_RX_STAT.POISON p c)).faultEntry classContained 5 p 0x0023 c else s)

/-- A receive channel takes the credits that have come back to it. -/
def settleRxCredit (s : State) (p c : Nat) : State :=
  let src := Source.psiud p c
  let n := s.creditsDue src
  if n = 0 then s
  else
    let s := s.dropCredits src
    s.setRx p c { s.rxChan p c with credit := (s.rxChan p c).credit + n }

/-- The edge port of a receive channel may inject in this cycle (R415, R561). -/
def rxMayInject (s : State) (p c : Nat) : Bool :=
  let g := groveOf (eportCore p (s.fld (PSIUD_RX_DRAIN.EPORT p c)))
  let stop := s.fld (PSIUD_RX_DRAIN.STOP p c)
  s.clockOn g && !s.catching g && s.fld (PSIUD_RX_DRAIN.SLOTS p c) / 2 ^ s.slot g % 2 = 1 &&
  (stop = 0 || s.sched g < stop) && (s.rxChan p c).injected ≤ s.total g

/-- Scratchpad row and phase of payload row `k` (R424, R561). -/
def rxRow (s : State) (p c k : Nat) : Nat × Bool :=
  Desc.rowOf { rowBase := s.fld (PSIUD_RX_ROWS.ROW_BASE p c), ringRows := s.fld (PSIUD_RX_ROWS.RING_ROWS p c)
               rep := s.fld (PSIUD_RX_ROWS.REPEAT_M1 p c) + 1, phase0 := s.flag (PSIUD_RX_ROWS.PHASE0 p c) } k

/-- Injects the next flit of the message at the head (R561). -/
def rxInject (s : State) (p c : Nat) (m : RxMsg) (bad : BitVec 2) : State :=
  let k := s.rxChan p c
  let inlet := !s.flag (PSIUD_RX_CFG.MODE p c)
  let tw := if inlet then 4 else s.fld (PSIUD_RX_CFG.TWM1 p c) + 1
  let per := (tw + 1) / 2
  let tup := k.flits / per
  let part := k.flits % per
  let cost := if inlet then 1 else tw
  if part = 0 && k.credit < cost then s
  else
    let eport := s.fld (PSIUD_RX_DRAIN.EPORT p c)
    let core := eportCore p eport
    let g := groveOf core
    let r := if part = 0 then s.newWords (.psiud p c) g cost tw else (s, k.ids)
    let ids := r.2
    let x := r.1.rxRead p c ((m.words.drop (2 + tw * tup + 2 * part)).take (min 2 (tw - 2 * part))) bad
    let w := fun i => ((x.1[i]?).getD (0, false))
    let rp := s.rxRow p c tup
    let f : Flit :=
      { w0 := (w 0).1, w1 := (w 1).1, valid := if x.1.length = 2 then 3 else 1
        poison := BitVec.ofNat 2 ((w 0).2.toNat + 2 * (w 1).2.toNat)
        side := if inlet then inletSide rp.1 rp.2 part else 0
        last := part + 1 = per, ids := (ids.drop (2 * part)).take 2, hops := 1 }
    let s := x.2.setMesh { x.2.plane.mesh with links := x.2.plane.mesh.links ++ [⟨core, eportSide p eport, s.total g + 1, f⟩] }
    let s := s.setRx p c { k with
      flits := k.flits + 1, ids := ids, injected := s.total g + 1, credit := if part = 0 then k.credit - cost else k.credit }
    if k.flits + 1 < m.len / 8 / tw * per then s else s.rxDrained p c

/-- The scheduler reads the next token record of the message at the head (R566). -/
def rxToken (s : State) (p c : Nat) (m : RxMsg) (bad : BitVec 2) : State :=
  let k := s.rxChan p c
  let s :=
    match s.rxRead p c ((m.words.drop (2 + k.flits)).take 1) bad with
    | ([w], t) =>
      if s.fld SCH_TOKEN_CFG.PORT = p ∧ s.fld SCH_TOKEN_CFG.PCHAN = c then
        match execTokenRecord true w.1 w.2 t with
        | .next t => t
        | _ => t
      else t
    | (_, t) => t
  let s := s.setRx p c { s.rxChan p c with flits := k.flits + 1 }
  if k.flits + 1 < (m.len + 7) / 8 then s else s.rxDrained p c

/-- One transfer of a receive channel's consumer. -/
def rxDrain (s : State) (p c : Nat) (bad : BitVec 2) : State :=
  let s := s.rxDeadline p c
  let k := s.rxChan p c
  match k.ring with
  | .msg m :: _ =>
    if s.rxState p c ≠ rxRunning then s
    else if s.fld (PSIUD_RX_CFG.CONSUMER p c) = 2 then (if m.complete then s.rxToken p c m bad else s)
    else
      let s := s.settleRxCredit p c
      if s.rxMayDrain p c (s.rxChan p c) m && s.rxMayInject p c then s.rxInject p c m bad else s
  | _ => s

/-- A message begins at the tail of a ring (R552). -/
def rxBegin (s : State) (p c : Nat) (w : List (BitVec 64 × Bool)) : State :=
  let k := s.rxChan p c
  match w with
  | [] => s
  | h :: _ =>
    let len := (h.1.extractLsb' 0 32).toNat
    let size := 2 + (len + 7) / 8
    let x := place (s.rxSize p c) k.tail size
    let m : RxMsg := { len := len, tag := h.1.extractLsb' 32 32, words := [], size := size }
    s.setRx p c { k with ring := k.ring ++ (if x.1 = 0 then [] else [.skip x.1]) ++ [.msg m], tail := x.2 }

/-- The header with POISONED set where a payload word is marked (R550). -/
def sealMsg (m : RxMsg) : RxMsg :=
  let poisoned := (m.words.drop 2).any (·.2)
  match m.words with
  | a :: b :: rest => { m with complete := true, words := a :: (if poisoned then b.1 ||| 0x100 else b.1, b.2) :: rest }
  | _ => { m with complete := true }

/-- Words are added to the message that is arriving, the last of the ring. -/
def rxAppend (w : List (BitVec 64 × Bool)) (last : Bool) : List RxItem → List RxItem
  | [] => []
  | [.msg m] =>
    let m := { m with words := m.words ++ w }
    [.msg (if last then sealMsg m else m)]
  | x :: xs => x :: rxAppend w last xs

/-- An accepted data flit. -/
def rxData (s : State) (p : Nat) (f : PFlit) : State :=
  let c := f.ch.toNat
  if s.rxState p c ≠ rxRunning then s
  else
    let s := s.rxDeadline p c
    let s := if f.first then s.rxBegin p c f.payload else s
    let k := s.rxChan p c
    (s.setRx p c { k with ring := rxAppend f.payload f.last k.ring }).rxSettleAll p c

/-! ## Announces and channel commands (R555, R584) -/

/-- An announce of a ring of `size` units for channel `c`. -/
def announced (s : State) (p c size : Nat) : State :=
  let s := (s.setFld (PSIUD_TX_STAT.RING p c) size).setFld (PSIUD_TX_STAT.CREDIT p c) size
  let st := s.txState p c
  if size = 0 then (if st = txDisabled then s else s.setFld (PSIUD_TX_STAT.STATE p c) txHalted)
  else
    let s := s.setFld (PSIUD_TX_STAT.TAIL p c) 0
    if st = txAwaiting then s.setFld (PSIUD_TX_STAT.STATE p c) txRunning else s

/-- Queues an announce of this device. -/
def announce (s : State) (p c size : Nat) : State :=
  let k := s.port p
  s.setPort p { k with announce := k.announce ++ [(BitVec.ofNat 6 c, size)] }

/-- TX_ENABLE (R584); in FAILED ports stay idle (R634). -/
def txEnable (s : State) (p c : Nat) : State :=
  if s.txState p c ≠ txDisabled || s.time.failed then s
  else
    (s.setFld (PSIUD_TX_STAT.TOO_BIG p c) 0).setFld (PSIUD_TX_STAT.STATE p c)
      (if s.fld (PSIUD_TX_STAT.RING p c) = 0 then txAwaiting else txRunning)

/-- TX_DISABLE (R584). -/
def txDisable (s : State) (p c : Nat) : State := (s.setTx p c {}).setFld (PSIUD_TX_STAT.STATE p c) txDisabled

/-- A receive ring has been set: its side is enabled, or its register no longer holds the reset value, which every channel
starts with (R582; log entry 124). -/
def ringSet (s : State) (p c : Nat) : Bool :=
  s.rxState p c ≠ rxDisabled || s.reg (PSIUD_RX_CFG.off p c) ≠ resetOf (PSIUD_RX_CFG.off p c)

/-- A ring of `size` 4 KiB units from `base` on passes 7.75 MiB or overlaps another ring of the port (R582). -/
def ringClash (s : State) (p c base size : Nat) : Bool :=
  1984 < base + size || (List.range 64).any fun d =>
    d ≠ c && s.ringSet p d &&
    base < s.fld (PSIUD_RX_CFG.BASE p d) + s.fld (PSIUD_RX_CFG.SIZE p d) && s.fld (PSIUD_RX_CFG.BASE p d) < base + size

/-- RX_ENABLE (R584); a ring that overlaps another one is refused (R582). In FAILED ports stay idle (R634). -/
def rxEnable (s : State) (p c : Nat) : State :=
  if s.rxState p c ≠ rxDisabled || s.time.failed then s
  else if s.ringClash p c (s.fld (PSIUD_RX_CFG.BASE p c)) (s.fld (PSIUD_RX_CFG.SIZE p c)) then s.portRefused p
  else
    let s := s.setRx p c { credit := s.fld (PSIUD_RX_DRAIN.CINIT p c) }
    (s.setFld (PSIUD_RX_STAT.STATE p c) rxRunning).announce p c (s.rxSize p c)

/-- RX_DISABLE (R584). -/
def rxDisable (s : State) (p c : Nat) : State :=
  ((s.setRx p c {}).setFld (PSIUD_RX_STAT.STATE p c) rxDisabled).announce p c 0

/-- A write of PSIUD_CH_CTRL: of one side's enable and disable the disable alone acts. -/
def psChCtrl (s : State) (p c : Nat) (v : BitVec 64) : State :=
  let s := if v.getLsbD 1 then s.txDisable p c else if v.getLsbD 0 then s.txEnable p c else s
  if v.getLsbD 3 then s.rxDisable p c else if v.getLsbD 2 then s.rxEnable p c else s

/-- The register that a PSIUD_CHANNEL_WRITE names. -/
def psRegOff (r : PsiudReg) (p c : Nat) : Nat :=
  match r with
  | .txCfg => PSIUD_TX_CFG.off p c
  | .rxCfg => PSIUD_RX_CFG.off p c
  | .rxDrain => PSIUD_RX_DRAIN.off p c
  | .rxRows => PSIUD_RX_ROWS.off p c
  | .rxTime => PSIUD_RX_TIME.off p c

/-- A write of a channel's transmit or receive registers (R558, R582, R583). -/
def psChWrite (s : State) (p c : Nat) (r : PsiudReg) (v : BitVec 64) : State :=
  let off := psRegOff r p c
  let old := s.reg off
  let new := (s.regWrite .host off v).reg off
  match r with
  | .txCfg =>
    let new := if eportOk p (getBits new 47 39) then new else putBits new 47 39 (getBits old 47 39)
    let a := txClaim p new
    if s.txState p c ≠ txDisabled || (s.seClaims 2 none ++ s.psiudClaims 2 (some (p, c))).any a.clash then s.portRefused p
    else s.setReg off new
  | .rxDrain =>
    let new := if eportOk p (getBits new 31 23) then new else putBits new 31 23 (getBits old 31 23)
    let a := rxClaim p new
    if s.rxState p c ≠ rxDisabled || (s.seClaims 1 none ++ s.psiudClaims 1 (some (p, c))).any a.clash then s.portRefused p
    else s.setReg off new
  | .rxCfg =>
    if s.rxState p c ≠ rxDisabled || s.ringClash p c (getBits new 61 51) (getBits new 50 40) then s.portRefused p
    else s.setReg off new
  | .rxRows | .rxTime => if s.rxState p c ≠ rxDisabled then s.portRefused p else s.setReg off new

/-! ## The reference hamper's PSWAP (R560, R563, R564) -/

/-- A step-wise channel turns to the step that has begun. -/
def rxPswap (p : Nat) (base : BitVec 64) (s : State) (c : Nat) : State :=
  let msgs := s.fld (PSIUD_RX_ROWS.MSGS p c)
  if s.rxState p c ≠ rxRunning || msgs = 0 || s.fld (PSIUD_RX_CFG.CONSUMER p c) = 2 then s
  else
    let s := s.rxDeadline p c
    let s :=
      match (s.rxChan p c).step with
      | some st => if st.drained < msgs then s.rxLate p c s.time.almanac else s
      | none => s
    let at_ := fun (f : Fld) => base + BitVec.ofNat 64 (scaledBy s.scaleField (s.fld f))
    let st : RxStep := { step := BitVec.ofNat 16 s.curStepNum
                         drainAt := at_ (PSIUD_RX_TIME.DRAIN_OFS p c), dueAt := at_ (PSIUD_RX_TIME.DL_OFS p c) }
    (s.setRx p c { s.rxChan p c with step := some st }).rxSettleAll p c

/-- What the ports do when the reference hamper's PSWAP issues. -/
def psiudPswap (s : State) (base : BitVec 64) : State :=
  (List.range 16).foldl (fun s p =>
    let k := s.port p
    let s := s.setPort p { k with tx := k.tx.map fun e => (e.1, { e.2 with index := 0 }) }
    (List.range 64).foldl (rxPswap p base) s) s

/-! ## Flits that leave the mesh (R414, R417, R419, R558, R559) -/

/-- The enabled transmit channel that owns a slot of an edge port. -/
def txOwner (s : State) (core : CoreId) (side slot : Nat) : Option (Nat × Nat) :=
  ((List.range 16).flatMap fun p => (List.range 64).map fun c => (p, c)).find? fun x =>
    let v := s.reg (PSIUD_TX_CFG.off x.1 x.2)
    let a := txClaim x.1 v
    a.core = core && a.side = side && a.slots / 2 ^ slot % 2 = 1 && s.txState x.1 x.2 ≠ txDisabled

/-- A flit at an edge port enters the inlet of the channel that owns its slot, or is stray. -/
def edgeArrive (s : State) (e : EdgeFlit) : State :=
  let np := corePort e.core e.output
  match s.writeOwner np.1 np.2 e.slot with
  | some c => s.rowFlit (unitOf np.1 c) e.flit
  | none =>
    match s.txOwner e.core e.output e.slot with
    | some x => s.txFlit x.1 x.2 e.flit
    | none => s.setFlag (SE_STATUS.STRAY np.1)

end State

/-- EDGE_PORT_FLIT (R414, R417). -/
def execEdgePortFlit (c : CoreId) (output : BitVec 2) (s : State) : Host.Outcome State Fault Refusal :=
  match State.takeFirst (fun e : EdgeFlit => e.core = c && e.output = output.toNat) s.plane.mesh.edges with
  | none => .next s
  | some (e, rest) => .next ((s.setMesh { s.plane.mesh with edges := rest }).edgeArrive e)

/-- SE_CH_CFG_WRITE (R416, R454, R630). -/
def execSeChCfgWrite (u : SeUnit) (v : BitVec 64) (s : State) : Host.Outcome State Fault Refusal :=
  .next (s.chCfgWrite .host u v)

/-- CREDIT_RETURN: the credits that have come back to a sender become usable (R332, R418, R561). -/
def execCreditReturn (src : Source) (s : State) : Host.Outcome State Fault Refusal :=
  match src with
  | .core c n => .next (s.settleCredit c n)
  | .engine n c => .next (s.settleChCredit n c)
  | .psiud p c => .next (s.settleRxCredit p c)

/-- MESSAGE_SEND: a port sends its next flit; a channel's message begins once its credit is held
(R552, R554, R559). -/
def execMessageSend (p : PortId) (ch : Option (BitVec 6)) (s : State) : Host.Outcome State Fault Refusal :=
  if s.portCarries p.toNat then .next (s.sendTurn p.toNat (ch.map (·.toNat))) else .next s

/-- ANNOUNCE: a received announce (R555). -/
def execAnnounce (p : PortId) (c : BitVec 6) (size : BitVec 20) (s : State) : Host.Outcome State Fault Refusal :=
  .next (s.announced p.toNat c.toNat size.toNat)

/-- MESSAGE_DRAIN: the consumer of a receive ring takes the next words of the message at its head; `bad`
names words that receive memory cannot correct (R556, R561, R566). -/
def execMessageDrain (p : PortId) (c : BitVec 6) (bad : BitVec 2) (s : State) : Host.Outcome State Fault Refusal :=
  .next (s.rxDrain p.toNat c.toNat bad)

/-- DRAIN_INSTANT (R563). -/
def execDrainInstant (p : PortId) (c : BitVec 6) (s : State) : Host.Outcome State Fault Refusal :=
  let k := s.rxChan p.toNat c.toNat
  match k.step with
  | none => .next s
  | some st =>
    if st.drainAt ≤ s.time.almanac then .next (s.setRx p.toNat c.toNat { k with step := some { st with begun := true } })
    else .next s

/-- RX_DEADLINE (R564). -/
def execRxDeadline (p : PortId) (c : BitVec 6) (s : State) : Host.Outcome State Fault Refusal :=
  .next (s.rxDeadline p.toNat c.toNat)

/-- TX_ENABLE (R584). -/
def execTxEnable (p : PortId) (c : BitVec 6) (s : State) : Host.Outcome State Fault Refusal := .next (s.txEnable p.toNat c.toNat)

/-- TX_DISABLE (R584). -/
def execTxDisable (p : PortId) (c : BitVec 6) (s : State) : Host.Outcome State Fault Refusal := .next (s.txDisable p.toNat c.toNat)

/-- RX_ENABLE (R584). -/
def execRxEnable (p : PortId) (c : BitVec 6) (s : State) : Host.Outcome State Fault Refusal := .next (s.rxEnable p.toNat c.toNat)

/-- RX_DISABLE (R584). -/
def execRxDisable (p : PortId) (c : BitVec 6) (s : State) : Host.Outcome State Fault Refusal := .next (s.rxDisable p.toNat c.toNat)

/-- PSIUD_CHANNEL_WRITE (R558, R582). -/
def execPsiudChannelWrite (p : PortId) (c : BitVec 6) (reg : PsiudReg) (v : BitVec 64) (s : State) :
    Host.Outcome State Fault Refusal :=
  .next (s.psChWrite p.toNat c.toNat reg v)

end Sys2Proof.Machine
end

