-- ==== Sys2Proof/Machine/Counters.lean ====
section
/-! DEFINITION. Counter groups and the counter reader (R721 to R730, R734 to R740). -/

namespace Sys2Proof.Machine

/-! ## One group -/

/-- The value of PMC_SEL_i. -/
def Pmc.selOf (p : Pmc) (i : Nat) : BitVec 64 := smGet (smGet 0 p.sel i) p.selNew i

/-- A write of PMC_SEL_i of an `n`-counter group: a reserved event code leaves EVENT as it was (R14, R722, R723,
R735). -/
def Pmc.setSel (p : Pmc) (n i : Nat) (v : BitVec 64) : Pmc :=
  let top := if n = 16 then 0x13 else 0x09
  let ev := if getBits v 7 0 ≤ top then getBits v 7 0 else getBits (p.selOf i) 7 0
  { p with selNew := smSet p.selNew i (putBits (v &&& 0x00000000FFFF0100#64) 7 0 ev) }

/-- Counter c(i). -/
def Pmc.ctr (p : Pmc) (i : Nat) : Nat := (smGet 0 p.c i).toNat

/-- Stores counter c(i). -/
def Pmc.setCtr (p : Pmc) (i n : Nat) : Pmc := { p with c := smSet p.c i (BitVec.ofNat 32 n) }

/-- CLEAR: every counter is cleared, and a snapshot in the same period still finds the values from before it (R723, R734). -/
def Pmc.clear (p : Pmc) : Pmc := { p with c := [], before := if p.before.isNone then some p.c else p.before }

/-- A write of MODE (R723). -/
def Pmc.setMode (p : Pmc) (full : Bool) : Pmc := { p with c := [], mode := full, sat := 0 }

/-- What enabled event `i` adds in a period in which its event's increment is `v e` (R722). -/
def Pmc.step (p : Pmc) (v : Nat → Nat) (i : Nat) : Nat :=
  let sel := smGet 0 p.sel i
  let n := v (getBits sel 7 0)
  if sel.getLsbD 8 then (if getBits sel 31 16 < n then 1 else 0) else n

/-- Event `i`'s counter after a period (R721, R722). -/
def Pmc.add (v : Nat → Nat) (p : Pmc) (i : Nat) : Pmc :=
  let d := p.step v i
  if p.mode then
    let n := p.ctr i + d
    if n < 2 ^ 32 then p.setCtr i n else { p.setCtr i (2 ^ 32 - 1) with sat := p.sat ||| BitVec.ofNat 16 (2 ^ i) }
  else
    let n := p.ctr (2 * i) + 2 ^ 32 * p.ctr (2 * i + 1) + d
    (p.setCtr (2 * i) n).setCtr (2 * i + 1) (n / 2 ^ 32)

/-- The events that an `n`-counter group counts in its mode. -/
def Pmc.events (p : Pmc) (n : Nat) : List Nat := List.range (if p.mode then n else n / 2)

/-- The group at the end of a counting period whose increments are `v`; `totals` are the unit's event totals
(R722 to R724). -/
def Pmc.period (p : Pmc) (n : Nat) (v : Nat → Nat) (totals : SMap Nat) : Pmc :=
  let p := if p.en && !p.freeze then (p.events n).foldl (Pmc.add v) p else p
  { p with seen := totals, sel := p.selNew.foldl (fun m e => smSet m e.1 e.2) p.sel, selNew := [], before := none }

/-- A period's end changes the group: it counts, or a write of this period takes effect with the next. -/
def Pmc.runs (p : Pmc) : Bool := p.en || !p.selNew.isEmpty || p.before.isSome

/-- PMC_CTRL (R734). -/
def Pmc.control (p : Pmc) : BitVec 64 :=
  putBits (putBits (putBits (putBits 0 47 32 p.sat.toNat) 3 3 p.freeze.toNat) 1 1 p.mode.toNat) 0 0 p.en.toNat

/-- A write of PMC_CTRL: a changed MODE clears the group (R723, R734; log entry 46). `totals` are the unit's event
totals, from which counting starts. -/
def Pmc.setControl (p : Pmc) (v : BitVec 64) (totals : SMap Nat) : Pmc :=
  let on := v.getLsbD 0
  let full := v.getLsbD 1
  let q := { p with
    sat := p.sat &&& ~~~(v.extractLsb' 32 16), freeze := v.getLsbD 3, en := on
    seen := if on && !p.en then totals else p.seen }
  let q := if full = p.mode then q else q.setMode full
  if v.getLsbD 2 then q.clear else q

/-- PMC_VAL_j of an `n`-counter group (R736). -/
def Pmc.value (p : Pmc) (n j : Nat) : BitVec 64 :=
  if p.mode then BitVec.ofNat 64 (p.ctr j)
  else if j < n / 2 then BitVec.ofNat 64 (p.ctr (2 * j) + 2 ^ 32 * p.ctr (2 * j + 1)) else 0

/-- A write of PMC_VAL_j (R736). -/
def Pmc.preset (p : Pmc) (n j : Nat) (v : BitVec 64) : Pmc :=
  if p.mode then p.setCtr j (v.toNat % 2 ^ 32)
  else if j < n / 2 then (p.setCtr (2 * j) v.toNat).setCtr (2 * j + 1) (v.toNat / 2 ^ 32) else p

/-- The register at offset `o` of an `n`-counter group; none where there is none. -/
def Pmc.read (p : Pmc) (n o : Nat) : Option (BitVec 64) :=
  if o = 0 then some p.control
  else if 8 ≤ o && o < 8 + 8 * n then some (p.selOf ((o - 8) / 8))
  else if 0x100 ≤ o && o < 0x100 + 8 * n then some (p.value n ((o - 0x100) / 8))
  else none

/-- A write at offset `o` of an `n`-counter group. -/
def Pmc.write (p : Pmc) (n o : Nat) (v : BitVec 64) (totals : SMap Nat) : Pmc :=
  if o = 0 then p.setControl v totals
  else if 8 ≤ o && o < 8 + 8 * n then p.setSel n ((o - 8) / 8) v
  else if 0x100 ≤ o && o < 0x100 + 8 * n then p.preset n ((o - 0x100) / 8) v
  else p

namespace State

/-! ## The groups of the device -/

/-- The sum of two event-total tables. -/
def addTotals (a b : SMap Nat) : SMap Nat := b.foldl (fun m e => smBump m e.1 e.2) a

/-- The event totals of a grove: its hampers' and its cores' (R722). -/
def groveTotals (s : State) (g : GroveId) : SMap Nat :=
  s.plane.cores.foldl (fun m e => if groveOf (BitVec.ofNat 20 e.1) = g then addTotals m e.2.ctr else m) (s.grove g).ctr

/-- Keys of the PCI Express byte totals among the event totals of the host DMA group. -/
def pcieSent : Nat := 256 + 72
def pcieTaken : Nat := 256 + 73

/-- A group's event totals; the host DMA group counts all PCI Express payload. -/
def ctrTotals (s : State) (u : CtrGroup) : SMap Nat :=
  match u with
  | .grove g => s.groveTotals g
  | .engine n => (s.engine n.val).ctr
  | .port p => (s.port p.toNat).ctr
  | .hdma => smSet (smSet (s.engine 20).ctr pcieSent (smGet 0 s.reader.totals 72)) pcieTaken (smGet 0 s.reader.totals 73)

/-- A group. -/
def pmc (s : State) (u : CtrGroup) : Pmc :=
  match u with
  | .grove g => (s.grove g).pmc
  | .engine n => (s.engine n.val).pmc
  | .port p => (s.port p.toNat).pmc
  | .hdma => (s.engine 20).pmc

/-- Stores a group. -/
def setPmc (s : State) (u : CtrGroup) (p : Pmc) : State :=
  match u with
  | .grove g => s.setGrove g { s.grove g with pmc := p }
  | .engine n => s.setEngine n.val { s.engine n.val with pmc := p }
  | .port q => s.setPort q.toNat { s.port q.toNat with pmc := p }
  | .hdma => s.setEngine 20 { s.engine 20 with pmc := p }

/-- Counters of a group (R721). -/
def ctrWidth (u : CtrGroup) : Nat := match u with | .grove _ => 16 | _ => 8

/-- A write at an offset of a group. -/
def pmcWrite (s : State) (u : CtrGroup) (o : Nat) (v : BitVec 64) : State :=
  s.setPmc u ((s.pmc u).write (ctrWidth u) o v (s.ctrTotals u))

/-! ## Increments of a period (R722) -/

/-- Hampers of a grove that satisfy `p`. -/
def countHampers (s : State) (g : GroveId) (p : Hamper → Bool) : Nat :=
  ((groveHampers g).filter fun h => p (s.hamper h)).length

/-- Enabled cores of a grove that satisfy `p`. -/
def countCores (s : State) (g : GroveId) (p : Core → Bool) : Nat :=
  (s.plane.cores.filter fun e => groveOf (BitVec.ofNat 20 e.1) = g && e.2.en && p e.2).length

/-- A grove event's increment in the current cycle, which is the leap's second period where `second` holds. -/
def groveEvent (s : State) (g : GroveId) (second : Bool) (totals : SMap Nat) (e : Nat) : Nat :=
  let now := s.cycle g
  match e with
  | 1 => 1
  | 2 => second.toNat
  | 3 => (s.catching g).toNat
  | 6 => s.countHampers g fun h => h.hold.isSome
  | 7 => s.countHampers g fun h => h.runs && h.iq.isEmpty && h.hold.isNone && h.waitUntil ≤ s.total g
  | 9 => s.countCores g fun k => now < k.mx.busyUntil
  | _ => smGet 0 totals e - smGet 0 (s.grove g).pmc.seen e

/-- Channel `c` of a stream engine has a complete read block whose next tuple waits for credit (R418). -/
def waitsCredit (s : State) (n c : Nat) : Bool :=
  let u := unitOf n c
  (s.chan u).blks.head?.any fun b => (s.jobAt u b.job).any fun j =>
    let tw := Desc.tupleWords j.desc
    b.phase = .ready && b.done % ((tw + 1) / 2) = 0 &&
      s.fld u.fCredit + s.creditsDue (.engine n c) < (if j.desc.op = 1 then 1 else tw)

/-- Reads that a host DMA channel has outstanding at the host: of TO_DEVICE blocks, and read-backs (R614, R615). -/
def hostReads (s : State) (c : Nat) : Nat :=
  let u := unitOf 20 c
  let k := s.chan u
  (k.blks.filter fun b => b.phase = .reading && (s.jobAt u b.job).any fun j => j.desc.op = 1).length +
  (k.jobs.filter fun j => j.desc.op = 2 && j.readback = 1 && j.point.isNone).length

/-- A stream engine's or the host DMA engine's increment in the current tick. -/
def engineEvent (s : State) (n : Nat) (totals : SMap Nat) (e : Nat) : Nat :=
  let since := fun (i : Nat) => smGet 0 totals i - smGet 0 (s.engine n).pmc.seen i
  if n = 20 then
    match e with
    | 1 => 1
    | 4 => since pcieTaken
    | 5 => since pcieSent
    | 6 => ((List.range 16).map s.hostReads).sum
    | 9 => (s.serial 20).toNat
    | _ => since e
  else
    match e with
    | 1 => 1
    | 4 => if (s.stack n).closes = 0 then 0 else 1
    | 6 => s.unitsUsed n
    | 9 => ((List.range 32).any (s.waitsCredit n)).toNat
    | _ => since e

/-- A transmit channel holds a message that waits for credit (R552). -/
def txWaits (s : State) (p c : Nat) : Bool :=
  let k := s.txChan p c
  let size := 2 + 4 * s.txRows p c
  s.txState p c = txRunning && !k.queue.isEmpty && k.sent = 0 &&
  s.fld (PSIUD_TX_STAT.CREDIT p c) < (place (s.fld (PSIUD_TX_STAT.RING p c)) (s.fld (PSIUD_TX_STAT.TAIL p c)) size).1 + size

/-- A port's increment in the current tick. -/
def portEvent (s : State) (p : Nat) (totals : SMap Nat) (e : Nat) : Nat :=
  match e with
  | 1 => 1
  | 7 => ((List.range 64).filter (s.txWaits p)).length
  | _ => smGet 0 totals e - smGet 0 (s.port p).pmc.seen e

/-- A group's increments in the current period. -/
def ctrEvent (s : State) (u : CtrGroup) (second : Bool) (totals : SMap Nat) : Nat → Nat :=
  match u with
  | .grove g => s.groveEvent g second totals
  | .engine n => s.engineEvent n.val totals
  | .port p => s.portEvent p.toNat totals
  | .hdma => s.engineEvent 20 totals

/-- A group at the end of a period. -/
def ctrPeriod (s : State) (u : CtrGroup) (second : Bool) : Pmc :=
  let totals := s.ctrTotals u
  (s.pmc u).period (ctrWidth u) (s.ctrEvent u second totals) totals

/-- Groups outside the core plane that a tick changes. -/
def tickGroups (s : State) : List CtrGroup :=
  ((List.finRange 20).map CtrGroup.engine ++ (List.range 16).map (fun p => CtrGroup.port (BitVec.ofNat 4 p)) ++ [CtrGroup.hdma]).filter
    fun u => (s.pmc u).runs

/-- A tick of every group outside the core plane (R722). -/
def countTick (s : State) : State := s.tickGroups.foldl (fun s u => s.setPmc u (s.ctrPeriod u false)) s

/-- The end of a cycle of a grove, or of a leap's first period where `first` holds (R722, R724). -/
def countCycle (s : State) (g : GroveId) (second : Bool) : State :=
  if (s.grove g).pmc.runs then s.setPmc (.grove g) (s.ctrPeriod (.grove g) second) else s

/-! ## Snapshots (R726 to R730) -/

/-- The selected groups in the record's order. -/
def snapGroups (s : State) : List CtrGroup :=
  ((List.range 256).filter fun g => (s.reg (CR_SEL_GROVE.off (g / 64))).getLsbD (g % 64)).map (fun g => CtrGroup.grove (BitVec.ofNat 8 g)) ++
  ((List.finRange 20).filter fun n => (s.reg CR_SEL_IO.off).getLsbD n.val).map CtrGroup.engine ++
  ((List.range 16).filter fun p => (s.reg CR_SEL_IO.off).getLsbD (20 + p)).map (fun p => CtrGroup.port (BitVec.ofNat 4 p)) ++
  (if s.flag CR_SEL_IO.HDMA then [CtrGroup.hdma] else [])

/-- The cycle that a grove is in began before the current edge: with an earlier period, or with a leap's first one. -/
def cycleOpen (s : State) (g : GroveId) : Bool :=
  !s.gated g && (decide (s.time.periodAlm < s.time.almanac) || (s.grove g).inSecond s.time.periods)

/-- The cycle that a grove is in is a leap. -/
def cycleLeaps (s : State) (g : GroveId) : Bool :=
  (s.grove g).inFirst s.time.periods || (s.grove g).inSecond s.time.periods

/-- A group as it stands before the current period counts: one that this period has cleared, with the values from before the
CLEAR (R723). -/
def beforeClear (p : Pmc) : Pmc := match p.before with | some c => { p with c := c } | none => p

/-- A grove's group at the end of the grove's current cycle, with what the cycle has counted so far (R723, R727). -/
def cycleEnd (s : State) (g : GroveId) : Pmc :=
  let p := s.pmc (.grove g)
  if p.before.isNone && p.en then s.ctrPeriod (.grove g) (s.cycleLeaps g) else beforeClear p

/-- A group as a snapshot at the current edge latches it (R727). -/
def latched (s : State) (u : CtrGroup) : Pmc :=
  match u with
  | .grove g => if s.cycleOpen g then s.cycleEnd g else beforeClear (s.pmc u)
  | _ => beforeClear (s.pmc u)

/-- A group entry with the values of `p` (R729). -/
def groupBytes (u : CtrGroup) (p : Pmc) : List Byte :=
  let n := ctrWidth u
  let id : Nat × Nat := match u with
    | .grove g => (0, g.toNat)
    | .engine n => (1, n.val)
    | .port p => (2, p.toNat)
    | .hdma => (3, 0)
  bytesOf 1 id.1 ++ bytesOf 1 p.mode.toNat ++ bytesOf 2 id.2 ++ bytesOf 4 0 ++
  (List.range n).flatMap (fun i => bytesOf 4 (p.ctr i)) ++ bytesOf (64 - 4 * n) 0

/-- A record's length (R729). -/
def snapLength (groups : Nat) : Nat := (64 + 592 + 72 * groups + 63) / 64 * 64

/-- Bytes of a record before its group entries, and of a group entry (R729). -/
def snapHead : Nat := 64 + 592
def entrySize : Nat := 72

/-- The selected groves whose cycle has not ended, with the places of their entries in the record (R727). -/
def lateGroves (s : State) : List (Nat × Nat) :=
  s.snapGroups.zipIdx.filterMap fun x =>
    match x.1 with
    | .grove g => if s.cycleOpen g then some (g.toNat, snapHead + entrySize * x.2) else none
    | _ => none

/-- The record under way takes the entry of grove `g`, which it latched in an open cycle, with the values of `p` (R727). -/
def patchLate (s : State) (g : Nat) (p : Pmc) : State :=
  match s.reader.record with
  | none => s
  | some r =>
    match r.late.find? fun x => x.1 = g with
    | none => s
    | some x =>
      let bs := r.bytes.take x.2 ++ groupBytes (.grove (BitVec.ofNat 8 g)) p ++ r.bytes.drop (x.2 + entrySize)
      { s with reader := { s.reader with record := some { r with bytes := bs, late := r.late.filter fun y => y.1 ≠ g } } }

/-- The groves that the record under way waits for. -/
def waitedFor (s : State) : List Nat := (s.reader.record.map fun r => r.late.map (·.1)).getD []

/-- The record under way waits for the end of a cycle that will come: the grove has a clock (R727). -/
def snapWaits (s : State) : Bool :=
  s.flag ALM_STATUS.RUNNING && !s.time.rootGated && s.waitedFor.any fun g => !s.gated (BitVec.ofNat 8 g)

/-- The record under way, with what its late groves hold now: of a grove that has lost its clock. -/
def settleLate (s : State) : State :=
  s.waitedFor.foldl (fun s g => s.patchLate g (s.latched (.grove (BitVec.ofNat 8 g)))) s

/-- The bytes of the record of instant `t` (R729). -/
def snapBytes (s : State) (t : BitVec 64) : List Byte :=
  let us := s.snapGroups
  let flags := s.reader.skipped.toNat + 2 * s.reader.stepped.toNat
  let body := bytesOf 8 t.toNat ++ bytesOf 4 s.reader.num ++ bytesOf 2 us.length ++ bytesOf 1 flags ++
    bytesOf 1 (s.fld PWR_LEVEL.LEVEL) ++ bytesOf 48 0 ++
    (List.range 74).flatMap (fun i => bytesOf 8 (smGet 0 s.reader.totals i)) ++ us.flatMap fun u => groupBytes u (s.latched u)
  body ++ bytesOf (snapLength us.length - body.length) 0

/-- CR_WIN and the CR_BW entries of a window that ends at `t` with the byte totals `totals` (R730). -/
def snapWindow (s : State) (t : BitVec 64) (totals : SMap Nat) : State :=
  match s.reader.prevAt with
  | none => s
  | some t0 =>
    let s := s.setFld CR_STAT.WIN (t - t0).toNat
    (List.range 74).foldl (fun s i =>
      let d := (smGet 0 totals i + 2 ^ 64 - smGet 0 s.reader.prev i) % 2 ^ 64 / 64
      s.setFld (if i % 2 = 0 then CR_BW.EVEN (i / 2) else CR_BW.ODD (i / 2)) d) s

/-- The Almanac has been stepped at real tick `t` or later. -/
def steppedSince (s : State) (t : Nat) : Bool := s.time.stepAt.any fun q => t ≤ q

/-- A periodic snapshot is due at the current Almanac value (R726); after a step none is taken twice within one period of real
time (R77). -/
def periodDue (s : State) : Bool :=
  let t := s.time.almanac.toNat
  let early := s.reader.perAt.any fun p => s.steppedSince p && decide (s.time.ticks < p + s.fld CR_PERIOD.TICKS)
  s.flag CR_CTRL.EN && !early && s.fld CR_PERIOD.PHASE ≤ t && (t - s.fld CR_PERIOD.PHASE) % s.fld CR_PERIOD.TICKS = 0

/-- A snapshot is due at the current Almanac value, and the value has not been handled: periodic, or the one CR_NOW asked for
(R726). -/
def snapDue (s : State) : Option (BitVec 64) :=
  let t := s.time.almanac
  if s.reader.last = some t && !s.steppedSince (s.reader.lastAt + 1) then none
  else if s.periodDue then some t
  else
    match s.reader.due with
    | some d => if d ≤ t then some t else none
    | none => none

end State

namespace State

/-- The record under way is in the ring: TAIL moves past it, the window's results are set, and the host is told (R728, R730). -/
def snapDone (s : State) : State :=
  let s := s.settleLate
  match s.reader.record with
  | none => s
  | some r =>
    let s := if r.ends then s.snapWindow r.at_ r.totals else s
    let s := { s with reader := { s.reader with
      record := none, prev := r.totals, prevAt := if r.starts then some r.at_ else s.reader.prevAt } }
    (((s.hbmStore r.addr r.bytes).setFld CR_STAT.BUSY 0).setFld CR_POS.TAIL r.tail).irqEvt 8

/-- The snapshot of instant `t` is latched and its record begun, or skipped while the previous record is still being written
or the ring is full (R727 to R729). -/
def snapTake (s : State) (t : BitVec 64) : State :=
  let size := 2 ^ s.fld CR_RING.SIZE_LOG2
  let tail := s.fld CR_POS.TAIL
  let due := match s.reader.due with | some d => if d ≤ t then none else some d | none => none
  let s := { s with reader := { s.reader with
    last := some t, lastAt := s.time.ticks, perAt := if s.periodDue then some s.time.ticks else s.reader.perAt, due := due } }
  if s.reader.record.isSome || (tail + 1) % size = s.fld CR_POS.HEAD then
    { s.incSat CR_STAT.SKIPPED 1 with reader := { s.reader with skipped := true } }
  else
    let bs := s.snapBytes t
    let r : SnapRec := { at_ := t, addr := s.fld CR_RING.BASE * 4096 + tail * bs.length, bytes := bs, tail := (tail + 1) % size
                         totals := s.reader.totals, ends := !s.reader.stepped, starts := true, late := s.lateGroves }
    { s.setFlag CR_STAT.BUSY with reader := { s.reader with
      num := (s.reader.num + 1) % 2 ^ 32, skipped := false, stepped := false, record := some r } }

end State

/-- SNAPSHOT: the record under way has been written, unless it is `busy` still or a grove's cycle that it counts has not ended,
and a snapshot that is due is taken or skipped (R727 to R730; log entries 53, 54). -/
def execSnapshot (busy : Bool) (s : State) : Host.Outcome State Fault Refusal :=
  let s := if busy || s.snapWaits then s else s.snapDone
  match s.snapDue with
  | none => .next s
  | some t => .next (s.snapTake t)

namespace State

/-- A write of CR_NOW (R726, R738). -/
def crNow (s : State) (v : BitVec 64) : State :=
  let t : BitVec 64 := v &&& ~~~1#64
  let s := s.setReg CR_NOW.off t
  if !v.getLsbD 0 then s
  else if s.time.almanac.toNat + 64 ≤ t.toNat then { s with reader := { s.reader with due := some t } }
  else s.setFlag CR_STAT.LATE_REQ

/-- A write of CR_CTRL (R729, R730, R738): with EN newly set, records number from 0 and the first writes no window; a record
that is still being written belongs to the time before. -/
def crCtrl (s : State) (v : BitVec 64) : State :=
  let was := s.flag CR_CTRL.EN
  let s := s.setFld CR_CTRL.EN (getBits v 0 0)
  if v.getLsbD 0 && !was then
    { s with reader := { s.reader with
      num := 0, prevAt := none, record := s.reader.record.map fun r => { r with ends := false, starts := false } } }
  else s

/-- A write of CR_PERIOD, a CR_SEL register or CR_RING: discarded while EN is 1 (R738). -/
def crConfig (s : State) (agent : Agent) (off : Nat) (v : BitVec 64) : State :=
  if s.flag CR_CTRL.EN then s.setFlag CR_STAT.CFG_REFUSED else s.regWrite agent off v

end State

/-- PMC_CLEAR (R723). -/
def execPmcClear (u : CtrGroup) (s : State) : Host.Outcome State Fault Refusal := .next (s.setPmc u (s.pmc u).clear)

/-- PMC_MODE_WRITE (R723). -/
def execPmcModeWrite (u : CtrGroup) (full : Bool) (s : State) : Host.Outcome State Fault Refusal :=
  .next (s.setPmc u ((s.pmc u).setMode full))

/-- CR_NOW (R726). -/
def execCrNow (v : BitVec 64) (s : State) : Host.Outcome State Fault Refusal := .next (s.crNow v)

end Sys2Proof.Machine
end

