-- ==== Sys2Proof/Machine/IssueWord.lean ====
section
/-! DEFINITION. The issue side of a hamper: trying a control word in all its cores (R102 to R118), what its SEQ
field does at issue (R44 to R55, R177, R178, R187 to R189), audit points, sampling and the watchdog. -/

namespace Sys2Proof.Machine

/-- SEQ operation codes that act at issue (R170). -/
def opPswap : BitVec 6 := 0x11
def opEnd : BitVec 6 := 0x3E

namespace State

/-! ## The cores of a hamper -/

/-- The cores of a hamper in lane order. -/
def lanes (h : HamperId) : List CoreId := (List.range 64).map (laneCore h)

/-- Everything that has come due in a core by the current cycle, credits included. -/
def settleLane (s : State) (c : CoreId) : State :=
  let g := groveOf c
  let r := (s.core c).settle s.time.almanac (s.cycle g)
  let s := ((s.setCore c r.1).spadEventIf g r.2.1).wordsBack g r.2.2
  (List.range 4).foldl (fun s n => s.settleCredit c n) s

/-- The condition that refuses a word in an enabled core (R104, R106). -/
def laneRefusal (s : State) (w : Cw) (c : CoreId) : Option Refused :=
  let k := s.core c
  if k.en then k.refusal (s.cycle (groveOf c)) (s.sendCost c) w else none

/-- The lowest lane with a failed condition, and the condition (R351). -/
def wordRefusal (s : State) (h : HamperId) (w : Cw) : Option (Nat × Refused) :=
  ((List.range 64).filterMap fun l => (s.laneRefusal w (laneCore h l)).map fun r => (l, r)).head?

/-- The enabled cores of a hamper. -/
def enabledLanes (s : State) (h : HamperId) : List CoreId := (lanes h).filter fun c => (s.core c).en

/-- A word issues in one core; `bad` and `conflict` say whether any enabled core of the hamper names a bad end
or the same destination twice (R96, R103). -/
def issueLane (w : Cw) (aset : BitVec 16) (bad conflict : Bool) (s : State) (c : CoreId) : State :=
  let k := s.core c
  let now := s.cycle (groveOf c)
  let r := k.issueAny { now := now, aset := aset, cost := fun n => (s.sendCost c n).getD 0 } w
  let ops := if k.en then (if w.vxa.op = 0 then 0 else 1) + (if w.vxb.op = 0 then 0 else 1) else 0
  (s.setCore c (((r.1.bump 0x0A ops).markEnds now k.en bad conflict).afterWord k now w)).wordsBack (groveOf c) r.2

/-- A send of the word goes to a channel whose cost the spec leaves open (R780). -/
def usesFreeCost (s : State) (w : Cw) (c : CoreId) : Bool :=
  (wordPushes ((s.core c).uses w)).any fun p =>
    endSend p.2 && ((s.core c).sendEnd (p.2.toNat - 16)).type = 1 && s.sendMixed c (p.2.toNat - 16)

/-- A word that nothing refuses issues in every core of the hamper. -/
def issueLanes (s : State) (h : HamperId) (w : Cw) (aset : BitVec 16) : State :=
  let en := s.enabledLanes h
  let bad := en.any fun c => badFields ((s.core c).uses w) != []
  let conflict := en.any fun c => lostFields ((s.core c).uses w) != []
  let free := en.any fun c => s.usesFreeCost w c
  let s := (lanes h).foldl (issueLane w aset bad conflict) s
  let s := if free then { s with free := s.free + 4 } else s
  if bad then s.setHamper h { (s.hamper h).setFault (s.cycle (groveOfHamper h)) sfBadEnd with badEnd := true } else s

/-! ## Reserved encodings (R144, R145) -/

/-- A word as it is pushed: fields with reserved encodings are zero, and any of them raises the fault. Of several, ENC_FIELD
records the one with the highest control-word bits (DESIGN CHOICE, log entry 114). -/
def checkWord (s : State) (h : HamperId) (w : Cw) (sv : BitVec 16) : State × Cw :=
  match reservedFields w sv with
  | [] => (s, w)
  | b :: bs =>
    let k := s.hamper h
    let k := if k.fault.getLsbD sfBadEnc then k else { k with fault := putBits k.fault 35 32 b }
    ((s.setHamper h k).hamperFault h sfBadEnc, (b :: bs).foldl zeroField w)

/-! ## Operations that act at issue -/

/-- A step boundary for the lifeguard's deferred requests (R706). -/
def lgBoundary (s : State) : State :=
  { s with power := { s.power with jobs := s.power.jobs.map fun e => (e.1, { e.2 with boundary := true }) } }

/-- PSWAP (R177, R178); in the reference hamper it also starts a step (R474 to R476, R561 to R564,
R706). -/
def doPswap (s : State) (h : HamperId) : State :=
  let k := s.hamper h
  let late := !k.paramReady
  let s := s.setHamper h { k with
    paramAct := !k.paramAct, paramReady := false, swapWait := false, pushFrom := s.cycle (groveOfHamper h) + 1 }
  let s := s.hamperFaultIf h sfParamLate late
  if h = s.refHamper then ((s.schPswap k.holdBase).psiudPswap k.holdBase).lgBoundary else s

/-- The distance of a hold, its HOLD_POS afterwards, and whether its offset lies below HOLD_POS (R44). -/
def holdStep (rel : Bool) (pos : BitVec 64) (t : BitVec 32) : Nat × BitVec 64 × Bool :=
  if rel then (t.toNat, pos + t.zeroExtend 64, false)
  else if t.toNat < pos.toNat then (0, pos, true)
  else (t.toNat - pos.toNat, t.zeroExtend 64, false)

/-- A hold reaches the point of issue (R44 to R49, R55, R72, R96, R196, R199, R207). `step` says that a STEP
command issues it. -/
def doHold (s : State) (h : HamperId) (rel step : Bool) (t : BitVec 32) : State :=
  let k := s.hamper h
  let s := (s.setHamper h { k with badEnd := false }).hamperFaultIf h sfBadEnd k.badEnd
  let k := s.hamper h
  let r := holdStep rel k.holdPos t
  let base := k.holdBase + (s.time.podDefer - k.podSeen)
  let target := base + BitVec.ofNat 64 (scaledBy s.scaleField r.1)
  let s := s.setHamper h { k with holdBase := target, holdPos := r.2.1, podSeen := s.time.podDefer }
  let s := s.hamperFaultIf h sfHoldOrder r.2.2
  let now := s.time.almanac
  let s := if target < now then (s.overrun h (now.toNat - target.toNat) target).bumpG (groveOfHamper h) 0x10 1 else s
  let k := s.hamper h
  let wait := fun (s : State) =>
    if step then s
    else s.setHamper h { k with
      hold := some ⟨target, s.cycle (groveOfHamper h), now⟩, state := if k.state = stRunning then stHolding else k.state }
  match s.plane.abort with
  | some q => if k.owes && q.at_.toNat + 64 ≤ target.toNat then s.abortAct h q.force else wait s
  | none => wait s

/-- WAIT with count `n` (R188). -/
def doWait (s : State) (h : HamperId) (n : Nat) : State :=
  s.setHamper h { s.hamper h with waitUntil := s.total (groveOfHamper h) + 1 + n }

/-- END (R189, R201, R471). -/
def doEnd (s : State) (h : HamperId) : State :=
  let s := s.setHamper h { s.hamper h with state := stDone, stopped := true, loops := [], loaded := false }
  let s := if s.plane.abort.isSome then s.abortSettle else s
  if h = s.refHamper && s.schState != schIdle then s.endFormation else s

/-- What a word's SEQ field does at issue (R170, R174); `sv` is the scalar that travelled with it. -/
def seqAtIssue (s : State) (h : HamperId) (f : SeqF) (sv : BitVec 32) (step : Bool) : State :=
  match f.op.toNat with
  | 0x11 => s.doPswap h
  | 0x20 => s.doHold h false step (f.arg.zeroExtend 32)
  | 0x21 => s.doHold h false step sv
  | 0x22 => s.doHold h true step (f.arg.zeroExtend 32)
  | 0x23 => s.doHold h true step sv
  | 0x24 => s.doWait h (f.arg.extractLsb' 0 14).toNat
  | 0x25 => s.doWait h sv.toNat
  | 0x3E => s.doEnd h
  | _ => s

/-! ## Audit points and samples (R164, R731, R732) -/

/-- CHECK.AUDIT (R164): of an issue cycle that lasts more than one tick, the Almanac at the issue (DESIGN CHOICE, log
entry 115). -/
def audit (s : State) (h : HamperId) (f : CheckF) : State :=
  if f.audit = 0 then s
  else
    let k := s.hamper h
    let n := getBits k.auditTag 63 32 + 1
    s.setHamper h { k with
      auditAlm := s.time.almanac, auditTag := putBits (putBits 0 63 32 n) 4 0 f.id.toNat }

/-- The send ends that a word pushes, with the cycle at whose end each tuple is placed (R98, R330). -/
def wordSends (w : Cw) (now : Nat) : List (Nat × Nat) :=
  let one := fun (d : BitVec 5) (at_ : Nat) => if endSend d then [(d.toNat - 16, at_)] else []
  (if w.mx.op = 8 then one (w.mx.opb.extractLsb' 0 5) (now + 1) else []) ++
  (if w.vxa.op = 0 then [] else one w.vxa.dst (now + vxLatency w.vxa.op - 1)) ++
  (if w.vxb.op = 0 then [] else one w.vxb.dst (now + vxLatency w.vxb.op - 1)) ++
  (if w.ld.own = 2 then one w.ld.fin (now + 2) else []) ++
  (if w.net.op = 1 then one w.net.dst now else []) ++
  (if w.tile.op = 2 then one (tileEnd w.tile) (now + 1) else [])

/-- The cycles until the accumulator is readable with the result of the word that has just issued, in the first core whose MX
operation gives one; `old` is the state before the word (R259, R732). -/
def mxReady (s old : State) (h : HamperId) (w : Cw) (now : Nat) : Option Nat :=
  ((s.enabledLanes h).filterMap fun c =>
    ((s.core c).mx.results.filter fun r => r.acc = w.mx.acc && !(old.core c).mx.results.contains r).getLast?.map fun r => r.due - now).head?

/-- A field of a word takes part in some enabled core: it names no bad end there and loses no destination (R96, R103). -/
def takesPart (s : State) (h : HamperId) (w : Cw) (n : Nat) : Bool :=
  (s.enabledLanes h).any fun c =>
    let us := (s.core c).uses w
    !(badFields us).contains n && !(lostFields us).contains n

/-- The sampler's countdown at a word that hamper `h` issues: at 0 the word is tagged and the sampler selects
again (R731, R732). `old` is the state before the word issued, `took` the fields that took part. A vector result that goes to a
send end is not poppable. -/
def sampleWord (s old : State) (h : HamperId) (q : QWord) (w : Cw) (took : List Nat) : State :=
  let was := old.hamper h
  let g := groveOfHamper h
  let p := (s.grove g).samp
  if !p.en || p.chosen != hamperIndex h then s
  else if 1 < p.count then s.setSamp g { p with count := p.count - 1 }
  else
    let now := s.cycle g
    let vx := fun (n : Nat) (f : VxF) =>
      if f.op = 0 || f.op = 0x17 || f.dst = 0 || endSend f.dst || !took.contains n then 255 else vxLatency f.op
    let x : Sample :=
      { issued := now, hamper := hamperIndex h, pushAlm := q.alm.extractLsb' 0 32, dt := s.time.ticks - q.tick
        stall := was.stalls, kind := if was.stalls = 0 then 255 else getBits was.refusedAt 36 35
        ldLand := if w.ld.own = 1 && w.ld.fin != 0 && took.contains 4 then 2 else 255
        mxRdy := sampleOffset (s.mxReady old h w now), vxaRdy := vx 2 w.vxa, vxbRdy := vx 3 w.vxb
        sends := wordSends w now, pc := q.pc }
    (s.setSamp g { p with live := p.live ++ [x] }.select).bumpG g 0x13 1

/-! ## One word -/

/-- The hamper is still in the cycle that was under way when its departure count was reached (R173). -/
def departBar (s : State) (h : HamperId) : Bool :=
  let g := s.grove (groveOfHamper h)
  match (s.hamper h).departAt with
  | none => false
  | some (p, onEdge) => g.cycle p = s.cycle (groveOfHamper h) && (!onEdge || g.inSecond p)

/-- The hamper may try a word in this cycle (R104, R173, R187 to R189, R207). -/
def mayIssue (s : State) (h : HamperId) : Bool :=
  let k := s.hamper h
  let g := groveOfHamper h
  !s.departBar h && s.clockOn g && !s.catching g && (k.state = stRunning || k.state = stAbort || (k.state = stStopped && k.stepOne)) &&
  k.hold.isNone && k.waitUntil ≤ s.total g && k.lastIssue ≤ s.cycle g

/-- The refused condition in SEQ_WD's layout (R364). -/
def refusedBits (l : Nat) (r : Refused) : BitVec 64 :=
  putBits (putBits (putBits (putBits 0 47 42 l) 41 37 r.code) 36 35 r.kind) 34 31 r.field

/-- The stall of a cycle in which a word is refused (R105, R350). -/
def stall (s : State) (h : HamperId) (l : Nat) (r : Refused) : State :=
  let g := groveOfHamper h
  let k := s.hamper h
  (s.setHamper h { k with refused := k.refused + 1, stalls := k.stalls + 1, refusedAt := refusedBits l r, lastIssue := s.cycle g + 1 }).bumpG g 5 1

/-- A word issues (R104). `fromQueue` takes it off the issue queue. -/
def issueGo (s : State) (h : HamperId) (q : QWord) (w : Cw) (fromQueue : Bool) : State :=
  let g := groveOfHamper h
  let old := s
  let was := s.hamper h
  let s := s.setHamper h { was with
    iq := if fromQueue then was.iq.tail else was.iq
    refused := 0, stalls := 0, wdFired := false, stepOne := false, lastIssue := s.cycle g + 1 }
  let took := [2, 3, 4].filter (s.takesPart h w)
  let s := (s.issueLanes h w q.aset).bumpG g 4 1
  let s := (s.audit h w.check).sampleWord old h q w took
  s.seqAtIssue h w.seq q.scalar (was.state = stStopped)

/-- A word at the head is tried: it issues whole in every enabled core or the hamper stalls (R104, R105). -/
def tryWord (s : State) (h : HamperId) (q : QWord) (w : Cw) (fromQueue : Bool) : State :=
  let s := (lanes h).foldl settleLane s
  match s.wordRefusal h w with
  | some (l, r) => s.stall h l r
  | none => s.issueGo h q w fromQueue

/-- A cycle without an attempt ends a run of refused cycles (R350). -/
def noIssue (s : State) (h : HamperId) : State :=
  let k := s.hamper h
  let g := groveOfHamper h
  if k.hold.isSome || s.catching g || s.total g < k.waitUntil || k.iq.isEmpty then
    s.setHamper h { k with refused := 0, wdFired := false }
  else s

/-- The hamper tries a word that holds one field, as if the word stood at the head of its issue queue: the
check of R144 is made first (log entry 41). -/
def issueField (s : State) (h : HamperId) (w : Cw) : State :=
  if s.mayIssue h then
    let k := s.hamper h
    let n := w.agu.val.extractLsb' 10 4
    let aset := if w.agu.op = 1 && w.agu.vsrc = 1 then (smGet 0 k.scalars n.toNat).extractLsb' 0 16 else 0
    let r := s.checkWord h w aset
    let sv := smGet 0 k.scalars (r.2.seq.arg.extractLsb' 14 4).toNat
    r.1.tryWord h { scalar := sv, aset := aset, pc := k.pc, alm := s.time.almanac, tick := s.time.ticks } r.2 false
  else s.noIssue h

end State

/-- ISSUE: the hamper tries the control word at the head of its issue queue (R104). -/
def execIssue (h : HamperId) (s : State) : Host.Outcome State Fault Refusal :=
  match (s.hamper h).iq with
  | [] => .next (s.noIssue h)
  | q :: _ =>
    if s.mayIssue h && q.pushed < s.cycle (groveOfHamper h) then .next (s.tryWord h q (decodeCw q.word) true)
    else .next (s.noIssue h)

/-- WATCHDOG: the hamper's run of refused cycles has reached the threshold (R350 to R352). -/
def execWatchdog (h : HamperId) (s : State) : Host.Outcome State Fault Refusal :=
  let k := s.hamper h
  if s.flag CP_WD_CFG.EN && !k.wdFired && 2 ^ s.fld CP_WD_CFG.LOG2 ≤ k.refused then
    let rec_ := k.refusedAt ||| 1
    let g := groveOfHamper h
    let s := (s.setHamper h ({ k with wd := rec_, wdFired := true }.noteSet (s.cycle g) 0x0D0 1)).setFlag (groveBit CP_WD_MAP.off g)
    .next (s.stepFatal 1 g.toNat 0x0003 (rec_.toNat + h.toNat * 2 ^ 50))
  else .next s

end Sys2Proof.Machine
end

