-- ==== Sys2Proof/Machine/PortRows.lean ====
section
/-! DEFINITION. What an issued word does later in a core: its port operations, its landing entries, its tile
bytes and its accumulator (R100, R109 to R111, R259, R306). -/

namespace Sys2Proof.Machine

namespace State

/-- A core after one of its port operations: its event bit and the credits the operation freed. -/
def portDone (s : State) (c : CoreId) (r : Core × Bool × List WordRef) : State :=
  ((s.setCore c r.1).spadEventIf (groveOf c) r.2.1).wordsBack (groveOf c) r.2.2

/-- The read port owes an operation of owner `core` in a port cycle that has come. -/
def readOwed (s : State) (c : CoreId) (core : Bool) : Bool :=
  match (s.core c).spad.portRd with
  | none => false
  | some p => p.toCore = core && p.cycle ≤ s.cycle (groveOf c)

/-- The write port owes an operation of owner `core` in a port cycle that has come. -/
def writeOwed (s : State) (c : CoreId) (core : Bool) : Bool :=
  match (s.core c).spad.portWr with
  | none => false
  | some p => p.byCore = core && p.cycle ≤ s.cycle (groveOf c)

/-- The read port's operation, when it is owed. -/
def doRead (s : State) (c : CoreId) (core : Bool) : State :=
  if s.readOwed c core then
    let r := (s.core c).readPort s.time.almanac
    s.portDone c (r.1, r.2, [])
  else s

/-- The write port's operation, when it is owed: after the read of the same port cycle (R111, R385). -/
def doWrite (s : State) (c : CoreId) (core : Bool) : State :=
  if s.writeOwed c core then s.portDone c ((s.core c).ports s.time.almanac (s.cycle (groveOf c))) else s

end State

/-- LD_CORE: the read port reads a row into ld0 or ld1 (R109, R146). -/
def execLdCore (c : CoreId) (s : State) : Host.Outcome State Fault Refusal := .next (s.doRead c true)

/-- LD_STREAM: the read port reads a row toward a send end (R109, R146). -/
def execLdStream (c : CoreId) (s : State) : Host.Outcome State Fault Refusal := .next (s.doRead c false)

/-- ST_CORE: the write port writes the popped entry (R109, R149). -/
def execStCore (c : CoreId) (s : State) : Host.Outcome State Fault Refusal := .next (s.doWrite c true)

/-- ST_STREAM: the write port pops the stream inlet and writes its row, or sets STREAM_EMPTY (R110). -/
def execStStream (c : CoreId) (s : State) : Host.Outcome State Fault Refusal := .next (s.doWrite c false)

/-- ENTRY_LANDED: the entries of an internal queue whose producer's latency has elapsed hold their data (R100). -/
def execEntryLanded (c : CoreId) (q : BitVec 5) (s : State) : Host.Outcome State Fault Refusal :=
  let k := s.core c
  if endInternal q then .next (s.setCore c (k.setQueue q (landSlots (s.cycle (groveOf c) - 1) (k.queue q))))
  else .next s

/-- TILE_BYTES_CHANGED: tile loads whose cycle has come write their bytes and marks (R274, R306). -/
def execTileBytesChanged (c : CoreId) (s : State) : Host.Outcome State Fault Refusal :=
  .next (s.setCore c (applyTiles (s.cycle (groveOf c)) (s.core c)))

/-- ACCUMULATOR_READABLE: MX results whose cycle has come land in their accumulators (R259, R260). -/
def execAccumulatorReadable (c : CoreId) (s : State) : Host.Outcome State Fault Refusal :=
  .next (s.setCore c ((s.core c).landMx (s.cycle (groveOf c))))

end Sys2Proof.Machine
end

