-- ==== Sys2Proof/Machine/FrontEnd.lean ====
section
/-! DEFINITION. The front end of a hamper: fetching, the instruction cache, pushing, scalars, loops and calls
(R170 to R186, R190 to R195), and the sequencer's commands (R205 to R221). -/

namespace Sys2Proof.Machine

/-! ## Addresses and loops -/

/-- The address after `a`; a library address wraps within the store, and the last program word's is program word 0 (DESIGN
CHOICE, log entry 42). -/
def nextPc (a : BitVec 25) : BitVec 25 :=
  if a.getLsbD 24 then BitVec.ofNat 25 (2 ^ 24 + (a.toNat + 1) % 8192) else BitVec.ofNat 25 ((a.toNat + 1) % 2 ^ 24)

/-- The word `n` words after `a`, with the wrap of `nextPc` (log entry 42). -/
def pcPlus (a : BitVec 25) (n : Nat) : BitVec 25 :=
  if a.getLsbD 24 then BitVec.ofNat 25 (2 ^ 24 + (a.toNat + n) % 8192) else BitVec.ofNat 25 ((a.toNat + n) % 2 ^ 24)

/-- What follows word `a` at call depth `depth`: the back-edges of the loops that end there, innermost first
(R180, R183). -/
def loopNext (a : BitVec 25) (depth : Nat) : List Loop → BitVec 25 × List Loop
  | [] => (nextPc a, [])
  | l :: ls =>
    if l.depth = depth && l.last = a then
      if l.index + 1 < l.n then (l.first, { l with index := l.index + 1 } :: ls) else loopNext a depth ls
    else (nextPc a, l :: ls)

/-- The front end moves past word `a`. -/
def Hamper.advance (k : Hamper) (a : BitVec 25) : Hamper :=
  let r := loopNext a k.calls.length k.loops
  { k with pc := r.1, loops := r.2 }

/-! ## Scalars (R174, R175) -/

def Hamper.scalar (k : Hamper) (n : BitVec 4) : BitVec 32 := smGet 0 k.scalars n.toNat
def Hamper.setScalar (k : Hamper) (n : BitVec 4) (v : BitVec 32) : Hamper :=
  { k with scalars := smSet k.scalars n.toNat v }
def Hamper.lc (k : Hamper) (n : BitVec 2) : BitVec 32 := smGet 0 k.lcs n.toNat
def Hamper.setLc (k : Hamper) (n : BitVec 2) (v : BitVec 32) : Hamper := { k with lcs := smSet k.lcs n.toNat v }

/-- A scalar result of cycle `now` modulo 2^32, with SOVF where the exact result does not fit (R175). -/
def Hamper.setExact (k : Hamper) (now : Nat) (d : BitVec 4) (v : Int) : Hamper :=
  let k := if 0 ≤ v && v < 2 ^ 32 then k else k.setFault now sfSovf
  k.setScalar d (BitVec.ofInt 32 v)

def SeqF.d (f : SeqF) : BitVec 4 := f.arg.extractLsb' 14 4
def SeqF.a (f : SeqF) : BitVec 4 := f.arg.extractLsb' 10 4
def SeqF.b (f : SeqF) : BitVec 4 := f.arg.extractLsb' 6 4
def SeqF.c (f : SeqF) : BitVec 4 := f.arg.extractLsb' 2 4
def SeqF.k (f : SeqF) : BitVec 2 := f.arg.extractLsb' 16 2

/-- The scalars that a word reads when it is pushed (R171, R190). -/
def wordScalars (w : Cw) : List (BitVec 4) :=
  let f := w.seq
  (match f.op.toNat with
   | 0x02 => [f.d]
   | 0x03 | 0x07 | 0x08 | 0x09 | 0x19 => [f.a]
   | 0x04 | 0x05 | 0x0A | 0x0B => [f.a, f.b]
   | 0x06 => [f.a, f.b, f.c]
   | 0x21 | 0x23 | 0x25 => [f.d]
   | _ => []) ++
  (if w.agu.op = 1 && w.agu.vsrc = 1 then [w.agu.val.extractLsb' 10 4] else [])

/-- The scalar that a register form of a hold or WAIT carries (R171). -/
def Hamper.carried (k : Hamper) (f : SeqF) : BitVec 32 :=
  if f.op = 0x21 || f.op = 0x23 || f.op = 0x25 then k.scalar f.d else 0

/-- The value of an ASET from a scalar (R154, R171). -/
def Hamper.asetValue (k : Hamper) (f : AguF) : BitVec 16 :=
  if f.op = 1 && f.vsrc = 1 then (k.scalar (f.val.extractLsb' 10 4)).extractLsb' 0 16 else 0

/-- The scalar, parameter and counter operations (R174, R175, R182). -/
def Hamper.scalarOp (k : Hamper) (f : SeqF) (now : Nat) : Hamper :=
  let a : Int := (k.scalar f.a).toNat
  let b : Int := (k.scalar f.b).toNat
  let imm := f.arg.extractLsb' 0 14
  let sh := (f.arg.extractLsb' 5 5).toNat
  match f.op.toNat with
  | 0x01 => k.setScalar f.d (imm.zeroExtend 32)
  | 0x02 => k.setExact now f.d ((k.scalar f.d).toNat * 2 ^ 14 + imm.toNat : Nat)
  | 0x03 => k.setScalar f.d (k.scalar f.a)
  | 0x04 => k.setExact now f.d (a + b)
  | 0x05 => k.setExact now f.d (a - b)
  | 0x06 => { k.setExact now f.d (a * b + (k.scalar f.c).toNat) with smad := some (f.d, now) }
  | 0x07 => k.setExact now f.d (a + (f.arg.extractLsb' 0 10).toInt)
  | 0x08 => k.setScalar f.d (k.scalar f.a <<< sh)
  | 0x09 => k.setScalar f.d (k.scalar f.a >>> sh)
  | 0x0A => k.setScalar f.d (if k.scalar f.a ≤ k.scalar f.b then k.scalar f.a else k.scalar f.b)
  | 0x0B => k.setScalar f.d (if k.scalar f.a ≤ k.scalar f.b then k.scalar f.b else k.scalar f.a)
  | 0x10 => k.setScalar f.d (smGet 0 k.params (64 * k.paramAct.toNat + (f.arg.extractLsb' 0 6).toNat))
  | 0x12 =>
    k.setScalar f.d (match k.loops.find? fun l => l.k = f.arg.extractLsb' 0 2 with
      | some l => BitVec.ofNat 32 l.index
      | none => 0)
  | 0x18 => k.setLc f.k ((f.arg.extractLsb' 0 16).zeroExtend 32)
  | 0x19 => k.setLc f.k (k.scalar f.a)
  | _ => k

/-! ## The instruction cache (R192 to R195) -/

/-- A cached line. -/
def Hamper.cached (k : Hamper) (l : BitVec 21) : Option IcLine := k.icLines.find? fun x => x.line = l

/-- A line of the set of `l`. -/
def sameSet (l : BitVec 21) (x : IcLine) : Bool := x.line.toNat % 32 = l.toNat % 32

/-- The line that a fill of `l` replaces: none while the set has a free way, else the unlocked line least
recently used (R193). -/
def Hamper.victim (k : Hamper) (l : BitVec 21) : Option IcLine :=
  let set := k.icLines.filter (sameSet l)
  if set.length < 4 then none
  else
    (set.filter fun x => !x.locked).foldl (fun (b : Option IcLine) x =>
      match b with
      | none => some x
      | some y => if x.used < y.used then some x else some y) none

/-- A line placed in the cache; a lock that would be the fourth of its set is not taken (R193, R194). -/
def Hamper.place (k : Hamper) (l : BitVec 21) (ws : List (BitVec 256)) (lock : Bool) : Hamper :=
  let was := (k.cached l).any (·.locked)
  let locks := (k.icLines.filter fun x => sameSet l x && x.locked && x.line != l).length
  let full := lock && !was && 3 ≤ locks
  let gone := match k.cached l with | some x => some x | none => k.victim l
  let rest := k.icLines.filter fun x => some x != gone
  { k with
    icLines := ⟨l, ws, was || (lock && locks < 3), k.icClock⟩ :: rest
    icClock := k.icClock + 1
    icFlags := if full then k.icFlags ||| 2 else k.icFlags }

namespace State

/-! ## Flow (R179 to R185) -/

/-- LOOP in the word at `a` (R179 to R181, R183); `act` are the loops that were active when it was pushed. -/
def pushLoop (s : State) (h : HamperId) (a : BitVec 25) (f : SeqF) (now : Nat) (act : List Loop) : State :=
  let k := s.hamper h
  let n := (k.lc f.k).toNat
  let last := pcPlus a (f.arg.extractLsb' 0 14).toNat
  let outer := match act with
    | [] => false
    | l :: _ => l.depth = k.calls.length && l.last.getLsbD 24 = a.getLsbD 24 && l.last < last
  if (act.any fun l => l.k = f.k) || outer then
    (s.setHamper h (k.advance a)).hamperFault h sfBadLoop
  else if n = 0 then s.setHamper h { k.advance last with pushFrom := now + 2 }
  else
    s.setHamper h { k with
      pc := nextPc a, loops := ⟨f.k, n, 0, nextPc a, last, k.calls.length⟩ :: k.loops }

/-- CALL in the word at `a` (R184, R185). -/
def pushCall (s : State) (h : HamperId) (a : BitVec 25) (f : SeqF) (now : Nat) : State :=
  let k := s.hamper h
  if 4 ≤ k.calls.length then (s.setHamper h (k.advance a)).hamperFault h sfBadCall
  else
    s.setHamper h { k with
      calls := nextPc a :: k.calls, pc := BitVec.ofNat 25 (2 ^ 24 + (f.arg.extractLsb' 0 13).toNat), pushFrom := now + 3 }

/-- RET (R184, R185, R199); `act` are the loops that were active when it was pushed. With an empty call stack it is an END,
and SEQ_PC stays on it (DESIGN CHOICE, log entry 118). -/
def pushRet (s : State) (h : HamperId) (now : Nat) (act : List Loop) : State :=
  let k := s.hamper h
  match k.calls with
  | [] => (s.setHamper h { k with stopped := true }).hamperFault h sfBadCall
  | r :: rs =>
    let late := act.any fun l => k.calls.length ≤ l.depth
    let st := if k.state = stAbort && rs.isEmpty then (if k.hold.isSome then stHolding else stRunning) else k.state
    (s.setHamper h { k with
      calls := rs, pc := r, pushFrom := now + 3, state := st
      loops := k.loops.filter fun l => l.depth < k.calls.length }).hamperFaultIf h sfBadCall late

/-- A loop whose last word carries CALL, RET or LOOP is discarded (R183). -/
def dropLoops (s : State) (h : HamperId) (a : BitVec 25) (f : SeqF) : State :=
  let k := s.hamper h
  let ends := fun (l : Loop) => l.depth = k.calls.length && l.last = a
  if (f.op = 0x1A || f.op = 0x1C || f.op = 0x1D) && k.loops.any ends then
    (s.setHamper h { k with loops := k.loops.filter fun l => !ends l }).hamperFault h sfBadLoop
  else s

/-- The front-end operation of the word at `a`, and the SEQ field that the pushed word keeps (R170, R177, R185,
R189). -/
def pushSeq (s : State) (h : HamperId) (a : BitVec 25) (f : SeqF) (now : Nat) : State × SeqF :=
  let act := (s.hamper h).loops
  let s := s.dropLoops h a f
  match f.op.toNat with
  | 0x1A => (s.pushLoop h a f now act, f)
  | 0x1C => (s.pushCall h a f now, f)
  | 0x1D => (s.pushRet h now act, if (s.hamper h).calls.isEmpty then ⟨0x3E, 0⟩ else f)
  | 0x11 => (s.setHamper h { (s.hamper h).advance a with swapWait := true }, f)
  | 0x3E => (s.setHamper h { (s.hamper h).advance a with stopped := true }, f)
  | _ => (s.setHamper h (((s.hamper h).scalarOp f now).advance a), f)

/-! ## Fetching and pushing (R170 to R173, R190 to R192) -/

/-- The front end may push in this cycle (R172, R173, R177, R189, R207). Whether a word that issues in the same cycle has
already left a full queue is decided by the order of the two commands (DESIGN CHOICE, log entry 116). -/
def mayPush (s : State) (h : HamperId) : Bool :=
  let k := s.hamper h
  let g := groveOfHamper h
  s.clockOn g &&
  ((!k.stopped && (k.state = stArmed || k.state = stRunning || k.state = stHolding || k.state = stAbort)) ||
   (k.state = stStopped && k.stepPush)) &&
  !k.swapWait && k.icMiss.isNone && k.iq.length < Config.issueDepth && k.pushFrom ≤ s.cycle g

/-- The word at the hamper's PC: a library word, or a cached one; on a miss the fill begins (R184, R192). -/
def fetch (s : State) (h : HamperId) : State × Option (BitVec 256) :=
  let k := s.hamper h
  let g := groveOfHamper h
  if k.pc.getLsbD 24 then (s, some (smGet 0 (s.grove g).lib (k.pc.toNat % 8192)))
  else
    let line := k.pc.extractLsb' 3 21
    match k.cached line with
    | some x =>
      let k := { k with
        icClock := k.icClock + 1
        icLines := k.icLines.map fun y => if y.line = line then { y with used := k.icClock } else y }
      (s.setHamper h k, some ((x.words[k.pc.toNat % 8]?).getD 0))
    | none =>
      ((s.setHamper h { k with
          icMiss := some line, icMisses := BitVec.ofNat 32 (satAdd 0xFFFFFFFF k.icMisses.toNat 1) }).bumpG g 8 1, none)

/-- A word is checked, its front-end operation takes effect, and it goes into the issue queue (R144, R145, R170 to
R172, R190). A field that R145 replaces, but that names the result of the SMAD before it, costs the cycle of R190 too (DESIGN
CHOICE, log entry 140). -/
def pushWord (s : State) (h : HamperId) (raw : BitVec 256) : State :=
  let k := s.hamper h
  let g := groveOfHamper h
  let now := s.cycle g
  let w := decodeCw raw
  let bubble := match k.smad with
    | some (d, c) => c + 1 = now && (wordScalars w).contains d
    | none => false
  if bubble then s
  else
    let a := k.pc
    let aset := k.asetValue w.agu
    let s := s.setHamper h { k with smad := none, stepPush := false, pushFrom := now + 1 }
    let r := s.checkWord h w aset
    let sv := (r.1.hamper h).carried r.2.seq
    let t := r.1.pushSeq h a r.2.seq now
    let k := t.1.hamper h
    t.1.setHamper h { k with
      iq := k.iq ++ [{ word := encodeCw { r.2 with seq := t.2 }, pushed := now, scalar := sv, aset := aset, pc := a
                       alm := s.time.almanac, tick := s.time.ticks }] }

/-- The front end pushes a word whose SEQ field is `f` and whose other fields are zero, as if the word stood at
its PC (log entry 43). -/
def pushField (s : State) (h : HamperId) (f : SeqF) : State :=
  if s.mayPush h then s.pushWord h (encodeCw { seq := f }) else s

end State

/-- WORD_PUSH: the front end fetches a word and pushes it (R172). -/
def execWordPush (h : HamperId) (s : State) : Host.Outcome State Fault Refusal :=
  if s.mayPush h then
    match s.fetch h with
    | (s, some w) => .next (s.pushWord h w)
    | (s, none) => .next s
  else .next s

/-- The eight words of a program line (R4, R193, R214), as a read takes them (R409). -/
def State.lineWords (s : State) (h : HamperId) (l : BitVec 21) : List (BitVec 256) :=
  let a := (s.hamper h).progBase.toNat + 256 * l.toNat
  (List.range 8).map fun i => BitVec.ofNat 256 (s.hbmTakenNat (a + 32 * i) 32)

/-- IC_FILL: a line arrives from HBM, for the miss the front end waits for or else for the preload (R192, R193).
A line past the last stack does not exist. -/
def execIcFill (h : HamperId) (s : State) : Host.Outcome State Fault Refusal :=
  let k := s.hamper h
  let job : Option (BitVec 21 × Hamper × Bool) := match k.icMiss with
    | some l => some (l, { k with icMiss := none }, false)
    | none => match k.preload with
      | none => none
      | some p =>
        some (p.line, { k with preload := if p.left ≤ 1 then none else some { p with line := p.line + 1, left := p.left - 1 } },
          p.lock)
  match job with
  | none => .next s
  | some (l, k', lock) =>
    let a := k.progBase.toNat + 256 * l.toNat
    if hbmEnd < a + 256 then .fault .noSuchMemory
    else
      let x := { k' with icFlags := 0 }.place l (s.lineWords h l) lock
      let x := { x with icFlags := k.icFlags ||| x.icFlags }.noteSet (s.cycle (groveOfHamper h)) 0x0A8 (2 * x.icFlags.zeroExtend 64)
      .next ((s.setHamper h x).countTaken a 256)

/-! ## Commands (R193 to R195, R205 to R208) -/

namespace State

/-- No front-end work is under way. -/
def clearFront (k : Hamper) : Hamper :=
  { k with stopped := false, swapWait := false, smad := none, stepPush := false, stepOne := false, pushFrom := 0 }

/-- A hamper begins to run in a grove: where none of the grove ran, its releases are counted afresh (R66; log entry
44). -/
def beginGrove (s : State) (g : GroveId) : State :=
  if s.groveRuns g then s else s.setGrove g { s.grove g with interval := 0 }

/-- A command in a state that does not allow it (R208). -/
def seqRefused (s : State) (h : HamperId) : State :=
  s.setHamper h ({ s.hamper h with cmdRefused := true }.noteSet (s.cycle (groveOfHamper h)) 0x008 8)

/-- SEQ_CTRL START (R195, R207). Words that the issue queue still holds stay in it, and issue before the word at SEQ_PC (DESIGN
CHOICE, log entry 141). -/
def seqStart (s : State) (h : HamperId) : State :=
  let k := s.hamper h
  if (k.state = stIdle || k.state = stStopped) && k.preload.isNone then
    let s := s.beginGrove (groveOfHamper h)
    (s.setHamper h { clearFront k with
      state := stRunning, holdBase := s.time.almanac, holdPos := 0, acted := false, podSeen := s.time.podDefer }).noteRef
  else s.seqRefused h

/-- SEQ_CTRL STEP (R195, R207). One commanded before the word of an earlier STEP has issued pushes another word, but the two
issue one (DESIGN CHOICE, log entry 141). -/
def seqStep (s : State) (h : HamperId) : State :=
  let k := s.hamper h
  if k.state = stStopped && k.preload.isNone then s.setHamper h { k with stepPush := true, stepOne := true }
  else s.seqRefused h

/-- The hamper after CLEAR (R207, R773). All of SEQ_FAULT becomes 0: its flags and ENC_FIELD count among the fault bits (DESIGN
CHOICE, log entry 141). -/
def cleared (k : Hamper) : Hamper :=
  { clearFront k with
    state := stIdle, iq := [], loops := [], calls := [], fault := 0, holdBase := 0, holdPos := 0, hold := none
    waitUntil := 0, refused := 0, stalls := 0, wdFired := false, badEnd := false, acted := false, loaded := false }

/-- SEQ_CTRL CLEAR (R207). -/
def seqClear (s : State) (h : HamperId) : State :=
  let k := s.hamper h
  if k.quiet then s.setHamper h (cleared k) else s.seqRefused h

/-- SEQ_CTRL.CMD (R206). -/
def seqCtrl (s : State) (h : HamperId) (v : BitVec 64) : State :=
  match getBits v 1 0 with
  | 1 => s.seqStart h
  | 2 => s.seqStep h
  | 3 => s.seqClear h
  | _ => s

/-- A write of SEQ_PC, SEQ_ABORT_CFG, SEQ_PROG_BASE, a scalar or a loop-counter register (R205, R210, R213 to
R215). A field keeps its value where bits that must be zero are not (R13, R14; log entry 45). -/
def seqReg (s : State) (h : HamperId) (off : Nat) (v : BitVec 64) : State :=
  let k := s.hamper h
  if !k.quiet then s
  else if off = 0x010 then
    let keep := v.getLsbD 24 && getBits v 23 13 != 0
    s.setHamper h { k with pc := v.extractLsb' 24 1 ++ (if keep then k.pc else v.extractLsb' 0 25).extractLsb' 0 24 }
  else if off = 0x030 then
    s.setHamper h { k with abortCfg := putBits (putBits (putBits 0 56 32 (getBits v 56 32)) 25 25 (getBits v 25 25)) 12 0 (getBits v 12 0) }
  else if off = 0x038 then
    if getBits v 7 0 = 0 then s.setHamper h { k with progBase := BitVec.ofNat 64 (getBits v 41 0) } else s
  else if 0x040 ≤ off && off < 0x080 then
    let n := (off - 0x040) / 8
    s.setHamper h { k with scalars := smSet (smSet k.scalars (2 * n) (v.extractLsb' 0 32)) (2 * n + 1) (v.extractLsb' 32 32) }
  else if off = 0x080 || off = 0x088 then
    let n := 2 * ((off - 0x080) / 8)
    s.setHamper h { k with lcs := smSet (smSet k.lcs n (v.extractLsb' 0 32)) (n + 1) (v.extractLsb' 32 32) }
  else s

/-- SEQ_IC_PRELOAD.GO (R193, R195). -/
def icPreload (s : State) (h : HamperId) (start : BitVec 24) (countM1 : BitVec 7) (lock : Bool) : State :=
  let k := s.hamper h
  if k.quiet && k.preload.isNone then
    s.setHamper h { k with preload := some ⟨start.extractLsb' 3 21, countM1.toNat + 1, lock⟩ }
  else s.setHamper h ({ k with icFlags := k.icFlags ||| 1 }.noteSet (s.cycle (groveOfHamper h)) 0x0A8 2)

/-- SEQ_IC_PRELOAD.UNLOCK_ALL (R193). -/
def unlockAll (s : State) (h : HamperId) : State :=
  let k := s.hamper h
  s.setHamper h { k with icLines := k.icLines.map fun x => { x with locked := false } }

/-- A write of SEQ_IC_PRELOAD: UNLOCK_ALL, then GO (R216). -/
def icWrite (s : State) (h : HamperId) (v : BitVec 64) : State :=
  let keep := putBits (putBits (putBits 0 63 40 (getBits v 63 40)) 30 24 (getBits v 30 24)) 1 1 (getBits v 1 1)
  let s := s.setHamper h { s.hamper h with icCfg := keep }
  let s := if v.getLsbD 2 then s.unlockAll h else s
  if v.getLsbD 0 then s.icPreload h (v.extractLsb' 40 24) (v.extractLsb' 24 7) (v.getLsbD 1) else s

/-- A write of 64-bit word `k` of library word `w` (R186, R221). -/
def libWrite (s : State) (g : GroveId) (w k : Nat) (v : BitVec 64) : State :=
  let r := s.grove g
  if s.allHampers g Hamper.quiet then
    s.setGrove g { r with lib := smSet r.lib w (putAt (smGet 0 r.lib w) (64 * k) 64 v.toNat) }
  else s.setGrove g ({ r with libRefused := true }.noteSet (s.cycle g) 0x030 1)

end State

/-- SEQ_START (R207). -/
def execSeqStart (h : HamperId) (s : State) : Host.Outcome State Fault Refusal := .next (s.seqStart h)

/-- SEQ_STEP (R207). -/
def execSeqStep (h : HamperId) (s : State) : Host.Outcome State Fault Refusal := .next (s.seqStep h)

/-- SEQ_CLEAR (R207). -/
def execSeqClear (h : HamperId) (s : State) : Host.Outcome State Fault Refusal := .next (s.seqClear h)

/-- SEQ_REG_WRITE (R205). -/
def execSeqRegWrite (h : HamperId) (off : BitVec 12) (v : BitVec 64) (s : State) : Host.Outcome State Fault Refusal :=
  .next (s.seqReg h off.toNat v)

/-- A value of SEQ_IC_PRELOAD with GO and these fields (R216). -/
def preloadWord (start : BitVec 24) (countM1 : BitVec 7) (lock : Bool) : BitVec 64 :=
  BitVec.ofNat 64 (2 ^ 40 * start.toNat + 2 ^ 24 * countM1.toNat + 2 * lock.toNat + 1)

/-- IC_PRELOAD: a write of SEQ_IC_PRELOAD that sets GO (R193 to R195, R216). -/
def execIcPreload (h : HamperId) (start : BitVec 24) (countM1 : BitVec 7) (lock : Bool) (s : State) :
    Host.Outcome State Fault Refusal :=
  .next (s.icWrite h (preloadWord start countM1 lock))

/-- UNLOCK_ALL (R193, R216). -/
def execUnlockAll (h : HamperId) (s : State) : Host.Outcome State Fault Refusal := .next (s.unlockAll h)

/-- LIBRARY_WRITE (R186). -/
def execLibraryWrite (g : GroveId) (w : BitVec 13) (k : BitVec 2) (v : BitVec 64) (s : State) :
    Host.Outcome State Fault Refusal :=
  .next (s.libWrite g w.toNat k.toNat v)

/-- NOP (R174). -/
def execNop (h : HamperId) (s : State) : Host.Outcome State Fault Refusal :=
  .next (s.pushField h ⟨0x00, 0⟩)

/-- SLI (R174). -/
def execSli (h : HamperId) (d : BitVec 4) (imm : BitVec 14) (s : State) : Host.Outcome State Fault Refusal :=
  .next (s.pushField h ⟨0x01, d ++ imm⟩)

/-- SLIS (R174, R175). -/
def execSlis (h : HamperId) (d : BitVec 4) (imm : BitVec 14) (s : State) : Host.Outcome State Fault Refusal :=
  .next (s.pushField h ⟨0x02, d ++ imm⟩)

/-- SMOV (R174). -/
def execSmov (h : HamperId) (d a : BitVec 4) (s : State) : Host.Outcome State Fault Refusal :=
  .next (s.pushField h ⟨0x03, d ++ a ++ 0#10⟩)

/-- SADD (R174, R175). -/
def execSadd (h : HamperId) (d a b : BitVec 4) (s : State) : Host.Outcome State Fault Refusal :=
  .next (s.pushField h ⟨0x04, d ++ a ++ b ++ 0#6⟩)

/-- SSUB (R174, R175). -/
def execSsub (h : HamperId) (d a b : BitVec 4) (s : State) : Host.Outcome State Fault Refusal :=
  .next (s.pushField h ⟨0x05, d ++ a ++ b ++ 0#6⟩)

/-- SMIN (R174). -/
def execSmin (h : HamperId) (d a b : BitVec 4) (s : State) : Host.Outcome State Fault Refusal :=
  .next (s.pushField h ⟨0x0A, d ++ a ++ b ++ 0#6⟩)

/-- SMAX (R174). -/
def execSmax (h : HamperId) (d a b : BitVec 4) (s : State) : Host.Outcome State Fault Refusal :=
  .next (s.pushField h ⟨0x0B, d ++ a ++ b ++ 0#6⟩)

/-- SMAD (R174, R175, R190). -/
def execSmad (h : HamperId) (d a b k : BitVec 4) (s : State) : Host.Outcome State Fault Refusal :=
  .next (s.pushField h ⟨0x06, d ++ a ++ b ++ k ++ 0#2⟩)

/-- SADDI (R174, R175). -/
def execSaddi (h : HamperId) (d a : BitVec 4) (imm : BitVec 10) (s : State) : Host.Outcome State Fault Refusal :=
  .next (s.pushField h ⟨0x07, d ++ a ++ imm⟩)

/-- SSHL (R174). -/
def execSshl (h : HamperId) (d a : BitVec 4) (sh : BitVec 5) (s : State) : Host.Outcome State Fault Refusal :=
  .next (s.pushField h ⟨0x08, d ++ a ++ sh ++ 0#5⟩)

/-- SSHR (R174). -/
def execSshr (h : HamperId) (d a : BitVec 4) (sh : BitVec 5) (s : State) : Host.Outcome State Fault Refusal :=
  .next (s.pushField h ⟨0x09, d ++ a ++ sh ++ 0#5⟩)

/-- SGETP (R174). -/
def execSgetp (h : HamperId) (d : BitVec 4) (idx : BitVec 6) (s : State) : Host.Outcome State Fault Refusal :=
  .next (s.pushField h ⟨0x10, d ++ 0#8 ++ idx⟩)

/-- SGETLI (R174, R182). -/
def execSgetli (h : HamperId) (d : BitVec 4) (k : BitVec 2) (s : State) : Host.Outcome State Fault Refusal :=
  .next (s.pushField h ⟨0x12, d ++ 0#12 ++ k⟩)

/-- SETLC (R174). -/
def execSetlc (h : HamperId) (k : BitVec 2) (imm : BitVec 16) (s : State) : Host.Outcome State Fault Refusal :=
  .next (s.pushField h ⟨0x18, k ++ imm⟩)

/-- SETLCR (R174). -/
def execSetlcr (h : HamperId) (k : BitVec 2) (a : BitVec 4) (s : State) : Host.Outcome State Fault Refusal :=
  .next (s.pushField h ⟨0x19, k ++ 0#2 ++ a ++ 0#10⟩)

/-- LOOP (R179 to R183). -/
def execLoop (h : HamperId) (k : BitVec 2) (body : BitVec 14) (s : State) : Host.Outcome State Fault Refusal :=
  .next (s.pushField h ⟨0x1A, k ++ 0#2 ++ body⟩)

/-- CALL (R184, R185). -/
def execCall (h : HamperId) (target : BitVec 13) (s : State) : Host.Outcome State Fault Refusal :=
  .next (s.pushField h ⟨0x1C, 0#5 ++ target⟩)

/-- RET (R184, R185, R199). -/
def execRet (h : HamperId) (s : State) : Host.Outcome State Fault Refusal :=
  .next (s.pushField h ⟨0x1D, 0⟩)

end Sys2Proof.Machine
end

