-- ==== Sys2Proof/Machine/CoreBlocks.lean ====
section
/-! DEFINITION. The control blocks of the core plane: the registers of a core, a hamper and a grove, as a
service-mesh access reads and writes them (R57 to R62, R133 to R141, R205 to R221, R266 to R269, R311 to R315,
R337, R358 to R364, R392 to R399, R734 to R737). A read or write of an offset that the spec lists no register at
answers `none`. -/

namespace Sys2Proof.Machine

/-- The number of a register in an array of `n` registers of 8 bytes at `base`. -/
def slotIn (base n o : Nat) : Option Nat := if base ≤ o && o < base + 8 * n then some ((o - base) / 8) else none

/-- Two 32-bit halves as a register value. -/
def halves (hi lo : BitVec 32) : BitVec 64 := hi ++ lo

/-! ## Core control block -/

/-- CORE_ID (R133). -/
def coreIdBits (c : CoreId) : BitVec 64 :=
  BitVec.ofNat 64 (fieldOf c * 2 ^ 56 + (groveOf c).toNat * 2 ^ 48 + (hamperOf c).toNat * 2 ^ 34 +
    laneOf c * 2 ^ 28 + coreY c * 2 ^ 10 + coreX c)

/-- Entries of a receive queue: for a potluck queue, the entries that hold a contribution (R136). -/
def RQueue.level (q : RQueue) : Nat := if q.potluck then q.window.length else q.entries.length

namespace Core

/-- CORE_QLEVEL (R136). -/
def qlevel (k : Core) : BitVec 64 :=
  BitVec.ofNat 64 (packElems 3 ((List.range 6).map fun i => (k.queue (BitVec.ofNat 5 (i + 1))).length) +
    2 ^ 18 * k.net.inlet.length +
    2 ^ 24 * packElems 4 ((List.range 8).map fun n => (k.rqueue n).level))

/-- MX_STATUS (R267). -/
def mxStatus (k : Core) : BitVec 64 :=
  let open_ := match k.mx.pass with | none => 0 | some p => 2 ^ p.acc.toNat
  let pend := packElems 1 ((List.range 8).map fun a => if (k.mx.block (BitVec.ofNat 3 a)).count = 0 then 0 else 1)
  k.mx.status ||| BitVec.ofNat 64 (2 ^ 16 * open_ + 2 ^ 8 * pend)

/-- The tiles 8k to 8k + 7. -/
def tilesOf (k : Core) (n : Nat) : List Tile := (List.range 8).map fun m => k.tile (BitVec.ofNat 5 (8 * n + m))

/-- AGU_n_CFG0, AGU_n_CFG1 and AGU_n_PTR (R138 to R140). -/
def aguReg (a : Agu) (w : Nat) : BitVec 64 :=
  match w with
  | 0 => a.count2 ++ a.stride2 ++ a.stride1 ++ a.base
  | 1 => a.ringHi ++ a.ringLo ++ a.count1 ++ (0#3 ++ a.src ++ 0#5 ++ a.mode)
  | _ => (0#15 ++ BitVec.ofBool a.phase) ++ (a.use 0).1 ++ a.j ++ a.i

/-- NET_SEND_n (R358). -/
def sendReg (e : SendEnd) : BitVec 64 :=
  BitVec.ofNat 64 (2 ^ 16 * e.credit.toNat + 2 ^ 12 * e.cinit.toNat + 2 ^ 4 * e.tw.toNat + e.type.toNat)

/-- NET_RQ_n (R359). -/
def rqReg (q : RQueue) : BitVec 64 :=
  BitVec.ofNat 64 (2 ^ 16 * q.tw.toNat + 2 ^ 8 * q.expm1.toNat + 2 ^ 5 * q.rfmt.toNat + 2 ^ 4 * q.svcreply.toNat + q.potluck.toNat)

/-- SPAD_MAINT (R397). -/
def spadMaint (p : Spad) : BitVec 64 := BitVec.ofNat 64 (2 ^ 32 * p.ptr.toNat + p.scrubEn.toNat)

/-- The register at offset `o` of the control block of core `c`. -/
def readAt (k : Core) (c : CoreId) (o : Nat) : Option (BitVec 64) :=
  if o = 0x000 then some (coreIdBits c)
  else if o = 0x008 then some (BitVec.ofNat 64 k.en.toNat)
  else if o = 0x010 then some k.status
  else if o = 0x018 then some k.qlevel
  else if o = 0x020 then some (halves (k.mask 1) (k.mask 0))
  else if o = 0x028 then some (halves (k.mask 3) (k.mask 2))
  else if o = 0x030 then some k.flags
  else if o = 0x038 then some k.mxStatus
  else if 0x040 ≤ o && o < 0x060 then
    some (BitVec.ofNat 64 (packElems 8 ((k.tilesOf ((o - 0x040) / 8)).map fun t => 8 * t.rows.toNat + t.bpr.toNat)))
  else if o = 0x060 then some (k.vl.zeroExtend 64)
  else if o = 0x068 then some k.vxStatus
  else if 0x080 ≤ o && o < 0x0A0 then
    some (BitVec.ofNat 64 (packElems 8 ((k.tilesOf ((o - 0x080) / 8)).map fun t => t.marks.toNat)))
  else if 0x100 ≤ o && o < 0x200 then
    if o % 0x20 < 0x18 then some (aguReg (k.agu (BitVec.ofNat 3 ((o - 0x100) / 0x20))) (o % 0x20 / 8)) else none
  else if 0x200 ≤ o && o < 0x400 then
    let a := BitVec.ofNat 3 ((o - 0x200) / 0x40)
    let w := o % 0x40 / 8
    some (halves (k.mx.accElem a (2 * w + 1)) (k.mx.accElem a (2 * w)))
  else if 0x400 ≤ o && o < 0x500 then
    some ((k.mx.ocEntry (BitVec.ofNat 2 ((o - 0x400) / 0x40))).data.extractLsb' (64 * (o % 0x40 / 8)) 64)
  else if 0x500 ≤ o && o < 0x520 then some (sendReg (k.sendEnd ((o - 0x500) / 8)))
  else if 0x520 ≤ o && o < 0x560 then some (rqReg (k.rqueue ((o - 0x520) / 8)))
  else if o = 0x560 then some k.net.rqStat
  else if o = 0x568 then some k.net.flush
  else if o = 0x600 then some k.spad.ecc
  else if o = 0x608 then some k.spad.errLog
  else if o = 0x610 then some k.spad.chkStat
  else if o = 0x618 then some k.spad.chkLog
  else if o = 0x620 then some k.spad.chkCnt
  else if o = 0x628 then some (spadMaint k.spad)
  else if o = 0x630 then some k.spad.inject
  else if 0x700 ≤ o && o < 0x780 then some (k.readTags ((o - 0x700) / 8))
  else if 0x800 ≤ o && o < 0x1000 then
    some ((k.tile (BitVec.ofNat 5 ((o - 0x800) / 0x40))).data.extractLsb' (64 * (o % 0x40 / 8)) 64)
  else if 0x1000 ≤ o && o < 0x1140 then
    let n := 16 * ((o - 0x1000) / 0x40) + 2 * (o % 0x40 / 8)
    some (halves (smGet 0 k.net.routes (n + 1)) (smGet 0 k.net.routes n))
  else if o = 0x1140 then some k.net.routerStat
  else none

/-- A write of TILE_SHAPEk: each of ROWS and BPR keeps its value under a reserved encoding, and a slot whose size
would pass 64 bytes keeps its shape (R14, R311). -/
def writeShapes (k : Core) (n : Nat) (v : BitVec 64) : Core :=
  (List.range 8).foldl (fun (k : Core) m =>
    let i := BitVec.ofNat 5 (8 * n + m)
    let t := k.tile i
    let r := v.extractLsb' (8 * m + 3) 3
    let b := v.extractLsb' (8 * m) 3
    let r := if 4 < r then t.rows else r
    let b := if 4 < b then t.bpr else b
    if shapeOk r b then k.setTile i { t with rows := r, bpr := b } else k) k

/-- A write of TILE_POISONk (R314). -/
def writeMarks (k : Core) (n : Nat) (v : BitVec 64) : Core :=
  (List.range 8).foldl (fun (k : Core) m =>
    let i := BitVec.ofNat 5 (8 * n + m)
    k.setTile i { k.tile i with marks := v.extractLsb' (8 * m) 8 }) k

/-- A write of VX_VL in cycle `now` (R312). -/
def writeVl (k : Core) (now : Nat) (v : BitVec 64) : Core :=
  let n := getBits v 5 0
  if 32 < n then { k with vl := 32 }.addVxStatus now 2 else { k with vl := BitVec.ofNat 6 n }

/-- A write of AGU_n_CFG0 or AGU_n_CFG1: an ASET of every field it holds (R14, R129, R141); SRC is not checked (R127; log
entry 112). -/
def writeAgu (k : Core) (g : BitVec 3) (second : Bool) (v : BitVec 64) : Core :=
  let a := k.agu g
  let f := fun (i : Nat) => v.extractLsb' (16 * i) 16
  let vals : List (BitVec 3 × BitVec 16) :=
    if second then [(3, f 1), (5, f 2), (6, f 3)] else [(0, f 0), (1, f 1), (2, f 2), (4, f 3)]
  let a := vals.foldl (fun (a : Agu) x => (a.put x.1 x.2).1) a
  k.setAgu g (if second then a.setMode (v.extractLsb' 0 3) (v.extractLsb' 8 5) else a)

/-- A write of NET_SEND_n: the binding, and its credits from CINIT (R14, R358). -/
def writeSend (k : Core) (n : Nat) (v : BitVec 64) : Core :=
  let e := k.sendEnd n
  let c := v.extractLsb' 12 4
  let c := if c = 0 || 8 < c then e.cinit else c
  let t := v.extractLsb' 0 2
  k.setSendEnd n { e with cinit := c, credit := c, tw := v.extractLsb' 4 2, type := if t = 3 then e.type else t }

/-- A receive queue may be reconfigured (R337). -/
def rqFree (q : RQueue) : Bool :=
  if q.potluck then q.window.isEmpty && (List.range (q.expm1.toNat + 1)).all fun c => smGet 0 q.ptrs c = q.head
  else q.entries.isEmpty

/-- The queue after an accepted write of its NET_RQ_n; `mode` is its MODE, and `sets` says that the write itself
sets potluck mode (R337, R338). -/
def rqSet (q : RQueue) (v : BitVec 64) (mode sets : Bool) : RQueue :=
  let q := { q with
    tw := v.extractLsb' 16 2, expm1 := v.extractLsb' 8 5, rfmt := v.getLsbD 5, svcreply := v.getLsbD 4, potluck := mode }
  if sets then { q with head := 0, ptrs := [], window := [] } else q

/-- A write of NET_RQ_n in cycle `now` (R14, R337). -/
def writeRq (k : Core) (now n : Nat) (v : BitVec 64) : Core :=
  let q := k.rqueue n
  let m := getBits v 1 0
  let sets := m = 1 && 6 ≤ n
  let mode := if m = 0 then false else sets || q.potluck
  if rqFree q then k.setRqueue n (rqSet q v mode sets)
  else k.addRqStat now (BitVec.ofNat 64 (2 ^ 18))

/-- A route entry as it is stored for input `i`: a reserved TGT keeps the old one, rsvd is zero, and SE is zero but for
the local input (R14, R327). -/
def routeEntry (i : Nat) (old v : BitVec 32) : BitVec 32 :=
  let v := v &&& (if i = 4 then 0xFFFF8000#32 else 0xFFFE0000#32)
  if 8 < routeTgt v then (v &&& ~~~0x03C00000#32) ||| (old &&& 0x03C00000#32) else v

/-- An entry for input `i` in slot `sl` would give an output to a second input (R322). -/
def routeClash (k : Core) (i sl : Nat) (e : BitVec 32) : Bool :=
  routeValid e && (List.range 5).any fun j =>
    j != i && (List.range 5).any fun d => State.routeOut e d && State.routeOut (k.route j sl) d

/-- A write of one route entry in cycle `now` (R322). -/
def writeEntry (k : Core) (now i sl : Nat) (v : BitVec 32) : Core :=
  let e := routeEntry i (k.route i sl) v
  if k.routeClash i sl e then k.setRouterStat now 2
  else { k with net := { k.net with routes := smSet k.net.routes (16 * i + sl) e } }

/-- A write of ROUTE_i_k in cycle `now` (R322, R362). -/
def writeRoute (k : Core) (now i n : Nat) (v : BitVec 64) : Core :=
  (k.writeEntry now i (2 * n) (v.extractLsb' 0 32)).writeEntry now i (2 * n + 1) (v.extractLsb' 32 32)

/-- A write of MX_ACCn_w (R268). -/
def writeAcc (k : Core) (a : BitVec 3) (w : Nat) (v : BitVec 64) : Core :=
  { k with mx := (k.mx.setAccElem a (2 * w) (v.extractLsb' 0 32)).setAccElem a (2 * w + 1) (v.extractLsb' 32 32) }

/-- A write of MX_OCn_w (R269). -/
def writeOc (k : Core) (n : BitVec 2) (w : Nat) (v : BitVec 64) : Core :=
  let e := k.mx.ocEntry n
  { k with mx := k.mx.setOc n { e with data := putAt e.data (64 * w) 64 v.toNat } }

/-- A write of TILE_n_w (R315). -/
def writeTile (k : Core) (n : BitVec 5) (w : Nat) (v : BitVec 64) : Core :=
  let t := k.tile n
  k.setTile n { t with data := putAt t.data (64 * w) 64 v.toNat }

/-- A write of SPAD_MAINT (R387, R397). -/
def writeMaint (k : Core) (v : BitVec 64) : Core :=
  let k := k.setSpad { k.spad with scrubEn := v.getLsbD 0 }
  let k := if v.getLsbD 1 then k.clearTags else k
  if v.getLsbD 2 then k.clearLogs else k

/-- The event bits of the register at `o`, `bits` of it, that a write of `v` in cycle `now` clears: not those that hardware set
in that cycle (R11). -/
def clears (k : Core) (now o : Nat) (bits v : BitVec 64) : BitVec 64 := v &&& bits &&& ~~~k.fresh.at_ now o

/-- A write at offset `o` of a core's control block, in cycle `now`. -/
def writeAt (k : Core) (now o : Nat) (v : BitVec 64) : Option Core :=
  if o = 0x000 then some k
  else if o = 0x008 then some { k with en := v.getLsbD 0 }
  else if o = 0x010 then some { k with status := k.status &&& ~~~k.clears now o 0x1F v }
  else if o = 0x018 then some k
  else if o = 0x020 then some ((k.setMask 0 (v.extractLsb' 0 32)).setMask 1 (v.extractLsb' 32 32))
  else if o = 0x028 then some ((k.setMask 2 (v.extractLsb' 0 32)).setMask 3 (v.extractLsb' 32 32))
  else if o = 0x030 then some { k with flags := k.flags &&& ~~~k.clears now o 0x3F v }
  else if o = 0x038 then some { k with mx := { k.mx with status := k.mx.status &&& ~~~k.clears now o 7 v } }
  else if 0x040 ≤ o && o < 0x060 then some (k.writeShapes ((o - 0x040) / 8) v)
  else if o = 0x060 then some (k.writeVl now v)
  else if o = 0x068 then some { k with vxStatus := k.vxStatus &&& ~~~k.clears now o 7 v }
  else if 0x080 ≤ o && o < 0x0A0 then some (k.writeMarks ((o - 0x080) / 8) v)
  else if 0x100 ≤ o && o < 0x200 then
    let g := BitVec.ofNat 3 ((o - 0x100) / 0x20)
    if o % 0x20 < 8 then some (k.writeAgu g false v)
    else if o % 0x20 < 0x10 then some (k.writeAgu g true v)
    else if o % 0x20 < 0x18 then some k else none
  else if 0x200 ≤ o && o < 0x400 then some (k.writeAcc (BitVec.ofNat 3 ((o - 0x200) / 0x40)) (o % 0x40 / 8) v)
  else if 0x400 ≤ o && o < 0x500 then some (k.writeOc (BitVec.ofNat 2 ((o - 0x400) / 0x40)) (o % 0x40 / 8) v)
  else if 0x500 ≤ o && o < 0x520 then some (k.writeSend ((o - 0x500) / 8) v)
  else if 0x520 ≤ o && o < 0x560 then some (k.writeRq now ((o - 0x520) / 8) v)
  else if o = 0x560 then some { k with net := { k.net with rqStat := k.net.rqStat &&& ~~~k.clears now o 0x700FF v } }
  else if o = 0x568 then some k
  else if o = 0x600 then some k
  else if o = 0x608 then some (k.setSpad { k.spad with errLog := k.spad.errLog &&& ~~~k.clears now o 0x8000000000000000 v })
  else if o = 0x610 then some (k.setSpad { k.spad with chkStat := k.spad.chkStat &&& ~~~k.clears now o 0x3F v })
  else if o = 0x618 then some (k.setSpad { k.spad with chkLog := k.spad.chkLog &&& ~~~k.clears now o 0x8000000000000000 v })
  else if o = 0x620 then some k
  else if o = 0x628 then some (k.writeMaint v)
  else if o = 0x630 then some (k.writeInject now v)
  else if 0x700 ≤ o && o < 0x780 then some (k.writeTags ((o - 0x700) / 8) v)
  else if 0x800 ≤ o && o < 0x1000 then some (k.writeTile (BitVec.ofNat 5 ((o - 0x800) / 0x40)) (o % 0x40 / 8) v)
  else if 0x1000 ≤ o && o < 0x1140 then some (k.writeRoute now ((o - 0x1000) / 0x40) (o % 0x40 / 8) v)
  else if o = 0x1140 then
    some { k with net := { k.net with routerStat := k.net.routerStat &&& ~~~k.clears now o 7 v } }
  else none

/-- A service-mesh write in cycle `now` (R130, R132). A register that a word of the same cycle has changed keeps the word's
change; writes of the enable, the masks and the generators wait for the next cycle. -/
def svcWrite (k : Core) (c : CoreId) (now o : Nat) (v : BitVec 64) : Option Core :=
  let word := fun (o : Nat) => k.wordSet.1 = now && k.wordSet.2.contains o
  if word o then some k
  else if o = 0x008 || o = 0x020 || o = 0x028 || (0x100 ≤ o && o < 0x200) then
    (k.cfgDone.writeAt now o v).map fun t =>
      let g := BitVec.ofNat 3 ((o - 0x100) / 0x20)
      let old := k.cfgDone.agu g
      let t := if word (aguOffset g 2) then t.setAgu g { t.agu g with i := old.i, j := old.j, phase := old.phase } else t
      { k with cfgNext := some ⟨now, t.en, t.masks, t.agus⟩ }
  else if (0x040 ≤ o && o < 0x060) || (0x500 ≤ o && o < 0x520) || o = 0x010 || o = 0x030 || o = 0x038 || o = 0x068 then
    let xs := if k.svcOld.1 = now then k.svcOld.2 else []
    let xs := if xs.any fun e => e.1 = o then xs else (o, (k.readAt c o).getD 0) :: xs
    (k.writeAt now o v).map fun t => { t with svcOld := (now, xs) }
  else k.writeAt now o v

end Core

/-! ## Hamper control block -/

/-- SEQ_STATE (R209). -/
def Hamper.stateReg (k : Hamper) : BitVec 64 :=
  BitVec.ofNat 64 (2 ^ 19 * k.iq.length + 2 ^ 16 * k.loops.length + 2 ^ 13 * k.calls.length + 8 * k.cmdRefused.toNat + k.state.toNat)

/-- SEQ_IC_STAT (R217). -/
def Hamper.icStat (k : Hamper) : BitVec 64 :=
  BitVec.ofNat 64 (2 ^ 32 * k.icMisses.toNat + 2 ^ 24 * (k.icLines.filter (·.locked)).length + 2 * k.icFlags.toNat +
    k.preload.isSome.toNat)

/-- The register at offset `o` of a hamper's control block. -/
def Hamper.readAt (k : Hamper) (o : Nat) : Option (BitVec 64) :=
  if o = 0x000 then some 0
  else if o = 0x008 then some k.stateReg
  else if o = 0x010 then some (k.pc.zeroExtend 64)
  else if o = 0x018 then some k.fault
  else if o = 0x020 then some k.holdBase
  else if o = 0x028 then some k.holdPos
  else if o = 0x030 then some k.abortCfg
  else if o = 0x038 then some k.progBase
  else if 0x040 ≤ o && o < 0x080 then
    let n := 2 * ((o - 0x040) / 8)
    some (halves (smGet 0 k.scalars (n + 1)) (smGet 0 k.scalars n))
  else if 0x080 ≤ o && o < 0x090 then
    let n := 2 * ((o - 0x080) / 8)
    some (halves (smGet 0 k.lcs (n + 1)) (smGet 0 k.lcs n))
  else if o = 0x0A0 then some k.icCfg
  else if o = 0x0A8 then some k.icStat
  else if o = 0x0B0 then some k.auditAlm
  else if o = 0x0B8 then some k.auditTag
  else if o = 0x0C0 then some (BitVec.ofNat 64 (2 * k.paramReady.toNat + k.paramAct.toNat))
  else if o = 0x0D0 then some k.wd
  else if 0x400 ≤ o && o < 0x600 then
    let n := 64 * ((o - 0x400) / 0x100) + 2 * (o % 0x100 / 8)
    some (halves (smGet 0 k.params (n + 1)) (smGet 0 k.params n))
  else none

/-- A hamper offset that holds a register. -/
def hamperListed (o : Nat) : Bool := (Hamper.readAt {} o).isSome

namespace State

/-- What counts as set in grove cycle `now`; without a running Almanac no cycle passes, and nothing does (log entry 132). -/
def freshIn (s : State) (x : SetBits) (now o : Nat) : BitVec 64 := if s.flag ALM_STATUS.RUNNING then x.at_ now o else 0

/-- A write at offset `o` of a hamper's control block; `none` where there is no register. A W1C bit that hardware set in the
same cycle stays set (R11). -/
def hamperWrite (s : State) (h : HamperId) (o : Nat) (v : BitVec 64) : Option State :=
  let k := s.hamper h
  let w := v &&& ~~~s.freshIn k.fresh (s.cycle (groveOfHamper h)) o
  if o = 0x000 then some (s.seqCtrl h v)
  else if o = 0x008 then some (s.setHamper h { k with cmdRefused := k.cmdRefused && !w.getLsbD 3 })
  else if o = 0x018 then some (s.setHamper h { k with fault := k.fault &&& ~~~(w &&& 0xFF#64) })
  else if o = 0x0A0 then some (s.icWrite h v)
  else if o = 0x0A8 then some (s.setHamper h { k with icFlags := k.icFlags &&& ~~~(w.extractLsb' 1 2) })
  else if o = 0x0D0 then some (s.setHamper h { k with wd := k.wd &&& ~~~(w &&& 1#64) })
  else if !hamperListed o then none
  else some (s.seqReg h o v)

/-! ## Grove control block -/

/-- SAMP_STAT (R737). -/
def sampStat (p : Sampler) : BitVec 64 :=
  BitVec.ofNat 64 (2 ^ 48 * p.lost + 2 ^ 16 * packElems 1 ((List.range 16).map fun k => (p.recs.any fun e => e.1 = k).toNat))

/-- SAMP_CFG (R737). -/
def sampCfg (p : Sampler) : BitVec 64 := BitVec.ofNat 64 (2 ^ 32 * p.seed.toNat + 2 * p.mean + p.en.toNat)

end State

/-- The register at offset `o` of a grove's control block. -/
def Grove.readAt (k : Grove) (o : Nat) : Option (BitVec 64) :=
  if o = 0x000 then some k.leapCount
  else if o = 0x008 then some k.catchCount
  else if o = 0x010 then some k.ovr
  else if o = 0x018 then some k.ovrFirst
  else if o = 0x020 then some k.timeFlags
  else if o = 0x030 then some (BitVec.ofNat 64 k.libRefused.toNat)
  else if 0x1000 ≤ o && o < 0x1180 then k.pmc.read 16 (o - 0x1000)
  else if o = 0x1180 then some (State.sampCfg k.samp)
  else if o = 0x1188 then some (State.sampStat k.samp)
  else if 0x1200 ≤ o && o < 0x1400 then
    some (wordOf (smGet 0 k.samp.recs ((o - 0x1200) / 0x20)) (o % 0x20 / 8))
  else if 0x40000 ≤ o && o < 0x80000 then some (wordOf (smGet 0 k.lib ((o - 0x40000) / 32)) (o % 32 / 8))
  else none

/-- GROVE_OVR.CLEAR (R57). -/
def Grove.clearOvr (k : Grove) : Grove := { k with ovr := 0, ovrFirst := 0 }

namespace State

/-- A write at offset `o` of a grove's control block; `none` where there is no register. A W1C bit that hardware set in the
same cycle stays set (R11). -/
def groveWrite (s : State) (g : GroveId) (o : Nat) (v : BitVec 64) : Option State :=
  let k := s.grove g
  let w := v &&& ~~~s.freshIn k.fresh (s.cycle g) o
  if o = 0x010 then some (if v.getLsbD 0 then s.setGrove g k.clearOvr else s)
  else if o = 0x020 then some (s.setGrove g { k with timeFlags := k.timeFlags &&& ~~~(w &&& 1#64) })
  else if o = 0x030 then some (s.setGrove g { k with libRefused := k.libRefused && !w.getLsbD 0 })
  else if 0x1000 ≤ o && o < 0x1180 then
    if (k.pmc.read 16 (o - 0x1000)).isSome then some (s.pmcWrite (.grove g) (o - 0x1000) v) else none
  else if o = 0x1180 then some (s.setSamp g (k.samp.config v))
  else if o = 0x1188 then
    some (s.setSamp g { k.samp with recs := smDrop (fun n => n < 16 && v.getLsbD n) k.samp.recs })
  else if 0x40000 ≤ o && o < 0x80000 then some (s.libWrite g ((o - 0x40000) / 32) (o % 32 / 8) v)
  else if (k.readAt o).isSome then some s
  else none

end State

end Sys2Proof.Machine
end

