-- ==== Sys2Proof/Machine/Service.lean ====
section
/-! DEFINITION. The service mesh: windows, requests of cores, scratchpad accesses in idle port cycles, merges and
timeouts (R112, R132, R186, R353 to R356, R686, R778). -/

namespace Sys2Proof.Machine

/-- Where a service access goes (R354, R355): a core's space, a hamper's block, a grove's block, or nowhere. -/
inductive SvcPlace where
  | core (c : CoreId) (o : Nat)
  | hamper (h : HamperId) (o : Nat)
  | grove (g : GroveId) (o : Nat)
  | reserved
  deriving DecidableEq, Repr

namespace State

/-- The place a BAR0 offset in the windows of cores and of groves names (R354). -/
def svcWindow (s : State) (off : Nat) : SvcPlace :=
  if 0x1000000 ≤ off && off < 0x2000000 then
    let o := off - 0x1000000
    let g : GroveId := BitVec.ofNat 8 (s.fld SVC_SEL.CORE_GROVE)
    let h := hamperAt g (8 * s.fld SVC_SEL.CORE_HROW + o / 2 ^ 21)
    .core (laneCore h (o / 2 ^ 15 % 64)) (o % 2 ^ 15)
  else if 0x2000000 ≤ off && off < 0x3000000 then
    let o := off - 0x2000000
    let g : GroveId := BitVec.ofNat 8 (16 * s.fld SVC_SEL.GROVE_ROW + o / 2 ^ 20)
    let p := o % 2 ^ 20
    if p < 0x80000 then .grove g p
    else if p < 0xC0000 then .hamper (hamperAt g ((p - 0x80000) / 0x1000)) (p % 0x1000)
    else .reserved
  else .reserved

/-- The place that word 0 of a core's request names (R355). -/
def svcTarget (w : BitVec 64) : SvcPlace :=
  let c := coreAt (getBits w 29 20) (getBits w 39 30)
  let o := getBits w 19 0
  match getBits w 59 58 with
  | 0 => .core c o
  | 1 => .hamper (hamperOf c) o
  | 2 => .grove (groveOf c) o
  | _ => .reserved

/-- The grove that a place lies in. -/
def svcGrove (p : SvcPlace) : Option GroveId :=
  match p with
  | .core c _ => some (groveOf c)
  | .hamper h _ => some (groveOfHamper h)
  | .grove g _ => some g
  | .reserved => none

/-! ## Replies -/

/-- The queue that takes a core's service replies (R355): the lowest with SVCREPLY set. -/
def replyQueue (k : Core) : Option Nat := (List.range 8).find? fun n => (k.rqueue n).svcreply

/-- The answer to an access: data to the asker, poisoned where `bad` (R355, R356). -/
def svcReply (s : State) (who : SvcFrom) (write bad : Bool) (v : BitVec 64) (mark : Bool) : State :=
  match who with
  | .host w => if write then s else s.emit (.readData (bytesOf w.size (w.part (if bad then 0xFFFF_FFFF_FFFF_FFFF else v)).toNat) false)
  | .manager => s
  | .core c =>
    match replyQueue (s.core c) with
    | none => s
    | some n =>
      let e : RqEntry := { data := v, poison := bad || mark, due := s.cycle (groveOf c) }
      let r := (s.core c).recvWord n 0 e
      s.setCore c r.1

/-- A refused access (R356). -/
def svcRefuse (s : State) (who : SvcFrom) (write : Bool) : State :=
  (s.setFlag SVC_STATUS.REFUSED).svcReply who write true 0 false

/-! ## Scratchpad accesses (R112, R356, R378, R778) -/

/-- A port of a core is idle and without the scrub mark in the current port cycle, and no service access has used
it. -/
def svcPort (s : State) (c : CoreId) (write : Bool) : Bool :=
  let g := groveOf c
  let p := (s.core c).spad.portAt (s.cycle g)
  s.clockOn g && !p.scrub && !(if write then p.wrOwned else p.rdOwned)

/-- A service read of a row: it finds the row as it was before a write of the same port cycle, decodes and logs, and writes
nothing back (R111, R375, R378). -/
def svcReadRow (s : State) (c : CoreId) (row : BitVec 16) : State × Entry :=
  let g := groveOf c
  let k := s.core c
  let r := k.rowIn (s.cycle g) row
  let l := k.logEcc s.time.almanac (s.cycle g) agentSvc row r.decode
  let k := l.1.setSpad (l.1.spad.takePort (s.cycle g) false)
  ((s.setCore c k).spadEventIf g l.2, r.entry)

/-- The row and word that a scratchpad offset names. -/
def svcRow (o : Nat) : BitVec 16 × Nat := (rowOf ((o - 0x4000) / 32 : Nat), o / 8 % 4)

/-- An entry with one word replaced. -/
def withWord (e : Entry) (w : Nat) (v : BitVec 64) (mark : Bool) : Entry :=
  ⟨putAt e.data (64 * w) 64 v.toNat, putAt e.poison w 1 mark.toNat⟩

/-- One attempt at a waiting access: a read, the read of a merge, or nothing yet. The result is the access that still
waits, if any. -/
def svcTry (s : State) (a : SvcAccess) : State × Option SvcAccess :=
  let s := s.settleLane a.core
  if a.merge.isSome || !s.svcPort a.core false then (s, some a)
  else
    let x := svcRow a.offset.toNat
    let r := s.svcReadRow a.core x.1
    if a.write then (r.1, some { a with merge := some (s.cycle (groveOf a.core), r.2) })
    else (r.1.svcReply a.who false false (wordOf r.2.data x.2) (r.2.poison.getLsbD x.2), none)

/-- The write of a merge (R778): `none` of an access that is done; the access from its read on where the row was
written meanwhile. -/
def svcMerge (s : State) (a : SvcAccess) : State × Option SvcAccess :=
  let s := s.settleLane a.core
  match a.merge with
  | none => (s, some a)
  | some (at_, e) =>
    let g := groveOf a.core
    let now := s.cycle g
    let k := s.core a.core
    let x := svcRow a.offset.toNat
    let last := smGet 0 k.spad.writtenAt x.1.toNat
    if at_ < last && last ≤ now then (s, some { a with merge := none })
    else if now ≤ at_ || !s.svcPort a.core true then (s, some a)
    else
      let v := a.width.merge (wordOf e.data x.2) a.data
      let row := (k.spadRow x.1).store (withWord e x.2 v a.poison)
      let k := (k.setSpad (k.spad.takePort now true)).putRow now x.1 row
      ((s.setCore a.core k).svcReply a.who true false 0 false, none)

/-- Stores the waiting accesses. -/
def setSvc (s : State) (xs : List SvcAccess) : State := { s with plane := { s.plane with svc := xs } }

/-- Every waiting access is tried in the current port cycle: reads, and the reads and writes of merges. -/
def svcServe (s : State) : State :=
  let r := s.plane.svc.foldl (fun (a : State × List SvcAccess) x =>
    let y := if x.merge.isSome then a.1.svcMerge x else a.1.svcTry x
    (y.1, match y.2 with | none => a.2 | some z => a.2 ++ [z])) (s, [])
  r.1.setSvc r.2

/-- A scratchpad access starts: in the current port cycle, or it waits. -/
def svcScratch (s : State) (who : SvcFrom) (c : CoreId) (o : Nat) (w : Width) (write : Bool) (v : BitVec 64) (mark : Bool) : State :=
  let a : SvcAccess :=
    { who := who, core := c, width := w, offset := BitVec.ofNat 20 o, write := write, data := v, poison := mark
      started := s.cycle (groveOf c) }
  let r := s.svcTry a
  match r.2 with
  | none => r.1
  | some a => r.1.setSvc (r.1.plane.svc ++ [a])

/-! ## Accesses (R132, R186, R354 to R356) -/

/-- A register of a place. -/
def svcReadReg (s : State) (p : SvcPlace) : Option (BitVec 64) :=
  match p with
  | .core c o => (s.core c).cfgDone.readAt c o
  | .hamper h o => (s.hamper h).readAt o
  | .grove g o => (s.grove g).readAt o
  | .reserved => none

/-- A core with the record of the event bits set in the current cycle, which is empty without a running Almanac (R11; log entry
132). -/
def coreNow (s : State) (c : CoreId) : Core :=
  if s.flag ALM_STATUS.RUNNING then s.core c else { s.core c with fresh := (0, []) }

/-- A register write at a place; `none` where it is turned away (R132, R186). -/
def svcWriteReg (s : State) (p : SvcPlace) (v : BitVec 64) : Option State :=
  match p with
  | .core c o =>
    if (s.hamper (hamperOf c)).quiet then ((s.coreNow c).svcWrite c (s.cycle (groveOf c)) o v).map (s.setCore c) else none
  | .hamper h o => s.hamperWrite h o v
  | .grove g o => s.groveWrite g o v
  | .reserved => none

/-- A library-store write that R186 turns away is refused as well as recorded (R356). -/
def libTurned (s : State) (p : SvcPlace) : Bool :=
  match p with
  | .grove g o => 0x40000 ≤ o && o < 0x80000 && !s.allHampers g Hamper.quiet
  | _ => false

/-- A place in a core's scratchpad. -/
def svcSpad (p : SvcPlace) : Option (CoreId × Nat) :=
  match p with
  | .core c o => if 0x4000 ≤ o && o < 0x8000 then some (c, o) else none
  | _ => none

/-- The core whose block a place lies in is settled first. -/
def svcSettle (s : State) (p : SvcPlace) : State := match p with | .core c _ => s.settleLane c | _ => s

/-- A place with a register that acts on or clears under a 1 that is written, and cannot be read back as it was written. -/
def svcActs (p : SvcPlace) : Bool :=
  match p with
  | .core _ o =>
    o = 0x010 || o = 0x030 || o = 0x038 || o = 0x068 || o = 0x560 || o = 0x608 || o = 0x610 || o = 0x618 || o = 0x1140
  | .hamper _ o => o = 0x008 || o = 0x018 || o = 0x0A8 || o = 0x0D0
  | .grove _ o => o = 0x010 || o = 0x020 || o = 0x030 || o = 0x1188
  | .reserved => false

/-- What the half of a register that a 4-byte write leaves out counts as: what it reads as, so that it keeps its value, and 0
where a 1 would act (R6, R8, R10; DESIGN CHOICE, log entry 120). -/
def svcKept (s : State) (p : SvcPlace) : BitVec 64 :=
  if svcActs p then 0
  else
    let v := (s.svcReadReg p).getD 0
    match p with
    | .grove _ 0x1000 => v &&& 0x0000_0000_FFFF_FFFF#64
    | _ => v

/-- One service access, of a register or of one half of it. -/
def svcAccessW (s : State) (who : SvcFrom) (p : SvcPlace) (w : Width) (write : Bool) (v : BitVec 64) (mark : Bool) : State :=
  match svcGrove p with
  | none => s.svcRefuse who write
  | some g =>
    if s.gated g then s.svcRefuse who write
    else
      match svcSpad p with
      | some (c, o) => s.svcScratch who c o w write v mark
      | none =>
        let s := s.svcSettle p
        if write then
          match s.svcWriteReg p (w.merge (s.svcKept p) v) with
          | none => s.svcRefuse who true
          | some t => if s.libTurned p then t.svcRefuse who true else t.svcReply who true false 0 false
        else
          match s.svcReadReg p with
          | none => s.svcRefuse who false
          | some x => s.svcReply who false false x false

/-- One service access of 64 bits. -/
def svcAccess (s : State) (who : SvcFrom) (p : SvcPlace) (write : Bool) (v : BitVec 64) (mark : Bool) : State :=
  s.svcAccessW who p .full write v mark

/-- A service-mesh write of a core's control block. -/
def svcCoreWrite (s : State) (c : CoreId) (o : Nat) (v : BitVec 64) : State := s.svcAccess .manager (.core c o) true v false

/-- The accesses that wait in groves satisfying `p` are refused (R356, R666). -/
def svcDrop (s : State) (p : GroveId → Bool) : State :=
  let out := s.plane.svc.filter fun a => p (groveOf a.core)
  let s := s.setSvc (s.plane.svc.filter fun a => !p (groveOf a.core))
  out.foldl (fun s a => s.svcRefuse a.who a.write) s

end State

/-- The asker that an agent is. -/
def svcFrom (a : Agent) (w : Width) : SvcFrom := if a = .host then .host w else .manager

/-- An access to the core-plane windows of BAR0 (R354, R356); while READY is 0 the host reads zero and its writes are
discarded (R590). -/
def State.planeAccess (s : State) (agent : Agent) (off : Nat) (w : Width) (write : Bool) (v : BitVec 64) : State :=
  if agent = .host && !s.flag HIF_STATUS.READY then (if write then s else s.emit (.readData (bytesOf w.size 0) false))
  else s.svcAccessW (svcFrom agent w) (s.svcWindow off) w write v false

/-- SCRUB: the scrubber's use of the current port cycle of a core, once the operations that the cycle's word owns are carried
out (R376 to R378). -/
def execScrub (c : CoreId) (s : State) : Host.Outcome State Fault Refusal :=
  let g := groveOf c
  let cyc := s.cycle g
  let s := s.settleLane c
  let r := ((s.core c).scrubWrite cyc).scrubRead s.time.almanac cyc
  .next ((s.setCore c r.1).spadEventIf g r.2)

/-- SERVICE_REQUEST: the request tuple at the head of a core's send end is carried out (R355). -/
def execServiceRequest (c : CoreId) (n : BitVec 2) (s : State) : Host.Outcome State Fault Refusal :=
  let e := (s.core c).sendEnd n.toNat
  match e.buf with
  | [] => .next s
  | t :: rest =>
    if e.type ≠ 2 || s.cycle (groveOf c) ≤ t.ready then .next s
    else
      let s := s.setCore c ((s.core c).setSendEnd n.toNat { e with buf := rest })
      let w := (t.words[0]?).getD (0, false)
      let d := (t.words[1]?).getD (0, false)
      .next (s.svcAccess (.core c) (State.svcTarget w.1) (w.1.getLsbD 63) d.1 d.2)

/-- SERVICE_TIMEOUT: accesses that have waited SVC_CFG.TIMEOUT cycles are abandoned (R356). -/
def execServiceTimeout (s : State) : Host.Outcome State Fault Refusal :=
  let old := fun (a : SvcAccess) => decide (a.started + s.fld SVC_CFG.TIMEOUT ≤ s.cycle (groveOf a.core))
  match s.plane.svc.filter old with
  | [] => .next s
  | out =>
    let t := (s.setSvc (s.plane.svc.filter fun a => !old a)).setFlag SVC_STATUS.TIMEOUT
    .next (out.foldl (fun s a => s.svcReply a.who a.write true 0 false) t)

/-- SERVICE_MERGE_WRITE: a merge waiting in a core writes its row, or starts again from its read (R778). -/
def execServiceMergeWrite (c : CoreId) (s : State) : Host.Outcome State Fault Refusal :=
  match State.takeFirst (fun a : SvcAccess => a.core = c && a.merge.isSome) s.plane.svc with
  | none => .next s
  | some (a, rest) =>
    let r := (s.setSvc rest).svcMerge a
    match r.2 with
    | none => .next r.1
    | some a => .next (r.1.setSvc (a :: r.1.plane.svc))

/-! ## Writes of core registers that have a row of their own -/

/-- ROUTE_WRITE (R322). -/
def execRouteWrite (c : CoreId) (input k : BitVec 3) (v : BitVec 64) (s : State) : Host.Outcome State Fault Refusal :=
  if 4 < input.toNat then .next (s.svcRefuse .manager true)
  else .next (s.svcCoreWrite c (0x1000 + 0x40 * input.toNat + 8 * k.toNat) v)

/-- NET_RQ_WRITE (R337). -/
def execNetRqWrite (c : CoreId) (n : BitVec 3) (v : BitVec 64) (s : State) : Host.Outcome State Fault Refusal :=
  .next (s.svcCoreWrite c (0x520 + 8 * n.toNat) v)

/-- NET_SEND_WRITE (R358). -/
def execNetSendWrite (c : CoreId) (n : BitVec 2) (v : BitVec 64) (s : State) : Host.Outcome State Fault Refusal :=
  .next (s.svcCoreWrite c (0x500 + 8 * n.toNat) v)

/-- VX_VL_WRITE (R312). -/
def execVxVlWrite (c : CoreId) (v : BitVec 64) (s : State) : Host.Outcome State Fault Refusal :=
  .next (s.svcCoreWrite c 0x060 v)

/-- TILE_SHAPE_WRITE (R311). -/
def execTileShapeWrite (c : CoreId) (k : BitVec 2) (v : BitVec 64) (s : State) : Host.Outcome State Fault Refusal :=
  .next (s.svcCoreWrite c (0x040 + 8 * k.toNat) v)

/-- AGU_CFG_WRITE (R141). -/
def execAguCfgWrite (c : CoreId) (gen : BitVec 3) (second : Bool) (v : BitVec 64) (s : State) :
    Host.Outcome State Fault Refusal :=
  .next (s.svcCoreWrite c (0x100 + 0x20 * gen.toNat + 8 * second.toNat) v)

/-- CLEAR_LOGS (R397): a write of SPAD_MAINT that leaves SCRUB_EN as it is. -/
def execClearLogs (c : CoreId) (s : State) : Host.Outcome State Fault Refusal :=
  .next (s.svcCoreWrite c 0x628 (BitVec.ofNat 64 (4 + (s.core c).spad.scrubEn.toNat)))

/-- TAG_CLEAR (R387). -/
def execTagClear (c : CoreId) (s : State) : Host.Outcome State Fault Refusal :=
  .next (s.svcCoreWrite c 0x628 (BitVec.ofNat 64 (2 + (s.core c).spad.scrubEn.toNat)))

/-- SPAD_INJECT (R398). -/
def execSpadInject (c : CoreId) (v : BitVec 64) (s : State) : Host.Outcome State Fault Refusal :=
  .next (s.svcCoreWrite c 0x630 (v ||| 0x100#64))

/-- SPAD_TAG_WRITE (R399). -/
def execSpadTagWrite (c : CoreId) (k : BitVec 4) (v : BitVec 64) (s : State) : Host.Outcome State Fault Refusal :=
  .next (s.svcCoreWrite c (0x700 + 8 * k.toNat) v)

end Sys2Proof.Machine
end

