-- ==== Sys2Proof/Machine/Fatal.lean ====
section
/-! DEFINITION. Device-fatal faults (R657, R658, R663). -/

namespace Sys2Proof.Machine

/-- Every channel of the stream engines and of the host DMA engine. -/
def allUnits : List SeUnit :=
  ((List.finRange 20).flatMap fun n => (List.range 32).map fun c => SeUnit.se n (BitVec.ofNat 5 c)) ++
  (List.range 16).map fun c => SeUnit.hdma (BitVec.ofNat 4 c)

/-- Boot states (R621). -/
def bsReset : Nat := 0xA
def bsFatal : Nat := 0xE
def bsFailed : Nat := 0xF

namespace State

/-- A field at `off` with bits `hi` to 0 has been stored and is not zero. -/
def storedOn (s : State) (off hi : Nat) : Bool := s.bar0.any fun e => e.1 = off && getBits e.2 hi 0 ≠ 0

/-- The channels that are not disabled and satisfy `p`. -/
def liveUnits (s : State) (p : SeUnit → Bool) : List SeUnit := allUnits.filter fun u => p u && s.storedOn u.fState.off 1

/-- DISABLE of every channel that satisfies `p` (R444). -/
def disableUnits (s : State) (p : SeUnit → Bool) : State := (s.liveUnits p).foldl chDisable s

/-- TX_DISABLE and RX_DISABLE of every channel of a port (R577). -/
def disablePort (s : State) (p : Nat) : State :=
  (List.range 64).foldl (fun s c =>
    let s := if s.txState p c = txDisabled then s else s.txDisable p c
    if s.rxState p c = rxDisabled then s else s.rxDisable p c) s

/-- A port has a channel that is not disabled. -/
def portLive (s : State) (p : Nat) : Bool :=
  (List.range 64).any fun c =>
    s.bar0.any fun e => (e.1 = PSIUD_TX_STAT.off p c && getBits e.2 (PSIUD_TX_STAT.STATE p c).hi (PSIUD_TX_STAT.STATE p c).lo ≠ 0) ||
      (e.1 = PSIUD_RX_STAT.off p c && getBits e.2 (PSIUD_RX_STAT.STATE p c).hi (PSIUD_RX_STAT.STATE p c).lo ≠ 0)

/-- Every channel of the device is disabled. -/
def disableAll (s : State) : State :=
  let s := s.disableUnits fun _ => true
  ((List.range 16).filter s.portLive).foldl disablePort s

/-- FAILED: the core plane, the stream engines, the host DMA engine and the optical ports are idle, and stay so until a
device reset or a power cycle (R634; log entry 122). -/
def enterFailed (s : State) : State :=
  let s := s.disableAll
  let s := (List.range 16).foldl (fun s p => if s.portState p = psDown then s else s.down p) s
  { s with time := { s.time with failed := true } }.setFld BOOT_STATE.STATE bsFailed

/-- A device-fatal fault (R657): its entry, a force-stop of every schedule, every channel disabled, READY cleared, and
STATE FATAL, or FAILED during a device reset (R663) or where the device is in FAILED already (R634). -/
def deviceFatal (s : State) (src index code detail : Nat) : State :=
  let s := (s.faultEntry classDevice src index code detail).abortRequest s.time.almanac true
  let s := s.disableAll.setFld HIF_STATUS.READY 0
  if s.fld BOOT_STATE.STATE = bsReset || s.fld BOOT_STATE.STATE = bsFailed then s.enterFailed
  else s.setFld BOOT_STATE.STATE bsFatal

end State

/-- HBM_STACK_LOST (R658). -/
def execHbmStackLost (n : StackId) (s : State) : Host.Outcome State Fault Refusal := .next (s.deviceFatal 7 n.val 0x0043 n.val)

/-- MP_FAULT (R658). -/
def execMpFault (addr : BitVec 64) (s : State) : Host.Outcome State Fault Refusal := .next (s.deviceFatal 9 0 0x0042 addr.toNat)

end Sys2Proof.Machine
end

