-- ==== Sys2Proof/Machine/Level.lean ====
section
/-! DEFINITION. Voltage and frequency levels, the level sequencer, the level's contributors and trips
(R68 to R74, R689 to R701). -/

namespace Sys2Proof.Machine

/-! ## Levels (R68, R689) -/

/-- Twenty-fourths of a level's period in a tick: the level's frequency in units of 700/24 MHz. -/
def levelStep (l : Nat) : Nat :=
  match l with
  | 0 => 24
  | 1 => 21
  | 2 => 18
  | 3 => 15
  | 4 => 12
  | 5 => 10
  | 6 => 8
  | _ => 6

/-- The scale field of a level: ceil(65,536 × 700 / f). -/
def levelScale (l : Nat) : Nat := (65536 * 24 + levelStep l - 1) / levelStep l

/-- PWR_LEVEL.STATE (R711). -/
def lvIdle : Nat := 0
def lvStopped : Nat := 1
def lvSlower : Nat := 2
def lvFaster : Nat := 3

/-- Ticks from the latch of a target to the stop (R692). -/
def stopLag : Nat := 2

/-- Bits of LG_EVENT (R714). -/
def leAlert : Nat := 0
def leThermal : Nat := 1
def lePower : Nat := 2
def leOver : Nat := 3
def leLeap : Nat := 4
def leNeighbour : Nat := 5
def leSensor : Nat := 6
def leTimeout : Nat := 7

namespace State

def setPower (s : State) (p : Power) : State := { s with power := p }

/-- Sets an LG_EVENT bit; a newly set one signals (R700). -/
def lgEvent (s : State) (b : Nat) : State :=
  let f : Fld := ⟨LG_EVENT.off, b, b⟩
  if s.flag f then s else (s.setFlag f).irqEvt 3

/-! ## Pod scales (R69, R72, R73) -/

/-- The scales as ALM_SCALE reports them (R69, R73, R74). -/
def settleScale (s : State) : State :=
  let pod := s.time.podScales.foldl (fun m e => max m e.2.toNat) 0x10000
  let s := s.setFld ALM_SCALE.POD pod
  s.setFld ALM_SCALE.EFFECTIVE (max pod (s.fld ALM_SCALE.OWN))

/-- The device's scale and a deferral go once to every pod peer (R72, R567 to R569). -/
def sendScale (s : State) (deferral : Nat) : State :=
  let arg := BitVec.ofNat 64 (s.fld ALM_SCALE.OWN + 2 ^ 20 * (deferral % 2 ^ 32))
  s.pod.links.foldl (fun s p => s.sendLink p stScale arg []) s

/-! ## The level sequencer (R692 to R696) -/

/-- The code on VSEL; a change drops VR_READY (R691) and starts the 50 µs of R696. -/
def setVsel (s : State) (v : Nat) : State :=
  if s.fld PWR_LEVEL.VSEL = v then s
  else
    let s := (s.setFld PWR_LEVEL.VSEL v).setFld PWR_LEVEL.VR_READY 0
    s.setPower { s.power with vselAt := s.time.ticks, readySample := false, vselWait := true }

/-- The level in force. -/
def level (s : State) : Nat := s.fld PWR_LEVEL.LEVEL

/-- A move to a slower level begins: the target is latched and the groves are to stop (R692). -/
def moveSlower (s : State) (t : Nat) : State :=
  s.setPower { s.power with target := t, queued := none, stopDue := some (s.time.ticks + stopLag) }

/-- A move to a faster level begins, or goes on with a new target (R693, R695). -/
def moveFaster (s : State) (t : Nat) : State :=
  let s := s.setPower { s.power with target := t, queued := none, stopDue := none }
  (s.setVsel t).setFld PWR_LEVEL.STATE lvFaster

/-- A request for level `t` (R695). One for the level in force takes back a stop that has been latched and not begun, and VSEL
carries that level's code. -/
def levelRequest (s : State) (t : Nat) : State :=
  let p := s.power
  let f := s.level
  let st := s.fld PWR_LEVEL.STATE
  if s.flag LG_STATUS.TRIPPED || s.time.rootGated then s
  else if st = lvStopped then s.setPower { p with want := some t }
  else if st = lvFaster then
    if p.stopDue.isSome then s.setPower { p with want := some t }
    else if t = p.target then s
    else if t < f then s.moveFaster t
    else
      let s := (s.setFld PWR_LEVEL.STATE lvIdle).setPower { p with target := f }
      if t = f then s.setVsel f else s.moveSlower t
  else
    let waits : Bool := st = lvSlower
    if t = f then (s.setPower { p with target := f, queued := none, stopDue := none }).setVsel f
    else if f < t then (if p.stopDue.isSome then s.setPower { p with target := t } else s.moveSlower t)
    else if waits then s.setPower { p with target := f, queued := some t, stopDue := none }
    else s.moveFaster t

/-- The groves stop on the current edge where the sequencer is to stop them (R692 to R694). -/
def stopIfDue (s : State) : State :=
  match s.power.stopDue with
  | none => s
  | some t =>
    if s.time.ticks < t then s
    else
      let s := (s.setFld PWR_LEVEL.STATE lvStopped).setPower { s.power with stopDue := none, stopAt := s.time.ticks }
      { s with time := { s.time with stopped := true } }

/-- Period after period of the level's clock ends in the groves: a record under way takes what a cycle that ends holds (R727),
the cycles count (R722), and a new one begins on this edge. -/
def beginPeriod (s : State) : State :=
  let p := s.time.periods
  let late := s.waitedFor.filter fun g => !s.gated (BitVec.ofNat 8 g) && !(s.grove (BitVec.ofNat 8 g)).inFirst p
  let s := late.foldl (fun s g => s.patchLate g (s.cycleEnd (BitVec.ofNat 8 g))) s
  let gs := (s.plane.groves.map fun e => BitVec.ofNat 8 e.1).filter fun g =>
    (s.grove g).pmc.runs && !s.gated g && !(s.grove g).inFirst p
  let s := gs.foldl (fun s g => s.countCycle g ((s.grove g).inSecond p)) s
  { s with time := { s.time with periods := p + 1, periodAlm := s.time.almanac } }

/-- The hold deferral (R71). -/
def defer (s : State) (d : Nat) : State :=
  let v := BitVec.ofNat 64 d
  s.mapHampers fun h =>
    { h with holdBase := h.holdBase + v, hold := h.hold.map fun w => { w with target := w.target + v } }

/-- The groves restart at the move's target (R71, R72, R692 to R695). -/
def restart (s : State) : State :=
  let p := s.power
  let f := s.level
  let m := p.target
  let d := s.time.ticks - p.stopAt
  let s := (s.setFld PWR_LEVEL.LEVEL m).setFld PWR_LEVEL.LAST_STOP d
  let s := { s with time := { s.time with stopped := false, phase := 0 } }
  let s := (s.beginPeriod.defer d).setFld ALM_SCALE.OWN (levelScale m)
  let s := s.settleScale.sendScale d
  let s :=
    if f < m then (s.setVsel m).setFld PWR_LEVEL.STATE lvSlower
    else s.setFld PWR_LEVEL.STATE lvIdle
  match p.want with
  | none => s
  | some t => (s.setPower { s.power with want := none }).levelRequest t

/-- VR_READY is accepted as high (R693, R695): a slower move is over, also where the stop of the next has been latched. -/
def vrReady (s : State) : State :=
  let s := (s.setFld PWR_LEVEL.VR_READY 1).setPower { s.power with vselWait := false }
  let p := s.power
  let st := s.fld PWR_LEVEL.STATE
  if s.time.rootGated then s
  else if st = lvFaster then (if p.stopDue.isSome then s else s.setPower { p with stopDue := some (s.time.ticks + stopLag) })
  else if st = lvSlower then
    let s := s.setFld PWR_LEVEL.STATE lvIdle
    if p.stopDue.isSome then s
    else
    match p.queued with
    | none => s
    | some t => (s.setPower { p with queued := none }).levelRequest t
  else s

/-- VR_READY has not risen 50 µs after a change of VSEL (R696). A faster move ends at the old level's code, and no faster
request is made until the event has been cleared; in any other state VSEL keeps its code. With the root gated no move
is left. -/
def vrTimeout (s : State) : State :=
  let p := s.power
  if !p.vselWait || s.flag PWR_LEVEL.VR_READY || s.time.ticks < p.vselAt + 35000 || s.time.rootGated then s
  else
    let off := s.fld PWR_LEVEL.STATE = lvFaster || (p.fasterOff && s.flag LG_EVENT.VR_TIMEOUT)
    let t := (s.lgEvent leTimeout).setPower { p with vselWait := false, fasterOff := off }
    if s.fld PWR_LEVEL.STATE = lvFaster then
      let t := (t.setVsel s.level).setFld PWR_LEVEL.STATE lvIdle
      t.setPower { t.power with target := s.level }
    else t

/-! ## Contributors (R698, R700) -/

/-- A contributor rises by `k` and its event is noted. -/
def raise (s : State) (f : Fld) (k ev : Nat) : State := (s.setFld f (min 7 (s.fld f + k))).lgEvent ev

/-- The neighbour contributor rises: a leap-budget excess (R43) or a limit of R697 (R698). -/
def raiseNeighbour (s : State) (ev : Nat) : State :=
  let s := (s.raise LG_STATUS.NEIGHBOUR 1 ev).setFlag ALM_STATUS.LEAP_BUDGET
  s.setPower { s.power with neighbourAt := s.time.ticks }

/-- The level that R700 decides. -/
def decided (s : State) : Nat :=
  [s.fld LG_CEIL.CEILING, s.fld LG_CEIL.REQ, s.fld LG_STATUS.THERMAL, s.fld LG_STATUS.POWER, s.fld LG_STATUS.ALERT,
   s.fld LG_STATUS.NEIGHBOUR].foldl max 0

/-- The level that the sequencer is at or on its way to. -/
def levelGoal (s : State) : Nat :=
  if s.fld PWR_LEVEL.STATE = lvFaster || s.power.stopDue.isSome || s.fld PWR_LEVEL.STATE = lvStopped then s.power.target else s.level

/-! ## Trips (R701) -/

/-- The lifeguard trips. -/
def trip (s : State) (cause : Nat) : State :=
  if s.flag LG_STATUS.TRIPPED then s
  else
    let s := (s.setFlag LG_STATUS.TRIPPED).setVsel 7
    let s := s.setFld PWR_LEVEL.STATE lvIdle
    let s := s.setPower { s.power with thermTrip := true, stopDue := none, want := none, queued := none }
    let s := { s with time := { s.time with rootGated := true } }
    s.deviceFatal 8 0 0x0040 cause

end State

/-- LEVEL_DECISION (R696, R700). -/
def execLevelDecision (s : State) : Host.Outcome State Fault Refusal :=
  let t := s.decided
  let s := s.setFld LG_STATUS.LEVEL t
  if s.power.fasterOff && s.flag LG_EVENT.VR_TIMEOUT && t < s.levelGoal then .next s else .next (s.levelRequest t)

/-- VR_READY (R693, R695, R702). -/
def execVrReady (s : State) : Host.Outcome State Fault Refusal := .next s.vrReady

/-- GROVE_RESTART (R71, R692 to R694). -/
def execGroveRestart (s : State) : Host.Outcome State Fault Refusal :=
  if s.fld PWR_LEVEL.STATE = lvStopped && !s.time.rootGated then .next s.restart else .next s

/-- VR_TIMEOUT (R696). -/
def execVrTimeout (s : State) : Host.Outcome State Fault Refusal := .next s.vrTimeout

end Sys2Proof.Machine
end

