-- ==== Sys2Proof/Machine/Almanac.lean ====
section
/-! DEFINITION. The Almanac: ticks, leaps, releases and catch-up holds of groves, loss of the reference, pod time,
departure counts and scales (R32 to R93, R567, R571). -/

namespace Sys2Proof.Machine

namespace State

/-! ## Ticks (R32, R34 to R36, R75) -/

/-- The Almanac counts. -/
def running (s : State) : Bool := s.flag ALM_STATUS.RUNNING

/-- The device is a follower of its pod (R39). -/
def follows (s : State) : Bool := s.fld ALM_SYNC.ROLE = 2

/-- A follower slews while its offset is more than a quarter of a tick (R75). -/
def slewing (s : State) : Bool := s.follows && 4 < s.time.slewLeft.natAbs

/-- The device is aligned to its pod, or is one that others align to (R39, R78). Before the Almanac's first start the field
holds its reset value, and a follower whose Almanac holds is not aligned (log entry 110). -/
def locked (s : State) : Bool :=
  s.time.started && (!s.follows || (s.running && s.time.measured && s.time.slewLeft.natAbs ≤ 16))

/-- One edge of the reference: the Almanac's increment is 1, or 0 or 2 once in a window of a device that slews (R75). It is the
first one of the window that finds an offset left, and windows count from the Almanac's start (DESIGN CHOICE, log entry 72). -/
def Time.tick (t : Time) (slews : Bool) : Time :=
  let act := slews && !t.slewUsed
  let d : BitVec 64 := if act then (if 0 < t.slewLeft then 0 else 2) else 1
  let ends : Bool := t.slewWin = 1023
  { t with
    almanac := t.almanac + d, ticks := t.ticks + 1
    slewLeft := if act then (if 0 < t.slewLeft then t.slewLeft - 16 else t.slewLeft + 16) else t.slewLeft
    slewWin := if ends then 0 else t.slewWin + 1
    slewUsed := !ends && (t.slewUsed || act) }

/-- The level's clock moves on by one tick (R32, R689). -/
def clockTick (s : State) : State :=
  if s.time.stopped || s.time.rootGated then s
  else
    let n := s.time.phase + levelStep s.level
    if n < 24 then { s with time := { s.time with phase := n } }
    else ({ s with time := { s.time with phase := n - 24 } }).beginPeriod

/-- The status of every channel whose status point lies far enough back. -/
def statusTick (s : State) : State := s.se.chans.foldl (fun s e => s.statusDue (unitOf (e.1 / 32) (e.1 % 32))) s

/-- One edge of the reference. -/
def tick (s : State) : State :=
  let s := { s with setNow := [] }
  if !s.running then s
  else
    let s := s.countTick
    let s := { s with time := Time.tick s.time s.slewing }
    s.stopIfDue.clockTick.statusTick.svcServe

/-! ## Leaps (R41 to R43, R688) -/

/-- Leaps of a grove in the `n` cycles that end with cycle `c`. -/
def leapsWithin (ls : List (Nat × Nat)) (n c : Nat) : Nat := (ls.filter fun l => c < l.2 + n).length

/-- The grove with a leap as its next cycle. -/
def Grove.leapNext (g : Grove) (p : Nat) : Grove :=
  let c := g.cycle p + 1
  let first := if g.inFirst p then p + 2 else p + 1
  if g.leaps.any fun l => l.1 = first then g
  else
    let old := g.leaps.filter fun l => l.2 + 1024 ≤ c
    { g with
      leaps := (first, c) :: g.leaps.filter fun l => c < l.2 + 1024
      lostLeaps := g.lostLeaps + old.length, leapCount := g.leapCount + 1 }

/-- A leap is the grove's next cycle; an excess over the budget is flagged and reported (R42, R43). -/
def leap (s : State) (g : GroveId) : State :=
  if !s.clockOn g then s
  else
    let p := s.periodOf g
    let k := State.Grove.leapNext (s.grove g) p
    let c := (s.grove g).cycle p + 1
    let excess := k.leapCount ≠ (s.grove g).leapCount && (2 < leapsWithin k.leaps 64 c || 16 < leapsWithin k.leaps 1024 c)
    let s := s.setGrove g (if excess then { k with timeFlags := k.timeFlags ||| 1 }.noteSet (s.cycle g) 0x020 1 else k)
    if excess then s.raiseNeighbour leLeap else s

/-! ## Releases and catch-up holds (R51, R63 to R67) -/

/-- The holds at which the running hampers of a grove wait; none where one does not wait. -/
def groveHolds (s : State) (g : GroveId) : Option (List HoldWait) :=
  let hs := (groveHampers g).filter fun h => (s.hamper h).runs
  let ws := hs.filterMap fun h => (s.hamper h).hold
  if ws.length = hs.length then some ws else none

/-- The grove may release in its current cycle. -/
def releaseDue (s : State) (g : GroveId) : Bool :=
  s.clockOn g && !s.catching g && !(s.grove g).inSecond s.time.periods &&
  match s.groveHolds g with
  | none => false
  | some [] => false
  | some ws => ws.all fun w => decide (w.at_ < s.cycle g) && decide (w.target ≤ s.time.periodAlm)

/-- The grove releases: its schedule cycle count and frame restart with this cycle. -/
def release (s : State) (g : GroveId) : State :=
  let k := s.grove g
  let s := s.setGrove g { k with
    relCycle := s.cycle g, allCatches := k.allCatches + k.catches, catches := 0, interval := k.interval + 1 }
  (groveHampers g).foldl (fun s h =>
    let x := s.hamper h
    if x.hold.isSome then
      s.setHamper h { x with hold := none, state := if x.state = stHolding then stRunning else x.state }
    else s) s

/-- No hamper of the grove has tried a word in the current cycle. -/
def idleCycle (s : State) (g : GroveId) : Bool := s.allHampers g fun h => h.lastIssue ≤ s.cycle g

/-- A catch-up hold ends every run of refused cycles in its grove (R350). -/
def endRuns (s : State) (g : GroveId) : State :=
  (groveHampers g).foldl (fun s h =>
    let x := s.hamper h
    if x.refused = 0 && !x.wdFired then s else s.setHamper h { x with refused := 0, wdFired := false }) s

/-- The grove's current cycle is a catch-up hold. -/
def catchUp (s : State) (g : GroveId) : State :=
  let k := s.grove g
  (s.endRuns g).setGrove g { k with lastCatch := s.cycle g + 1, catches := k.catches + 1, catchCount := k.catchCount + 1 }

/-! ## Pod time (R75 to R78, R571) -/

/-- A schedule is armed or running on the device (R76). -/
def scheduled (s : State) : Bool := s.fld ALM_DEPART_CTRL.STATE = 1 || s.anyHamper fun h => h.runs || h.state = stArmed

/-- An exchange gives a follower its offset from the head, in 1/16 ticks; an odd sum's half goes either way
(R571). -/
def timeOffset (s : State) (m : TimeMsg) : Int :=
  ((m.t1 - m.t2) + (m.t4 - m.t3)).toInt + (s.freeNat 1 : Nat)

/-- The follower takes an offset: it steps or slews (R75, R76). -/
def takeOffset (s : State) (off : Int) : State :=
  let s := s.setFld ALM_OFFSET.OFFSET (lowBits 32 off)
  let s := { s with time := { s.time with measured := true } }
  if 1024 < off.natAbs && !s.scheduled then
    let k := (off + 8) / 16
    let s := { s with
      time := { s.time with almanac := s.time.almanac - BitVec.ofInt 64 k, slewLeft := off - 16 * k, stepAt := some s.time.ticks }
      reader := { s.reader with stepped := true } }
    s.setFlag ALM_STATUS.STEPPED
  else { s with time := { s.time with slewLeft := off } }

/-! ## Departure (R82 to R89) -/

/-- ALM_DEPART_CTRL.STATE changes, with its event (R608). -/
def setDepart (s : State) (st : Nat) : State :=
  if s.fld ALM_DEPART_CTRL.STATE = st then s else (s.setFld ALM_DEPART_CTRL.STATE st).irqEvt 2

/-- The device is the head of its pod. -/
def isHead (s : State) : Bool := s.fld ALM_SYNC.ROLE = 1

/-- A device of the pod has missed or refused: on the head (R85); a bit set is an event of its own (R608). -/
def departFailed (s : State) (dev : Nat) : State :=
  let s := (s.setFlag ⟨HIF_POD_REFUSED.off, dev, dev⟩).irqEvt 2 |>.setDepart 4
  s.stepFatal 2 0 0x0005 (s.fld HIF_POD_REFUSED.DEV)

/-- A state of missed or refused is reported (R83, R85). -/
def reportDepart (s : State) (st : Nat) : State :=
  match s.fld ALM_SYNC.ROLE with
  | 1 => s.departFailed s.pod.dev
  | 2 => s.sendTo s.pod.head stDepartState (BitVec.ofNat 64 st) []
  | _ => s

/-- Loaded hampers that are idle, stopped or done move to armed, and armed ones back to idle (R173, R774). -/
def armHampers (s : State) : State :=
  (s.mapHampers fun h => if h.loaded && h.quiet then { clearFront h with state := stArmed } else h).noteRef

def disarmHampers (s : State) : State :=
  s.mapHampers fun h => if h.state = stArmed then { h with state := stIdle } else h

/-- An accepted count waits, or no longer waits, to be reached. -/
def setLaunch (s : State) (b : Bool) : State := { s with plane := { s.plane with launch := b } }

/-- A count arrives (R83). -/
def acceptDepart (s : State) (count : BitVec 64) : State :=
  if !s.locked then ((s.setLaunch false).setDepart 4).reportDepart 4
  else if count.toNat < s.time.almanac.toNat + 64 then ((s.setLaunch false).setDepart 3).reportDepart 3
  else (s.armHampers.setLaunch true).setDepart 1

/-- The departure takes place (R82). -/
def depart (s : State) : State :=
  let count := s.reg ALM_DEPART.off
  let gs := (List.range 256).map (BitVec.ofNat 8)
  let s := s.refDepart count
  let armed := gs.filter fun g => (groveHampers g).any fun h => (s.hamper h).state = stArmed
  let s := if s.anyHamper fun h => h.state = stArmed then armed.foldl beginGrove s else s
  let s := s.mapHampers fun h =>
    if h.state = stArmed then
      { h with
        state := stRunning, holdBase := count, holdPos := 0, acted := false, podSeen := s.time.podDefer
        departAt := some (s.time.periods, decide (count ≤ s.time.periodAlm)) }
    else h
  ({ s with plane := { s.plane with departTick := some s.time.ticks } }.setLaunch false).setDepart 2

/-- An armed count has been reached. -/
def departDue (s : State) : Bool := s.departArmed && decide (s.reg ALM_DEPART.off ≤ s.time.almanac)

/-- An armed count is disarmed (R88, R89). -/
def disarm (s : State) : State :=
  if !s.departArmed then s
  else if s.departDue then s.depart
  else (s.disarmHampers.setLaunch false).setDepart 0

/-- The departure has taken place on the current tick. -/
def departedNow (s : State) : Bool := s.running && s.plane.departTick = some s.time.ticks

/-- CANCEL; on the head every peer hears of it, but where the count has been reached and the departure takes place, or has
taken place on this tick (R88, R89). -/
def cancelDepart (s : State) : State :=
  let t := s.disarm
  if s.isHead && !s.departDue && !s.departedNow then t.sendAll stDepart 0 [] else t

/-- A refused write of ALM_DEPART or ARM (R89). -/
def armRefused (s : State) : State := s.setFlag ALM_DEPART_CTRL.ARM_REFUSED

/-- ARM (R83, R89). -/
def armDepart (s : State) : State :=
  if s.fld ALM_DEPART_CTRL.STATE = 1 then s.armRefused
  else
    let count := s.reg ALM_DEPART.off
    let s := if s.isHead then s.sendAll stDepart count [] else s
    s.acceptDepart count

/-- A write of ALM_DEPART_CTRL: CANCEL acts before ARM (R87, R89). -/
def departCtrl (s : State) (v : BitVec 64) : State :=
  let s := if v.getLsbD 3 && !(s.setInTick ALM_DEPART_CTRL.off).getLsbD 3 then s.setFld ALM_DEPART_CTRL.ARM_REFUSED 0 else s
  let s := if v.getLsbD 5 then s.cancelDepart else s
  if v.getLsbD 4 then s.armDepart else s

/-- A write of ALM_DEPART (R89). A head in state refused that still launches (R85) launches at the value then written (log
entry 111). -/
def departWrite (s : State) (v : BitVec 64) : State :=
  if s.fld ALM_DEPART_CTRL.STATE = 1 then s.armRefused else s.setReg ALM_DEPART.off v

/-- A DEPART message from the head (R83, R89). -/
def departMsg (s : State) (count : BitVec 64) : State :=
  if count = 0 then s.disarm
  else if s.fld ALM_DEPART_CTRL.STATE = 1 then s.armRefused.reportDepart 4
  else (s.setReg ALM_DEPART.off count).acceptDepart count

/-- A DEPART_STATE report reaches the head (R85). -/
def departStateMsg (s : State) (dev st : Nat) : State :=
  if s.isHead && (st = 3 || st = 4) then s.departFailed dev else s

/-- A SCALE message (R72, R73): the peer's scale, and a deferral that HOLD_BASE takes at its next hold. -/
def scaleMsg (s : State) (dev : Nat) (own : BitVec 20) (deferral : BitVec 32) : State :=
  let t := s.time
  ({ s with time := { t with podScales := smSet t.podScales dev own, podDefer := t.podDefer + deferral.zeroExtend 64 } }).settleScale

/-- Ticks between two TIME_REQ of a follower. -/
def timePeriod : Nat := 65536

/-- A follower's TIME_REQ, where one is due (R571). -/
def timeReqDue (s : State) : State :=
  if s.fld ALM_SYNC.ROLE ≠ 2 || s.time.ticks < s.time.reqAt then s
  else
    let t := { s with time := { s.time with reqAt := s.time.ticks + timePeriod } }
    t.sendLink (s.fld ALM_SYNC.UPSTREAM) stTimeReq 0 []

/-- The answer to a TIME_REQ (R571). -/
def timeReqMsg (s : State) (m : TimeMsg) : State :=
  let off : BitVec 64 := if s.isHead then 0 else BitVec.ofInt 64 (BitVec.ofNat 32 (s.fld ALM_OFFSET.OFFSET)).toInt
  let p := m.port.toNat
  s.sendOnPort p
    { type := BitVec.ofNat 8 stTimeResp, src := BitVec.ofNat 8 s.pod.dev
      dst := BitVec.ofNat 8 (s.fld (PSIUD_STAT.PEER_DEV p)), arg := m.t2, payload := bytesOf 8 0 ++ bytesOf 8 off.toNat }

/-- A TIME_RESP reaches a follower (R571). -/
def timeRespMsg (s : State) (m : TimeMsg) : State :=
  if s.fld ALM_SYNC.ROLE ≠ 2 then s
  else s.tookFree.takeOffset (s.timeOffset m / 2 + m.off.toInt)

/-! ## The reference (R35) -/

/-- The Almanac holds. -/
def refLost (s : State) : State := (s.setFlag ALM_STATUS.REF_LOST).setFld ALM_STATUS.RUNNING 0

end State

/-- ALMANAC_TICK (R32 to R36, R75, R692, R722). -/
def execAlmanacTick (s : State) : Host.Outcome State Fault Refusal := .next s.tick

/-- LEAP (R41 to R43, R688). -/
def execLeap (g : GroveId) (s : State) : Host.Outcome State Fault Refusal := .next (s.leap g)

/-- GROVE_RELEASE (R51). -/
def execGroveRelease (g : GroveId) (s : State) : Host.Outcome State Fault Refusal :=
  if s.releaseDue g then .next (s.release g) else .next s

/-- ABORT_AT_HOLD_TIMEOUT: a hamper that waited at a hold when the Almanac reached A + 64, because its grove cannot release,
acts there; one that came to its hold later does not, and one whose grove can release does so (R51, R197). -/
def execAbortAtHoldTimeout (h : HamperId) (s : State) : Host.Outcome State Fault Refusal :=
  match s.plane.abort, (s.hamper h).hold with
  | some r, some w =>
    if (s.hamper h).owes && w.alm.toNat < r.at_.toNat + 64 && r.at_.toNat + 64 ≤ s.time.almanac.toNat &&
        !s.releaseDue (groveOfHamper h) then .next (s.abortAct h r.force)
    else .next s
  | _, _ => .next s

/-- CATCH_UP_HOLD (R65). -/
def execCatchUpHold (g : GroveId) (s : State) : Host.Outcome State Fault Refusal :=
  if s.clockOn g && s.catchUpDue g && !s.catching g && !s.releaseDue g && s.idleCycle g then .next (s.catchUp g) else .next s

/-- GROVE_OVR_CLEAR (R57). -/
def execGroveOvrClear (g : GroveId) (s : State) : Host.Outcome State Fault Refusal :=
  .next (s.svcAccess .manager (.grove g 0x10) true 1 false)

/-- SCALE (R72, R73). -/
def execScale (dev : BitVec 6) (own : BitVec 20) (deferral : BitVec 32) (s : State) : Host.Outcome State Fault Refusal :=
  .next (s.scaleMsg dev.toNat own deferral)

/-- ALM_DEPART_WRITE (R89). -/
def execAlmDepartWrite (v : BitVec 64) (s : State) : Host.Outcome State Fault Refusal := .next (s.departWrite v)

/-- ARM (R83, R89): one write may set CANCEL as well. -/
def execArm (cancel : Bool) (s : State) : Host.Outcome State Fault Refusal :=
  .next (if cancel then s.cancelDepart.armDepart else s.armDepart)

/-- DEPART_CANCEL (R88, R89). -/
def execDepartCancel (s : State) : Host.Outcome State Fault Refusal := .next s.cancelDepart

/-- DEPARTURE (R82). -/
def execDeparture (s : State) : Host.Outcome State Fault Refusal := if s.departDue then .next s.depart else .next s

/-- DEPART (R83, R89). -/
def execDepart (count : BitVec 64) (s : State) : Host.Outcome State Fault Refusal := .next (s.departMsg count)

/-- DEPART_STATE (R85). -/
def execDepartState (dev : BitVec 6) (st : BitVec 3) (s : State) : Host.Outcome State Fault Refusal :=
  .next (s.departStateMsg dev.toNat st.toNat)

/-- TIME_REQ: a follower's own, or a received one that is answered (R571). -/
def execTimeReq (m : Option TimeMsg) (s : State) : Host.Outcome State Fault Refusal :=
  match m with
  | none => .next s.timeReqDue
  | some m => .next (s.timeReqMsg m)

/-- TIME_RESP (R571). -/
def execTimeResp (m : TimeMsg) (s : State) : Host.Outcome State Fault Refusal := .next (s.timeRespMsg m)

/-- The crystal and the reference loop run, or no longer do, as CLK_SRC reports (R708). -/
def State.setRef (s : State) (up : Bool) : State := (s.setFld CLK_SRC.XTAL_OK up.toNat).setFld CLK_SRC.REF_LOCK up.toNat

/-- REFERENCE_LOST (R35, R708). -/
def execReferenceLost (s : State) : Host.Outcome State Fault Refusal := .next (s.refLost.setRef false)

/-- REFERENCE_RETURN (R35): an Almanac that has started goes on from its held value; one that has not yet started stays at
0 until XTAL_STABLE, and its crystal is not yet judged stable (R34, R708; log entry 110). -/
def execReferenceReturn (s : State) : Host.Outcome State Fault Refusal :=
  if s.flag ALM_STATUS.REF_LOST then
    .next (((s.setFld ALM_STATUS.REF_LOST 0).setFld ALM_STATUS.RUNNING s.time.started.toNat).setRef s.time.started)
  else .next s

end Sys2Proof.Machine
end

