-- ==== Sys2Proof/Machine/Lifeguard.lean ====
section
/-! DEFINITION. Clock failure, clock gates, the lifeguard's inputs and contributors, and its mailboxes
(R681 to R687, R697 to R719). -/

namespace Sys2Proof.Machine

/-! ## Filters (R702) -/

/-- The median of the last three valid samples. -/
def median3 (xs : List Int) : Option Int :=
  match xs with
  | [a, b, c] => some (max (min a b) (min (max a b) c))
  | _ => none

/-- The sum of the last `n` valid samples. -/
def lastSum (n : Nat) (xs : List Int) : Option Int := if (xs.take n).length = n then some (xs.take n).sum else none

/-- A sensor after a valid sample; its filter reads at most `n` samples. -/
def Sensor.good (k : Sensor) (n : Nat) (v : Int) : Sensor := { last := (v :: k.last).take n, missed := 0, bad := false }

/-- A sensor after a missed sample; `n` of them in a row are a timeout. -/
def Sensor.miss (k : Sensor) (n : Nat) : Sensor := { k with missed := k.missed + 1, bad := k.bad || n ≤ k.missed + 1 }

namespace State

/-! ## Temperatures (R697, R698, R700 to R702, R719) -/

/-- A threshold in 1/16 °C. -/
def limitOf (s : State) (f : Fld) : Int := 16 * (s.fld f : Int)

/-- The filtered reading of a sensor that has not timed out. -/
def temp (s : State) (n : Nat) : Option Int :=
  let k := smGet {} s.power.temps n
  if k.bad then none else median3 k.last

/-- The hottest valid grove of a field. -/
def hottestOf (s : State) (f : Nat) : Option Int :=
  (s.power.temps.filterMap fun e =>
    if e.1 < 256 && fieldOfGrove (BitVec.ofNat 8 e.1) = f then s.temp e.1 else none).max?

/-- The reading that the lifeguard uses: the filtered one, or its replacement after a timeout. -/
def reading (s : State) (n : Nat) : Option Int :=
  if (smGet {} s.power.temps n).bad then
    if n < 256 then (s.hottestOf (fieldOfGrove (BitVec.ofNat 8 n))).map (· + 160)
    else some (s.limitOf (if n < 261 then LG_TRIP.THROTTLE_C else LG_TRIP.HBM_C))
  else s.temp n

/-- The sensors that have a reading. -/
def readings (s : State) : List (Nat × Int) := s.power.temps.filterMap fun e => (s.reading e.1).map fun t => (e.1, t)

/-- The throttle threshold of a sensor. -/
def threshold (s : State) (n : Nat) : Int := s.limitOf (if n < 261 then LG_TRIP.THROTTLE_C else LG_TRIP.HBM_C)

/-- A sensor fault (R714, R718). -/
def sensorFault (s : State) (n : Nat) : State :=
  let first : Bool := s.fld LG_SENSOR_FAULT.COUNT = 0
  let s := if first then s.setFld LG_SENSOR_FAULT.FIRST n else s
  (s.incSat LG_SENSOR_FAULT.COUNT 1).lgEvent leSensor

/-- LG_TEMP_MAX holds the hottest filtered reading and its sensor. -/
def settleMax (s : State) : State :=
  let best := s.power.temps.foldl (fun (b : Option (Nat × Int)) e =>
    match s.temp e.1, b with
    | some t, some x => if x.2 < t then some (e.1, t) else b
    | some t, none => some (e.1, t)
    | none, _ => b) none
  match best with
  | none => s
  | some x => (s.setFld LG_TEMP_MAX.SENSOR x.1).setFld LG_TEMP_MAX.TEMP (lowBits 16 x.2)

/-- Groves of a field whose sensor has timed out. -/
def badGroves (s : State) (f : Nat) : Nat :=
  (s.power.temps.filter fun e => e.1 < 256 && e.2.bad && fieldOfGrove (BitVec.ofNat 8 e.1) = f).length

/-- A reading is at its threshold, above it or less than HYST_C below it. -/
def warm (s : State) : Bool := s.readings.any fun r => s.threshold r.1 - s.limitOf LG_TRIP.HYST_C < r.2

/-- Notes the current tick where a reading keeps the thermal contributor up (R700). -/
def noteWarm (s : State) : State := if s.warm then s.setPower { s.power with thermalAt := s.time.ticks } else s

/-- What follows from a temperature sample: the hottest reading, the time of the latest warm reading, and trips. -/
def settleTemps (s : State) : State :=
  let s := s.settleMax.noteWarm
  let rs := s.readings
  if rs.any fun r => r.1 < 261 && s.limitOf LG_TRIP.TRIP_C ≤ r.2 then s.trip 1
  else if (List.range 4).any fun f => 8 < s.badGroves f then s.trip 4
  else s

/-- A CALIBRATE in progress holds a sensor's filtered reading (R705). -/
def calHolds (s : State) (n : Nat) : Bool :=
  s.power.jobs.any fun e => e.2.code = 4 && !e.2.deferred &&
    (if getBits (e.2.arg.zeroExtend 64) 1 0 = 0 then decide (n < 256) else 256 ≤ n && n < 261)

/-- The calibration of a sensor (R719). -/
def calOf (s : State) (n : Nat) : Int := if n < 261 then signedOf 16 (s.fld (LG_CAL.OFFSET n)) else 0

/-- A limit of R697 that a sample brings to be exceeded raises the neighbour contributor in that sample (R698; log entry
121). -/
def edgeApart (s t : State) (p : State → Bool) : State := if p t && !p s then t.raiseNeighbour leNeighbour else t

/-- Two groves that share a crossing differ by more than 25 °C (R697). -/
def tempsApart (s : State) : Bool :=
  let rs := s.readings
  rs.any fun a => a.1 < 256 && [1, 2].any fun d =>
    match neighbour (BitVec.ofNat 8 a.1) d with
    | none => false
    | some b => rs.any fun x => x.1 = b.toNat && 400 < (x.2 - a.2).natAbs

/-- A temperature sample. -/
def sampleTemp (s : State) (n : Nat) (v : Option Int) : State :=
  if 280 < n || s.calHolds n then s
  else
    let old := s
    let s := s.noteWarm
    let k := smGet {} s.power.temps n
    let miss := fun (s : State) =>
      let k' := k.miss (if n < 261 then 3 else 8)
      let s := s.setPower { s.power with temps := smSet s.power.temps n k' }
      if k'.bad && !k.bad then s.sensorFault n else s
    let s :=
      match v.map (· + s.calOf n) with
      | none => miss s
      | some t =>
        if (if n < 261 then -640 ≤ t && t ≤ 2400 else 0 ≤ t && t ≤ 2000) then
          s.setPower { s.power with temps := smSet s.power.temps n (k.good 3 t) }
        else (miss s).sensorFault n
    edgeApart old s.settleTemps tempsApart

/-- The evaluation of the thermal contributor (R698, R700). -/
def thermalEval (s : State) : State :=
  let hot := s.readings.any fun r => s.threshold r.1 ≤ r.2
  let s := if hot then (s.raise LG_STATUS.THERMAL 1 leThermal).noteWarm else s
  if s.tempsApart then s.raiseNeighbour leNeighbour else s

/-! ## Power (R697, R700, R702) -/

def volt (s : State) (f : Nat) : Sensor := smGet {} s.power.volts f
def amp (s : State) (f : Nat) : Sensor := smGet {} s.power.amps f

/-- The filtered core-plane power in 1/64 µW: the sum over the fields of the sum of 4 voltages times the sum of 16
currents. -/
def power64 (s : State) : Option Int :=
  (List.range 4).foldl (fun (acc : Option Int) f =>
    match acc, lastSum 4 (s.volt f).last, lastSum 16 (s.amp f).last with
    | some a, some v, some i => some (a + v * i)
    | _, _, _ => none) (some 0)

/-- POWER_W in 1/64 µW. -/
def powerLimit (s : State) : Int := 64000000 * (s.fld LG_LIMITS.POWER_W : Int)

/-- Some field's current exceeds OCP_A. -/
def overCurrent (s : State) : Bool :=
  (List.range 4).any fun f =>
    match (s.amp f).last with
    | i :: _ => 1000 * (s.fld LG_LIMITS.OCP_A : Int) < i
    | [] => false

/-- The power contributor goes to at least 4 at once on an over-current. -/
def overEval (s : State) : State :=
  if !s.overCurrent then s
  else if s.fld LG_STATUS.POWER < 4 then ((s.setFld LG_STATUS.POWER 4).lgEvent lePower).lgEvent leOver
  else s.lgEvent leOver

/-- The power is 0.9 × POWER_W or more, or a current exceeds OCP_A. -/
def powerHigh (s : State) : Bool :=
  (match s.power64 with | some p => decide (9 * s.powerLimit ≤ 10 * p) | none => false) || s.overCurrent

/-- Notes the current tick where the power or a current keeps the power contributor up (R700). -/
def noteHigh (s : State) : State := if s.powerHigh then s.setPower { s.power with powerAt := s.time.ticks } else s

/-- What follows from a rail sample. -/
def settlePower (s : State) : State := s.noteHigh.overEval

/-- Two rails differ by more than 25 mV (R697): their sums over 4 samples by more than 100 mV. -/
def railsApart (s : State) : Bool :=
  (List.range 4).any fun a => (List.range 4).any fun b =>
    match lastSum 4 (s.volt a).last, lastSum 4 (s.volt b).last with
    | some x, some y => 100 < x - y
    | _, _ => false

/-- A sample of a rail's voltage in mV. -/
def sampleVolt (s : State) (f : Nat) (v : Option Int) : State :=
  let s := s.noteHigh
  let store := fun (s : State) (k : Sensor) => s.setPower { s.power with volts := smSet s.power.volts f k }
  match v with
  | none =>
    let k := (s.volt f).miss 10
    if k.bad then (store s k).trip 2 else store s k
  | some x =>
    if 400 ≤ x && x ≤ 850 then edgeApart s (store s ((s.volt f).good 4 x)).settlePower railsApart
    else (store s ((s.volt f).miss 10)).trip 2

/-- A sample of a rail's current in mA; one outside its range is a missed one. -/
def sampleAmp (s : State) (f : Nat) (v : Option Int) : State :=
  let s := s.noteHigh
  let store := fun (s : State) (k : Sensor) => s.setPower { s.power with amps := smSet s.power.amps f k }
  match v.filter fun x => decide (0 ≤ x) && decide (x ≤ 1000000) with
  | some x => (store s ((s.amp f).good 16 x)).settlePower
  | none =>
    let k := (s.amp f).miss 10
    if k.bad then (store s k).trip 2 else store s k

/-- The evaluation of the power contributor (R698, R700). -/
def powerEval (s : State) : State :=
  let exceeds := match s.power64 with | some p => decide (s.powerLimit < p) | none => false
  let s := if exceeds then s.raise LG_STATUS.POWER 1 lePower else s
  let s := s.noteHigh.overEval
  if s.railsApart then s.raiseNeighbour leNeighbour else s

/-! ## The alert input (R700, R702) -/

/-- PWR_ALERT_N is accepted as asserted. -/
def alertOn (s : State) : State :=
  if s.flag LG_STATUS.ALERT_PIN then s
  else (((s.setFlag LG_STATUS.ALERT_PIN).setFld LG_STATUS.ALERT (s.fld LG_LIMITS.ALERT_LEVEL)).lgEvent leAlert)

/-- PWR_ALERT_N is accepted as deasserted. -/
def alertOff (s : State) : State :=
  if s.flag LG_STATUS.ALERT_PIN then
    (s.setFld LG_STATUS.ALERT_PIN 0).setPower { s.power with alertAt := s.time.ticks }
  else s

/-- While PWR_ALERT_N is asserted the alert contributor stands at ALERT_LEVEL; a rise sets its event (R700). -/
def alertFollows (s : State) : State :=
  let n := s.fld LG_LIMITS.ALERT_LEVEL
  if s.fld LG_STATUS.ALERT < n then (s.setFld LG_STATUS.ALERT n).lgEvent leAlert else s.setFld LG_STATUS.ALERT n

/-- A sample of PWR_ALERT_N; two equal ones are accepted. -/
def sampleAlert (s : State) (on : Bool) : State :=
  let t := s.setPower { s.power with alertSample := on }
  if on != s.power.alertSample then t else if on then t.alertOn else t.alertOff

/-- A sample of VR_READY; two equal ones are accepted. -/
def sampleReady (s : State) (on : Bool) : State :=
  let t := s.setPower { s.power with readySample := on }
  if on != s.power.readySample then t
  else if !on then t.setFld PWR_LEVEL.VR_READY 0
  else if t.flag PWR_LEVEL.VR_READY then t else t.vrReady

/-! ## Decay (R700) -/

/-- 100 µs. -/
def decayTicks : Nat := 70000

/-- A contributor falls after 100 µs without its condition. -/
def decay (s : State) (k : Contributor) : State :=
  let now := s.time.ticks
  let s := s.noteWarm.noteHigh
  let p := s.power
  match k with
  | .thermal =>
    if p.thermalAt + decayTicks ≤ now && s.flag LG_STATUS.THERMAL then
      (s.setFld LG_STATUS.THERMAL (s.fld LG_STATUS.THERMAL - 1)).setPower { p with thermalAt := now }
    else s
  | .power =>
    if p.powerAt + decayTicks ≤ now && s.flag LG_STATUS.POWER then
      (s.setFld LG_STATUS.POWER (s.fld LG_STATUS.POWER - 1)).setPower { p with powerAt := now }
    else s
  | .alert =>
    if p.alertAt + decayTicks ≤ now && !s.flag LG_STATUS.ALERT_PIN then s.setFld LG_STATUS.ALERT 0 else s
  | .neighbour =>
    if p.neighbourAt + decayTicks ≤ now && s.flag LG_STATUS.NEIGHBOUR then
      (s.setFld LG_STATUS.NEIGHBOUR (s.fld LG_STATUS.NEIGHBOUR - 1)).setPower { p with neighbourAt := now }
    else s

/-! ## Mailboxes (R703 to R707) -/

/-- Mailbox 0 is the host's, 1 the management processor's. -/
def mbReg (s : State) (k off : Nat) : BitVec 64 :=
  if k = 0 then s.reg off
  else if off = LG_MBOX_CMD.off then s.power.mpCmd else if off = LG_MBOX_DATA.off then s.power.mpData else s.power.mpStat

def setMbReg (s : State) (k off : Nat) (v : BitVec 64) : State :=
  if k = 0 then s.setReg off v
  else
    s.setPower (if off = LG_MBOX_CMD.off then { s.power with mpCmd := v }
      else if off = LG_MBOX_DATA.off then { s.power with mpData := v } else { s.power with mpStat := v })

def mbFld (s : State) (k : Nat) (f : Fld) : Nat := getBits (s.mbReg k f.off) f.hi f.lo
def setMbFld (s : State) (k : Nat) (f : Fld) (n : Nat) : State := s.setMbReg k f.off (putBits (s.mbReg k f.off) f.hi f.lo n)

def rsDone : Nat := 0
def rsRange : Nat := 1
def rsBusy : Nat := 2
def rsFail : Nat := 3

/-- A request ends with a result. -/
def mbEnd (s : State) (k r : Nat) : State :=
  let s := s.setPower { s.power with jobs := smDrop (fun j => j = k) s.power.jobs }
  ((s.setMbFld k LG_MBOX_STAT.BUSY 0).setMbFld k LG_MBOX_STAT.DEFERRED 0).setMbFld k LG_MBOX_STAT.RESULT r

/-- Every field of a value for the RWS register at a mirror offset lies within its range; `none` where no RWS
register stands there (R714 to R719). -/
def rwsOk (off : Nat) (v : BitVec 64) : Option Bool :=
  let b := fun hi lo => getBits v hi lo
  let within := fun lo n hi => decide (lo ≤ n) && decide (n ≤ hi)
  if off = 0x008 then some true
  else if off = 0x010 then some (within 1 (b 34 32) 7 && within 300 (b 25 16) 650 && within 200 (b 10 0) 1450)
  else if off = 0x018 then
    some (within 70 (b 31 24) 100 && within 1 (b 23 16) 20 && within 85 (b 15 8) 105 && within 60 (b 7 0) (b 15 8 - 5))
  else if off = 0x020 then some true
  else if 0x800 ≤ off && off ≤ 0x800 + 8 * 260 && off % 8 = 0 then
    some (decide (-8192 ≤ signedOf 16 v.toNat) && decide (signedOf 16 v.toNat ≤ 8191))
  else none

/-- WRITE_REG; false where it is refused. What held under the old limits has held until now, and what holds under the new ones
holds from now on (R700). -/
def lgWriteReg (s : State) (off : Nat) (v : BitVec 64) : Bool × State :=
  match rwsOk off v with
  | some true =>
    let o := 0xD00000 + off
    let new := (s.regWrite .lifeguard o v).reg o
    let fresh := off = 0x008 && new &&& ~~~(s.reg o) ≠ 0
    let t := (s.noteWarm.noteHigh.setReg o new).noteWarm.noteHigh
    let t := if fresh then t.irqEvt 3 else t
    (true, if off = 0x010 && t.flag LG_STATUS.ALERT_PIN then t.alertFollows else t)
  | _ => (false, s)

/-- Work is in progress (R706). -/
def working (s : State) : Bool := s.anyHamper fun h => !h.quiet

/-- The function that a RUN_BIST tests is running (R707). -/
def bistBusy (s : State) (arg : BitVec 32) : Bool :=
  let i := (arg.extractLsb' 0 8).toNat
  match (arg.extractLsb' 8 8).toNat with
  | 0 => !s.allHampers (BitVec.ofNat 8 i) Hamper.quiet
  | 1 => !(s.liveUnits fun u => u.eng = i).isEmpty
  | _ => !(s.liveUnits SeUnit.isHdma).isEmpty

/-- Ticks that a request takes (R705). -/
def jobTicks (code : Nat) (arg : BitVec 32) : Nat :=
  if code = 4 then 7000 else if (arg.extractLsb' 8 8).toNat = 0 then 8400000 else 700000

/-- A request that takes time starts, or is refused as busy (R705, R707). -/
def jobStart (s : State) (k : Nat) (j : LgJob) : State :=
  if j.code = 5 && s.bistBusy j.arg then s.mbEnd k rsBusy
  else
    let j := { j with deferred := false, doneAt := s.time.ticks + jobTicks j.code j.arg }
    (s.setPower { s.power with jobs := smSet s.power.jobs k j }).setMbFld k LG_MBOX_STAT.DEFERRED 0

/-- A request that takes time is posted: it runs at once, or waits while work is in progress (R706). -/
def jobPost (s : State) (k code : Nat) (arg : BitVec 32) : State :=
  let s := s.setMbFld k LG_MBOX_STAT.BUSY 1
  let j : LgJob := { code := code, arg := arg, deferred := true }
  if s.working then
    (s.setPower { s.power with jobs := smSet s.power.jobs k j }).setMbFld k LG_MBOX_STAT.DEFERRED 1
  else s.jobStart k j

/-- Declares a quiet window beside those that are not over (R705, R706). -/
def declareQuiet (s : State) (start : BitVec 64) (len : Nat) : State :=
  let open_ := s.power.quiet.filter fun w => decide (s.time.almanac.toNat < w.1.toNat + w.2)
  s.setPower { s.power with quiet := open_ ++ [(start, len)] }

/-- What a request that takes no time does, with its RESULT; none where the code is another one (R705). -/
def lgNow (s : State) (code : Nat) (arg : BitVec 32) (data : BitVec 64) : Option (Nat × State) :=
  match code with
  | 1 =>
    let r := s.lgWriteReg arg.toNat data
    some (if r.1 then rsDone else rsRange, r.2)
  | 2 => some (rsDone, s.setReg LG_EVENT.off (s.reg LG_EVENT.off &&& ~~~data))
  | 3 => some (rsDone, s.setFld LG_CEIL.REQ (getBits data 2 0))
  | 6 => some (rsDone, s.declareQuiet data arg.toNat)
  | _ => none

/-- A posted request is carried out (R705); CODE holds any code that is written, a reserved one too, and such a request is
refused (log entry 119). -/
def lgRequest (s : State) (k code : Nat) (arg : BitVec 32) (data : BitVec 64) : State :=
  match s.lgNow code arg data with
  | some r => r.2.mbEnd k r.1
  | none =>
  match code with
  | 4 => if getBits (arg.zeroExtend 64) 1 0 < 2 then s.jobPost k 4 arg else s.mbEnd k rsRange
  | 5 =>
    let unit := (arg.extractLsb' 8 8).toNat
    if 2 < unit || (unit = 1 && 20 ≤ (arg.extractLsb' 0 8).toNat) then s.mbEnd k rsRange else s.jobPost k 5 arg
  | _ => s.mbEnd k rsRange

/-- A GO of the host's mailbox is kept for its tick, in which the management processor's may still come (R704). -/
def noteGo (s : State) (code : Nat) (arg : BitVec 32) (data : BitVec 64) : State :=
  let now := s.time.ticks
  s.setPower { s.power with hostGo := (s.power.hostGo.filter fun g => g.tick = now) ++ [⟨now, code, arg, data⟩] }

/-- What the host's GOs of the current tick do, after the management processor's request of that tick (R704). Without a
running Almanac no tick begins, and none is the same. -/
def hostAgain (s : State) : State :=
  if !s.flag ALM_STATUS.RUNNING then s
  else (s.power.hostGo.filter fun g => g.tick = s.time.ticks).foldl (fun s g => ((s.lgNow g.code g.arg g.data).getD (0, s)).2) s

/-- GO (R704). -/
def mbGo (s : State) (k : Nat) : State :=
  if s.mbFld k LG_MBOX_STAT.BUSY = 1 then s.setMbFld k LG_MBOX_STAT.REFUSED 1
  else
    let code := s.mbFld k LG_MBOX_CMD.CODE
    let arg := BitVec.ofNat 32 (s.mbFld k LG_MBOX_CMD.ARG)
    let data := s.mbReg k LG_MBOX_DATA.off
    let t := s.lgRequest k code arg data
    if k = 0 then t.noteGo code arg data else t.hostAgain

/-- A request written to a mailbox and posted. -/
def mbPost (s : State) (mp : Bool) (code : Nat) (arg : BitVec 32) (data : BitVec 64) : State :=
  let k := mp.toNat
  ((s.setMbReg k LG_MBOX_CMD.off (BitVec.ofNat 64 (code + 2 ^ 8 * arg.toNat))).setMbReg k LG_MBOX_DATA.off data).mbGo k

/-- The current Almanac value lies in a declared quiet window (R706). -/
def inQuiet (s : State) : Bool :=
  s.power.quiet.any fun w => decide (w.1 ≤ s.time.almanac) && decide (s.time.almanac.toNat < w.1.toNat + w.2)

/-- CALIBRATE ends: the group's calibration takes free values (R705). -/
def calibrated (s : State) (group : Nat) : State :=
  let ns := if group = 0 then List.range 256 else (List.range 5).map (· + 256)
  let t := ns.foldl (fun t n =>
    t.setFld (LG_CAL.OFFSET n) (lowBits 16 (signedOf 14 (Config.freeBits (s.free + n)).toNat))) s
  { t with free := s.free + 261 }

/-- A grove test leaves scratchpad data zero and every fill tag EMPTY (R705). -/
def spadZero (s : State) (g : GroveId) : State :=
  let zero := fun (e : Nat × Core) =>
    if groveOf (BitVec.ofNat 20 e.1) = g then (e.1, { e.2 with spad := { e.2.spad with rows := [] } }) else e
  { s with plane := { s.plane with cores := s.plane.cores.map zero } }

/-- A timed request ends (R705). -/
def jobEnds (s : State) (k : Nat) (j : LgJob) (pass : Bool) : State :=
  if j.code = 4 then (s.calibrated (getBits (j.arg.zeroExtend 64) 1 0)).mbEnd k rsDone
  else
    let s := if (j.arg.extractLsb' 8 8).toNat = 0 then s.spadZero (j.arg.extractLsb' 0 8) else s
    s.mbEnd k (if pass then rsDone else rsFail)

/-- The request of a mailbox that takes time. -/
def lgJob (s : State) (k : Nat) : Option LgJob := (s.power.jobs.find? fun e => e.1 = k).map (·.2)

/-! ## Clock gates (R685, R686, R709, R710) -/

def gateChildOn : Nat := 1
def gateParentOff : Nat := 2
def gateInUse : Nat := 3

/-- Fields that a write of CLK_GATE_FIELD may not turn off, with the reason. -/
def fieldRefusals (s : State) (v : BitVec 64) : List (Nat × Nat) :=
  (List.range 4).filterMap fun f =>
    let on := fun (g : Nat) => (s.reg (CLK_GATE_GROVE.off (g / 64))).getLsbD (g % 64)
    if (s.reg CLK_GATE_FIELD.off).getLsbD f && !v.getLsbD f &&
        (List.range 256).any (fun g => fieldOfGrove (BitVec.ofNat 8 g) = f && on g) then some (f, gateChildOn)
    else none

/-- Groves that a write of CLK_GATE_GROVEk may not change, with the reason. -/
def groveRefusals (s : State) (k : Nat) (v : BitVec 64) : List (Nat × Nat) :=
  (List.range 64).filterMap fun b =>
    let g : GroveId := BitVec.ofNat 8 (64 * k + b)
    let was := (s.reg (CLK_GATE_GROVE.off k)).getLsbD b
    if !was && v.getLsbD b && !(s.reg CLK_GATE_FIELD.off).getLsbD (fieldOfGrove g) then some (64 * k + b, gateParentOff)
    else if was && !v.getLsbD b && !s.allHampers g Hamper.quiet then some (64 * k + b, gateInUse)
    else none

/-- A grove's gate changes: while it is off the grove keeps its period (R686). -/
def setGate (s : State) (g : GroveId) (on : Bool) : State :=
  let k := s.grove g
  let p := s.time.periods
  if on then s.setGrove g { k with lost := k.lost + (p - k.gatedAt) }
  else (s.setGrove g { k with gatedAt := p }).svcDrop fun x => x = g

/-- A write of CLK_GATE_FIELD (`k` none) or CLK_GATE_GROVEk. -/
def gateWrite (s : State) (k : Option Nat) (v : BitVec 64) : State :=
  let bad := match k with | none => s.fieldRefusals v | some k => s.groveRefusals k v
  match bad with
  | (i, r) :: _ => ((s.setFlag CLK_GATE_STAT.REFUSED).setFld CLK_GATE_STAT.REASON r).setFld CLK_GATE_STAT.INDEX i
  | [] =>
    match k with
    | none => s.setReg CLK_GATE_FIELD.off (BitVec.ofNat 64 (getBits v 3 0))
    | some k =>
      let was := s.reg (CLK_GATE_GROVE.off k)
      let s := (List.range 64).foldl (fun s b =>
        if was.getLsbD b = v.getLsbD b then s else s.setGate (BitVec.ofNat 8 (64 * k + b)) (v.getLsbD b)) s
      s.setReg (CLK_GATE_GROVE.off k) v

/-! ## Clock failure (R681 to R684) -/

/-- DETAIL of CLOCK_LOST (R682). -/
def sourceCode (c : ClockSource) : Nat :=
  match c with
  | .crystal => 1
  | .refLoop => 2
  | .iosc => 3
  | .grove g => 0x100 + g.toNat

/-- The source's bits of CLK_SRC (R708). -/
def sourceDown (s : State) (c : ClockSource) : State :=
  match c with
  | .crystal => s.setRef false
  | .refLoop => s.setFld CLK_SRC.REF_LOCK 0
  | .iosc => s.setFld CLK_SRC.IOSC_OK 0
  | .grove g => (s.setFlag CLK_SRC.GROVE_OSC_FAIL).setFld CLK_SRC.FAILED_GROVE g.toNat

/-- The reference has failed. -/
def refFailed (s : State) : Bool := !s.flag CLK_SRC.XTAL_OK || !s.flag CLK_SRC.REF_LOCK

/-- What the loss of the reference does besides: the Almanac holds, stack content is lost and the optical
transmitters stop. -/
def refGone (s : State) : State :=
  let s := { s.refLost with hbm := [], hbmMeta := [] }
  (List.range 16).foldl (fun s p => if s.portState p = psDown then s else s.setPortState p psFailed) s

/-- A clock source fails (R682, R684). -/
def clockFailure (s : State) (c : ClockSource) : State :=
  let s := ((s.sourceDown c).setVsel 7).setFld PWR_LEVEL.STATE lvIdle
  let s := s.setPower { s.power with target := s.level, stopDue := none, want := none, queued := none }
  let s := { s with time := { s.time with rootGated := true } }
  let s := s.deviceFatal 0x0A 0 0x0041 (sourceCode c)
  let lost : Bool := match c with | .crystal => true | .refLoop => true | _ => false
  let s := if lost then s.refGone else if s.refFailed then s else { s with se := { s.se with selfRefresh := true } }
  if s.refFailed && !s.flag CLK_SRC.IOSC_OK then s.setPower { s.power with thermTrip := true } else s

end State

/-- PWR_ALERT (R700). -/
def execPwrAlert (s : State) : Host.Outcome State Fault Refusal := .next s.alertOn

/-- THERMAL_EVALUATION (R698, R700). -/
def execThermalEvaluation (s : State) : Host.Outcome State Fault Refusal := .next s.thermalEval

/-- POWER_EVALUATION (R698, R700). -/
def execPowerEvaluation (s : State) : Host.Outcome State Fault Refusal := .next s.powerEval

/-- CONTRIBUTOR_DECAY (R700). -/
def execContributorDecay (k : Contributor) (s : State) : Host.Outcome State Fault Refusal := .next (s.decay k)

/-- WRITE_REG (R705). -/
def execWriteReg (mp : Bool) (arg : BitVec 32) (data : BitVec 64) (s : State) : Host.Outcome State Fault Refusal :=
  .next (s.mbPost mp 1 arg data)

/-- CLEAR_EVENTS (R705). -/
def execClearEvents (mp : Bool) (data : BitVec 64) (s : State) : Host.Outcome State Fault Refusal := .next (s.mbPost mp 2 0 data)

/-- SET_LEVEL (R705). -/
def execSetLevel (mp : Bool) (data : BitVec 64) (s : State) : Host.Outcome State Fault Refusal := .next (s.mbPost mp 3 0 data)

/-- CALIBRATE (R705, R706). -/
def execCalibrate (mp : Bool) (arg : BitVec 32) (s : State) : Host.Outcome State Fault Refusal := .next (s.mbPost mp 4 arg 0)

/-- RUN_BIST (R705 to R707). -/
def execRunBist (mp : Bool) (arg : BitVec 32) (s : State) : Host.Outcome State Fault Refusal := .next (s.mbPost mp 5 arg 0)

/-- QUIET (R705, R706). -/
def execQuiet (mp : Bool) (arg : BitVec 32) (data : BitVec 64) (s : State) : Host.Outcome State Fault Refusal :=
  .next (s.mbPost mp 6 arg data)

/-- DEFERRED_REQUEST_START: at a step boundary or in a quiet window, whichever comes first, or refused as busy (R706,
R707). -/
def execDeferredRequestStart (mp : Bool) (s : State) : Host.Outcome State Fault Refusal :=
  match s.lgJob mp.toNat with
  | none => .next s
  | some j => if j.deferred && (j.boundary || s.inQuiet) then .next (s.jobStart mp.toNat j) else .next s

/-- MAILBOX_REQUEST_DONE (R705). -/
def execMailboxRequestDone (mp pass : Bool) (s : State) : Host.Outcome State Fault Refusal :=
  match s.lgJob mp.toNat with
  | none => .next s
  | some j => if !j.deferred && j.doneAt ≤ s.time.ticks then .next (s.jobEnds mp.toNat j pass) else .next s

/-- CLK_GATE_WRITE (R685). -/
def execClkGateWrite (k : Option (BitVec 2)) (v : BitVec 64) (s : State) : Host.Outcome State Fault Refusal :=
  .next (s.gateWrite (k.map (·.toNat)) v)

/-- CLOCK_FAILURE (R681 to R684): a grove's oscillator is watched while the grove and the root are ungated and the level
sequencer has not stopped it. -/
def execClockFailure (src : ClockSource) (s : State) : Host.Outcome State Fault Refusal :=
  match src with
  | .grove g => if s.gated g || s.time.rootGated || s.time.stopped then .next s else .next (s.clockFailure src)
  | _ => .next (s.clockFailure src)

end Sys2Proof.Machine
end

