-- ==== Sys2Proof/Machine/Crypto.lean ====
section
/-! DEFINITION. SHA-256 and the RSASSA-PSS check of an image's signature (R640). Bytes are lists, most significant
byte of a number first where the scheme says so. -/

namespace Sys2Proof.Machine

/-! ## SHA-256 -/

/-- A big-endian number. -/
def beNat (bs : List Byte) : Nat := bs.foldl (fun n b => 256 * n + b.toNat) 0

/-- `n` bytes of a number, most significant first. -/
def beBytes (n v : Nat) : List Byte := (bytesOf n v).reverse

/-- The primes below 312: the hash takes its constants from their roots. -/
def shaPrimes : List Nat := (List.range 312).filter fun n => 2 ≤ n && (List.range 18).all fun d => d < 2 || n ≤ d || n % d ≠ 0

/-- The largest number whose `k`-th power is at most `n`, from `m` on upwards in steps of halving powers of two. -/
def rootFrom (k n : Nat) : Nat → Nat → Nat
  | 0, m => m
  | i + 1, m => rootFrom k n i (if (m + 2 ^ i) ^ k ≤ n then m + 2 ^ i else m)

/-- The first 32 bits of the fraction of a prime's `k`-th root. -/
def shaFraction (k p : Nat) : BitVec 32 := BitVec.ofNat 32 (rootFrom k (p * 2 ^ (32 * k)) 40 0)

/-- The round constants: fractions of cube roots. -/
def shaConstants : List (BitVec 32) := shaPrimes.map (shaFraction 3)

/-- The initial hash value: fractions of square roots. -/
def shaInit : List (BitVec 32) := (shaPrimes.take 8).map (shaFraction 2)

/-- XOR of a word's right rotations by some distances. -/
def turned (x : BitVec 32) (by_ : List Nat) : BitVec 32 := by_.foldl (fun y n => y ^^^ x.rotateRight n) 0

/-- The message schedule, newest word first, after `n` more words. -/
def shaSchedule : Nat → List (BitVec 32) → List (BitVec 32)
  | 0, ws => ws
  | n + 1, ws =>
    let back : Nat → BitVec 32 := fun i => (ws[i - 1]?).getD 0
    let mixed := fun (x : BitVec 32) (by_ : List Nat) (shift : Nat) => turned x by_ ^^^ x >>> shift
    shaSchedule n ((mixed (back 2) [17, 19] 10 + back 7 + mixed (back 15) [7, 18] 3 + back 16) :: ws)

/-- One round on the eight working variables, first to last, with a round constant plus schedule word. -/
def shaRound (v : List (BitVec 32)) (kw : BitVec 32) : List (BitVec 32) :=
  let x : Nat → BitVec 32 := fun i => (v[i]?).getD 0
  let chosen := (x 4 &&& x 5) ||| (~~~(x 4) &&& x 6)
  let most := (x 0 &&& (x 1 ||| x 2)) ||| (x 1 &&& x 2)
  let t := x 7 + turned (x 4) [6, 11, 25] + chosen + kw
  (t + turned (x 0) [2, 13, 22] + most) :: ((v.take 3) ++ [x 3 + t] ++ (v.drop 4).take 3)

/-- The hash value after a block of 64 bytes. -/
def shaBlock (h : List (BitVec 32)) (block : List Byte) : List (BitVec 32) :=
  let first := (List.range 16).map fun i => BitVec.ofNat 32 (beNat ((block.drop (4 * i)).take 4))
  let ws := (shaSchedule 48 first.reverse).reverse
  let v := (shaConstants.zipWith (· + ·) ws).foldl shaRound h
  h.zipWith (· + ·) v

/-- The hash value after `n` blocks. -/
def shaBlocks : Nat → List (BitVec 32) → List Byte → List (BitVec 32)
  | 0, h, _ => h
  | n + 1, h, bs => shaBlocks n (shaBlock h (bs.take 64)) (bs.drop 64)

/-- SHA-256. -/
def sha256 (bs : List Byte) : List Byte :=
  let pad := (119 - bs.length % 64) % 64
  let msg := bs ++ [0x80#8] ++ bytesOf pad 0 ++ beBytes 8 (8 * bs.length)
  (shaBlocks (msg.length / 64) shaInit msg).flatMap fun w => beBytes 4 w.toNat

/-! ## RSASSA-PSS (R640) -/

/-- Digests of a seed followed by a 32-bit counter, `left` of them from `count` on. -/
def maskDigests (seed : List Byte) : (left count : Nat) → List Byte
  | 0, _ => []
  | left + 1, count => sha256 (seed ++ beBytes 4 count) ++ maskDigests seed left (count + 1)

/-- MGF1 with SHA-256: the 351 bytes that mask a data block of the scheme. -/
def dbMask (h : List Byte) : List Byte := (maskDigests h 11 0).take 351

/-- x ^ 65,537 modulo n. -/
def rsaPublic (x n : Nat) : Nat :=
  let y := (List.range 16).foldl (fun y _ => y * y % n) (x % n)
  y * x % n

/-- The PSS check of a message's hash against an encoded message of 384 bytes: a 32-byte salt, trailer 0xBC, and the
top bit of the 3,072 zero. -/
def pssOk (mHash em : List Byte) : Bool :=
  let masked := em.take 351
  let h := (em.drop 351).take 32
  let db := masked.zipWith (· ^^^ ·) (dbMask h)
  let db := match db with | [] => [] | b :: rest => (b &&& 0x7F) :: rest
  let salt := db.drop 319
  (em.drop 383 = [0xBC#8]) && (match masked with | b :: _ => !b.getLsbD 7 | [] => false) &&
  (db.take 319 = bytesOf 318 0 ++ [0x01#8]) &&
  (sha256 (bytesOf 8 0 ++ mHash ++ salt) = h)

/-- A signature verifies under a modulus, both as numbers. -/
def rsaPssOk (modulus signature : Nat) (msg : List Byte) : Bool :=
  signature < modulus && pssOk (sha256 msg) (beBytes 384 (rsaPublic signature modulus))

end Sys2Proof.Machine
end

