-- ==== Sys2Proof/Machine/Image.lean ====
section
/-! DEFINITION. The firmware image: its header, sections and checks, and the decoding of fuse words (R636 to R646). -/

namespace Sys2Proof.Machine

/-! ## Fuses (R636, R637) -/

/-- A word protected by ECC as loaded; none where it is uncorrectable. -/
def fuseEcc (w : FuseWord) : Option (BitVec 64) :=
  let r := decodeWord w.data false w.chk
  if r.2.1 || r.2.2.1 = .uncorrectable then none else some r.1

/-- The majority of three copies. -/
def fuseMajority (w : FuseWord) : BitVec 64 := (w.data &&& w.second) ||| (w.data &&& w.third) ||| (w.second &&& w.third)

/-- Fuse word `i` as loaded. -/
def fuseLoad (i : Nat) (w : FuseWord) : Option (BitVec 64) := if i = 2 || i = 31 then some (fuseMajority w) else fuseEcc w

/-- Set bits of a word. -/
def popCount (v : BitVec 64) : Nat := ((List.range 64).filter v.getLsbD).length

/-! ## The header (R639) -/

/-- The codes of BOOT_ERR.CODE (R672). -/
def beXtal : Nat := 1
def beFuse : Nat := 2
def beFlash : Nat := 3
def beFormat : Nat := 4
def beKeySlot : Nat := 5
def beKeyHash : Nat := 6
def beSignature : Nat := 7
def beRollback : Nat := 8
def beConfig : Nat := 9
def beTrain : Nat := 0xA
def beBad : Nat := 0xB
def beSram : Nat := 0xC

/-- Bytes of an image that are zero. -/
def imgZero (bs : List Byte) (at_ n : Nat) : Bool := ((bs.drop at_).take n).all fun b => b = 0

def imgLen (bs : List Byte) : Nat := bytesField bs 12 4
def imgSlot (bs : List Byte) : Nat := bytesField bs 6 1
def imgFlags (bs : List Byte) : Nat := bytesField bs 7 1
def imgSvn (bs : List Byte) : Nat := bytesField bs 8 4
def imgVersion (bs : List Byte) : Nat := bytesField bs 16 8
def imgSections (bs : List Byte) : Nat := bytesField bs 24 4

/-- A section entry. -/
structure ImgSection where
  type : Nat
  off  : Nat
  len  : Nat
  deriving DecidableEq, Repr

/-- The section entries of an image. -/
def imgTable (bs : List Byte) : List ImgSection :=
  (List.range (imgSections bs)).map fun i =>
    let f := fun at_ n => bytesField bs (512 + 16 * i + at_) n
    ⟨f 0 1, f 4 4, f 8 4⟩

/-- The bytes of the section of a type; empty where there is none. -/
def imgSection (bs : List Byte) (type : Nat) : List Byte :=
  match (imgTable bs).find? fun x => x.type = type with
  | some x => (bs.drop x.off).take x.len
  | none => []

/-- Check 2 of R641. -/
def imgHeaderOk (bs : List Byte) : Bool :=
  let n := imgSections bs
  bytesField bs 0 4 = 0x494D5A42 && bytesField bs 4 2 = 1 && imgFlags bs < 4 &&
  imgLen bs % 4096 = 0 && 8192 ≤ imgLen bs && imgLen bs ≤ 8388608 && 1 ≤ n && n ≤ 32 &&
  bytesField bs 416 4 = 65537 && imgZero bs 28 4 && imgZero bs 420 92 &&
  (List.range 32).all fun i =>
    if i < n then imgZero bs (512 + 16 * i + 1) 3 && imgZero bs (512 + 16 * i + 12) 4 else imgZero bs (512 + 16 * i) 16

/-- The commands that write an image to flash (R756): per 4 KiB sector an erase, then its 16 pages of 256 bytes, a write
enable before each and a poll of the status after it. An image lies below the identity block. -/
def flashWrite (img : List Byte) : List FlashCmd :=
  (List.range ((img.length + 4095) / 4096)).flatMap fun k =>
    [.writeEnable, .erase (4096 * k), .status] ++
    (List.range 16).flatMap fun j =>
      let a := 4096 * k + 256 * j
      [.writeEnable, .program a ((img.drop a).take 256), .status]

/-- Two sections have no byte in common. -/
def ImgSection.apart (a b : ImgSection) : Bool := a.off + a.len ≤ b.off || b.off + b.len ≤ a.off

/-- No two sections of a list overlap. -/
def allApart : List ImgSection → Bool
  | [] => true
  | x :: xs => xs.all x.apart && allApart xs

/-- Sections of a type. -/
def countType (xs : List ImgSection) (t : Nat) : Nat := (xs.filter fun x => x.type = t).length

/-- Check 3 of R641. -/
def imgSectionsOk (bs : List Byte) : Bool :=
  let xs := imgTable bs
  xs.all (fun x => x.off % 64 = 0 && 1024 ≤ x.off && x.off + x.len ≤ imgLen bs - 384 && 1 ≤ x.type && x.type ≤ 3) &&
  allApart xs && countType xs 1 = 1 && countType xs 2 = 1 && countType xs 3 ≤ 1

/-- Checks 2 to 7 of R641 in order: the code of the first that fails, 0 where none does. -/
def imgCheck (bs : List Byte) (valid revoked : BitVec 64) (hash : Nat → List Byte) (arb : Nat) : Nat :=
  let slot := imgSlot bs
  if !imgHeaderOk bs || !imgSectionsOk bs then beFormat
  else if 3 < slot || !valid.getLsbD slot || revoked.getLsbD slot then beKeySlot
  else if sha256 ((bs.drop 32).take 388) ≠ hash slot then beKeyHash
  else if !rsaPssOk (bytesField bs 32 384) (bytesField bs (imgLen bs - 384) 384) (bs.take (imgLen bs - 384)) then beSignature
  else if imgSvn bs < arb then beRollback
  else 0

namespace State

/-- Fuse word `w` as FUSE_w reads it. -/
def fuse (s : State) (w : Nat) : BitVec 64 := s.reg (FUSE.off w)

/-- The key hash of a slot. -/
def keyHash (s : State) (j : Nat) : List Byte := (List.range 4).flatMap fun i => bytesOf 8 (s.fuse (7 + 4 * j + i)).toNat

/-- The anti-rollback value. -/
def arb (s : State) : Nat := popCount (s.fuse 2)

/-- Checks 2 to 7 of R641 against the device's fuses. -/
def imgVerify (s : State) (bs : List Byte) : Nat := imgCheck bs (s.fuse 1) (s.fuse 31) s.keyHash s.arb

end State

end Sys2Proof.Machine
end

