-- ==== Sys2Proof/Machine/Pcie.lean ====
section
/-! DEFINITION. The PCI Express function: configuration space, error records, the BAR2 window and PTM (R586 to R596,
R610). The contents of standard capability registers that the spec does not give are log entry 60. -/

namespace Sys2Proof.Machine

/-! ## Configuration space (R586 to R588) -/

/-- log2 of the BAR2 window in MiB, as Resizable BAR holds it. -/
def barSizeOk (n : Nat) : Bool := 10 ≤ n && n ≤ 21

namespace State

/-- A configuration doubleword. -/
def cfgRead (s : State) (off : Nat) : BitVec 32 :=
  if off = 0x14C then (s.reg DEV_SERIAL.off).extractLsb' 0 32
  else if off = 0x150 then (s.reg DEV_SERIAL.off).extractLsb' 32 32
  else if off = 0x02C then Config.subsystem s.boot.held
  else s.cfgWord off

/-- log2 of the BAR2 window's size in bytes (R588). -/
def bar2Log (s : State) : Nat := 20 + (s.cfgRead 0x160).toNat / 2 ^ 8 % 64

/-- Bits of a configuration doubleword that a write stores. -/
def cfgMask (s : State) (off : Nat) : BitVec 32 :=
  match off with
  | 0x004 => 0x00000546
  | 0x00C => 0x000000FF
  | 0x010 => 0xFC000000
  | 0x014 => 0xFFFFFFFF
  | 0x018 => BitVec.ofNat 32 (2 ^ 32 - 2 ^ s.bar2Log)
  | 0x01C => BitVec.ofNat 32 (2 ^ 32 - 2 ^ (s.bar2Log - 32))
  | 0x03C => 0x000000FF
  | 0x058 => 0x00007FFF
  | 0x078 => 0x0000101F
  | 0x080 => 0x0000000F
  | 0x090 => 0xC0000000
  | 0x108 => 0x0017F030
  | 0x10C => 0x0017F030
  | 0x114 => 0x000031C1
  | 0x170 => 0x0000FF01
  | _ => 0

/-- Bits of a configuration doubleword that a write of 1 clears. -/
def cfgClears (off : Nat) : BitVec 32 :=
  match off with
  | 0x004 => 0xF9000000
  | 0x058 => 0x000F0000
  | 0x104 => 0x0017F030
  | 0x110 => 0x000031C1
  | _ => 0

/-- The bytes that a request's byte enables name. -/
def beMask (be : BitVec 4) : BitVec 32 :=
  BitVec.ofNat 32 (((List.range 4).map fun i => if be.getLsbD i then 0xFF * 2 ^ (8 * i) else 0).sum)

/-- A configuration write. D3hot and D0 are the power states; a window size outside those of R588 is not taken. -/
def cfgWrite (s : State) (off : Nat) (be : BitVec 4) (v : BitVec 32) : State :=
  let old := s.cfgRead off
  if off = 0x044 then
    let p := (v &&& beMask be) &&& 3
    if be.getLsbD 0 && (p = 0 || p = 3) then s.setCfg off ((old &&& ~~~3#32) ||| p) else s
  else if off = 0x160 then
    let n := v.toNat / 2 ^ 8 % 64
    if be.getLsbD 1 && barSizeOk n then s.setCfg off (BitVec.ofNat 32 (0x22 + 2 ^ 8 * n)) else s
  else
    let m := s.cfgMask off &&& beMask be
    let c := cfgClears off &&& beMask be &&& v
    if m ||| cfgClears off = 0 then s else s.setCfg off (((old &&& ~~~m) ||| (v &&& m)) &&& ~~~c)

/-- A configuration request of a served device: a read returns the doubleword. -/
def cfgServe (s : State) (off : Nat) (be : BitVec 4) (w : Option (BitVec 32)) : State :=
  match w with
  | none => s.emit (.readData (bytesOf 4 (s.cfgRead off).toNat) false)
  | some v => (s.addTotal 73 4).cfgWrite off be v

/-! ## BAR2 (R590, R594 to R596) -/

/-- The device address of a BAR2 offset (R594). -/
def bar2Addr (s : State) (o : Nat) : Nat :=
  let base := s.fld HIF_BAR2_BASE.BASE * 2 ^ 30
  let size := 2 ^ s.bar2Log
  base - base % size + o % size

/-- A BAR2 read; of its attempts `fails` meet a parity error before one does not, and an attempt at a word that does not decode
fails each time (R596). -/
def bar2Read (s : State) (o n fails : Nat) : State :=
  let a := s.bar2Addr o
  if !s.flag HIF_STATUS.READY || s.barsOff then s.emit .unsupported
  else if hbmEnd < a + n then (s.setFlag HIF_STATUS.BAR2_RANGE).emit .unsupported
  else
    let ws := s.hbmWords a (wordSpan a n)
    let s := s.countRead a n
    let bytes := ((ws.flatMap fun w => bytesOf 8 w.1.toNat).drop (a % 8)).take n
    let limit := s.fld (engRetryLimit (a / 2 ^ 37))
    if limit < fails || ws.any fun w => w.2.2 = .uncorrectable then
      ((s.countErr HBM_ERR.RETRIES a limit).countErr HBM_ERR.EXHAUSTED a 1).emit (.readData bytes true)
    else
      let s := (s.countErr HBM_ERR.RETRIES a fails).countFixed a ws
      s.emit (.readData bytes (ws.any fun w => w.2.1))

/-- A BAR2 write: a poisoned TLP is recorded and marks every word that it carries (R586, R596). -/
def bar2Write (s : State) (o : Nat) (bs : List Byte) (poisoned : Bool) : State :=
  let a := s.bar2Addr o
  let s := s.addTotal 73 bs.length
  if !s.flag HIF_STATUS.READY || s.barsOff then s.recordUnsupported
  else if hbmEnd < a + bs.length then (s.setFlag HIF_STATUS.BAR2_RANGE).recordUnsupported
  else
    let s := s.hbmStore a bs
    if poisoned then
      let s := s.recordPoisoned
      { s with hbmMeta := (List.range ((a % 8 + bs.length + 7) / 8)).foldl (fun m w => smSet m (a / 8 + w) { mark := true }) s.hbmMeta }
    else s

/-! ## PTM (R610) -/

/-- Ticks from one PTM dialog to the next. -/
def ptmPeriod (s : State) : Nat := 2 ^ s.fld HIF_POLL.PTM_LOG2

/-- A dialog is due: none has been completed since the Almanac's latest multiple of the period; after a step of the
Almanac none is performed twice within one period of real time (R77, R610). -/
def ptmDue (s : State) : Bool :=
  match s.time.ptmAt with
  | none => true
  | some (a, t) =>
    s.time.almanac.toNat / s.ptmPeriod != a.toNat / s.ptmPeriod &&
    match s.time.stepAt with
    | none => true
    | some u => u < t || t + s.ptmPeriod ≤ s.time.ticks

/-- A completed PTM dialog latches the Almanac and the master's time. -/
def ptmDone (s : State) (master : BitVec 64) : State :=
  if !(s.cfgRead 0x170).getLsbD 0 || !s.ptmDue then s
  else
    let t := ((s.setReg ALM_PTM.off s.time.almanac).setReg HIF_PTM_MASTER.off master).incWrap HIF_PTM_CNT.COUNT 1
    { t with time := { t.time with ptmAt := some (s.time.almanac, s.time.ticks) } }

end State

/-- BAR2_READ (R590, R594 to R596). -/
def execBar2Read (off : BitVec 41) (len : Nat) (fails : BitVec 4) (s : State) : Host.Outcome State Fault Refusal :=
  .next (s.bar2Read off.toNat len fails.toNat)

/-- BAR2_WRITE (R590, R594 to R596). -/
def execBar2Write (off : BitVec 41) (bytes : List Byte) (poisoned : Bool) (s : State) : Host.Outcome State Fault Refusal :=
  .next (s.bar2Write off.toNat bytes poisoned)

/-- PTM_DIALOG (R37, R610). -/
def execPtmDialog (master : BitVec 64) (s : State) : Host.Outcome State Fault Refusal := .next (s.ptmDone master)

end Sys2Proof.Machine
end

