-- ==== Sys2Proof/Machine/Reset.lean ====
section
/-! DEFINITION. Device resets, their domains, and the start of a re-initialisation of one function (R577, R591, R661 to
R668). -/

namespace Sys2Proof.Machine

/-! ## Groves (R119, R270, R316, R369, R387, R661, R666) -/

/-- A core after grove initialisation: scratchpad data, marks and check bits stay, every tag is EMPTY. -/
def Core.init (k : Core) : Core := { spad := { rows := k.clearTags.spad.rows } }

/-- A grove after initialisation: what counts its cycles stays. -/
def Grove.init (k : Grove) : Grove :=
  { leaps := k.leaps, lostLeaps := k.lostLeaps, lost := k.lost, gatedAt := k.gatedAt, relCycle := k.relCycle
    catches := k.catches, lastCatch := k.lastCatch, allCatches := k.allCatches, interval := k.interval }

/-- Boot states beside those of `bsReset` (R671). -/
def bsFuse : Nat := 2
def bsVerify : Nat := 3
def bsWaitImage : Nat := 4
def bsConfig : Nat := 5
def bsHbm : Nat := 6
def bsSram : Nat := 7
def bsLinks : Nat := 8
def bsReady : Nat := 9

namespace State

def setBoot (s : State) (b : Boot) : State := { s with boot := b }

/-- Every power-good input is accepted. -/
def powered (s : State) : Bool := s.boot.pgs = 31

/-- The sender of a mesh word lies in a grove that satisfies `p`. -/
def sentFrom (p : GroveId → Bool) (x : Source) : Bool := match x with | .core c _ => p (groveOf c) | _ => false

/-- The mesh without what is on its way into the cores of the groves that satisfy `p`, and without what their send ends
wait for. -/
def meshWithout (m : Mesh) (p : GroveId → Bool) : Mesh :=
  let on := fun (c : CoreId) => !p (groveOf c)
  { m with
    links := m.links.filter fun f => on f.core
    crossing := m.crossing.filter fun f => on f.core
    edges := m.edges.filter fun f => on f.core
    words := m.words.filter fun w => !sentFrom p w.src
    credits := m.credits.filter fun w => !sentFrom p w.src }

/-- Initialisation of the groves that satisfy `p`: cores, hampers, library stores, counters, and the accesses that wait
there. Their hampers count as having acted on a pending request (R668). -/
def initGroves (s : State) (p : GroveId → Bool) : State :=
  let s := s.svcDrop p
  let s := if s.schRuns && p (groveOfHamper s.refHamper) then s.setSch { s.sch with refGone := true } else s
  let gs := ((List.range 256).map (BitVec.ofNat 8)).filter p
  let q := s.plane
  let core := fun (e : Nat × Core) => if p (groveOf (BitVec.ofNat 20 e.1)) then (e.1, e.2.init) else e
  let s := { s with plane := { q with cores := q.cores.map core, mesh := meshWithout q.mesh p } }
  let s := gs.foldl (fun s g =>
    let s := (groveHampers g).foldl (fun s h => s.setHamper h {}) s
    (s.setGrove g (s.grove g).init).setFld (groveBit CP_WD_MAP.off g) 0) s
  s.abortSettle

/-- Every grove is initialised. -/
def initPlane (s : State) : State :=
  let s := s.svcDrop fun _ => true
  let q := s.plane
  let s := { s with plane :=
    { cores := q.cores.map fun (e : Nat × Core) => (e.1, e.2.init)
      groves := q.groves.map fun (e : Nat × Grove) => (e.1, e.2.init)
      mesh := { nextId := q.mesh.nextId }
      abort := q.abort } }
  s.abortSettle

/-! ## Device reset (R577, R661 to R664) -/

/-- RESET_CAUSE.CAUSE (R674). -/
def rcPerst : Nat := 1
def rcFlr : Nat := 2
def rcCtrl : Nat := 3

/-- The registers of BAR0 that a device reset keeps: identity and bring-up, fuses, image, Almanac, fault ring and
copies, PTM, ports outside their channels, PSIUD_POD, clocks and power, and the safety partition. The MSI-X table and
pending bits are the link's. -/
def resetKeeps (msix : Bool) (o : Nat) : Bool :=
  o < 0x48 || (0x100 ≤ o && o < 0x218) ||
  (0x1000 ≤ o && o < 0x1048 && o != ALM_DEPART.off && o != ALM_DEPART_CTRL.off) ||
  (0x2000 ≤ o && o < 0x2060) || o = HIF_PTM_MASTER.off || o = HIF_PTM_CNT.off ||
  (msix && 0x104000 ≤ o && o < 0x104408) ||
  (0x800000 ≤ o && o < 0x900000 && o % 0x10000 < 0x800) || (0x900000 ≤ o && o < 0x900010) ||
  (0xC00000 ≤ o && o < 0xE00000)

/-- The configuration space after a function-level reset: the error records, which are sticky, and the payload size
stay (log entry 60). -/
def flrCfg (s : State) : SMap (BitVec 32) :=
  let kept := s.cfg.filter fun e => 0x100 ≤ e.1 && e.1 < 0x148
  let mps := s.cfgRead 0x058 &&& 0xE0
  smSet kept 0x058 ((cfgDefault 0x058 &&& ~~~0xE0#32) ||| mps)

/-- The held image, as IMG_INFO reports it (R642, R676). -/
def holdImage (s : State) (img : List Byte) : State :=
  let s := s.setBoot { s.boot with held := img, fused := false }
  ((s.setFld IMG_INFO.VERSION_LO (imgVersion img)).setFld IMG_INFO.SVN (imgSvn img)).setFld IMG_INFO.KEY_SLOT (imgSlot img)

/-- An updated image becomes the held image (R645). -/
def activate (s : State) : State :=
  match s.boot.next with
  | none => s
  | some img => (s.setBoot { s.boot with next := none }).holdImage img

/-- SAFE_DEFAULT of the fuses (R636). -/
def safeDefault (s : State) : Bool := (s.fuse 1).getLsbD 9

/-- CONFIG begins in a power-on bring-up: with SAFE_DEFAULT the device runs in safe mode from here on (R664). -/
def enterConfig (s : State) : State :=
  let s := s.setFld BOOT_STATE.STATE bsConfig
  if s.safeDefault then s.setFlag BOOT_STATE.SAFE else s

/-- What a device reset clears; `msix` says that the MSI-X table stays. A flash write that has not begun is still to come,
one under way stays incomplete (R644). -/
def resetClear (s : State) (msix : Bool) : State :=
  let s := s.disableAll.initPlane
  { s with
    bar0 := smDrop (fun o => !resetKeeps msix o) s.bar0
    se := { hstacks := s.se.hstacks, selfRefresh := true }
    ports := s.ports.map fun e => (e.1, { e.2 with tx := [], rx := [], ctr := [], pmc := {} })
    sch := {}
    reader := { totals := s.reader.totals }
    boot := { s.boot with mp := none, reinit := none, toFlash := s.boot.toFlash && !s.flag IMG_STAT.FLASH_BUSY } }

/-- A device reset begins (R662), or the request is recorded alone while one is under way (R663). After a clock failure or
a trip the device stays as it is until it is powered off (R683, R701; log entry 83). -/
def resetStart (s : State) (cause : Nat) : State :=
  let st := s.fld BOOT_STATE.STATE
  if st = bsReset then s.setFld RESET_CAUSE.CAUSE cause
  else if s.time.rootGated then s
  else
    let s := s.setFld RESET_CAUSE.CAUSE cause
    let safe := s.flag DEV_CTRL.SAFE_NEXT || s.safeDefault
    let s := s.resetClear (cause = rcCtrl)
    let s := if cause = rcPerst then s else s.activate
    let s := { s with time := { s.time with failed := false } }
    let s := ((s.incSat RESET_CAUSE.COUNT 1).setFld IMG_STAT.FLASH_BUSY 0).setFld FN_REINIT.BUSY 0
    let s := (s.setFld BOOT_STATE.STATE bsReset).setFld BOOT_STATE.SAFE safe.toNat
    s.setBoot { s.boot with before := st }

/-- A function-level reset (R591, R661); during a device reset it is recorded alone (R663). -/
def functionReset (s : State) : State :=
  if s.fld BOOT_STATE.STATE = bsReset then s.resetStart rcFlr
  else { s with cfg := s.flrCfg }.resetStart rcFlr

/-- Every image in flash or under way is left as it is, and the link and the configuration space are reset (R661). -/
def linkReset (s : State) : State :=
  { s with cfg := [], bar0 := smDrop (fun o => 0x104000 ≤ o && o < 0x104408) s.bar0, boot := { s.boot with perst := true } }

/-! ## Re-initialisation of one function (R666 to R668) -/

/-- The groves of a re-initialisation's unit 4 or 5. -/
def unitGroves (unit index : Nat) (g : GroveId) : Bool :=
  if unit = 4 then g.toNat = index else fieldOfGrove g = index

/-- INDEX names a function of its unit. -/
def unitOk (unit index : Nat) : Bool :=
  match unit with
  | 0 => index < 20
  | 1 => index < 16
  | 4 => index < 256
  | 5 => index < 4
  | _ => true

/-- A schedule runs on a grove that satisfies `p`. -/
def anyRuns (s : State) (p : GroveId → Bool) : Bool :=
  ((List.range 256).map (BitVec.ofNat 8)).any fun g => p g && s.groveRuns g

/-- What a re-initialisation does at its start. -/
def reinitBegin (s : State) (unit index : Nat) : State :=
  match unit with
  | 0 => s.disableUnits fun u => u.eng = index
  | 1 => ((s.disablePort index).down index).train index
  | 2 => s.disableUnits SeUnit.isHdma
  | 3 => if s.schState = schRunning then s.schHalt false else s
  | _ =>
    let p := unitGroves unit index
    let s := if s.plane.abort.isNone && s.anyRuns p then s.abortRequest s.time.almanac true else s
    s.svcDrop p

/-- FN_REINIT.GO (R667). -/
def reinitStart (s : State) : State :=
  if s.flag FN_REINIT.BUSY || s.fld BOOT_STATE.STATE = bsReset then s.setFlag FN_REINIT.REFUSED
  else
    let unit := s.fld FN_REINIT.UNIT
    let index := s.fld FN_REINIT.INDEX
    let s := (s.setFlag FN_REINIT.BUSY).setBoot { s.boot with reinit := some (unit, index) }
    if unitOk unit index then s.reinitBegin unit index else s

end State

/-- DEVICE_RESET: a write of DEV_CTRL.RESET (R662). -/
def execDeviceReset (s : State) : Host.Outcome State Fault Refusal := .next (s.resetStart State.rcCtrl)

/-- FLR (R591). -/
def execFlr (s : State) : Host.Outcome State Fault Refusal := .next s.functionReset

/-- PERST_N_ASSERT: the link is reset, and after READY a device reset begins (R633, R662). -/
def execPerstNAssert (s : State) : Host.Outcome State Fault Refusal :=
  let t := s.linkReset
  if s.boot.ready then .next (t.resetStart State.rcPerst) else .next t

/-- PERST_N_DEASSERT (R589, R633). -/
def execPerstNDeassert (s : State) : Host.Outcome State Fault Refusal := .next (s.setBoot { s.boot with perst := false })

/-- FN_REINIT: UNIT and INDEX are written with GO (R666 to R668, R674). -/
def execFnReinit (unit : BitVec 3) (index : BitVec 8) (s : State) : Host.Outcome State Fault Refusal :=
  .next (((s.regWrite .host FN_REINIT.off (BitVec.ofNat 64 (2 ^ 14 * unit.toNat + index.toNat)))).reinitStart)

end Sys2Proof.Machine
end

