-- ==== Sys2Proof/Machine/Bar0.lean ====
section
/-! DEFINITION. Accesses to BAR0: what a write of each register does, what a read returns, and which accesses are taken
(R5 to R14, R590, R592, R593, R609, R643, R650, R677). -/

namespace Sys2Proof.Machine

/-! ## Places of BAR0 (R27, R28, R592) -/

/-- The channel and the register offset within it of a channel register. -/
def chanPlace (off : Nat) : Option (SeUnit × Nat) :=
  if 0x101000 ≤ off ∧ off < 0x101400 then some (.hdma (BitVec.ofNat 4 ((off - 0x101000) / 0x40)), off % 0x40)
  else if 0x400000 ≤ off ∧ off < 0x540000 ∧ 0x1000 ≤ off % 0x10000 ∧ off % 0x10000 < 0x1800 then
    some (unitOf ((off - 0x400000) / 0x10000) ((off % 0x10000 - 0x1000) / 0x40), off % 0x40)
  else none

/-- The counter group and the offset within it of a counter register (R734). -/
def ctrPlace (off : Nat) : Option (CtrGroup × Nat) :=
  if 0x100C00 ≤ off ∧ off < 0x100E00 then some (.hdma, off - 0x100C00)
  else if off % 0x10000 < 0x800 ∨ 0xA00 ≤ off % 0x10000 then none
  else if 0x400000 ≤ off ∧ off < 0x540000 then some (.engine (Fin.ofNat 20 ((off - 0x400000) / 0x10000)), off % 0x10000 - 0x800)
  else if 0x800000 ≤ off ∧ off < 0x900000 then some (.port (BitVec.ofNat 4 ((off - 0x800000) / 0x10000)), off % 0x10000 - 0x800)
  else none

/-- The port, channel and register offset of a Psiud channel register. -/
def psiudPlace (off : Nat) : Option (Nat × Nat × Nat) :=
  if 0x800000 ≤ off ∧ off < 0x900000 ∧ 0x1000 ≤ off % 0x10000 ∧ off % 0x10000 < 0x2000 then
    some ((off - 0x800000) / 0x10000, (off % 0x10000 - 0x1000) / 0x40, off % 0x40)
  else none

/-- A place of the image window (R643). -/
def inImageWindow (off : Nat) : Bool := 0x80000 ≤ off && off < 0x100000

/-- A place of the bad-frame window (R650). -/
def inBadWindow (off : Nat) : Bool := 0x40000 ≤ off && off < 0x40000 + 4096 * 20

/-- A place of the MSI-X table, or of its pending bits (R587). -/
def inMsixTable (off : Nat) : Bool := 0x104000 ≤ off && off < 0x104400

/-- Some block defines a register or a window at an offset (R593). -/
def bar0Defined (off : Nat) : Bool :=
  (regAt off regTable).isSome || (ctrPlace off).isSome || inImageWindow off || inBadWindow off || inMsixTable off ||
  off = 0x104400 || (0x1000000 ≤ off && off < 0x3000000)

namespace State

/-! ## MSI-X (R586, R587, R609) -/

/-- Forgets that a vector is pending: its source bits have been cleared (R609). -/
def unpend (s : State) (v : Nat) : State := s.setReg 0x104400 (s.reg 0x104400 &&& ~~~BitVec.ofNat 64 (2 ^ v))

/-- Pending vectors that are no longer masked are sent. -/
def msixFlush (s : State) : State :=
  (List.range 64).foldl (fun s v =>
    if (s.reg 0x104400).getLsbD v then (s.unpend v).signal v else s) s

/-- A write of the MSI-X table: addresses are whole doublewords, and of the vector control the mask bit is stored. -/
def msixWrite (s : State) (off : Nat) (v : BitVec 64) : State :=
  (s.setReg off (if off % 16 = 0 then v &&& ~~~3#64 else v &&& 0x0000_0001_FFFF_FFFF#64)).msixFlush

/-- The value of a place of the MSI-X table: a vector is masked after reset. -/
def msixRead (s : State) (off : Nat) : BitVec 64 := smGet (if off % 16 = 0 then 0 else 0x0000_0001_0000_0000#64) s.bar0 off

/-- A vector whose source register the host has written: with a source bit left it is signalled again, without one it is no
longer pending. -/
def signalOr (s : State) (set : Bool) (v : Nat) : State := if set then s.signal v else s.unpend v

/-- What a host write of an interrupt source register does to vectors 16 to 61 (R609). -/
def signalAgain (s : State) (off : Nat) : State :=
  let v := s.reg off
  let each := fun (s : State) (base n : Nat) => (List.range n).foldl (fun s k => s.signalOr (v.getLsbD k) (base + k)) s
  if off = HIF_IRQ_EVT.off then each s 52 10
  else if off = HIF_HDMA_IRQ.off then each s 36 16
  else if HIF_SE_IRQ.off 0 ≤ off && off ≤ HIF_SE_IRQ.off 19 then s.signalOr (v ≠ 0) (16 + (off - HIF_SE_IRQ.off 0) / 8)
  else s

/-! ## Bring-up failures and pushed images (R641, R643, R672) -/

/-- The first failure of bring-up since power-on. -/
def bootErr (s : State) (code detail : Nat) : State :=
  if s.fld BOOT_ERR.CODE = 0 then (s.setFld BOOT_ERR.CODE code).setFld BOOT_ERR.DETAIL detail else s

/-- The bytes of the image buffer that its header gives, as far as it holds them. -/
def pushedImage (s : State) : List Byte :=
  let len := ofBytes (memBytes s.boot.buffer 12 4)
  memBytes s.boot.buffer 0 (max 1024 (min len 8388608))

/-- A pushed image is held, and is to go to flash where PROGRAM asks for it (R642 to R644). -/
def takePushed (s : State) (img : List Byte) : State :=
  let s := (s.holdImage (img.take (imgLen img))).enterConfig
  s.setBoot { s.boot with toFlash := s.flag IMG_CTRL.PROGRAM }

/-- IMG_CTRL.VERIFY (R643); while a power-good input is lost bring-up holds (R746). -/
def pushVerify (s : State) : State :=
  if s.fld BOOT_STATE.STATE ≠ bsWaitImage || !s.powered then s
  else
    let img := s.pushedImage
    let r := s.imgVerify img
    let s := s.setFld IMG_STAT.RESULT r
    if r = 0 then s.takePushed img else s.bootErr r 0

/-- A write of the image window (R643). -/
def windowWrite (s : State) (off : Nat) (v : BitVec 64) (n : Nat) : State :=
  if s.fld BOOT_STATE.STATE ≠ bsWaitImage then s
  else
    let a := 524288 * s.fld IMG_CTRL.PAGE + (off - 0x80000)
    s.setBoot { s.boot with buffer := memWriteBytes s.boot.buffer a (bytesOf n v.toNat) }

/-! ## Writes by block -/

/-- CP_ABORT (R203, R204). -/
def abortWrite (s : State) (v : BitVec 64) : State :=
  if !v.getLsbD 0 then s
  else
    let now := s.time.almanac
    let at_ := s.reg CP_ABORT_AT.off
    s.abortRequest (if v.getLsbD 2 then (if at_ < now then now else at_) else now) (v.getLsbD 1)

/-- FAULT_RING: with EN at 1, a write that changes BASE or SIZE_LOG2 is discarded (R677). -/
def faultRingWrite (s : State) (agent : Agent) (v : BitVec 64) : State :=
  let t := s.regWrite agent FAULT_RING.off v
  let moves := t.fld FAULT_RING.BASE ≠ s.fld FAULT_RING.BASE ∨ t.fld FAULT_RING.SIZE_LOG2 ≠ s.fld FAULT_RING.SIZE_LOG2
  if s.flag FAULT_RING.EN ∧ moves then s else t

/-- FAULT_POS: HEAD as it stood before the first host write of a tick is kept for the tick (R659). -/
def faultPosWrite (s : State) (agent : Agent) (v : BitVec 64) : State :=
  let t := s.regWrite agent FAULT_POS.off v
  t.setBoot { t.boot with headWas := some (s.time.ticks, s.faultHead) }

/-- Identity, control, Almanac, abort and fault registers. `go` posts a request of the management processor. -/
def ctrlWrite (s : State) (go : State → State) (agent : Agent) (off : Nat) (v : BitVec 64) : State :=
  let t := s.regWrite agent off v
  if off = DEV_CTRL.off then (if v.getLsbD 0 then t.resetStart rcCtrl else t)
  else if off = FN_REINIT.off then (if v.getLsbD 17 then t.reinitStart else t)
  else if off = IMG_CTRL.off then (if v.getLsbD 5 then t.pushVerify else t)
  else if off = ALM_DEPART.off then s.departWrite v
  else if off = ALM_DEPART_CTRL.off then s.departCtrl v
  else if off = CP_ABORT.off then s.abortWrite v
  else if off = FAULT_RING.off then s.faultRingWrite agent v
  else if off = FAULT_POS.off then s.faultPosWrite agent v
  else if off = MP_MBOX_CTRL.off then (if v.getLsbD 0 then go s else s)
  else t

/-- Registers of the host interface. -/
def hifWrite (s : State) (agent : Agent) (off : Nat) (v : BitVec 64) : State :=
  if off = HIF_SQ_BASE.off then s.sqBaseWrite v
  else if HIF_CQ_BASE.off 0 ≤ off && off ≤ HIF_CQ_BASE.off 15 && off % 16 = 0 then s.cqBaseWrite ((off - HIF_CQ_BASE.off 0) / 16) v
  else s.regWrite agent off v

/-- Registers of the scheduler and pager. -/
def schWrite (s : State) (agent : Agent) (off : Nat) (v : BitVec 64) : State :=
  if off = SCH_CTRL.off then s.schCtrl v
  else if off = SCH_CFG.off then s.schConfig .schCfg v
  else if off = SCH_TIMING.off then s.schConfig .schTiming v
  else if off = PG_CFG.off then s.schConfig .pgCfg v
  else if off = PG_PT_BASE.off then s.schConfig .ptBase v
  else if off = SCH_LIMIT.off then s.schLimit v
  else if PG_POOL.off 0 ≤ off && off ≤ PG_POOL.off 19 then s.pgPool ((off - PG_POOL.off 0) / 8) v
  else s.regWrite agent off v

/-- Registers of a channel of a stream engine or of the host DMA engine. -/
def chanWrite (s : State) (agent : Agent) (u : SeUnit) (o off : Nat) (v : BitVec 64) : State :=
  match o with
  | 0x00 => s.chCfgWrite agent u v
  | 0x08 => s.chRingWrite u v
  | 0x20 => s.chCtrl u v
  | _ => s.regWrite agent off v

/-- Registers of a Psiud channel. -/
def psiudWrite (s : State) (agent : Agent) (p c o off : Nat) (v : BitVec 64) : State :=
  match o with
  | 0x00 => s.psChWrite p c .txCfg v
  | 0x10 => s.psChWrite p c .rxCfg v
  | 0x18 => s.psChWrite p c .rxDrain v
  | 0x20 => s.psChWrite p c .rxRows v
  | 0x28 => s.psChWrite p c .rxTime v
  | 0x38 => s.psChCtrl p c v
  | _ => s.regWrite agent off v

/-- Registers of ports outside channels, and of the pod. -/
def portWrite (s : State) (agent : Agent) (off : Nat) (v : BitVec 64) : State :=
  if off = PSIUD_POD.off then s.podWrite v
  else if off < 0x900000 && off % 0x10000 = 0 then s.portCtrl ((off - 0x800000) / 0x10000) v
  else s.regWrite agent off v

/-- Clocks and power. -/
def clkWrite (s : State) (agent : Agent) (off : Nat) (v : BitVec 64) : State :=
  if off = CLK_GATE_FIELD.off then s.gateWrite none v
  else if CLK_GATE_GROVE.off 0 ≤ off && off ≤ CLK_GATE_GROVE.off 3 then s.gateWrite (some ((off - CLK_GATE_GROVE.off 0) / 8)) v
  else if off = LG_MBOX_CTRL.off then (if v.getLsbD 0 then s.mbGo 0 else s)
  else s.regWrite agent off v

/-- The counter reader (R738). -/
def crWrite (s : State) (agent : Agent) (off : Nat) (v : BitVec 64) : State :=
  if off = CR_CTRL.off then s.crCtrl v
  else if off = CR_NOW.off then s.crNow v
  else if off = CR_PERIOD.off || off = CR_RING.off || off = CR_SEL_IO.off || (CR_SEL_GROVE.off 0 ≤ off && off ≤ CR_SEL_GROVE.off 3) then
    s.crConfig agent off v
  else s.regWrite agent off v

/-- A write of 64 bits that has reached its block. The core-plane windows and the image window have ways of their own. -/
def blockWrite (s : State) (go : State → State) (agent : Agent) (off : Nat) (v : BitVec 64) : State :=
  match chanPlace off, ctrPlace off, psiudPlace off with
  | some (u, o), _, _ => s.chanWrite agent u o off v
  | _, some (u, o), _ => s.pmcWrite u o v
  | _, _, some (p, c, o) => s.psiudWrite agent p c o off v
  | none, none, none =>
    if off < 0x40000 then s.ctrlWrite go agent off v
    else if inMsixTable off then s.msixWrite off v
    else if off < 0x200000 then s.hifWrite agent off v
    else if off < 0x400000 then s.schWrite agent off v
    else if off < 0x800000 then s.regWrite agent off v
    else if off < 0xC00000 then s.portWrite agent off v
    else if off < 0xD00000 then s.clkWrite agent off v
    else if off < 0xE00000 then (if agent = .lifeguard then (s.lgWriteReg (off - 0xD00000) v).2 else s)
    else if off < 0x1000000 then s.crWrite agent off v
    else s.regWrite agent off v

/-- The engine whose configuration register lies at an offset. -/
def engCfgAt (off : Nat) : Option Nat := (List.range 21).find? fun e => engBase e + 8 = off

/-- An engine that FORCE_SERIAL has put into serial mode stays in it until it is re-initialised (R447). -/
def serialKept (s : State) (off : Nat) : State :=
  match engCfgAt off with
  | some e => if s.flag (engForceSerial e) then s.setFlag (engSerial e) else s
  | none => s

/-- Fields of a register that hold what was written. -/
def storedFields (v : BitVec 64) (fs : List FieldSpec) : BitVec 64 :=
  fs.foldl (fun o f =>
    match f.acc with
    | .rw | .rws | .rwm => putBits o f.hi f.lo (getBits v f.hi f.lo)
    | _ => o) 0

/-- What the half of a register that a 4-byte write leaves out counts as: its stored fields, and 0 in fields that act or
clear when 1 is written. -/
def storedAt (s : State) (off : Nat) : BitVec 64 :=
  match ctrPlace off with
  | some (u, o) =>
    let v := ((s.pmc u).read (ctrWidth u) o).getD 0
    if o = 0 then v &&& 0x0000_0000_FFFF_FFFF#64 else v
  | none =>
    if inMsixTable off then s.msixRead off
    else
      match regAt off regTable with
      | some (r, _, _) => storedFields (s.reg off) r.fields
      | none => 0

/-- The 64-bit value that a write of a given width stands for (R6, R8). -/
def widened (s : State) (off : Nat) (w : Width) (v : BitVec 64) : BitVec 64 := w.merge (s.storedAt off) v

/-- Host accesses that are taken while READY is 0 (R590). -/
def takenEarly (off : Nat) : Bool := off < 0x101000 || (0xD00000 ≤ off && off < 0xE00000)

/-- A write of BAR0 by an agent (R10, R590, R593, R609). -/
def bar0WriteWith (go : State → State) (s : State) (agent : Agent) (off : Nat) (w : Width) (v : BitVec 64) : State :=
  if agent = .host && !s.flag HIF_STATUS.READY && !takenEarly off then s
  else if 0x1000000 ≤ off && off < 0x3000000 then s.planeAccess agent off w true v
  else if inImageWindow off then
    s.windowWrite (if w = .high then off + 4 else off) v (if w = .full then 8 else 4)
  else if inBadWindow off || !bar0Defined off || off = 0x104400 then s
  else
    let t := (s.blockWrite go agent off (s.widened off w v)).serialKept off
    if agent = .host then t.signalAgain off else t

/-! ## Reads -/

/-- A bad-frame list's entries at a window offset (R650). -/
def badWindow (s : State) (off : Nat) : BitVec 64 :=
  let n := (off - 0x40000) / 4096
  let fs := (s.boot.badFrames.filter fun f => f / 2 ^ 21 = n).map fun f => f % 2 ^ 21
  let i := (off - 0x40000) % 4096 / 4
  let e := fun (i : Nat) => (fs[i]?).getD 0xFFFFFFFF
  BitVec.ofNat 64 (e i + 2 ^ 32 * e (i + 1))

/-- Slots of a latency class in use (R526). -/
def classCount (s : State) (c : Nat) : Nat := (s.sch.slots.filter fun e => e.2.state ≠ .free_ && e.2.cls = c).length

/-- The registers whose value is not a stored one (R38, R39, R203, R354, R624, R625, R526, R534, R583). -/
def currentValue (s : State) (off : Nat) : Option (BitVec 64) :=
  let v := s.reg off
  if off = ALM_NOW.off then some s.time.almanac
  else if off = ALM_STATUS.off then some (putBits (putBits v 2 2 s.locked.toNat) 1 1 s.slewing.toNat)
  else if off = CP_ABORT.off then some (putBits 0 3 3 s.plane.abort.isSome.toNat)
  else if off = SVC_STATUS.off then
    some (putBits v 0 0 (s.plane.svc.any fun a => match a.who with | .core _ => false | _ => true).toNat)
  else if off = HIF_CQ_STORE.off then
    some (putBits (putBits v 29 16 s.genFree) 12 0 (s.heldCount fun r => !r.general))
  else if HIF_CQ_MOD.off 0 ≤ off && off ≤ HIF_CQ_MOD.off 15 && off % 16 = 8 then
    some (putBits v 63 48 (s.cring ((off - HIF_CQ_MOD.off 0) / 16)).held.length)
  else if off = SCH_OCC.off then
    some (putBits (putBits (putBits (putBits 0 51 39 (s.classCount 3)) 38 26 (s.classCount 2)) 25 13 (s.classCount 1)) 12 0 (s.classCount 0))
  else if PG_POOL.off 0 ≤ off && off ≤ PG_POOL.off 19 then some (putBits v 63 42 (s.freeFrames ((off - PG_POOL.off 0) / 8)))
  else
    match psiudPlace off with
    | some (p, c, 0x30) =>
      let k := s.rxChan p c
      let z := s.rxSize p c
      let used := ringUsed k.ring
      some (putBits (putBits v 63 44 used) 43 24 (if z = 0 then 0 else (k.tail + z - used) % z))
    | _ => none

/-- Fields that a read returns: those that only act when written read as zero (R10). -/
def shownFields (v : BitVec 64) (fs : List FieldSpec) : BitVec 64 :=
  fs.foldl (fun o f => match f.acc with | .wo => o | _ => putBits o f.hi f.lo (getBits v f.hi f.lo)) 0

/-- What an 8-byte read of a register of BAR0 returns outside the core-plane windows (R8, R10, R593). -/
def readBar0 (s : State) (off : Nat) : BitVec 64 :=
  if inBadWindow off then s.badWindow off
  else if inMsixTable off then s.msixRead off
  else if off = 0x104400 then s.reg off
  else
    match ctrPlace off, s.currentValue off, regAt off regTable with
    | some (u, o), _, _ => ((s.pmc u).read (ctrWidth u) o).getD 0
    | none, some v, _ => v
    | none, none, some (r, _, _) => shownFields (s.reg off) r.fields
    | none, none, none => 0

/-- The same as the host reads it (R590). -/
def hostRead (s : State) (off : Nat) : BitVec 64 :=
  if !s.flag HIF_STATUS.READY && !takenEarly off then 0 else s.readBar0 off

/-- What a read of a width returns to the host: a 4-byte read gives one half of the register as it stands at that read
(R8). -/
def hostReadPart (s : State) (off : Nat) (w : Width) : BitVec 64 := w.part (s.hostRead off)

/-- A request of the host that the function does not serve: in D3hot, and without Memory Space Enable, it takes configuration
requests alone, and any other completes as Unsupported Request and is recorded (R7, R586; log entry 60). -/
def asleep (s : State) (agent : Agent) : Bool := agent = .host && s.barsOff

end State

end Sys2Proof.Machine
end

