-- ==== Sys2Proof/Machine/Loader.lean ====
section
/-! DEFINITION. Configuration records and the management processor's mailbox: loading, patching and unloading of schedule
objects (R647, R648, R768 to R777). -/

namespace Sys2Proof.Machine

/-! ## Configuration records (R647, R648) -/

/-- A configuration record. -/
abbrev CfgRecord := BitVec 64 × BitVec 64

/-- The 16-byte records of a section. -/
def cfgRecords (bs : List Byte) : List CfgRecord :=
  (List.range (bs.length / 16)).map fun i =>
    (BitVec.ofNat 64 (bytesField bs (16 * i) 8), BitVec.ofNat 64 (bytesField bs (16 * i + 8) 8))

/-- A record's target has no reserved encoding and names an offset that some block defines. -/
def recordOk (r : CfgRecord) : Bool :=
  let t := r.1
  if t.getLsbD 63 then
    !t.getLsbD 60 && getBits t 57 40 = 0 && getBits t 59 58 ≠ 3 && getBits t 2 0 = 0
  else
    let off := getBits t 25 0
    getBits t 62 26 = 0 && off % 8 = 0 && bar0Defined off

/-- The cores whose unit a core-plane target names, under its replication. -/
def recordCores (t : BitVec 64) : List CoreId :=
  let x := getBits t 29 20
  let y := getBits t 39 30
  match getBits t 62 61 with
  | 0 => [coreAt x y]
  | 1 => (List.range 256).map fun g => coreAt (64 * (g % 16) + x % 64) (64 * (g / 16) + y % 64)
  | 2 => (List.range 16384).map fun h => coreAt (8 * (h % 128) + x % 8) (8 * (h / 128) + y % 8)
  | _ => (List.range 1048576).map fun c => coreAt (c % 1024) (c / 1024)

/-- The place in the core plane that a target names through a core. -/
def recordPlace (t : BitVec 64) (c : CoreId) : SvcPlace :=
  let o := getBits t 19 0
  match getBits t 59 58 with
  | 0 => .core c o
  | 1 => .hamper (hamperOf c) o
  | _ => .grove (groveOf c) o

namespace State

/-- A record is applied by the management processor; one for an RWS register is posted to its lifeguard mailbox. -/
def applyRecord (go : State → State) (s : State) (r : CfgRecord) : State :=
  let t := r.1
  if t.getLsbD 63 then
    (recordCores t).foldl (fun s c => s.svcAccess .manager (recordPlace t c) true r.2 false) s
  else
    let off := getBits t 25 0
    if 0xD00000 ≤ off && off < 0xE00000 then s.mbPost true 1 (BitVec.ofNat 32 (off - 0xD00000)) r.2
    else s.bar0WriteWith go .manager off .full r.2

end State

/-- The place of the first record that is not acceptable. -/
def firstBad (rs : List CfgRecord) : Option Nat := rs.findIdx? fun r => !recordOk r

/-! ## Schedule objects (R769 to R771) -/

/-- MP_MBOX_STAT.RESULT (R777). -/
def mrDone : Nat := 0
def mrFormat : Nat := 1
def mrTarget : Nat := 2
def mrRange : Nat := 3
def mrConfig : Nat := 4
def mrBusy : Nat := 5

/-- A section entry of a schedule object. -/
structure ObjSection where
  type  : Nat
  off   : Nat
  len   : Nat
  count : Nat
  deriving DecidableEq, Repr

/-- A library record: grove or 0xFFFF, first library word, and its words as bytes with their place in the section. -/
structure LibRecord where
  grove : Nat
  first : Nat
  count : Nat
  at_   : Nat
  deriving DecidableEq, Repr

/-- A hamper entry (R770). -/
structure ObjHamper where
  hamper  : Nat
  flags   : Nat
  lines   : Nat
  start   : Nat
  restart : Nat
  abortPc : Nat
  rsvd    : Nat
  deriving DecidableEq, Repr

/-- A relocation entry (R771) with its value. -/
structure Reloc where
  kind : Nat
  type : Nat
  sym  : Nat
  off  : Nat
  v    : BitVec 64
  deriving DecidableEq, Repr

/-- The bytes of an object's sections by type. -/
structure ObjParts where
  program : List Byte := []
  library : List Byte := []
  config  : List Byte := []
  hampers : List Byte := []
  relocs  : List Byte := []
  deriving DecidableEq, Repr

/-- An object's header as bytes 0 to 191. -/
def objTable (hd : List Byte) : List ObjSection :=
  (List.range (bytesField hd 9 1)).map fun i =>
    ⟨bytesField hd (64 + 16 * i) 1, bytesField hd (64 + 16 * i + 4) 4, bytesField hd (64 + 16 * i + 8) 4,
     bytesField hd (64 + 16 * i + 12) 4⟩

/-- Bytes of an entry of a section type; 0 where its entries vary. -/
def objEntry (t : Nat) : Nat := match t with | 1 => 32 | 3 => 16 | 4 => 16 | 5 => 16 | _ => 0

/-- Two sections have no byte in common. -/
def ObjSection.apart (a b : ObjSection) : Bool := a.off + a.len ≤ b.off || b.off + b.len ≤ a.off

/-- A section entry is well formed, given those before it. -/
def objSectionOk (obj : Nat) (hd : List Byte) (xs : List ObjSection) (i : Nat) (x : ObjSection) : Bool :=
  imgZero hd (64 + 16 * i + 1) 3 && 1 ≤ x.type && x.type ≤ 5 && 192 ≤ x.off && obj + x.off + x.len ≤ hbmEnd &&
  (objEntry x.type = 0 || x.len = x.count * objEntry x.type) &&
  (xs.take i).all fun y => y.type != x.type && x.apart y

/-- The first entry beyond SECT_COUNT that is not zero. -/
def strayEntry (hd : List Byte) : Option Nat :=
  (List.range 8).find? fun i => bytesField hd 9 1 ≤ i && !imgZero hd (64 + 16 * i) 16

/-- The header alone: RESULT FORMAT with the failing section entry, or TARGET, or nothing. -/
def objHeader (hd : List Byte) : Option (Nat × Nat) :=
  let n := bytesField hd 9 1
  if bytesField hd 0 4 ≠ 0x53564C48 || bytesField hd 4 2 ≠ 1 || !imgZero hd 10 2 || !imgZero hd 16 48 || n < 1 || 8 < n then
    some (mrFormat, 0)
  else
    match strayEntry hd with
    | some i => some (mrFormat, i)
    | none => if bytesField hd 6 2 ≠ 0x1024 || bytesField hd 8 1 ≠ 0 || bytesField hd 14 2 ≠ 3 then some (mrTarget, 0) else none

/-- Up to `n` library records from byte `at_` of a section on; none where they do not fit. -/
def libRecords (bs : List Byte) : Nat → Nat → Option (List LibRecord)
  | 0, at_ => if at_ = bs.length then some [] else none
  | n + 1, at_ =>
    if bs.length < at_ + 8 then none
    else
      let r : LibRecord := ⟨bytesField bs at_ 2, bytesField bs (at_ + 2) 2, bytesField bs (at_ + 4) 4, at_ + 8⟩
      let next := at_ + 8 + 32 * r.count
      if bs.length < next then none else (libRecords bs n next).map (r :: ·)

/-- A library record names a grove, or every grove, and words that the store has. -/
def LibRecord.ok (r : LibRecord) : Bool := (r.grove < 256 || r.grove = 0xFFFF) && r.first + r.count ≤ Config.libWords

/-- The hamper entries of a section. -/
def objHampers (bs : List Byte) : List ObjHamper :=
  (List.range (bs.length / 16)).map fun i =>
    let f := fun o n => bytesField bs (16 * i + o) n
    ⟨f 0 2, f 2 1, f 3 1, f 4 4, f 8 4, f 12 2, f 14 2⟩

/-- An address in the format of SEQ_PC (R210). -/
def pcOk (v : Nat) : Bool := v < 2 ^ 25 && (v < 2 ^ 24 || v % 2 ^ 24 < Config.libWords)

/-- A hamper entry is well formed: a preload has at most the 128 lines that SEQ_IC_PRELOAD names. -/
def ObjHamper.ok (h : ObjHamper) : Bool :=
  h.hamper < 16384 && h.flags < 4 && h.lines < 128 && pcOk h.start && pcOk h.restart && h.abortPc < Config.libWords && h.rsvd = 0

/-- The relocation entries of a section under a symbol table. -/
def objRelocs (bs : List Byte) (sym : Nat → BitVec 64) : List Reloc :=
  (List.range (bs.length / 16)).map fun i =>
    let f := fun o n => bytesField bs (16 * i + o) n
    ⟨f 0 1, f 1 1, f 2 2, f 4 4, sym (f 2 2) + BitVec.ofNat 64 (f 8 8)⟩

/-- The SEQ field of the control word at an offset. -/
def seqAt (bs : List Byte) (o : Nat) : SeqF := decodeSeq (BitVec.ofNat 24 (bytesField bs (o + 29) 3))

/-- `n` control words stand from an offset on within one run of words. -/
def wordsAt (lib : List LibRecord) (type len o n : Nat) : Bool :=
  let within := fun (a m : Nat) => decide (a ≤ o) && (o - a) % 32 = 0 && decide (o + 32 * n ≤ a + 32 * m)
  if type = 1 then within 0 (len / 32) else lib.any fun r => within r.at_ r.count

/-- A relocation meets R771: 0, FORMAT for an unknown KIND or section, RANGE otherwise. -/
def relocCheck (p : ObjParts) (lib : List LibRecord) (r : Reloc) : Nat :=
  let bs := if r.type = 1 then p.program else p.library
  let words := wordsAt lib r.type bs.length r.off
  if r.kind < 1 || 4 < r.kind || r.type < 1 || 2 < r.type then mrFormat
  else
    let ok : Bool := r.sym < 256 && match r.kind with
      | 1 => decide (r.off + 8 ≤ bs.length)
      | 2 => decide (r.off + 8 ≤ bs.length) && decide (r.v.toNat < hbmEnd)
      | 3 =>
        let a := seqAt bs r.off
        let b := seqAt bs (r.off + 32)
        let c := seqAt bs (r.off + 64)
        words 3 && decide (r.v.toNat < 2 ^ 32) && a.op = 1 && b.op = 2 && c.op = 2 &&
        a.arg.extractLsb' 14 4 = b.arg.extractLsb' 14 4 && b.arg.extractLsb' 14 4 = c.arg.extractLsb' 14 4
      | _ =>
        let a := seqAt bs r.off
        words 1 && decide (r.v.toNat < 2 ^ 18) && (a.op = 0x20 || a.op = 0x22)
    if ok then 0 else mrRange

/-- Bytes replaced from an offset on. -/
def putBytes (bs : List Byte) (o : Nat) (new : List Byte) : List Byte := bs.take o ++ new ++ bs.drop (o + new.length)

/-- The low `w` bits of the SEQ field at an offset replaced. -/
def putImm (bs : List Byte) (o w v : Nat) : List Byte :=
  let f := bytesField bs (o + 29) 3
  putBytes bs (o + 29) (bytesOf 3 (f - f % 2 ^ w + v % 2 ^ w))

/-- A relocation is applied to the bytes of its section. -/
def relocate (r : Reloc) (bs : List Byte) : List Byte :=
  let v := r.v.toNat
  match r.kind with
  | 1 => putBytes bs r.off (bytesOf 8 v)
  | 2 =>
    let old := bytesField bs r.off 8
    putBytes bs r.off (bytesOf 8 (old - old % 2 ^ 42 + v % 2 ^ 42))
  | 3 => putImm (putImm (putImm bs r.off 14 (v / 2 ^ 28)) (r.off + 32) 14 (v / 2 ^ 14)) (r.off + 64) 14 v
  | _ => putImm bs r.off 18 v

/-- The bytes of a section after all relocations that name it. -/
def relocateAll (rs : List Reloc) (type : Nat) (bs : List Byte) : List Byte :=
  (rs.filter fun r => r.type = type).foldl (fun bs r => relocate r bs) bs

/-- The first place of a list that gives a failure, with it. -/
def firstFail {α : Type} (f : α → Nat) (xs : List α) : Option (Nat × Nat) :=
  (xs.zipIdx.find? fun x => f x.1 ≠ 0).map fun x => (f x.1, x.2)

namespace State

/-! ## The check phase (R773, R776) -/

/-- The bytes of an object's sections. -/
def objParts (s : State) (obj : Nat) (xs : List ObjSection) : ObjParts :=
  let bytes := fun (t : Nat) =>
    match xs.find? fun x => x.type = t with
    | some x => s.hbmTaken (obj + x.off) x.len
    | none => []
  ⟨bytes 1, bytes 2, bytes 3, bytes 4, bytes 5⟩

/-- The header and section checks: a result and its DETAIL, or the sections. -/
def objCheck (s : State) (obj : Nat) : Except (Nat × Nat) (List ObjSection) :=
  let hd := s.hbmTaken obj 192
  match objHeader hd with
  | some f => .error f
  | none =>
    let xs := objTable hd
    match (xs.zipIdx.find? fun x => !objSectionOk obj hd xs x.2 x.1) with
    | some x => .error (mrFormat, x.2)
    | none => if xs.any fun x => x.type = 1 then .ok xs else .error (mrFormat, 0)

/-- Library and hamper entries that are malformed. -/
def entryCheck (xs : List ObjSection) (p : ObjParts) : Except (Nat × Nat) (List LibRecord) :=
  let lib := xs.zipIdx.find? fun x => x.1.type = 2
  let rs := match lib with | some x => libRecords p.library x.1.count 0 | none => some []
  match rs with
  | none => .error (mrFormat, (lib.map (·.2)).getD 0)
  | some rs =>
    match rs.findIdx? fun r => !r.ok with
    | some i => .error (mrFormat, i)
    | none =>
      match (objHampers p.hampers).findIdx? fun h => !h.ok with
      | some i => .error (mrFormat, i)
      | none => .ok rs

/-- The grove of a hamper entry is quiet (R186, R205, R776). -/
def hamperQuiet (s : State) (h : ObjHamper) : Bool := s.allHampers (groveOfHamper (BitVec.ofNat 14 h.hamper)) Hamper.quiet

/-- The grove that a library record names, or every grove, is quiet. -/
def libQuiet (s : State) (r : LibRecord) : Bool :=
  if r.grove = 0xFFFF then !s.anyHamper fun h => !h.quiet else s.allHampers (BitVec.ofNat 8 r.grove) Hamper.quiet

/-- The named groves and those of the named hampers are quiet. -/
def objQuiet (s : State) (hs : List ObjHamper) (lib : List LibRecord) : Bool := hs.all s.hamperQuiet && lib.all s.libQuiet

/-- The first hamper entry, else the first library record, that names what is not quiet: DETAIL of a RESULT BUSY. -/
def objBusy (s : State) (hs : List ObjHamper) (lib : List LibRecord) : Nat :=
  match hs.findIdx? fun h => !s.hamperQuiet h with
  | some i => i
  | none => (lib.findIdx? fun r => !s.libQuiet r).getD 0

/-- Every check of a LOAD or PATCH: a failure, or the sections' bytes with the relocations and library
records. -/
def loadCheck (s : State) (obj syms : Nat) : Except (Nat × Nat) (ObjParts × List LibRecord × List Reloc) := do
  let xs ← s.objCheck obj
  let p := s.objParts obj xs
  let lib ← entryCheck xs p
  let rs := objRelocs p.relocs fun i => BitVec.ofNat 64 (s.hbmTakenNat (syms + 8 * i) 8)
  let base := s.hbmTakenNat syms 8
  match firstFail (relocCheck p lib) rs with
  | some f => throw f
  | none => pure ()
  if base % 256 ≠ 0 || hbmEnd < base + p.program.length then throw (mrRange, 0)
  match firstBad (cfgRecords p.config) with
  | some i => throw (mrConfig, i)
  | none => pure ()
  if s.objQuiet (objHampers p.hampers) lib then pure (p, lib, rs) else throw (mrBusy, s.objBusy (objHampers p.hampers) lib)

/-! ## The write phase (R772, R773, R775) -/

/-- A grove's library words from `first` on. -/
def writeLib (s : State) (g : GroveId) (first : Nat) (ws : List (BitVec 256)) : State :=
  let k := s.grove g
  s.setGrove g { k with lib := ws.zipIdx.foldl (fun m w => smSet m (first + w.2) w.1) k.lib }

/-- The library records of an object. -/
def writeLibs (s : State) (lib : List LibRecord) (bs : List Byte) : State :=
  lib.foldl (fun s r =>
    let ws := (List.range r.count).map fun i => BitVec.ofNat 256 (bytesField bs (r.at_ + 32 * i) 32)
    let gs := if r.grove = 0xFFFF then (List.range 256).map (BitVec.ofNat 8) else [BitVec.ofNat 8 r.grove]
    gs.foldl (fun s g => s.writeLib g r.first ws) s) s

/-- A hamper's registers and its preload. -/
def setupHamper (s : State) (base : Nat) (e : ObjHamper) : State :=
  let h : HamperId := BitVec.ofNat 14 e.hamper
  let k := s.hamper h
  let s := s.setHamper h { k with
    pc := BitVec.ofNat 25 e.start, progBase := BitVec.ofNat 64 base
    abortCfg := BitVec.ofNat 64 (e.restart * 2 ^ 32 + e.flags / 2 * 2 ^ 25 + e.abortPc) }
  if e.start < 2 ^ 24 then s.icPreload h (BitVec.ofNat 24 e.start) (BitVec.ofNat 7 e.lines) (e.flags % 2 = 1) else s

/-- The write phase of a LOAD or PATCH. -/
def loadWrite (go : State → State) (s : State) (load : Bool) (base : Nat) (p : ObjParts) (lib : List LibRecord) (rs : List Reloc) : State :=
  let s := s.hbmStore base (relocateAll rs 1 p.program)
  let s := s.writeLibs lib (relocateAll rs 2 p.library)
  let s := if load then (cfgRecords p.config).foldl (applyRecord go) s else s
  (objHampers p.hampers).foldl (fun s e => s.setupHamper base e) s

/-! ## Requests (R773 to R777) -/

/-- A request under way. -/
def setMp (s : State) (j : Option MpJob) : State := s.setBoot { s.boot with mp := j }

/-- A request's result as it stands when the request ends. -/
def mpFails (s : State) (code : Nat) (f : Nat × Nat) : State := s.setMp (some { code := code, result := f.1, detail := f.2 })

/-- Counts what a request reads from HBM: the header, and of an object with a good header its sections, once each, and
the symbol table (R409, R453, R725; log entry 55). -/
def countObject (s : State) (obj : Nat) (syms : Option Nat) : State :=
  let t := s.countTaken obj 192
  match s.objCheck obj with
  | .error _ => t
  | .ok xs =>
    let t := xs.foldl (fun t x => t.countTaken (obj + x.off) x.len) t
    match syms with
    | none => t
    | some a => t.countTaken a 2048

/-- LOAD or PATCH. -/
def mpLoad (go : State → State) (s : State) (load : Bool) (obj syms : Nat) : State :=
  let code := if load then 1 else 2
  let t := s.countObject obj (some syms)
  match s.loadCheck obj syms with
  | .error f => t.mpFails code f
  | .ok (p, lib, rs) =>
    let hs := (objHampers p.hampers).map fun h => (BitVec.ofNat 14 h.hamper : HamperId)
    (loadWrite go t load (s.hbmTakenNat syms 8) p lib rs).setMp (some { code := code, hampers := hs })

/-- UNLOAD. -/
def mpUnload (s : State) (obj : Nat) : State :=
  let t := s.countObject obj none
  match s.objCheck obj with
  | .error f => t.mpFails 3 f
  | .ok xs =>
    let p := s.objParts obj xs
    let s := t
    let hs := objHampers p.hampers
    match entryCheck xs p with
    | .error f => s.mpFails 3 f
    | .ok lib =>
      if s.objQuiet hs lib then
        (hs.foldl (fun s h => s.seqClear (BitVec.ofNat 14 h.hamper)) s).setMp (some { code := 3 })
      else s.mpFails 3 (mrBusy, s.objBusy hs lib)

/-- A request ends: RESULT and DETAIL, and vector 61. -/
def mpEnd (s : State) (j : MpJob) : State :=
  let s := (s.setFld MP_MBOX_STAT.BUSY 0).setFld MP_MBOX_STAT.RESULT j.result
  ((s.setFld MP_MBOX_STAT.DETAIL j.detail).setMp none).irqEvt 9

/-- GO: `inner` is what a GO in a configuration record of this very request does. -/
def mpGoWith (inner : State → State) (s : State) : State :=
  if s.flag MP_MBOX_STAT.BUSY then s.setFlag MP_MBOX_STAT.REFUSED
  else
    let code := s.fld MP_MBOX_CMD.CODE
    let obj := s.fld MP_MBOX_ARG0.OBJ
    let syms := s.fld MP_MBOX_ARG1.SYMS
    let t := s.setFlag MP_MBOX_STAT.BUSY
    match code with
    | 1 => mpLoad inner t true obj syms
    | 2 => mpLoad inner t false obj syms
    | 3 => t.mpUnload obj
    | _ => s.mpEnd { code := code, result := mrFormat }

/-- A GO in a configuration record of a request under way: BUSY is 1 (R776). -/
def mpGoBusy (s : State) : State := s.setFlag MP_MBOX_STAT.REFUSED

/-- MP_MBOX_CTRL.GO. -/
def mpGo (s : State) : State := s.mpGoWith mpGoBusy

/-- A write of BAR0. -/
def bar0Write (s : State) (agent : Agent) (off : Nat) (w : Width) (v : BitVec 64) : State := bar0WriteWith mpGo s agent off w v

/-- A request written to the mailbox and posted. -/
def mpPost (s : State) (code : Nat) (obj syms : BitVec 42) : State :=
  let s := (s.setFld MP_MBOX_CMD.CODE code).setFld MP_MBOX_ARG0.OBJ obj.toNat
  (s.setFld MP_MBOX_ARG1.SYMS syms.toNat).mpGo

/-- A request ends: preloads of its hampers are complete, and a LOAD or PATCH marks them loaded (R773, R775). -/
def mpComplete (s : State) : State :=
  match s.boot.mp with
  | none => s
  | some j =>
    if j.hampers.any fun h => (s.hamper h).preload.isSome then s
    else
      let s := if j.code = 1 || j.code = 2 then j.hampers.foldl (fun s h => s.setHamper h { s.hamper h with loaded := true }) s else s
      s.mpEnd j

end State

/-- REGISTER_WRITE (R5 to R14, R590, R593). -/
def execRegisterWrite (agent : Agent) (off : BitVec 26) (width : Width) (v : BitVec 64) (s : State) :
    Host.Outcome State Fault Refusal :=
  let s := if agent = .host then s.addTotal 73 width.size else s
  if s.asleep agent then .next s.recordUnsupported
  else .next (s.bar0Write agent (off.toNat / 8 * 8) width v)

/-- An access to the service mesh and core-plane control registers in the third window: the register access that it is
(R354). -/
def State.controlAccess (s : State) (agent : Agent) (off : Nat) (op : SvcOp) (v : BitVec 64) : State :=
  if op.write then s.bar0Write agent off op.width v
  else if agent = .host then s.emit (.readData (bytesOf op.width.size (s.hostReadPart off op.width).toNat) false)
  else s

/-- SERVICE_ACCESS (R354). -/
def execServiceAccess (agent : Agent) (off : BitVec 26) (op : SvcOp) (v : BitVec 64) (s : State) :
    Host.Outcome State Fault Refusal :=
  let s := if agent = .host && op.write then s.addTotal 73 op.width.size else s
  if s.asleep agent then .next (if op.write then s.recordUnsupported else s.recordUnsupported.emit .unsupported)
  else if 0x3000000 ≤ off.toNat then .next (s.controlAccess agent (off.toNat / 8 * 8) op v)
  else .next (s.planeAccess agent off.toNat op.width op.write v)

/-- BAR0_BAD_ACCESS: a request that is not a naturally aligned 4-byte or 8-byte one (R7). -/
def execBar0BadAccess (_off : BitVec 26) (_len : Nat) (write : Bool) (s : State) : Host.Outcome State Fault Refusal :=
  let s := s.recordUnsupported
  .next (if write then s else s.emit .unsupported)

/-- LOAD (R773). -/
def execLoad (obj syms : BitVec 42) (s : State) : Host.Outcome State Fault Refusal := .next (s.mpPost 1 obj syms)

/-- PATCH (R775). -/
def execPatch (obj syms : BitVec 42) (s : State) : Host.Outcome State Fault Refusal := .next (s.mpPost 2 obj syms)

/-- UNLOAD (R777). -/
def execUnload (obj : BitVec 42) (s : State) : Host.Outcome State Fault Refusal :=
  .next (s.mpPost 3 obj (BitVec.ofNat 42 (s.fld MP_MBOX_ARG1.SYMS)))

/-- MP_REQUEST_COMPLETE (R773, R776). -/
def execMpRequestComplete (s : State) : Host.Outcome State Fault Refusal := .next s.mpComplete

end Sys2Proof.Machine
end

