-- ==== Sys2Proof/Machine/Boot.lean ====
section
/-! DEFINITION. Power, bring-up, images and fuses, the ends of device resets and of re-initialisations, and configuration
requests (R589, R631 to R652, R661 to R668, R746, R752). -/

namespace Sys2Proof.Machine

/-- The power-good input of a rail group, by its place in `Boot.pgs`. -/
def railBit (r : Rail) : Nat := match r with | .safe => 0 | .io => 1 | .hbm => 2 | .opt => 3 | .core => 4

namespace State

/-- Bring-up has reached a state and may work in it (R631, R746). -/
def bootAt (s : State) (st : Nat) : Bool := s.boot.started && s.powered && s.fld BOOT_STATE.STATE = st

def bootGo (s : State) (st : Nat) : State := s.setFld BOOT_STATE.STATE st

/-- FAILED with a code (R634). -/
def bootFail (s : State) (code detail : Nat) : State := (s.bootErr code detail).enterFailed

/-- Ports that PSIUD_POD makes part of the pod. -/
def podPorts (s : State) : List Nat := (List.range 16).filter fun p => (s.pod.peer p).isSome

/-- The work of LINKS begins: the ports of the pod that `p` names train, and the time of the attempt is kept (R635). -/
def linksTry (s : State) (p : Nat → Bool) : State :=
  let s := s.setBoot { s.boot with linksAt := s.time.ticks }
  (s.podPorts.filter p).foldl startTraining s

/-! ## Power (R745 to R748, R752) -/

/-- A power-good input is accepted. One that had been lost in LINKS before READY has the work of LINKS begin anew; the
other states' work is begun by their own commands (R746). -/
def pgOn (s : State) (r : Rail) (straps : BitVec 3) : State :=
  let b := s.boot
  let again := !b.pgs.getLsbD (railBit r) && s.boot.started && !s.boot.ready && s.fld BOOT_STATE.STATE = bsLinks
  let b := if r = .safe && !b.pgs.getLsbD 0 then { b with straps := straps } else b
  let s := s.setBoot { b with pgs := b.pgs ||| BitVec.ofNat 5 (2 ^ railBit r) }
  if s.powered && !s.boot.started then
    ((s.setBoot { s.boot with started := true }).setFlag CLK_SRC.IOSC_OK).bootGo 0
  else if s.powered && again then s.linksTry fun _ => true
  else s

/-- Power-off: what has been sent, waits, or is burnt into fuses is not the device's volatile state. -/
def powerOff (s : State) : State :=
  { State.reset with
    pending := s.pending, out := s.out, free := s.free
    boot := { blown := s.boot.blown, perst := s.boot.perst } }

/-- A power-good input deasserts (R701, R746). -/
def pgOff (s : State) (r : Rail) : State :=
  if r = .safe then s.powerOff
  else
    let t := s.setBoot { s.boot with pgs := s.boot.pgs &&& ~~~BitVec.ofNat 5 (2 ^ railBit r) }
    if s.boot.ready then t.trip 3 else t

/-- A sample of a power-good input; the eighth equal one in a row is accepted (R702). -/
def samplePowerGood (s : State) (r : Rail) (on : Bool) (straps : BitVec 3) : State :=
  let k := railBit r
  let was := smGet (false, 0) s.boot.pgSeen k
  let n := if was.1 = on then was.2 + 1 else 1
  let t := s.setBoot { s.boot with pgSeen := smSet s.boot.pgSeen k (on, min n 8) }
  if n < 8 || on = s.boot.pgs.getLsbD k then t else if on then t.pgOn r straps else t.pgOff r

/-! ## POR, XTAL and FUSE (R631, R632, R634, R636, R637) -/

/-- The trim words are sensed; where one is uncorrectable, XTAL is skipped. -/
def oscTrim (s : State) (ws : List FuseWord) : State :=
  if ws.all fun w => (fuseEcc w).isSome then s.bootGo 1
  else (s.setBoot { s.boot with failing := beFuse }).bootGo bsFuse

/-- The crystal is stable and the reference loop locks: the Almanac starts at 0. -/
def xtalStable (s : State) : State :=
  let s := ((s.setFlag CLK_SRC.XTAL_OK).setFlag CLK_SRC.REF_LOCK).setFlag ALM_STATUS.RUNNING
  let s := s.setFld ALM_STATUS.REF_LOST 0
  ({ s with time := { s.time with almanac := 0, started := true } }).bootGo bsFuse

/-- The crystal is not stable within 200 ms. -/
def xtalTimeout (s : State) : State := (s.setBoot { s.boot with failing := beXtal }).bootGo bsFuse

/-- Fuse word `i` as sensed, with the bits that the device has blown. -/
def sensed (s : State) (ws : List FuseWord) (i : Nat) : Option (BitVec 64) :=
  let w := (ws[i]?).getD ⟨0, 0, 0, 0⟩
  let b := smGet 0 s.boot.blown i
  fuseLoad i { w with data := w.data ||| b, second := w.second ||| b, third := w.third ||| b }

/-- FUSE_w takes its word; an uncorrectable one reads as a free value. -/
def takeFuse (s : State) (i : Nat) (v : Option (BitVec 64)) : State :=
  if 23 ≤ i && i ≤ 26 then s
  else
    match v with
    | some v => s.setReg (FUSE.off i) v
    | none => (s.setReg (FUSE.off i) (BitVec.ofNat 64 (s.freeNat 64))).tookFree

/-- The defect map of words 3 to 6 (R636). -/
def fuseDefects (s : State) : SMap Nat :=
  (List.range 32).filterMap fun k =>
    let b := getBits (s.fuse (3 + k / 8)) (8 * (k % 8) + 7) (8 * (k % 8))
    if 128 ≤ b then some (k, b % 32) else none

/-- LG_CAL_n takes what the trim words give (R636, R719). -/
def fuseCal (s : State) : State :=
  let trim := s.fuse 30 ++ s.fuse 29 ++ s.fuse 28 ++ s.fuse 27
  (List.range 261).foldl (fun t n =>
    t.setFld (LG_CAL.OFFSET n) (lowBits 16 (signedOf 14 (Config.sensorTrim trim n).toNat))) s

/-- DEBUG_LOCK (R636). -/
def debugLock (s : State) : Bool := (s.fuse 1).getLsbD 8

/-- With DEBUG_LOCK set, an instruction of the JTAG port that it does not let act is no longer in force: IDCODE is (R638, R760;
log entry 123). -/
def lockJtag (s : State) : State :=
  match s.boot.jtag with
  | .other _ => if s.debugLock then s.setBoot { s.boot with jtag := .idcode } else s
  | _ => s

/-- The fuses are loaded; the boot ROM then verifies the image, with IMG_STAT.BUSY at 1 (R676). -/
def fuseLoadAll (s : State) (ws : List FuseWord) : State :=
  let vs := (List.range 32).map (s.sensed ws)
  let s := vs.zipIdx.foldl (fun s x => s.takeFuse x.2 x.1) s
  let s := s.setReg DEV_SERIAL.off (s.fuse 0)
  let s := (s.setFld IMG_INFO.ARB s.arb)
  let s := s.fuseCal
  let bad := if s.boot.failing ≠ 0 then s.boot.failing else if vs.any (·.isNone) then beFuse else 0
  let s := (s.setBoot { s.boot with fusesIn := true, defects := s.fuseDefects }).lockJtag
  if bad = 0 then (s.setFlag IMG_STAT.BUSY).bootGo bsVerify else s.bootFail bad 0

/-! ## VERIFY and WAIT_IMAGE (R641 to R645) -/

/-- The flash image is read and checked; none where the read meets an error. -/
def imageVerify (s : State) (image : Option (List Byte)) : State :=
  let code := match image with | none => beFlash | some bs => s.imgVerify bs
  let s := s.emit (.flash [.read 0])
  let s := (s.setFld IMG_STAT.RESULT code).setFld IMG_STAT.BUSY 0
  match image with
  | some bs =>
    if code = 0 then (s.holdImage (bs.take (imgLen bs))).enterConfig else (s.bootErr code 0).bootGo bsWaitImage
  | none => (s.bootErr code 0).bootGo bsWaitImage

/-- A PLDM firmware update: the image arrives in the image buffer; a verified one goes to flash and is held from the next
device reset on, or at once by a device that waits for one. -/
def pldmUpdate (s : State) (img : List Byte) : State :=
  let s := s.setBoot { s.boot with buffer := memWriteBytes s.boot.buffer 0 (img.take 8388608) }
  let r := s.imgVerify img
  let s := s.setFld IMG_STAT.RESULT r
  if r ≠ 0 then s
  else
    let img := img.take (imgLen img)
    let s := s.emit (.flash (flashWrite img))
    if s.fld BOOT_STATE.STATE = bsWaitImage then (s.holdImage img).enterConfig
    else s.setBoot { s.boot with next := some img }

/-- The management processor begins or ends the write of a pushed image to flash (R644). The commands are handed out as the write
begins, in the order in which it issues them (log entry 143). -/
def flashProgram (s : State) (done : Bool) : State :=
  if done then
    if s.flag IMG_STAT.FLASH_BUSY then (s.setFld IMG_STAT.FLASH_BUSY 0).setBoot { s.boot with toFlash := false } else s
  else if s.bootAt bsReady && s.boot.toFlash && !s.flag IMG_STAT.FLASH_BUSY then
    (s.setFlag IMG_STAT.FLASH_BUSY).emit (.flash (flashWrite s.boot.held))
  else s

/-! ## Fuse programming (R646) -/

/-- The lowest zero bits of a word blown until `n` bits are 1. -/
def blowLow (n : Nat) (v : BitVec 64) : BitVec 64 :=
  (List.range 64).foldl (fun v i => if popCount v < n then v ||| BitVec.ofNat 64 (2 ^ i) else v) v

/-- Words 2 and 31 as the held image's flags ask for. -/
def fuseGoal (s : State) : BitVec 64 × BitVec 64 :=
  let img := s.boot.held
  let arb := if imgFlags img % 2 = 1 && s.arb < imgSvn img then blowLow (imgSvn img) (s.fuse 2) else s.fuse 2
  let rev := if imgFlags img / 2 % 2 = 1 then s.fuse 31 ||| BitVec.ofNat 64 (2 ^ imgSlot img - 1) else s.fuse 31
  (arb, rev)

/-- A fuse word takes blown bits. -/
def blow (s : State) (w : Nat) (v : BitVec 64) : State :=
  (s.setBoot { s.boot with blown := smSet s.boot.blown w (smGet 0 s.boot.blown w ||| v) }).setReg (FUSE.off w) v

/-- Fuses are programmed once for a held image, after READY. -/
def fuseProgram (s : State) (ok : Bool) : State :=
  if !s.bootAt bsReady || s.boot.held.isEmpty || s.boot.fused then s
  else
    let g := s.fuseGoal
    let t := s.setBoot { s.boot with fused := true }
    if g = (s.fuse 2, s.fuse 31) then t
    else if !ok then t.setFlag IMG_STAT.FUSE_FAIL
    else
      let t := (t.blow 2 g.1).blow 31 g.2
      t.setFld IMG_INFO.ARB t.arb

/-! ## CONFIG (R647, R648, R664) -/

/-- Records are applied in order, up to the first that is not acceptable, whose place is the result. -/
def applyRecords : Nat → List CfgRecord → State → State × Option Nat
  | _, [], s => (s, none)
  | i, r :: rs, s => if recordOk r then applyRecords (i + 1) rs (applyRecord mpGo s r) else (s, some i)

/-- Safe mode: every stream engine and the host DMA engine run serially. -/
def forceSerial (s : State) : State :=
  if s.flag BOOT_STATE.SAFE then
    (List.range 21).foldl (fun s e => (s.setFlag (engForceSerial e)).setFlag (engSerial e)) s
  else s

/-- Lifeguard settings: records for RWS registers, posted to the lifeguard (R639). -/
def lifeguardSettings (s : State) : State :=
  (cfgRecords (imgSection s.boot.held 3)).foldl (fun s r =>
    let off := getBits r.1 25 0
    if 0xD00000 ≤ off && off < 0xE00000 then s.mbPost true 1 (BitVec.ofNat 32 (off - 0xD00000)) r.2 else s) s

/-- The configuration section is applied. -/
def configure (s : State) : State × Option Nat := applyRecords 0 (cfgRecords (imgSection s.boot.held 2)) s

def configLoad (s : State) : State :=
  let r := s.lifeguardSettings.configure
  match r.2 with
  | some i => r.1.bootFail beConfig i
  | none =>
    r.1.forceSerial.bootGo bsHbm

/-! ## HBM, SRAM and LINKS (R635, R649 to R652) -/

/-- A number inserted into a rising list. -/
def insertNat (x : Nat) : List Nat → List Nat
  | [] => [x]
  | y :: ys => if x < y then x :: y :: ys else if x = y then y :: ys else y :: insertNat x ys

/-- The bad frames of a stack, rising, as device address / 65536. -/
def stackBad (n : Nat) (r : StackTest) : List Nat := r.bad.foldr (fun f xs => insertNat (n * 2 ^ 21 + f.toNat) xs) []

/-- The memory tests read and write the stacks; the spec states no number of bytes, so that what they add to the
byte totals is free (R649, R725; log entry 1). -/
def countTest (s : State) : State := (List.range 40).foldl (fun s i => (s.addTotal i (s.freeNat 64)).tookFree) s

/-- The stacks have been trained and tested. -/
def hbmTest (s : State) (rs : List StackTest) : State :=
  match rs.findIdx? fun r => !r.trained with
  | some n => s.bootFail beTrain n
  | none =>
    let s := (s.setFld BOOT_STATE.QUICK (s.fld BOOT_CFG.MEMTEST)).countTest
    let lists := rs.zipIdx.map fun x => stackBad x.2 x.1
    match lists.findIdx? fun l => 1024 < l.length with
    | some n => s.bootFail beBad n
    | none => (s.setBoot { s.boot with badFrames := lists.flatten }).bootGo bsSram

/-- A failing physical column is merged into the defect map; none where its strip would need two. -/
def mergeColumn (m : Option (SMap Nat)) (c : Nat) : Option (SMap Nat) :=
  m.bind fun m =>
    match m.find? fun e => e.1 = c / 33 with
    | none => some (smSet m (c / 33) (c % 33))
    | some e => if e.2 = c % 33 then some m else none

/-- The first strip that would need two disabled columns. -/
def badStrip (m : SMap Nat) : List Nat → Option Nat
  | [] => none
  | c :: cs =>
    match mergeColumn (some m) c with
    | none => some (c / 33)
    | some m => badStrip m cs

/-- The physical column that a logical one uses under a defect map (R23). -/
def physColumn (m : SMap Nat) (c : Nat) : Nat :=
  let k := c / 32
  let i := c % 32
  33 * k + if smGet 32 m k ≤ i then i + 1 else i

/-- The physical column that a strip leaves without power: its disabled one, else its last (R23). -/
def spareColumn (m : SMap Nat) (k : Nat) : Nat := 33 * k + smGet 32 m k

/-- The tier that holds a scratchpad row (R25). -/
def tierOf (row : BitVec 9) : Tier := if row.toNat < 256 then .upper else .lower

/-- SRAM BIST has run: its failing rows are reported with their tiers, their columns merged, and LINKS begins. -/
def sramBist (s : State) (rows : List BadRow) : State :=
  let s := s.setBoot { s.boot with bist := rows.map fun r => ⟨r, tierOf r.row⟩ }
  let cols := rows.map fun r => r.col.val
  match badStrip s.boot.defects cols with
  | some k => s.bootFail beSram k
  | none =>
    let m := (cols.foldl mergeColumn (some s.boot.defects)).getD s.boot.defects
    let s := (s.setBoot { s.boot with defects := m }).bootGo bsLinks
    s.linksTry fun p => s.portState p = psDown || s.portState p = psFailed

/-- Ticks in a second. -/
def secondTicks : Nat := 700000000

/-- Ports that failed training or qualification are tried again (R635). -/
def linkRetry (s : State) : State :=
  if s.time.ticks < s.boot.linksAt + s.fld BOOT_CFG.LINK_RETRY * secondTicks then s
  else
    s.linksTry fun p => s.portState p = psFailed || s.portState p = psMiswired

/-- READY (R631). -/
def release_ (s : State) : State :=
  ((s.bootGo bsReady).setFlag HIF_STATUS.READY).setBoot { s.boot with ready := true }

/-- Every required port has qualified. -/
def linksUp (s : State) : Bool := s.podPorts.all fun p => s.flag (PSIUD_STAT.QUAL_PASS p)

/-! ## The end of a device reset (R661, R662, R664) -/

/-- A device reset completes: the configuration is applied again, and the device is ready, or bring-up goes on. -/
def resetDone (s : State) : State :=
  let was := s.boot.before
  let s := { s with se := { s.se with selfRefresh := false } }
  if s.boot.held.isEmpty then s.bootGo (if was < bsConfig then was else bsWaitImage)
  else if was ≤ bsConfig then s.bootGo was
  else
    let r := s.configure
    match r.2 with
    | some i => r.1.bootFail beConfig i
    | none =>
      let s := r.1.forceSerial
      if was ≤ bsLinks then s.bootGo was else s.release_

/-! ## The end of a re-initialisation (R661, R666, R667) -/

/-- Records whose target is a BAR0 register that satisfies `p` are applied again. -/
def reapply (s : State) (p : Nat → Bool) : State :=
  (cfgRecords (imgSection s.boot.held 2)).foldl (fun s r =>
    if recordOk r && !r.1.getLsbD 63 && p (getBits r.1 25 0) then applyRecord mpGo s r else s) s

/-- Records whose target lies in a grove that satisfies `p` are applied again there. -/
def reapplyGroves (s : State) (p : GroveId → Bool) : State :=
  (cfgRecords (imgSection s.boot.held 2)).foldl (fun s r =>
    if recordOk r && r.1.getLsbD 63 then
      ((recordCores r.1).filter fun c => p (groveOf c)).foldl (fun s c => s.svcAccess .manager (recordPlace r.1 c) true r.2 false) s
    else s) s

/-- Registers that satisfy `p` return to their reset values. -/
def dropRegs (s : State) (p : Nat → Bool) : State := { s with bar0 := smDrop p s.bar0 }

/-- Registers whose configuration records are applied again: of a unit's block, all of it (R661, R666). -/
def unitBlock (unit index off : Nat) : Bool :=
  match unit with
  | 0 => 0x400000 + 0x10000 * index ≤ off && off < 0x410000 + 0x10000 * index
  | 1 => 0x800000 + 0x10000 * index ≤ off && off < 0x810000 + 0x10000 * index
  | 2 => 0x100800 ≤ off && off < 0x101400
  | 3 => 0x200000 ≤ off && off < 0x300000
  | _ => false

/-- Registers that a unit's re-initialisation clears. -/
def unitRegs (unit index off : Nat) : Bool :=
  match unit with
  | 0 => 0x400000 + 0x10000 * index ≤ off && off < 0x410000 + 0x10000 * index
  | 1 => 0x801000 + 0x10000 * index ≤ off && off < 0x802000 + 0x10000 * index
  | 2 => (0x100800 ≤ off && off < 0x100C00) || (0x101000 ≤ off && off < 0x101400)
  | 3 => 0x200000 ≤ off && off < 0x300000
  | _ => false

/-- An engine's channels, arbiter and counters as after reset. -/
def engineInit (s : State) (n : Nat) : State :=
  { s with se := { s.se with
      chans := smDrop (fun k => k / 32 = n || (n = 20 && 20 ≤ k / 32)) s.se.chans
      engines := smDrop (fun k => k = n) s.se.engines } }

/-- What a re-initialisation does at its end, before the configuration is applied again. -/
def reinitClear (s : State) (unit index : Nat) : State :=
  match unit with
  | 0 => (s.dropRegs (unitRegs 0 index)).engineInit index
  | 1 =>
    (s.dropRegs (unitRegs 1 index)).setPort index { s.port index with tx := [], rx := [], ctr := [], pmc := {} }
  | 2 => (s.dropRegs (unitRegs 2 index)).engineInit 20
  | 3 => (s.setFld SCH_STATUS.STATE schHalted).schInit
  | _ => s.initGroves (unitGroves unit index)

/-- A re-initialisation ends. -/
def reinitDone (s : State) : State :=
  match s.boot.reinit with
  | none => s
  | some (unit, index) =>
    let s :=
      if !unitOk unit index then s
      else if unit < 4 then ((s.reinitClear unit index).reapply (unitBlock unit index)).forceSerial
      else (s.reinitClear unit index).reapplyGroves (unitGroves unit index)
    let failed : Bool := unit = 1 && unitOk unit index && !s.flag (PSIUD_STAT.QUAL_PASS index)
    ((s.setFld FN_REINIT.BUSY 0).setFld FN_REINIT.RESULT failed.toNat).setBoot { s.boot with reinit := none }

/-! ## Configuration requests (R586 to R591) -/

/-- Offsets of Device Control, of Power Management's control and of MSI-X's Message Control. -/
def cfgCommand : Nat := 0x004
def cfgDevCtl : Nat := 0x058
def cfgPower : Nat := 0x044
def cfgMsix : Nat := 0x090

/-- A configuration request: nothing while the link is in reset, Request Retry Status until the fuse load has completed.
A write of Initiate Function Level Reset starts one; one that lets the function send requests sends those that wait. -/
def configRequest (s : State) (off : Nat) (be : BitVec 4) (w : Option (BitVec 32)) : State :=
  if s.boot.perst then s
  else if !s.boot.fusesIn then s.emit .retryStatus
  else
    let t := s.cfgServe off be w
    match w with
    | none => t
    | some v =>
      if off = cfgDevCtl && be.getLsbD 1 && v.getLsbD 15 then t.functionReset
      else if off = cfgMsix || off = cfgPower || off = cfgCommand then t.msixFlush.hostFlush
      else t

end State

/-- POWER_GOOD_ASSERT (R746, R752). -/
def execPowerGoodAssert (r : Rail) (straps : BitVec 3) (s : State) : Host.Outcome State Fault Refusal := .next (s.pgOn r straps)

/-- POWER_GOOD_DEASSERT (R701, R746). -/
def execPowerGoodDeassert (r : Rail) (s : State) : Host.Outcome State Fault Refusal := .next (s.pgOff r)

/-- SENSOR_SAMPLE (R702): `v` in the input's units (1/16 °C, mV, mA; for a pin, bit 0 is 1 where it is asserted or high,
and of PG_SAFE bits [6:4] are the straps); none where the sample is missed. -/
def execSensorSample (i : LgInput) (v : Option (BitVec 32)) (s : State) : Host.Outcome State Fault Refusal :=
  let x := v.map BitVec.toInt
  .next (match i with
    | .temp n => s.sampleTemp n.toNat x
    | .volt f => s.sampleVolt f.toNat x
    | .amp f => s.sampleAmp f.toNat x
    | .alert => match v with | some a => s.sampleAlert (a.getLsbD 0) | none => s
    | .vrReady => match v with | some a => s.sampleReady (a.getLsbD 0) | none => s
    | .powerGood r => match v with | some a => s.samplePowerGood r (a.getLsbD 0) (a.extractLsb' 4 3) | none => s)

/-- OSC_TRIM (R631, R632). -/
def execOscTrim (ws : List FuseWord) (s : State) : Host.Outcome State Fault Refusal :=
  if s.bootAt 0 then .next (s.oscTrim ws) else .next s

/-- XTAL_STABLE (R34, R632). -/
def execXtalStable (s : State) : Host.Outcome State Fault Refusal := if s.bootAt 1 then .next s.xtalStable else .next s

/-- XTAL_TIMEOUT (R632). -/
def execXtalTimeout (s : State) : Host.Outcome State Fault Refusal := if s.bootAt 1 then .next s.xtalTimeout else .next s

/-- FUSE_LOAD (R636, R637). -/
def execFuseLoad (ws : List FuseWord) (s : State) : Host.Outcome State Fault Refusal :=
  if s.bootAt bsFuse then .next (s.fuseLoadAll ws) else .next s

/-- IMAGE_VERIFY (R641, R642). -/
def execImageVerify (image : Option (List Byte)) (s : State) : Host.Outcome State Fault Refusal :=
  if s.bootAt bsVerify then .next (s.imageVerify image) else .next s

/-- IMG_VERIFY_CMD (R643). -/
def execImgVerifyCmd (s : State) : Host.Outcome State Fault Refusal := .next s.pushVerify

/-- PLDM_UPDATE (R645). -/
def execPldmUpdate (image : List Byte) (s : State) : Host.Outcome State Fault Refusal :=
  if s.boot.fusesIn && s.powered then .next (s.pldmUpdate image) else .next s

/-- FLASH_PROGRAM: the write of a pushed image begins, or is done (R644). -/
def execFlashProgram (done : Bool) (s : State) : Host.Outcome State Fault Refusal := .next (s.flashProgram done)

/-- FUSE_PROGRAM (R646). -/
def execFuseProgram (ok : Bool) (s : State) : Host.Outcome State Fault Refusal := .next (s.fuseProgram ok)

/-- CONFIG_LOAD (R647, R648, R664). -/
def execConfigLoad (s : State) : Host.Outcome State Fault Refusal := if s.bootAt bsConfig then .next s.configLoad else .next s

/-- HBM_TEST (R649 to R651). -/
def execHbmTest (rs : List StackTest) (s : State) : Host.Outcome State Fault Refusal :=
  if s.bootAt bsHbm then .next (s.hbmTest rs) else .next s

/-- SRAM_BIST (R652). -/
def execSramBist (rows : List BadRow) (s : State) : Host.Outcome State Fault Refusal :=
  if s.bootAt bsSram then .next (s.sramBist rows) else .next s

/-- LINK_RETRY (R635). -/
def execLinkRetry (s : State) : Host.Outcome State Fault Refusal := if s.bootAt bsLinks then .next s.linkRetry else .next s

/-- LINKS_COMPLETE (R631, R635). -/
def execLinksComplete (s : State) : Host.Outcome State Fault Refusal :=
  if s.bootAt bsLinks && s.linksUp then .next s.release_ else .next s

/-- DEVICE_RESET_DONE (R662). -/
def execDeviceResetDone (s : State) : Host.Outcome State Fault Refusal :=
  if s.fld BOOT_STATE.STATE = bsReset && s.powered then .next s.resetDone else .next s

/-- FN_REINIT_DONE (R667). -/
def execFnReinitDone (s : State) : Host.Outcome State Fault Refusal := .next s.reinitDone

/-- CONFIG_REQUEST (R589). -/
def execConfigRequest (off : BitVec 12) (be : BitVec 4) (w : Option (BitVec 32)) (s : State) : Host.Outcome State Fault Refusal :=
  .next (s.configRequest (off.toNat / 4 * 4) be w)

end Sys2Proof.Machine
end

