-- ==== Sys2Proof/Machine/FieldRows.lean ====
section
/-! DEFINITION. The commands that each stand for one field of a control word: a hamper tries, in this cycle, a word
that holds only that field (log entry 41). -/

namespace Sys2Proof.Machine

/-- A word that holds one vector field. -/
def slotWord (slot : Slot) (f : VxF) : Cw :=
  match slot with
  | .a => { vxa := f }
  | .b => { vxb := f }

/-- END, PART and zeros of a TLD or TST (R156). -/
def tileRest (e : BitVec 5) (part : Bool) : BitVec 9 := e ++ (if part then 1#1 else 0#1) ++ 0#3

/-- FWD: the source end is popped and pushed to an internal queue or a send end (R131, R152). -/
def execFwd (h : HamperId) (src dst : BitVec 5) (s : State) : Host.Outcome State Fault Refusal :=
  .next (s.issueField h { net := { op := 1, src := src, dst := dst } })

/-- DROP: the source end is popped and its entry discarded (R152). -/
def execDrop (h : HamperId) (src : BitVec 5) (s : State) : Host.Outcome State Fault Refusal :=
  .next (s.issueField h { net := { op := 2, src := src } })

/-- ASET: one configuration value of a generator (R129, R153, R154). -/
def execAset (h : HamperId) (gen sel : BitVec 3) (vsrc : BitVec 2) (val : BitVec 14) (s : State) : Host.Outcome State Fault Refusal :=
  .next (s.issueField h { agu := { op := 1, gen := gen, sel := sel, vsrc := vsrc, val := val } })

/-- ARST: I, J and PHASE become 0 (R155). -/
def execArst (h : HamperId) (gen : BitVec 3) (s : State) : Host.Outcome State Fault Refusal :=
  .next (s.issueField h { agu := { op := 2, gen := gen } })

/-- ASKIP: the generator advances as a use would (R155). -/
def execAskip (h : HamperId) (gen : BitVec 3) (s : State) : Host.Outcome State Fault Refusal :=
  .next (s.issueField h { agu := { op := 3, gen := gen } })

/-- TLD: an end is popped into one half of a tile (R156, R158, R274). -/
def execTld (h : HamperId) (t src : BitVec 5) (part : Bool) (s : State) : Host.Outcome State Fault Refusal :=
  .next (s.issueField h { tile := { op := 1, tile := t, rest := tileRest src part } })

/-- TST: one half of a tile is pushed to an end (R156, R158, R275). -/
def execTst (h : HamperId) (t dst : BitVec 5) (part : Bool) (s : State) : Host.Outcome State Fault Refusal :=
  .next (s.issueField h { tile := { op := 2, tile := t, rest := tileRest dst part } })

/-- TCFG: the tile takes a shape from the next cycle (R157, R160). -/
def execTcfg (h : HamperId) (t : BitVec 5) (rows bpr : BitVec 3) (s : State) : Host.Outcome State Fault Refusal :=
  .next (s.issueField h { tile := { op := 3, tile := t, rest := rows ++ bpr ++ 0#3 } })

/-- ENM: each core is enabled where the mask is nonzero (R114, R161). -/
def execEnm (h : HamperId) (m : BitVec 2) (s : State) : Host.Outcome State Fault Refusal :=
  .next (s.issueField h { mask := { mop := 1, mi := m } })

/-- ENALL: every core is enabled (R114, R161). -/
def execEnall (h : HamperId) (s : State) : Host.Outcome State Fault Refusal :=
  .next (s.issueField h { mask := { mop := 2 } })

/-- MONES: a mask of all ones (R118, R161). -/
def execMones (h : HamperId) (m : BitVec 2) (s : State) : Host.Outcome State Fault Refusal :=
  .next (s.issueField h { mask := { mop := 3, mi := m } })

/-- MZERO of the MASK field: a mask of zero (R118, R161). -/
def execMaskMzero (h : HamperId) (m : BitVec 2) (s : State) : Host.Outcome State Fault Refusal :=
  .next (s.issueField h { mask := { mop := 4, mi := m } })

/-- MNOT: a mask is complemented (R118, R161). -/
def execMnot (h : HamperId) (m : BitVec 2) (s : State) : Host.Outcome State Fault Refusal :=
  .next (s.issueField h { mask := { mop := 5, mi := m } })

/-- AUDIT_POINT: a word with CHECK.AUDIT (R164). -/
def execAuditPoint (h : HamperId) (id : BitVec 5) (s : State) : Host.Outcome State Fault Refusal :=
  .next (s.issueField h { check := { audit := 1, id := id } })

/-- MNOP: a word whose MX field does nothing (R165, R166). -/
def execMnop (h : HamperId) (s : State) : Host.Outcome State Fault Refusal :=
  .next (s.issueField h { mx := {} })

/-- MMA: a[ACC] += OPA × OPB (R166, R222, R236 to R249). -/
def execMma (h : HamperId) (fmt : BitVec 4) (mode : BitVec 2) (acc : BitVec 3) (opa opb : BitVec 6) (pass : BitVec 4) (ocs : BitVec 2) (s : State) : Host.Outcome State Fault Refusal :=
  .next (s.issueField h { mx := ⟨1, fmt, mode, acc, opa, opb, pass, ocs⟩ })

/-- MMS: a[ACC] -= OPA × OPB (R166, R222, R236 to R249). -/
def execMms (h : HamperId) (fmt : BitVec 4) (mode : BitVec 2) (acc : BitVec 3) (opa opb : BitVec 6) (pass : BitVec 4) (ocs : BitVec 2) (s : State) : Host.Outcome State Fault Refusal :=
  .next (s.issueField h { mx := ⟨2, fmt, mode, acc, opa, opb, pass, ocs⟩ })

/-- MMAS: a[ACC] += OPA × OPB with sparse weights (R166, R228, R229, R251). -/
def execMmas (h : HamperId) (fmt : BitVec 4) (mode : BitVec 2) (acc : BitVec 3) (opa opb : BitVec 6) (ocs : BitVec 2) (s : State) : Host.Outcome State Fault Refusal :=
  .next (s.issueField h { mx := ⟨3, fmt, mode, acc, opa, opb, 0, ocs⟩ })

/-- MMAC: a[ACC] += OPA × oc[OCS] (R166, R228). -/
def execMmac (h : HamperId) (fmt : BitVec 4) (mode : BitVec 2) (acc : BitVec 3) (opa : BitVec 6) (pass : BitVec 4) (ocs : BitVec 2) (s : State) : Host.Outcome State Fault Refusal :=
  .next (s.issueField h { mx := ⟨4, fmt, mode, acc, opa, 0, pass, ocs⟩ })

/-- MOCL: oc[OCS] = OPB (R166, R231). -/
def execMocl (h : HamperId) (opb : BitVec 6) (ocs : BitVec 2) (s : State) : Host.Outcome State Fault Refusal :=
  .next (s.issueField h { mx := { op := 5, opb := opb, ocs := ocs } })

/-- MZERO: a[ACC] = 0 (R166, R250, R259). -/
def execMzero (h : HamperId) (acc : BitVec 3) (s : State) : Host.Outcome State Fault Refusal :=
  .next (s.issueField h { mx := { op := 6, acc := acc } })

/-- MCHAIN: a[ACC] += partial sums in fixed order (R166, R253, R254). -/
def execMchain (h : HamperId) (acc : BitVec 3) (opa opb : BitVec 6) (s : State) : Host.Outcome State Fault Refusal :=
  .next (s.issueField h { mx := { op := 7, acc := acc, opa := opa, opb := opb } })

/-- MOUT: half of a[ACC] is pushed to an end (R166, R255, R265). -/
def execMout (h : HamperId) (acc : BitVec 3) (half : Bool) (dst : BitVec 5) (s : State) : Host.Outcome State Fault Refusal :=
  .next (s.issueField h { mx := { op := 8, acc := acc, opb := 0#1 ++ dst, pass := if half then 1 else 0 } })

/-- VNOP: a word whose VX field does nothing (R143, R168). -/
def execVnop (h : HamperId) (slot : Slot) (s : State) : Host.Outcome State Fault Refusal :=
  .next (s.issueField h (slotWord slot {}))

/-- VADD: sums of elements (R288, R289, R295). -/
def execVadd (h : HamperId) (slot : Slot) (ty : BitVec 3) (sa sb dst : BitVec 5) (s : State) : Host.Outcome State Fault Refusal :=
  .next (s.issueField h (slotWord slot ⟨1, ty, sa, sb, dst, 0⟩))

/-- VSUB: differences of elements (R288, R289, R295). -/
def execVsub (h : HamperId) (slot : Slot) (ty : BitVec 3) (sa sb dst : BitVec 5) (s : State) : Host.Outcome State Fault Refusal :=
  .next (s.issueField h (slotWord slot ⟨2, ty, sa, sb, dst, 0⟩))

/-- VMUL: products of elements (R288, R289, R295). -/
def execVmul (h : HamperId) (slot : Slot) (ty : BitVec 3) (sa sb dst : BitVec 5) (s : State) : Host.Outcome State Fault Refusal :=
  .next (s.issueField h (slotWord slot ⟨3, ty, sa, sb, dst, 0⟩))

/-- VMIN: the smaller elements (R290). -/
def execVmin (h : HamperId) (slot : Slot) (ty : BitVec 3) (sa sb dst : BitVec 5) (s : State) : Host.Outcome State Fault Refusal :=
  .next (s.issueField h (slotWord slot ⟨5, ty, sa, sb, dst, 0⟩))

/-- VMAX: the larger elements (R290). -/
def execVmax (h : HamperId) (slot : Slot) (ty : BitVec 3) (sa sb dst : BitVec 5) (s : State) : Host.Outcome State Fault Refusal :=
  .next (s.issueField h (slotWord slot ⟨6, ty, sa, sb, dst, 0⟩))

/-- VAND: bitwise AND (R168, R284, R295). -/
def execVand (h : HamperId) (slot : Slot) (ty : BitVec 3) (sa sb dst : BitVec 5) (s : State) : Host.Outcome State Fault Refusal :=
  .next (s.issueField h (slotWord slot ⟨9, ty, sa, sb, dst, 0⟩))

/-- VOR: bitwise OR (R168, R284, R295). -/
def execVor (h : HamperId) (slot : Slot) (ty : BitVec 3) (sa sb dst : BitVec 5) (s : State) : Host.Outcome State Fault Refusal :=
  .next (s.issueField h (slotWord slot ⟨10, ty, sa, sb, dst, 0⟩))

/-- VXOR: bitwise exclusive OR (R168, R284, R295). -/
def execVxor (h : HamperId) (slot : Slot) (ty : BitVec 3) (sa sb dst : BitVec 5) (s : State) : Host.Outcome State Fault Refusal :=
  .next (s.issueField h (slotWord slot ⟨11, ty, sa, sb, dst, 0⟩))

/-- VFMA: a product plus an addend, rounded once (R168, R288). -/
def execVfma (h : HamperId) (ty : BitVec 3) (sa sb sc dst : BitVec 5) (s : State) : Host.Outcome State Fault Refusal :=
  .next (s.issueField h { vxa := ⟨4, ty, sa, sb, dst, sc.zeroExtend 8⟩ })

/-- VCMP: a comparison writes a mask and truth elements (R168, R291, R292). -/
def execVcmp (h : HamperId) (slot : Slot) (ty : BitVec 3) (sa sb dst : BitVec 5) (cond : BitVec 3) (m : BitVec 2) (s : State) : Host.Outcome State Fault Refusal :=
  .next (s.issueField h (slotWord slot ⟨7, ty, sa, sb, dst, 0#3 ++ m ++ cond⟩))

/-- VSEL: elements chosen by a mask (R168, R284, R294). -/
def execVsel (h : HamperId) (slot : Slot) (ty : BitVec 3) (sa sb dst : BitVec 5) (m : BitVec 2) (s : State) : Host.Outcome State Fault Refusal :=
  .next (s.issueField h (slotWord slot ⟨8, ty, sa, sb, dst, m.zeroExtend 8⟩))

/-- VSHL: a shift left (R168, R284, R295). -/
def execVshl (h : HamperId) (slot : Slot) (ty : BitVec 3) (sa dst sh : BitVec 5) (s : State) : Host.Outcome State Fault Refusal :=
  .next (s.issueField h (slotWord slot ⟨0x0C, ty, sa, 0, dst, sh.zeroExtend 8⟩))

/-- VSHR: a shift right, logical or arithmetic (R168, R284, R295). -/
def execVshr (h : HamperId) (slot : Slot) (ty : BitVec 3) (sa dst sh : BitVec 5) (arith : Bool) (s : State) : Host.Outcome State Fault Refusal :=
  .next (s.issueField h (slotWord slot ⟨0x0D, ty, sa, 0, dst, (if arith then 1#3 else 0#3) ++ sh⟩))

/-- VCVT: conversion between element types (R234, R285, R296, R297). -/
def execVcvt (h : HamperId) (slot : Slot) (ty : BitVec 3) (sa sb dst : BitVec 5) (dty : BitVec 3) (sat : Bool) (s : State) : Host.Outcome State Fault Refusal :=
  .next (s.issueField h (slotWord slot ⟨0x0E, ty, sa, sb, dst, (if sat then 1#5 else 0#5) ++ dty⟩))

/-- VMOV: elements unchanged (R168, R284, R295). -/
def execVmov (h : HamperId) (slot : Slot) (ty : BitVec 3) (sa dst : BitVec 5) (s : State) : Host.Outcome State Fault Refusal :=
  .next (s.issueField h (slotWord slot ⟨0x0F, ty, sa, 0, dst, 0⟩))

/-- VFN: a function of each element, rounded once (R302). -/
def execVfn (h : HamperId) (ty : BitVec 3) (sa dst : BitVec 5) (fn : BitVec 4) (s : State) : Host.Outcome State Fault Refusal :=
  .next (s.issueField h { vxa := ⟨0x10, ty, sa, 0, dst, fn.zeroExtend 8⟩ })

/-- VRSUM: the sum of the elements (R286, R300). -/
def execVrsum (h : HamperId) (ty : BitVec 3) (sa dst : BitVec 5) (s : State) : Host.Outcome State Fault Refusal :=
  .next (s.issueField h { vxa := ⟨0x11, ty, sa, 0, dst, 0⟩ })

/-- VRMAX: the largest element (R286, R301). -/
def execVrmax (h : HamperId) (ty : BitVec 3) (sa dst : BitVec 5) (s : State) : Host.Outcome State Fault Refusal :=
  .next (s.issueField h { vxa := ⟨0x12, ty, sa, 0, dst, 0⟩ })

/-- VCMPR: elements compressed under a mask (R286, R298). -/
def execVcmpr (h : HamperId) (ty : BitVec 3) (sa dst : BitVec 5) (m : BitVec 2) (s : State) : Host.Outcome State Fault Refusal :=
  .next (s.issueField h { vxa := ⟨0x13, ty, sa, 0, dst, m.zeroExtend 8⟩ })

/-- VEXPD: elements expanded under a mask (R286, R299). -/
def execVexpd (h : HamperId) (ty : BitVec 3) (sa sb dst : BitVec 5) (m : BitVec 2) (s : State) : Host.Outcome State Fault Refusal :=
  .next (s.issueField h { vxa := ⟨0x14, ty, sa, sb, dst, m.zeroExtend 8⟩ })

/-- VRNG: random elements of a counter block (R303 to R305). -/
def execVrng (h : HamperId) (ty : BitVec 3) (sa dst : BitVec 5) (s : State) : Host.Outcome State Fault Refusal :=
  .next (s.issueField h { vxa := ⟨0x15, ty, sa, 0, dst, 0⟩ })

/-- VACC: half an accumulator plus an operand (R287, R309). -/
def execVacc (h : HamperId) (slot : Slot) (ty : BitVec 3) (sa : BitVec 5) (acc : BitVec 3) (half : Bool) (dst : BitVec 5) (s : State) : Host.Outcome State Fault Refusal :=
  .next (s.issueField h (slotWord slot ⟨0x16, ty, sa, acc.zeroExtend 5, dst, if half then 1 else 0⟩))

/-- VSETVL: the vector length from an immediate or an entry (R282, R283). -/
def execVsetvl (h : HamperId) (slot : Slot) (fromSrc : Bool) (len : BitVec 6) (sa : BitVec 5) (s : State) : Host.Outcome State Fault Refusal :=
  .next (s.issueField h (slotWord slot ⟨0x17, 0, sa, 0, 0, (if fromSrc then 2#2 else 0#2) ++ len⟩))

/-- PSWAP: the step parameter banks swap (R177, R178). -/
def execPswap (h : HamperId) (s : State) : Host.Outcome State Fault Refusal :=
  .next (s.issueField h { seq := ⟨0x11, 0⟩ })

/-- HOLD_AT with an immediate offset (R44, R187). -/
def execHoldAtI (h : HamperId) (t : BitVec 18) (s : State) : Host.Outcome State Fault Refusal :=
  .next (s.issueField h { seq := ⟨0x20, t⟩ })

/-- HOLD_AT with an offset from a scalar (R44, R187). -/
def execHoldAtR (h : HamperId) (a : BitVec 4) (s : State) : Host.Outcome State Fault Refusal :=
  .next (s.issueField h { seq := ⟨0x21, a ++ 0#14⟩ })

/-- HOLD_REL with an immediate offset (R44, R187). -/
def execHoldRelI (h : HamperId) (d : BitVec 18) (s : State) : Host.Outcome State Fault Refusal :=
  .next (s.issueField h { seq := ⟨0x22, d⟩ })

/-- HOLD_REL with an offset from a scalar (R44, R187). -/
def execHoldRelR (h : HamperId) (a : BitVec 4) (s : State) : Host.Outcome State Fault Refusal :=
  .next (s.issueField h { seq := ⟨0x23, a ++ 0#14⟩ })

/-- WAIT with an immediate count (R188). -/
def execWaitI (h : HamperId) (n : BitVec 14) (s : State) : Host.Outcome State Fault Refusal :=
  .next (s.issueField h { seq := ⟨0x24, 0#4 ++ n⟩ })

/-- WAIT with a count from a scalar (R188). -/
def execWaitR (h : HamperId) (a : BitVec 4) (s : State) : Host.Outcome State Fault Refusal :=
  .next (s.issueField h { seq := ⟨0x25, a ++ 0#14⟩ })

/-- END: the hamper is done (R189). -/
def execSeqEnd (h : HamperId) (s : State) : Host.Outcome State Fault Refusal :=
  .next (s.issueField h { seq := ⟨0x3E, 0⟩ })

end Sys2Proof.Machine
end

