-- ==== Sys2Proof/Machine/Link.lean ====
section
/-! DEFINITION. Flits that arrive on a Psiud port, and service messages: their handling, their rings and their
forwarding (R543 to R547, R555, R567 to R571). -/

namespace Sys2Proof.Machine

namespace State

/-! ## Credits (R553, R568) -/

/-- Credits that a flit returns, in 8-byte units. -/
def takeCredit (s : State) (p : Nat) (f : PFlit) : State :=
  if f.cred = 0 then s
  else if f.csvc then s.setPort p { s.port p with svcCred := (s.port p).svcCred + 8 * f.cred.toNat }
  else s.incSat (PSIUD_TX_STAT.CREDIT p f.cch.toNat) f.cred.toNat

/-! ## Service messages (R567, R568) -/

/-- A service message from its words. -/
def svcParse (ws : List (BitVec 64 × Bool)) : SvcMsg :=
  let w : Nat → BitVec 64 := fun i => ((ws[i]?).getD (0, false)).1
  { type := (w 0).extractLsb' 32 8, src := (w 0).extractLsb' 40 8, dst := (w 0).extractLsb' 48 8, hops := (w 0).extractLsb' 56 8
    arg := w 1
    payload := (((ws.drop 2).flatMap fun x => bytesOf 8 x.1.toNat).take (w 0 &&& 0xFFFFFFFF#64).toNat) }

/-- A 64-bit value of a payload. -/
def payWord (m : SvcMsg) (i : Nat) : BitVec 64 := BitVec.ofNat 64 (bytesField m.payload (8 * i) 8)

/-- A message that stays on this device acts by its type; a reserved type is discarded. The PHY has taken the time of
arrival. -/
def svcAct (s : State) (p : Nat) (m : SvcMsg) : State :=
  let src := m.src.toNat
  let low := m.arg.toNat % 2 ^ 32
  match m.type.toNat with
  | 1 => s.tookFree.timeReqMsg { port := BitVec.ofNat 4 p, t1 := m.arg, t2 := s.stamp, t3 := 0, t4 := 0, off := 0 }
  | 2 =>
    s.tookFree.timeRespMsg
      { port := BitVec.ofNat 4 p, t1 := s.time.reqT1, t2 := m.arg, t3 := payWord m 0, t4 := s.stamp, off := payWord m 1 }
  | 3 => s.scaleMsg src (m.arg.extractLsb' 0 20) (m.arg.extractLsb' 20 32)
  | 4 => s.departMsg m.arg
  | 5 => s.departStateMsg src (m.arg.toNat % 8)
  | 6 => s.stepCopy m.arg.toNat m.payload
  | 7 => s.maskMsg low (getBits m.arg 39 32)
  | 8 => s.spillReq src
  | 9 => s.spillAck src low (m.arg.getLsbD 63)
  | 10 => s.pageData src low m.payload
  | 11 => s.fetchReq src low
  | 12 => s.freeMsg src low
  | _ => s

/-- Types that travel between the two ends of one port only. -/
def svcLocal (m : SvcMsg) : Bool := 1 ≤ m.type.toNat && m.type.toNat ≤ 3

/-- A complete service message of `bytes` ring bytes: handled and freed, or held until it is forwarded. -/
def svcComplete (s : State) (p bytes : Nat) (m : SvcMsg) : State :=
  if svcLocal m || m.dst.toNat = s.pod.dev then (s.svcAct p m).svcFree (p, bytes)
  else s.setPort p { s.port p with svcIn := (s.port p).svcIn ++ [{ m with ring := some (p, bytes) }] }

/-- Units of a service message, from its first header word. -/
def svcUnits (w : BitVec 64) : Nat := 2 + ((w &&& 0xFFFFFFFF#64).toNat + 7) / 8

/-- A first service flit places its message in the service ring (R552, R568). -/
def svcStart (s : State) (p : Nat) (f : PFlit) : State :=
  let k := s.port p
  match f.payload with
  | [] => s
  | w :: _ =>
    let x := place svcRing (k.svcRxT / 8) (svcUnits w.1)
    s.setPort p { k with svcPart := [], svcRxT := 8 * x.2, svcPlace := 8 * (x.1 + svcUnits w.1) }

/-- An accepted service flit. -/
def svcFlit (s : State) (p : Nat) (f : PFlit) : State :=
  let s := if f.first then s.svcStart p f else s
  let k := s.port p
  let ws := k.svcPart ++ f.payload
  if f.last then (s.setPort p { k with svcPart := [], svcPlace := 0 }).svcComplete p k.svcPlace (svcParse ws)
  else s.setPort p { k with svcPart := ws }

/-! ## Acceptance (R544 to R547) -/

/-- A received flit is discarded before it was accepted: one NAK asks for the expected number. -/
def nakOnce (s : State) (p : Nat) : State :=
  if (s.port p).nakSent then s else (s.setPort p { s.port p with nakSent := true }).sendPlain p ftNak

/-- A flit whose CRC fails. -/
def crcFails (s : State) (p : Nat) : State := ((s.incSat (PSIUD_ERR.CRC_ERR p) 1).bumpP p 4 1).nakOnce p

/-- The payload of an accepted flit by its type. -/
def flitAct (s : State) (p : Nat) (f : PFlit) : State :=
  if f.type = ftData then s.rxData p f
  else if f.type = ftService then s.svcFlit p f
  else
    match f.payload with
    | [] => s
    | w :: _ => s.announced p (getBits w.1 25 20) (getBits w.1 19 0)

/-- A sequenced flit: the expected one is accepted, an earlier one is a duplicate, a later one shows a loss. -/
def sequenced (s : State) (p : Nat) (f : PFlit) : State :=
  let k := s.port p
  let n := 8 * f.payload.length
  if f.seq = k.expect then
    let s := s.setPort p { k with expect := k.expect + 1, nakSent := false }
    (((s.bumpP p 3 n).addTotal (41 + 2 * p) n).takeCredit p f).flitAct p f
  else if 2048 ≤ (f.seq - k.expect).toNat then s
  else s.nakOnce p

/-- A flit arrives. -/
def flitIn (s : State) (p : Nat) (b : BitVec 2048) : State :=
  match PFlit.decode b with
  | none => s.crcFails p
  | some f =>
    let s := s.ackTo p f.ack
    if f.type = ftNak then (s.takeCredit p f).startReplay p
    else if f.type = ftIdle then s.takeCredit p f
    else if f.type = ftData || f.type = ftService || f.type = ftAnnounce then s.sequenced p f
    else s

/-! ## Forwarding (R568, R569) -/

/-- The oldest complete message for another device goes on its way. -/
def svcForward (s : State) (p : Nat) : State :=
  match (s.port p).svcIn with
  | [] => s
  | m :: rest =>
    let s := s.setPort p { s.port p with svcIn := rest }
    let m := { m with hops := m.hops + 1 }
    match s.workingPort m.dst.toNat with
    | some q => ((s.sendSvc m).incWrap PSIUD_SVC_STAT.FORWARDED 1).bumpP q 8 1
    | none =>
      let t := s.sendSvc m
      match m.ring with | some x => t.svcFree x | none => t

end State

/-- LINK_FLIT_RECEIVE (R544 to R547): the receive FEC counts the symbols it has corrected and the codewords it could not
(R581, R724); what comes with a flit whose CRC holds tells of the pod's slots acts at once (R516; log entry 108). -/
def execLinkFlitReceive (p : PortId) (f : RxFlit) (s : State) : Host.Outcome State Fault Refusal :=
  if s.portCarries p.toNat then
    let s := (s.incSat (PSIUD_ERR.FEC_UNCORR p.toNat) f.fec.lost.toNat).bumpP p.toNat 6 f.fec.symbols.toNat
    let t := s.flitIn p.toNat f.bits
    .next (if (PFlit.decode f.bits).isSome then f.news.foldl State.podNews t else t)
  else .next s

/-- SERVICE_FORWARD (R568, R569). -/
def execServiceForward (p : PortId) (s : State) : Host.Outcome State Fault Refusal := .next (s.svcForward p.toNat)

end Sys2Proof.Machine
end

