-- ==== Sys2Proof/Machine/Side.lean ====
section
/-! DEFINITION. Attestation, platform monitoring, the SMBus and the JTAG port (R638, R653 to R656, R758 to R760). -/

namespace Sys2Proof.Machine

/-- A 256-bit number as 32 bytes. -/
def nonceBytes (v : BitVec 256) : List Byte := bytesOf 32 v.toNat

namespace State

/-- A request reaches the device over a transport: power is good, and on PCI Express the link is not in reset. -/
def reached (s : State) (smbus : Bool) : Bool := s.powered && (smbus || !s.boot.perst)

/-- A reply over a transport; on the SMBus the device takes part in a transfer from then on. -/
def answer (s : State) (smbus : Bool) (o : Output) : State :=
  if !s.reached smbus then s
  else
    let s := s.emit o
    if smbus then s.setBoot { s.boot with smbHeld := true } else s

/-! ## SPDM (R653 to R655) -/

/-- The reply takes slot 0's chain from the identity block of the flash (R638, R653, R756; log entry 143). -/
def answerChain (s : State) (smbus : Bool) (o : Output) : State :=
  (if s.reached smbus then s.emit (.flash [.read 0x800000]) else s).answer smbus o

/-- The digest of slot 0's chain. -/
def chainDigest : List Byte := sha256 Config.identityChain

/-- A part of slot 0's chain. -/
def certificate (off len : Nat) : SpdmReply :=
  let part := (Config.identityChain.drop off).take len
  .certificate part (Config.identityChain.length - off - part.length)

/-- The responder's nonce is a free value (log entry 1). -/
def spdmNonce (s : State) : BitVec 256 := BitVec.ofNat 256 (s.freeNat 256)

/-- The answer to a CHALLENGE. -/
def challengeReply (s : State) (slot nonce : Nat) : SpdmReply :=
  if !s.boot.key then .notReady
  else if slot ≠ 0 then .invalid
  else
    let mine := s.spdmNonce
    .challengeAuth chainDigest mine (Config.signature (bytesOf 32 nonce ++ chainDigest ++ nonceBytes mine))

/-- A digest of something that does not exist yet is a free value (log entry 1). -/
def digestOr (s : State) (have_ : Bool) (hi : Bool) (bs : List Byte) : List Byte :=
  if have_ then sha256 bs else bytesOf 32 (s.freeNat 512 / (if hi then 2 ^ 256 else 1))

/-- A measurement block (R655). -/
def measurement (s : State) (i : Nat) : List Byte :=
  let img := s.boot.held
  let held := !img.isEmpty
  match i with
  | 1 => sha256 Config.bootRom
  | 2 => s.digestOr held false img
  | 3 => s.digestOr held true (imgSection img 2)
  | 4 => sha256 (bytesOf 8 (s.fuse 1).toNat ++ bytesOf 8 (s.fuse 2).toNat ++ bytesOf 8 (s.fuse 31).toNat)
  | _ => if held && countType (imgTable img) 3 ≠ 0 then sha256 (imgSection img 3) else bytesOf 32 0

/-- The answer to a GET_MEASUREMENTS: index 0 asks for the number of blocks, 0xFF for all of them. -/
def measureReply (s : State) (index : Nat) (signed : Bool) (nonce : BitVec 256) : SpdmReply :=
  if signed && !s.boot.key then .notReady
  else if 5 < index && index ≠ 0xFF then .invalid
  else
    let is := if index = 0 then [] else if index = 0xFF then [1, 2, 3, 4, 5] else [index]
    let blocks := is.map fun i => (BitVec.ofNat 8 i, s.measurement i)
    let mine := s.tookFree.spdmNonce
    let text := nonceBytes nonce ++ nonceBytes mine ++ blocks.flatMap fun b => b.1 :: b.2
    .measurements 5 blocks (if signed then some (mine, Config.signature text) else none)

/-- Telemetry and events read as free values (log entry 1). -/
def monitorData (s : State) (smbus : Bool) : State := s.tookFree.answer smbus (.pldm smbus (BitVec.ofNat 64 (s.freeNat 64)))

/-- PLDM Type 2: telemetry, an event that arises, and the reading of an event (R656, R759). -/
def pldmMonitor (s : State) (smbus : Bool) (m : PldmMon) : State :=
  match m with
  | .telemetry => s.monitorData smbus
  | .event => s.setBoot { s.boot with events := s.boot.events + 1 }
  | .readEvent =>
    if s.boot.events = 0 || !s.reached smbus then s
    else (s.monitorData smbus).setBoot { (s.monitorData smbus).boot with events := s.boot.events - 1 }

/-! ## SMBus and JTAG (R758 to R760) -/

/-- SMB_ALERT_N is asserted. -/
def smbAlert (s : State) : Bool := s.boot.events ≠ 0

/-- The device's 7-bit SMBus address. -/
def smbAddress (s : State) : Nat := 0x60 + s.boot.straps.toNat % 4

/-- IDCODE. -/
def jtagId : BitVec 32 := 0x01024B47

/-- A JTAG instruction acts; a reset of the test logic, by TRST_N or in Test-Logic-Reset, puts IDCODE in force. Boundary
scan shifts out what its cells have read of pins that the model does not hold: a free value (log entry 123). -/
def jtagTake (s : State) (i : JtagInstr) : State :=
  let t := s.setBoot { s.boot with jtag := if i = .reset then .idcode else i }
  match i with
  | .idcode => t.emit (.jtag jtagId)
  | .boundary => (t.emit (.jtag (BitVec.ofNat 32 (s.freeNat 32)))).tookFree
  | _ => t

end State

/-- GET_VERSION: SPDM 1.3 (R653). -/
def execGetVersion (smbus : Bool) (s : State) : Host.Outcome State Fault Refusal :=
  .next (s.answer smbus (.spdm smbus (.version [0x13])))

/-- GET_CAPABILITIES (R653). -/
def execGetCapabilities (smbus : Bool) (s : State) : Host.Outcome State Fault Refusal :=
  .next (s.answer smbus (.spdm smbus (.capabilities true true true)))

/-- NEGOTIATE_ALGORITHMS: of the requester's algorithms those that the device supports are selected (R653). -/
def execNegotiateAlgorithms (smbus asym hash : Bool) (s : State) : Host.Outcome State Fault Refusal :=
  .next (s.answer smbus (.spdm smbus (.algorithms asym hash)))

/-- GET_DIGESTS (R653). -/
def execGetDigests (smbus : Bool) (s : State) : Host.Outcome State Fault Refusal :=
  .next (s.answerChain smbus (.spdm smbus (.digests State.chainDigest)))

/-- GET_CERTIFICATE (R653). -/
def execGetCertificate (smbus : Bool) (slot : BitVec 4) (off len : BitVec 16) (s : State) : Host.Outcome State Fault Refusal :=
  if slot = 0 then .next (s.answerChain smbus (.spdm smbus (State.certificate off.toNat len.toNat)))
  else .next (s.answer smbus (.spdm smbus .invalid))

/-- CHALLENGE (R653, R654). -/
def execChallenge (smbus : Bool) (slot : BitVec 4) (nonce : BitVec 256) (s : State) : Host.Outcome State Fault Refusal :=
  let r : Output := .spdm smbus (s.challengeReply slot.toNat nonce.toNat)
  if s.boot.key && slot = 0 then .next (s.tookFree.answerChain smbus r) else .next (s.tookFree.answer smbus r)

/-- GET_MEASUREMENTS (R653 to R655). -/
def execGetMeasurements (smbus : Bool) (index : BitVec 8) (signed : Bool) (nonce : BitVec 256) (s : State) :
    Host.Outcome State Fault Refusal :=
  .next (s.tookFree.tookFree.answer smbus (.spdm smbus (s.measureReply index.toNat signed nonce)))

/-- PLDM_MONITOR (R656, R759). -/
def execPldmMonitor (smbus : Bool) (m : PldmMon) (s : State) : Host.Outcome State Fault Refusal := .next (s.pldmMonitor smbus m)

/-- ALERT_RESPONSE: while SMB_ALERT_N is asserted the device gives its address in bits [7:1] (R759). -/
def execAlertResponse (s : State) : Host.Outcome State Fault Refusal :=
  if s.smbAlert && s.reached true then
    .next (s.tookFree.answer true (.smbus (BitVec.ofNat 8 (2 * s.smbAddress + s.freeNat 1))))
  else .next s

/-- SMBUS_TIMEOUT: the device releases the bus (R759). -/
def execSmbusTimeout (s : State) : Host.Outcome State Fault Refusal := .next (s.setBoot { s.boot with smbHeld := false })

/-- ATTESTATION_KEY_DERIVED: in HBM (R654). -/
def execAttestationKeyDerived (s : State) : Host.Outcome State Fault Refusal :=
  if s.bootAt bsHbm then .next (s.setBoot { s.boot with key := true }) else .next s

/-- JTAG_INSTRUCTION: with DEBUG_LOCK set, only boundary scan and the identification register act (R638, R760). -/
def execJtagInstruction (i : JtagInstr) (s : State) : Host.Outcome State Fault Refusal :=
  match i with
  | .other _ => if s.debugLock then .next s else .next (s.jtagTake i)
  | _ => .next (s.jtagTake i)

end Sys2Proof.Machine
end

