-- ==== Sys2Proof/Machine/Dispatch.lean ====
section
/-! DEFINITION. One arm per command: each calls the command's meaning. -/

namespace Sys2Proof.Machine

def exec (i : Instr) (s : State) : Host.Outcome State Fault Refusal :=
  match i with
  | .registerWrite agent off width v => Sys2Proof.Machine.execRegisterWrite agent off width v s
  | .bar0BadAccess off len write => Sys2Proof.Machine.execBar0BadAccess off len write s
  | .referenceLost => Sys2Proof.Machine.execReferenceLost s
  | .referenceReturn => Sys2Proof.Machine.execReferenceReturn s
  | .leap g => Sys2Proof.Machine.execLeap g s
  | .groveRelease g => Sys2Proof.Machine.execGroveRelease g s
  | .catchUpHold g => Sys2Proof.Machine.execCatchUpHold g s
  | .crossingPresent c input => Sys2Proof.Machine.execCrossingPresent c input s
  | .groveOvrClear g => Sys2Proof.Machine.execGroveOvrClear g s
  | .scale dev own deferral => Sys2Proof.Machine.execScale dev own deferral s
  | .almDepartWrite v => Sys2Proof.Machine.execAlmDepartWrite v s
  | .arm cancel => Sys2Proof.Machine.execArm cancel s
  | .departCancel => Sys2Proof.Machine.execDepartCancel s
  | .departure => Sys2Proof.Machine.execDeparture s
  | .depart count => Sys2Proof.Machine.execDepart count s
  | .departState dev st => Sys2Proof.Machine.execDepartState dev st s
  | .timeReq m => Sys2Proof.Machine.execTimeReq m s
  | .timeResp m => Sys2Proof.Machine.execTimeResp m s
  | .issue h => Sys2Proof.Machine.execIssue h s
  | .entryLanded c q => Sys2Proof.Machine.execEntryLanded c q s
  | .ldCore c => Sys2Proof.Machine.execLdCore c s
  | .ldStream c => Sys2Proof.Machine.execLdStream c s
  | .stCore c => Sys2Proof.Machine.execStCore c s
  | .stStream c => Sys2Proof.Machine.execStStream c s
  | .fwd h src dst => Sys2Proof.Machine.execFwd h src dst s
  | .drop h src => Sys2Proof.Machine.execDrop h src s
  | .aset h gen sel vsrc val => Sys2Proof.Machine.execAset h gen sel vsrc val s
  | .arst h gen => Sys2Proof.Machine.execArst h gen s
  | .askip h gen => Sys2Proof.Machine.execAskip h gen s
  | .tld h t src part => Sys2Proof.Machine.execTld h t src part s
  | .tst h t dst part => Sys2Proof.Machine.execTst h t dst part s
  | .tcfg h t rows bpr => Sys2Proof.Machine.execTcfg h t rows bpr s
  | .enm h m => Sys2Proof.Machine.execEnm h m s
  | .enall h => Sys2Proof.Machine.execEnall h s
  | .mones h m => Sys2Proof.Machine.execMones h m s
  | .maskMzero h m => Sys2Proof.Machine.execMaskMzero h m s
  | .mnot h m => Sys2Proof.Machine.execMnot h m s
  | .auditPoint h id => Sys2Proof.Machine.execAuditPoint h id s
  | .wordPush h => Sys2Proof.Machine.execWordPush h s
  | .icFill h => Sys2Proof.Machine.execIcFill h s
  | .nop h => Sys2Proof.Machine.execNop h s
  | .sli h d imm => Sys2Proof.Machine.execSli h d imm s
  | .slis h d imm => Sys2Proof.Machine.execSlis h d imm s
  | .smov h d a => Sys2Proof.Machine.execSmov h d a s
  | .sadd h d a b => Sys2Proof.Machine.execSadd h d a b s
  | .ssub h d a b => Sys2Proof.Machine.execSsub h d a b s
  | .smad h d a b k => Sys2Proof.Machine.execSmad h d a b k s
  | .saddi h d a imm => Sys2Proof.Machine.execSaddi h d a imm s
  | .sshl h d a sh => Sys2Proof.Machine.execSshl h d a sh s
  | .sshr h d a sh => Sys2Proof.Machine.execSshr h d a sh s
  | .smin h d a b => Sys2Proof.Machine.execSmin h d a b s
  | .smax h d a b => Sys2Proof.Machine.execSmax h d a b s
  | .sgetp h d idx => Sys2Proof.Machine.execSgetp h d idx s
  | .pswap h => Sys2Proof.Machine.execPswap h s
  | .sgetli h d k => Sys2Proof.Machine.execSgetli h d k s
  | .setlc h k imm => Sys2Proof.Machine.execSetlc h k imm s
  | .setlcr h k a => Sys2Proof.Machine.execSetlcr h k a s
  | .loop h k body => Sys2Proof.Machine.execLoop h k body s
  | .call h target => Sys2Proof.Machine.execCall h target s
  | .ret h => Sys2Proof.Machine.execRet h s
  | .holdAtI h t => Sys2Proof.Machine.execHoldAtI h t s
  | .holdAtR h a => Sys2Proof.Machine.execHoldAtR h a s
  | .holdRelI h d => Sys2Proof.Machine.execHoldRelI h d s
  | .holdRelR h a => Sys2Proof.Machine.execHoldRelR h a s
  | .abortAtHoldTimeout h => Sys2Proof.Machine.execAbortAtHoldTimeout h s
  | .waitI h n => Sys2Proof.Machine.execWaitI h n s
  | .waitR h a => Sys2Proof.Machine.execWaitR h a s
  | .seqEnd h => Sys2Proof.Machine.execSeqEnd h s
  | .cpAbortReq useAt force => Sys2Proof.Machine.execCpAbortReq useAt force s
  | .seqStart h => Sys2Proof.Machine.execSeqStart h s
  | .seqStep h => Sys2Proof.Machine.execSeqStep h s
  | .seqClear h => Sys2Proof.Machine.execSeqClear h s
  | .seqRegWrite h off v => Sys2Proof.Machine.execSeqRegWrite h off v s
  | .icPreload h start countM1 lock => Sys2Proof.Machine.execIcPreload h start countM1 lock s
  | .unlockAll h => Sys2Proof.Machine.execUnlockAll h s
  | .libraryWrite g w k v => Sys2Proof.Machine.execLibraryWrite g w k v s
  | .mnop h => Sys2Proof.Machine.execMnop h s
  | .mma h fmt mode acc opa opb pass ocs => Sys2Proof.Machine.execMma h fmt mode acc opa opb pass ocs s
  | .mms h fmt mode acc opa opb pass ocs => Sys2Proof.Machine.execMms h fmt mode acc opa opb pass ocs s
  | .mmas h fmt mode acc opa opb ocs => Sys2Proof.Machine.execMmas h fmt mode acc opa opb ocs s
  | .mmac h fmt mode acc opa pass ocs => Sys2Proof.Machine.execMmac h fmt mode acc opa pass ocs s
  | .mocl h opb ocs => Sys2Proof.Machine.execMocl h opb ocs s
  | .mzero h acc => Sys2Proof.Machine.execMzero h acc s
  | .mchain h acc opa opb => Sys2Proof.Machine.execMchain h acc opa opb s
  | .mout h acc half dst => Sys2Proof.Machine.execMout h acc half dst s
  | .vnop h slot => Sys2Proof.Machine.execVnop h slot s
  | .vadd h slot ty sa sb dst => Sys2Proof.Machine.execVadd h slot ty sa sb dst s
  | .vsub h slot ty sa sb dst => Sys2Proof.Machine.execVsub h slot ty sa sb dst s
  | .vmul h slot ty sa sb dst => Sys2Proof.Machine.execVmul h slot ty sa sb dst s
  | .vfma h ty sa sb sc dst => Sys2Proof.Machine.execVfma h ty sa sb sc dst s
  | .vmin h slot ty sa sb dst => Sys2Proof.Machine.execVmin h slot ty sa sb dst s
  | .vmax h slot ty sa sb dst => Sys2Proof.Machine.execVmax h slot ty sa sb dst s
  | .vcmp h slot ty sa sb dst cond m => Sys2Proof.Machine.execVcmp h slot ty sa sb dst cond m s
  | .vsel h slot ty sa sb dst m => Sys2Proof.Machine.execVsel h slot ty sa sb dst m s
  | .vand h slot ty sa sb dst => Sys2Proof.Machine.execVand h slot ty sa sb dst s
  | .vor h slot ty sa sb dst => Sys2Proof.Machine.execVor h slot ty sa sb dst s
  | .vxor h slot ty sa sb dst => Sys2Proof.Machine.execVxor h slot ty sa sb dst s
  | .vshl h slot ty sa dst sh => Sys2Proof.Machine.execVshl h slot ty sa dst sh s
  | .vshr h slot ty sa dst sh arith => Sys2Proof.Machine.execVshr h slot ty sa dst sh arith s
  | .vcvt h slot ty sa sb dst dty sat => Sys2Proof.Machine.execVcvt h slot ty sa sb dst dty sat s
  | .vmov h slot ty sa dst => Sys2Proof.Machine.execVmov h slot ty sa dst s
  | .vfn h ty sa dst fn => Sys2Proof.Machine.execVfn h ty sa dst fn s
  | .vrsum h ty sa dst => Sys2Proof.Machine.execVrsum h ty sa dst s
  | .vrmax h ty sa dst => Sys2Proof.Machine.execVrmax h ty sa dst s
  | .vcmpr h ty sa dst m => Sys2Proof.Machine.execVcmpr h ty sa dst m s
  | .vexpd h ty sa sb dst m => Sys2Proof.Machine.execVexpd h ty sa sb dst m s
  | .vrng h ty sa dst => Sys2Proof.Machine.execVrng h ty sa dst s
  | .vacc h slot ty sa acc half dst => Sys2Proof.Machine.execVacc h slot ty sa acc half dst s
  | .vsetvl h slot fromSrc len sa => Sys2Proof.Machine.execVsetvl h slot fromSrc len sa s
  | .vxVlWrite c v => Sys2Proof.Machine.execVxVlWrite c v s
  | .tileShapeWrite c k v => Sys2Proof.Machine.execTileShapeWrite c k v s
  | .aguCfgWrite c gen second v => Sys2Proof.Machine.execAguCfgWrite c gen second v s
  | .flitArrival c input => Sys2Proof.Machine.execFlitArrival c input s
  | .injection c => Sys2Proof.Machine.execInjection c s
  | .creditReturn src => Sys2Proof.Machine.execCreditReturn src s
  | .routeWrite c input k v => Sys2Proof.Machine.execRouteWrite c input k v s
  | .netRqWrite c n v => Sys2Proof.Machine.execNetRqWrite c n v s
  | .netSendWrite c n v => Sys2Proof.Machine.execNetSendWrite c n v s
  | .watchdog h => Sys2Proof.Machine.execWatchdog h s
  | .serviceAccess agent off op v => Sys2Proof.Machine.execServiceAccess agent off op v s
  | .serviceRequest c n => Sys2Proof.Machine.execServiceRequest c n s
  | .serviceTimeout => Sys2Proof.Machine.execServiceTimeout s
  | .serviceMergeWrite c => Sys2Proof.Machine.execServiceMergeWrite c s
  | .scrub c => Sys2Proof.Machine.execScrub c s
  | .clearLogs c => Sys2Proof.Machine.execClearLogs c s
  | .tagClear c => Sys2Proof.Machine.execTagClear c s
  | .spadInject c v => Sys2Proof.Machine.execSpadInject c v s
  | .spadTagWrite c k v => Sys2Proof.Machine.execSpadTagWrite c k v s
  | .refreshWindow n temp => Sys2Proof.Machine.execRefreshWindow n temp s
  | .refreshWindowClose n => Sys2Proof.Machine.execRefreshWindowClose n s
  | .hbmRefWrite agent n v => Sys2Proof.Machine.execHbmRefWrite agent n v s
  | .seChTailWrite u v => Sys2Proof.Machine.execSeChTailWrite u v s
  | .descriptorFetch r => Sys2Proof.Machine.execDescriptorFetch r s
  | .blockStart n => Sys2Proof.Machine.execBlockStart n s
  | .kvTranslate n c => Sys2Proof.Machine.execKvTranslate n c s
  | .hbmBurstComplete u b e => Sys2Proof.Machine.execHbmBurstComplete u b e s
  | .blockForward u seg hits => Sys2Proof.Machine.execBlockForward u seg hits s
  | .edgePortFlit c output => Sys2Proof.Machine.execEdgePortFlit c output s
  | .blockWrite u f => Sys2Proof.Machine.execBlockWrite u f s
  | .writeReadbackCheck u e => Sys2Proof.Machine.execWriteReadbackCheck u e s
  | .deadline n c => Sys2Proof.Machine.execDeadline n c s
  | .withholdNotice => Sys2Proof.Machine.execWithholdNotice s
  | .channelEnable u => Sys2Proof.Machine.execChannelEnable u s
  | .channelResume u => Sys2Proof.Machine.execChannelResume u s
  | .channelAbort u => Sys2Proof.Machine.execChannelAbort u s
  | .channelDisable u => Sys2Proof.Machine.execChannelDisable u s
  | .seChCfgWrite u v => Sys2Proof.Machine.execSeChCfgWrite u v s
  | .seChRingWrite u v => Sys2Proof.Machine.execSeChRingWrite u v s
  | .sqPoll tail recs heads busy => Sys2Proof.Machine.execSqPoll tail recs heads busy s
  | .admitSeq rec => Sys2Proof.Machine.execAdmitSeq rec s
  | .cancel rec => Sys2Proof.Machine.execCancel rec s
  | .stepFormation => Sys2Proof.Machine.execStepFormation s
  | .paramDelivery => Sys2Proof.Machine.execParamDelivery s
  | .deliveryTemplate n => Sys2Proof.Machine.execDeliveryTemplate n s
  | .refLost => Sys2Proof.Machine.execRefLost s
  | .tokenRecord peer v poison => Sys2Proof.Machine.execTokenRecord peer v poison s
  | .spill slot lg page => Sys2Proof.Machine.execSpill slot lg page s
  | .spillDone slot lg page => Sys2Proof.Machine.execSpillDone slot lg page s
  | .fetchBackDone slot lg page => Sys2Proof.Machine.execFetchBackDone slot lg page s
  | .resumeSequence => Sys2Proof.Machine.execResumeSequence s
  | .schEnable => Sys2Proof.Machine.execSchEnable s
  | .schHalt => Sys2Proof.Machine.execSchHalt s
  | .schHaltAbort => Sys2Proof.Machine.execSchHaltAbort s
  | .schInit => Sys2Proof.Machine.execSchInit s
  | .schConfigWrite reg v => Sys2Proof.Machine.execSchConfigWrite reg v s
  | .schLimitWrite v => Sys2Proof.Machine.execSchLimitWrite v s
  | .pgPoolWrite n v => Sys2Proof.Machine.execPgPoolWrite n v s
  | .laneSpare p tx lane => Sys2Proof.Machine.execLaneSpare p tx lane s
  | .laserLow p k => Sys2Proof.Machine.execLaserLow p k s
  | .trainingComplete p peerDev peerPort laser => Sys2Proof.Machine.execTrainingComplete p peerDev peerPort laser s
  | .qualificationDone p lanes => Sys2Proof.Machine.execQualificationDone p lanes s
  | .portFailed p => Sys2Proof.Machine.execPortFailed p s
  | .linkFlitReceive p f => Sys2Proof.Machine.execLinkFlitReceive p f s
  | .nak p ack => Sys2Proof.Machine.execNak p ack s
  | .replayTimeout p => Sys2Proof.Machine.execReplayTimeout p s
  | .messageSend p ch => Sys2Proof.Machine.execMessageSend p ch s
  | .announce p c size => Sys2Proof.Machine.execAnnounce p c size s
  | .messageDrain p c bad => Sys2Proof.Machine.execMessageDrain p c bad s
  | .drainInstant p c => Sys2Proof.Machine.execDrainInstant p c s
  | .rxDeadline p c => Sys2Proof.Machine.execRxDeadline p c s
  | .stepCopy k d => Sys2Proof.Machine.execStepCopy k d s
  | .maskEntry step e slot reason => Sys2Proof.Machine.execMaskEntry step e slot reason s
  | .spillReq dev va => Sys2Proof.Machine.execSpillReq dev va s
  | .spillAck dev frame refused => Sys2Proof.Machine.execSpillAck dev frame refused s
  | .pageData dev frame d => Sys2Proof.Machine.execPageData dev frame d s
  | .fetchReq dev frame => Sys2Proof.Machine.execFetchReq dev frame s
  | .freeFrame dev frame => Sys2Proof.Machine.execFreeFrame dev frame s
  | .serviceForward p => Sys2Proof.Machine.execServiceForward p s
  | .train p => Sys2Proof.Machine.execTrain p s
  | .down p => Sys2Proof.Machine.execDown p s
  | .qualify p => Sys2Proof.Machine.execQualify p s
  | .txEnable p c => Sys2Proof.Machine.execTxEnable p c s
  | .txDisable p c => Sys2Proof.Machine.execTxDisable p c s
  | .rxEnable p c => Sys2Proof.Machine.execRxEnable p c s
  | .rxDisable p c => Sys2Proof.Machine.execRxDisable p c s
  | .psiudChannelWrite p c reg v => Sys2Proof.Machine.execPsiudChannelWrite p c reg v s
  | .psiudPodWrite v => Sys2Proof.Machine.execPsiudPodWrite v s
  | .configRequest off be w => Sys2Proof.Machine.execConfigRequest off be w s
  | .bar2Read off len fails => Sys2Proof.Machine.execBar2Read off len fails s
  | .bar2Write off bytes poisoned => Sys2Proof.Machine.execBar2Write off bytes poisoned s
  | .cqWrite n => Sys2Proof.Machine.execCqWrite n s
  | .cqModTimer n => Sys2Proof.Machine.execCqModTimer n s
  | .ringBaseWrite n v => Sys2Proof.Machine.execRingBaseWrite n v s
  | .ptmDialog master => Sys2Proof.Machine.execPtmDialog master s
  | .hdmaBlock => Sys2Proof.Machine.execHdmaBlock s
  | .hdmaHostCompletion c b e => Sys2Proof.Machine.execHdmaHostCompletion c b e s
  | .hdmaHostReadback c e => Sys2Proof.Machine.execHdmaHostReadback c e s
  | .flr => Sys2Proof.Machine.execFlr s
  | .perstNAssert => Sys2Proof.Machine.execPerstNAssert s
  | .perstNDeassert => Sys2Proof.Machine.execPerstNDeassert s
  | .powerGoodAssert r straps => Sys2Proof.Machine.execPowerGoodAssert r straps s
  | .powerGoodDeassert r => Sys2Proof.Machine.execPowerGoodDeassert r s
  | .oscTrim ws => Sys2Proof.Machine.execOscTrim ws s
  | .xtalStable => Sys2Proof.Machine.execXtalStable s
  | .xtalTimeout => Sys2Proof.Machine.execXtalTimeout s
  | .fuseLoad ws => Sys2Proof.Machine.execFuseLoad ws s
  | .imageVerify image => Sys2Proof.Machine.execImageVerify image s
  | .configLoad => Sys2Proof.Machine.execConfigLoad s
  | .hbmTest r => Sys2Proof.Machine.execHbmTest r s
  | .sramBist rows => Sys2Proof.Machine.execSramBist rows s
  | .linkRetry => Sys2Proof.Machine.execLinkRetry s
  | .linksComplete => Sys2Proof.Machine.execLinksComplete s
  | .imgVerifyCmd => Sys2Proof.Machine.execImgVerifyCmd s
  | .flashProgram done => Sys2Proof.Machine.execFlashProgram done s
  | .pldmUpdate image => Sys2Proof.Machine.execPldmUpdate image s
  | .fuseProgram ok => Sys2Proof.Machine.execFuseProgram ok s
  | .getVersion smbus => Sys2Proof.Machine.execGetVersion smbus s
  | .getCapabilities smbus => Sys2Proof.Machine.execGetCapabilities smbus s
  | .negotiateAlgorithms smbus asym hash => Sys2Proof.Machine.execNegotiateAlgorithms smbus asym hash s
  | .getDigests smbus => Sys2Proof.Machine.execGetDigests smbus s
  | .getCertificate smbus slot off len => Sys2Proof.Machine.execGetCertificate smbus slot off len s
  | .challenge smbus slot nonce => Sys2Proof.Machine.execChallenge smbus slot nonce s
  | .getMeasurements smbus index signed nonce => Sys2Proof.Machine.execGetMeasurements smbus index signed nonce s
  | .pldmMonitor smbus m => Sys2Proof.Machine.execPldmMonitor smbus m s
  | .deviceReset => Sys2Proof.Machine.execDeviceReset s
  | .deviceResetDone => Sys2Proof.Machine.execDeviceResetDone s
  | .fnReinit unit index => Sys2Proof.Machine.execFnReinit unit index s
  | .fnReinitDone => Sys2Proof.Machine.execFnReinitDone s
  | .alertResponse => Sys2Proof.Machine.execAlertResponse s
  | .smbusTimeout => Sys2Proof.Machine.execSmbusTimeout s
  | .clockFailure src => Sys2Proof.Machine.execClockFailure src s
  | .clkGateWrite k v => Sys2Proof.Machine.execClkGateWrite k v s
  | .levelDecision => Sys2Proof.Machine.execLevelDecision s
  | .vrReady => Sys2Proof.Machine.execVrReady s
  | .groveRestart => Sys2Proof.Machine.execGroveRestart s
  | .vrTimeout => Sys2Proof.Machine.execVrTimeout s
  | .thermalEvaluation => Sys2Proof.Machine.execThermalEvaluation s
  | .powerEvaluation => Sys2Proof.Machine.execPowerEvaluation s
  | .contributorDecay k => Sys2Proof.Machine.execContributorDecay k s
  | .pwrAlert => Sys2Proof.Machine.execPwrAlert s
  | .sensorSample x v => Sys2Proof.Machine.execSensorSample x v s
  | .writeReg mp arg data => Sys2Proof.Machine.execWriteReg mp arg data s
  | .clearEvents mp data => Sys2Proof.Machine.execClearEvents mp data s
  | .setLevel mp data => Sys2Proof.Machine.execSetLevel mp data s
  | .calibrate mp arg => Sys2Proof.Machine.execCalibrate mp arg s
  | .runBist mp arg => Sys2Proof.Machine.execRunBist mp arg s
  | .quiet mp arg data => Sys2Proof.Machine.execQuiet mp arg data s
  | .deferredRequestStart mp => Sys2Proof.Machine.execDeferredRequestStart mp s
  | .mailboxRequestDone mp pass => Sys2Proof.Machine.execMailboxRequestDone mp pass s
  | .pmcClear u => Sys2Proof.Machine.execPmcClear u s
  | .pmcModeWrite u full => Sys2Proof.Machine.execPmcModeWrite u full s
  | .snapshot busy => Sys2Proof.Machine.execSnapshot busy s
  | .crNow v => Sys2Proof.Machine.execCrNow v s
  | .sampleRecordComplete g => Sys2Proof.Machine.execSampleRecordComplete g s
  | .sampFree g v => Sys2Proof.Machine.execSampFree g v s
  | .sampCfgWrite g v => Sys2Proof.Machine.execSampCfgWrite g v s
  | .load obj syms => Sys2Proof.Machine.execLoad obj syms s
  | .patch obj syms => Sys2Proof.Machine.execPatch obj syms s
  | .unload obj => Sys2Proof.Machine.execUnload obj s
  | .mpRequestComplete => Sys2Proof.Machine.execMpRequestComplete s
  | .almanacTick => Sys2Proof.Machine.execAlmanacTick s
  | .hbmStackLost n => Sys2Proof.Machine.execHbmStackLost n s
  | .mpFault addr => Sys2Proof.Machine.execMpFault addr s
  | .laneSwapDone p => Sys2Proof.Machine.execLaneSwapDone p s
  | .accumulatorReadable c => Sys2Proof.Machine.execAccumulatorReadable c s
  | .tileBytesChanged c => Sys2Proof.Machine.execTileBytesChanged c s
  | .attestationKeyDerived => Sys2Proof.Machine.execAttestationKeyDerived s
  | .jtagInstruction x => Sys2Proof.Machine.execJtagInstruction x s

end Sys2Proof.Machine
end

