-- ==== Sys2Proof/Safety.lean ====
section
/-! DEFINITION. What counts as a safe state and a safe run of the block, in the terms that claims use. -/

namespace Sys2Proof.Machine

/-- A step from this state neither faults nor is refused. -/
def Steps (s : State) : Prop := ∃ t, step s = .next t

/-- HBM is in its canonical form, so that equal memories are equal data. -/
def State.memoryOk (s : State) : Prop := Memory.wf s.hbm = true

/-- No device-fatal entry has been recorded since the last reset that clears it (R660, R674). -/
def State.alive (s : State) : Prop := s.flag FAULT_STAT.FATAL_VALID = false

/-- A run of `n` steps stays among states that satisfy `P`, and no step of it faults or is refused. -/
def SafeFor (P : State → Prop) : Nat → State → Prop
  | 0, s => P s
  | n + 1, s => P s ∧ ∃ t, step s = .next t ∧ SafeFor P n t

end Sys2Proof.Machine
end

