-- ==== Sys2Proof/WellFormed.lean ====
section
/-! DEFINITION. Commands that can reach the block. The types of the operands give most of it; these are the checks
that a type does not: lengths of data, indexes of units, and the shape that a row's own name asks for. -/

namespace Sys2Proof

namespace WellFormed

/-- A PCI Express payload: 1 to 4,096 bytes (R594). -/
def payload (n : Nat) : Bool := 1 ≤ n && n ≤ 4096

/-- An access of `n` bytes at `off` stays inside a BAR of `size` bytes. -/
def inside (off n size : Nat) : Bool := off + n ≤ size

/-- BAR0 takes naturally aligned accesses of 4 and 8 bytes only (R6, R7). -/
def bar0Access (off n : Nat) : Bool := (n = 4 || n = 8) && off % n = 0

/-- A sender of mesh words exists: send ends 0 to 3, stream channels 0 to 31 of engines 0 to 19, receive channels
0 to 63 of ports 0 to 15. -/
def source : Source → Bool
  | .core _ n => n < 4
  | .engine s n => s < 20 && n < 32
  | .psiud p n => p < 16 && n < 64

/-- Failing rows are reported in the order of columns, cores and rows, each once. -/
def badRowKey (r : BadRow) : Nat := r.col.val * 2 ^ 19 + r.y.toNat * 2 ^ 9 + r.row.toNat

/-- A completion of a host read carries whole 32-byte units, at most one block (R613). -/
def hostCpl : HostCpl → Bool
  | .data bs => payload bs.length && bs.length % 32 = 0
  | .poisoned bs => payload bs.length && bs.length % 32 = 0
  | .failed _ => true

/-- A segment and channels that the engine has. -/
def bufFault (u : SeUnit) (f : BufFault) : Bool :=
  match u with
  | .se _ _ => true
  | .hdma _ => f.seg.toNat < 16 && f.others.all fun h => h.ch.toNat < 16

end WellFormed

/-- The command is one that can reach the block. -/
def WellFormed (i : Instr) : Bool :=
  match i with
  | .bar0BadAccess off len _ => WellFormed.payload len && !WellFormed.bar0Access off.toNat len
  | .bar2Read off len _ => WellFormed.payload len && WellFormed.inside off.toNat len (2 ^ 41)
  | .bar2Write off bytes _ => WellFormed.payload bytes.length && WellFormed.inside off.toNat bytes.length (2 ^ 41)
  | .creditReturn src => WellFormed.source src
  | .hdmaHostCompletion _ _ e => WellFormed.hostCpl e
  | .sqPoll _ recs heads _ => recs.length ≤ 64 && heads.length ≤ 16
  | .stepCopy _ d => 64 ≤ d.length && d.length % 32 = 0
  | .pageData _ _ d => d.length = 65536
  | .blockForward _ none hits => hits = {}
  | .blockForward u (some g) hits => WellFormed.bufFault u { hits with seg := g }
  | .blockWrite u (some f) => WellFormed.bufFault u f
  | .fuseLoad ws => ws.length = 32
  | .qualificationDone _ lanes => lanes.length = 32
  | .hbmTest r => r.length = 20
  | .sramBist rows => (rows.map WellFormed.badRowKey).Pairwise (· < ·)
  | _ => true

end Sys2Proof
end

