-- ==== Sys2Proof/Certificates/Slice0/Obligations.lean ====
section
/-! DEFINITION. The statements for the provers, and the words that they share. A statement of a command's effect
says that `exec` answers a next state, and what that state holds. -/

namespace Sys2Proof.Claims

open Sys2Proof.Machine

/-! ## Words of the statements about control words -/

/-- The state in which everything that has come due in the hamper's cores has taken effect. -/
def settled (s : State) (h : HamperId) : State := (State.lanes h).foldl State.settleLane s

/-- The value that an ASET from a scalar takes. -/
def asetOf (s : State) (h : HamperId) (w : Cw) : BitVec 16 :=
  if w.agu.op = 1 && w.agu.vsrc = 1 then (smGet 0 (s.hamper h).scalars (w.agu.val.extractLsb' 10 4).toNat).extractLsb' 0 16 else 0

/-- A word can issue in the hamper now: the hamper may issue, no field is reserved, and no enabled core refuses it
(R104, R144). -/
def Goes (s : State) (h : HamperId) (w : Cw) : Prop :=
  s.mayIssue h = true ∧ reservedFields w (asetOf s h w) = [] ∧ (settled s h).wordRefusal h w = none

/-- A relation between each enabled core of a hamper before and after, and the grove's cycle. -/
def InLanes (s t : State) (h : HamperId) (P : Core → Core → Nat → Prop) : Prop :=
  ∀ c ∈ State.lanes h, ((settled s h).core c).en = true → P ((settled s h).core c) (t.core c) ((settled s h).cycle (groveOf c))

/-- The same for every core of the hamper, enabled or not. -/
def InAllLanes (s t : State) (h : HamperId) (P : Core → Core → Nat → Prop) : Prop :=
  ∀ c ∈ State.lanes h, P ((settled s h).core c) (t.core c) ((settled s h).cycle (groveOf c))

/-- The frame of a word without a SEQ field: cores and hampers besides its own, HBM, the BAR0 registers and every other
unit keep what they held once the hamper's cores had settled. -/
def Elsewhere (s t : State) (h : HamperId) : Prop :=
  let u := settled s h
  (∀ c, c ∉ State.lanes h → t.core c = u.core c) ∧ (∀ g, g ≠ h → t.hamper g = u.hamper g) ∧
  t.hbm = u.hbm ∧ t.hbmMeta = u.hbmMeta ∧ t.bar0 = u.bar0 ∧ t.cfg = u.cfg ∧ t.out = u.out ∧ t.time = u.time ∧ t.se = u.se ∧
  t.ports = u.ports ∧ t.sch = u.sch ∧ t.reader = u.reader ∧ t.power = u.power ∧ t.boot = u.boot ∧
  t.plane.svc = u.plane.svc ∧ t.plane.abort = u.plane.abort

/-- The command issues its word, `P` holds of every enabled core, and nothing else changes. -/
def Issues (i : Instr) (h : HamperId) (w : Cw) (P : Core → Core → Nat → Prop) : Prop :=
  ∀ s : State, Goes s h w → ∃ t, exec i s = .next t ∧ InLanes s t h P ∧ Elsewhere s t h

/-- The command issues its word, and `P` holds of the states before and after; the state before is the settled one. -/
def IssuesTo (i : Instr) (h : HamperId) (w : Cw) (P : State → State → Prop) : Prop :=
  ∀ s : State, Goes s h w → ∃ t, exec i s = .next t ∧ P (settled s h) t

/-- An entry that an operation pushed: the last of an internal queue, or a tuple of a send end. -/
def Pushed (k : Core) (d : BitVec 5) (e : Entry) (due : Nat) : Prop :=
  (endInternal d = true → (k.queue d).getLast? = some { entry := e, due := due }) ∧
  (endSend d = true → ∃ x ∈ (k.sendEnd (d.toNat - 16)).buf, x.ready = due ∧
    x.words = (List.range ((k.sendEnd (d.toNat - 16)).tw.toNat + 1)).map fun w => (wordOf e.data w, e.poison.getLsbD w))

/-- The source ends are allowed as sources and the destination as a destination (R95). -/
def EndsOk (srcs : List (BitVec 5)) (d : BitVec 5) : Prop := srcs.all endIsSource = true ∧ endIsDest d = true

/-- An entry of `n` elements of type `ty`, zero above, its words marked where an element of theirs is (R284, R309). -/
def Elems (ty : BitVec 3) (n : Nat) (val : Nat → Nat) (mark : Nat → Bool) (e : Entry) : Prop :=
  (∀ i, elemOf ty e.data i = if i < n then val i % 2 ^ vxBits ty else 0) ∧
  (∀ w, w < 4 → e.poison.getLsbD w = (List.range n).any fun i => elemWord ty i = w && mark i)

/-- What the vector engine leaves of a core besides queues, send ends, flags, masks on their way and counters. -/
def SameUnits (k k' : Core) : Prop :=
  k'.tiles = k.tiles ∧ k'.agus = k.agus ∧ k'.mx = k.mx ∧ k'.spad.rows = k.spad.rows ∧ k'.masks = k.masks ∧ k'.en = k.en

/-- A vector result of `n` elements reaches the destination when its latency has elapsed, and the other units keep
their state. -/
def VecResult (ty : BitVec 3) (dst : BitVec 5) (lat : Nat) (n : Core → Nat) (val : Core → Nat → Nat) (mark : Core → Nat → Bool)
    (k k' : Core) (now : Nat) : Prop :=
  (∃ e, Elems ty (n k) (val k) (mark k) e ∧ Pushed k' dst e (now + lat - 1)) ∧ SameUnits k k'

/-- Element `i` of the entry at a source end. -/
def at_ (ty : BitVec 3) (c : BitVec 5) (k : Core) (i : Nat) : Nat := elemOf ty (k.peek c).data i

/-- The mark of the word that holds element `i` of the entry at a source end. -/
def marked (ty : BitVec 3) (c : BitVec 5) (k : Core) (i : Nat) : Bool := (k.peek c).poison.getLsbD (elemWord ty i)

/-- The number of elements that the core's vector length gives (R281). -/
def len (ty : BitVec 3) (k : Core) : Nat := min k.vl.toNat (vxCount ty)

/-- An array operation is the next pass of the open pass group `g` (R249). -/
def Continues (f : MxF) (k : Core) (g : PassGroup) : Prop :=
  k.mx.pass = some g ∧ g.op = f.op ∧ g.fmt = f.fmt ∧ g.mode = f.mode ∧ g.acc = f.acc ∧ g.ocs = f.ocs ∧ g.next = f.pass.toNat

/-- A pass after the first takes the group's latch and no operand; the last one gives the products as a result (R248, R249,
R259). -/
def PassGoesOn (f : MxF) (k k' : Core) (now : Nat) : Prop :=
  ∀ g, Continues f k g →
    k'.mx.heldA = k.mx.heldA ∧ k'.mx.heldB = k.mx.heldB ∧
    (g.next + 1 < mxPasses f.fmt → k'.mx.pass = some { g with next := g.next + 1 } ∧ k'.mx.results = k.mx.results) ∧
    (mxPasses f.fmt ≤ g.next + 1 → k'.mx.pass = none ∧
      ∃ r ∈ k'.mx.results, r.acc = f.acc ∧ now + (if mxPasses f.fmt = 4 then 7 else 11) ≤ r.due ∧
        r.effect = .products f.fmt (f.op = 2) g.a g.b ∧ r.poison = g.poison)

/-- An operation that continues no group: an open group is discarded with PASS_BROKEN, and so is a pass after the first;
otherwise captured operands give a product result, open a pass group, or enter the block summers (R236 to R242, R247 to R249,
R259). An MX-format operation breaks a pending block of another format or one that it would take beyond 32 counted elements, and
begins a new one with BLOCK_BROKEN (R239). -/
def PassBegins (f : MxF) (k k' : Core) (now : Nat) : Prop :=
  (∀ g, ¬ Continues f k g) →
    let x := (k.capture k.peek f).1
    let b := k.mx.block f.acc
    let depth := mxDepth f.op f.fmt
    let broken := b.count ≠ 0 ∧ (b.fmt ≠ f.fmt ∨ 32 < b.count + depth)
    let n := (if broken then 0 else b.count) + depth
    let oc := (k.mx.ocEntry f.ocs).data
    let sum := fun e => (if broken then {} else k.mx.summer f.acc e).addAll (mxFmt f.fmt) (f.op = 2) x.poison
      (if f.op = 3 then sparsePairs f.fmt x.a x.b oc (e / 4) (e % 4) else densePairs f.fmt x.a x.b (e / 4) (e % 4))
    (k.mx.pass.isSome = true → k'.mx.status.getLsbD 1 = true) ∧
    (f.pass ≠ 0 → k'.mx.status.getLsbD 1 = true ∧ k'.mx.pass = none ∧ k'.mx.results = k.mx.results ∧ k'.mx.block f.acc = b) ∧
    (f.pass = 0 →
      (isMxFmt f.fmt = false → mxPasses f.fmt = 1 → k'.mx.pass = none ∧
        ∃ r ∈ k'.mx.results, r.acc = f.acc ∧ now + 11 ≤ r.due ∧ r.effect = .products f.fmt (f.op = 2) x.a x.b ∧ r.poison = x.poison) ∧
      (isMxFmt f.fmt = false → 1 < mxPasses f.fmt →
        k'.mx.pass = some ⟨f.op, f.fmt, f.mode, f.acc, f.ocs, 1, x.a, x.b, x.poison⟩ ∧ k'.mx.results = k.mx.results) ∧
      (isMxFmt f.fmt = true →
        (broken → k'.mx.status.getLsbD 0 = true) ∧
        (n < 32 → k'.mx.block f.acc = ⟨n, f.fmt⟩ ∧ ∀ e, e < 16 → k'.mx.summer f.acc e = sum e) ∧
        (32 ≤ n → (k'.mx.block f.acc).count = 0 ∧
          ∃ r ∈ k'.mx.results, r.acc = f.acc ∧ now + 12 ≤ r.due ∧
            r.effect = .close ((List.range 16).map sum) (oc.extractLsb' 256 64))))

/-- What an array operation does: in an occupied array it is discarded with BUSY_DROP (R258), an open pass group staying open
(the model's choice, log entry 135); otherwise it occupies the array, and goes on with the open group or begins anew. An operation
of a format that is no MX format discards its accumulator's pending block (R239). -/
def ArrayEffect (f : MxF) (k k' : Core) (now : Nat) : Prop :=
  (now < k.mx.busyUntil → k'.mx.status.getLsbD 2 = true ∧ k'.mx.busyUntil = k.mx.busyUntil ∧ k'.mx.pass = k.mx.pass ∧
    k'.mx.results = k.mx.results ∧ k'.mx.block f.acc = k.mx.block f.acc) ∧
  (k.mx.busyUntil ≤ now → k'.mx.busyUntil = now + mxOccupancy f ∧ PassGoesOn f k k' now ∧ PassBegins f k k' now ∧
    (isMxFmt f.fmt = false → (k.mx.block f.acc).count ≠ 0 → (f.pass = 0 ∨ ∃ g, Continues f k g) →
      (k'.mx.block f.acc).count = 0 ∧ k'.mx.status.getLsbD 0 = true))

/-- The value of accumulator element `e` once result `r` has landed on the value `v` (R237, R240 to R242, R254, R259):
zero; the exact integer sum held to 32 bits; the FP32 sum of `v` and the products; `v` plus the summer's value times
2 ^ (scale of the row + scale of the column - 254), the summer's unit being 2 ^ -32; the chained element plus the accumulator's
own as it stood when MCHAIN issued, where its half is chained (R261). -/
def landed (r : MxResult) (e : Nat) (v : BitVec 32) : BitVec 32 :=
  let plus := fun (xs : List FVal) => BitVec.ofNat 32 (fp32.sum (fp32.decode v.toNat :: xs)).1
  match r.effect with
  | .zero => 0
  | .products fmt neg a b =>
    let ps := densePairs fmt a b (e / 4) (e % 4)
    let w := mxWidth fmt
    let x := (ps.map fun p => signedOf w p.1 * signedOf w p.2).sum
    if isIntFmt fmt then BitVec.ofInt 32 (max (-(2 ^ 31)) (min (2 ^ 31 - 1) (if neg then v.toInt - x else v.toInt + x)))
    else plus (ps.map fun p =>
      let y := (FVal.mul ((mxFmt fmt).decode p.1) ((mxFmt fmt).decode p.2)).1
      if neg then y.neg else y)
  | .close sums scales =>
    let x := (sums[e]?).getD {}
    let sa := byteAt scales (e / 4)
    let sb := byteAt scales (4 + e % 4)
    plus [if x.nan ∨ x.inval ∨ (x.infP ∧ x.infN) ∨ sa = 255 ∨ sb = 255 then .nan false
      else if x.infP then .inf false
      else if x.infN then .inf true
      else .fin (x.val.toInt < 0) x.val.toInt.natAbs ((sa : Int) + sb - 286)]
  | .chain was _ h0 h1 =>
    match (if e < 8 then h0 else h1) with
    | none => v
    | some d => BitVec.ofNat 32 (fp32.sum [fp32.decode (was.extractLsb' (32 * e) 32).toNat,
        fp32.decode (d.extractLsb' (32 * (e % 8)) 32).toNat]).1

/-! ## Words of the statements about the front end -/

/-- The hamper's front end can push a word whose SEQ field is `f` now: no bubble after SMAD and no loop that a flow
operation would break (R172, R183, R190). -/
def MayPush (s : State) (h : HamperId) (f : SeqF) : Prop :=
  s.mayPush h = true ∧
  (∀ d c, (s.hamper h).smad = some (d, c) → c + 1 = s.cycle (groveOfHamper h) → d ∉ wordScalars { seq := f }) ∧
  ∀ l ∈ (s.hamper h).loops, ¬ (l.depth = (s.hamper h).calls.length ∧ l.last = (s.hamper h).pc)

/-- The word with SEQ field `f` at the hamper's PC is pushed: it stands last in the issue queue, with the cycle of its
push (R172). -/
def PushedWord (s t : State) (h : HamperId) (f : SeqF) : Prop :=
  ∃ q, (t.hamper h).iq = (s.hamper h).iq ++ [q] ∧ q.word = encodeCw { seq := f } ∧ q.pushed = s.cycle (groveOfHamper h) ∧
    q.pc = (s.hamper h).pc

/-- A scalar operation: the word is pushed, the PC moves on by one word, scalar `d` becomes `v`, SOVF is set where `ovf`
holds and the other scalars keep their values. -/
def ScalarOp (i : Instr) (h : HamperId) (f : SeqF) (d : BitVec 4) (v : Hamper → BitVec 32) (ovf : Hamper → Bool) : Prop :=
  ∀ s : State, MayPush s h f → ∃ t, exec i s = .next t ∧ PushedWord s t h f ∧
    (t.hamper h).scalar d = v (s.hamper h) ∧ (∀ n, n ≠ d → (t.hamper h).scalar n = (s.hamper h).scalar n) ∧
    (t.hamper h).fault = (if ovf (s.hamper h) then (s.hamper h).fault ||| 0x80 else (s.hamper h).fault) ∧
    (t.hamper h).pc = nextPc (s.hamper h).pc ∧ (t.hamper h).lcs = (s.hamper h).lcs ∧ (t.hamper h).loops = (s.hamper h).loops ∧
    (t.hamper h).calls = (s.hamper h).calls ∧ (∀ g, g ≠ h → t.hamper g = s.hamper g) ∧ t.plane.cores = s.plane.cores ∧
    t.hbm = s.hbm ∧ t.bar0 = s.bar0

end Sys2Proof.Claims

open Sys2Proof Sys2Proof.Machine Sys2Proof.Claims

/-- Everything but the model's counters of bytes moved and free values keeps its value. -/
def Sys2Proof.Claims.SameDevice (s t : State) : Prop :=
  t.cfg = s.cfg ∧ t.hbm = s.hbm ∧ t.hbmMeta = s.hbmMeta ∧ t.bar0 = s.bar0 ∧ t.time = s.time ∧ t.plane = s.plane ∧ t.se = s.se ∧
  t.ports = s.ports ∧ t.sch = s.sch ∧ t.power = s.power ∧ t.boot = s.boot
/-! ## The queue of commands -/

/-- With a command at the front of the queue, a step is that command's effect on the rest. With no command waiting the
block idles (the model's choice, log entry 4), and no word of the table puts a command into the queue, for no row has
bits. -/
def Obligations.StepRunsTheFrontCommand : Prop :=
  (∀ (c : Instr) (rest : List Instr) (s : State), step { s with pending := c :: rest } = exec c { s with pending := rest }) ∧
  ∀ s : State, (s.pending = [] → step s = .next s) ∧ ∀ nbits w, decodeTableWord nbits w = none ∧ s.withFetchWord nbits w = s

/-- Every command but IC_FILL answers a next state in every state; IC_FILL does so unless its line lies past the last
HBM stack, and then it faults. No command is refused. -/
def Obligations.EveryCommandAnswers : Prop :=
  ∀ (c : Instr) (s : State),
    (∃ t, exec c s = .next t) ∨
    ((∃ h line, c = .icFill h ∧
        ((s.hamper h).icMiss = some line ∨
          ((s.hamper h).icMiss = none ∧ ∃ p, (s.hamper h).preload = some p ∧ p.line = line)) ∧
        hbmEnd < (s.hamper h).progBase.toNat + 256 * line.toNat + 256) ∧
      exec c s = .fault .noSuchMemory)

/-! ## The control word -/

/-- Every control word is read back from its encoding, and every 256-bit word is the encoding of what is read from it
(R142): no bit of an encoding is dropped. -/
def Obligations.ControlWordRoundTrip : Prop :=
  (∀ c : Cw, decodeCw (encodeCw c) = c) ∧ ∀ v : BitVec 256, encodeCw (decodeCw v) = v

/-! ## The vector engine -/

/-- VADD, VSUB, VMUL and VFMA: integers modulo 2^w, floating-point values by one rounding of the exact result, marks from the
operands' words; 3 cycles, 4 for VFMA (R288, R289, R291, R306, R309). That such a row is the issue of a word with this field alone
is log entry 41. -/
def Obligations.VectorArithmetic : Prop :=
  ∀ (h : HamperId) (slot : Slot) (ty : BitVec 3) (sa sb sc dst : BitVec 5),
    let m2 := fun k i => marked ty sa k i || marked ty sb k i
    let z := fun (x : BitVec 5) (k : Core) (i : Nat) => signedOf (vxBits ty) (at_ ty x k i)
    let d := fun (x : BitVec 5) (k : Core) (i : Nat) => vxDecode ty (at_ ty x k i)
    let pick := fun (f : Core → Nat → Nat) (g : Core → Nat → Int) (k : Core) (i : Nat) =>
      if vxIsFloat ty then f k i else (g k i % 2 ^ vxBits ty).toNat
    (EndsOk [sa, sb] dst →
      Issues (.vadd h slot ty sa sb dst) h (slotWord slot ⟨1, ty, sa, sb, dst, 0⟩)
        (VecResult ty dst 3 (len ty) (pick (fun k i => ((vxFmt ty).sum [d sa k i, d sb k i]).1) (fun k i => z sa k i + z sb k i)) m2) ∧
      Issues (.vsub h slot ty sa sb dst) h (slotWord slot ⟨2, ty, sa, sb, dst, 0⟩)
        (VecResult ty dst 3 (len ty) (pick (fun k i => ((vxFmt ty).sum [d sa k i, (d sb k i).neg]).1) (fun k i => z sa k i - z sb k i)) m2) ∧
      Issues (.vmul h slot ty sa sb dst) h (slotWord slot ⟨3, ty, sa, sb, dst, 0⟩)
        (VecResult ty dst 3 (len ty) (pick (fun k i => ((vxFmt ty).mul (d sa k i) (d sb k i)).1) (fun k i => z sa k i * z sb k i)) m2)) ∧
    (EndsOk [sa, sb, sc] dst →
      Issues (.vfma h ty sa sb sc dst) h { vxa := ⟨4, ty, sa, sb, dst, sc.zeroExtend 8⟩ }
        (VecResult ty dst 4 (len ty)
          (pick (fun k i => ((vxFmt ty).fma (d sa k i) (d sb k i) (d sc k i)).1) (fun k i => z sa k i * z sb k i + z sc k i))
          (fun k i => m2 k i || marked ty sc k i)))

/-- VMIN, VMAX, VAND, VOR, VXOR, VSEL, VSHL, VSHR and VMOV (R284, R290, R294, R295, R306, R309). That such a row is the issue of a
word with this field alone is log entry 41. -/
def Obligations.VectorSelectAndBits : Prop :=
  ∀ (h : HamperId) (slot : Slot) (ty : BitVec 3) (sa sb dst sh : BitVec 5) (m : BitVec 2) (arith : Bool),
    let m2 := fun k i => marked ty sa k i || marked ty sb k i
    let a := fun (k : Core) (i : Nat) => at_ ty sa k i
    let b := fun (k : Core) (i : Nat) => at_ ty sb k i
    let va := fun k i => vxDecode ty (a k i)
    let vb := fun k i => vxDecode ty (b k i)
    let za := fun k i => signedOf (vxBits ty) (a k i)
    let zb := fun k i => signedOf (vxBits ty) (b k i)
    let nan := fun k i => (va k i).isNan || (vb k i).isNan
    (EndsOk [sa, sb] dst →
      Issues (.vmin h slot ty sa sb dst) h (slotWord slot ⟨5, ty, sa, sb, dst, 0⟩)
        (VecResult ty dst 2 (len ty) (fun k i =>
          if vxIsFloat ty then (if nan k i then (vxFmt ty).nanBits else if (va k i).before (vb k i) then a k i else b k i)
          else if za k i ≤ zb k i then a k i else b k i) m2) ∧
      Issues (.vmax h slot ty sa sb dst) h (slotWord slot ⟨6, ty, sa, sb, dst, 0⟩)
        (VecResult ty dst 2 (len ty) (fun k i =>
          if vxIsFloat ty then (if nan k i then (vxFmt ty).nanBits else if (vb k i).before (va k i) then a k i else b k i)
          else if zb k i ≤ za k i then a k i else b k i) m2) ∧
      Issues (.vand h slot ty sa sb dst) h (slotWord slot ⟨9, ty, sa, sb, dst, 0⟩)
        (VecResult ty dst 2 (len ty) (fun k i => a k i &&& b k i) m2) ∧
      Issues (.vor h slot ty sa sb dst) h (slotWord slot ⟨10, ty, sa, sb, dst, 0⟩)
        (VecResult ty dst 2 (len ty) (fun k i => a k i ||| b k i) m2) ∧
      Issues (.vxor h slot ty sa sb dst) h (slotWord slot ⟨11, ty, sa, sb, dst, 0⟩)
        (VecResult ty dst 2 (len ty) (fun k i => a k i ^^^ b k i) m2) ∧
      Issues (.vsel h slot ty sa sb dst m) h (slotWord slot ⟨8, ty, sa, sb, dst, m.zeroExtend 8⟩)
        (VecResult ty dst 2 (len ty) (fun k i => if (k.mask m).getLsbD i then a k i else b k i)
          (fun k i => if (k.mask m).getLsbD i then marked ty sa k i else marked ty sb k i))) ∧
    (EndsOk [sa] dst →
      Issues (.vshl h slot ty sa dst sh) h (slotWord slot ⟨0x0C, ty, sa, 0, dst, sh.zeroExtend 8⟩)
        (VecResult ty dst 2 (len ty) (fun k i => a k i * 2 ^ sh.toNat) (marked ty sa)) ∧
      Issues (.vshr h slot ty sa dst sh arith) h (slotWord slot ⟨0x0D, ty, sa, 0, dst, (if arith then 1#3 else 0#3) ++ sh⟩)
        (VecResult ty dst 2 (len ty)
          (fun k i => if arith then ((za k i / 2 ^ sh.toNat) % 2 ^ vxBits ty).toNat else a k i / 2 ^ sh.toNat) (marked ty sa)) ∧
      Issues (.vmov h slot ty sa dst) h (slotWord slot ⟨0x0F, ty, sa, 0, dst, 0⟩)
        (VecResult ty dst 2 (len ty) a (marked ty sa)))

/-- VCVT, VFN, VRSUM, VRMAX, VCMPR, VEXPD, VRNG and VACC (R285, R287, R296 to R305, R306, R309). Where the spec leaves a point open,
the model's choices stand in log entry 11. That such a row is the issue of a word with this field alone is log entry 41. -/
def Obligations.VectorFunctions : Prop :=
  ∀ (h : HamperId) (slot : Slot) (ty dty : BitVec 3) (sa sb dst : BitVec 5) (fn : BitVec 4) (m : BitVec 2) (acc : BitVec 3)
    (half sat : Bool),
    let a := fun (k : Core) (i : Nat) => at_ ty sa k i
    let b := fun (k : Core) (i : Nat) => at_ ty sb k i
    let xs := fun (k : Core) => (List.range (len ty k)).map (a k)
    let set := fun (k : Core) => maskIndices (k.mask m) (len ty k)
    (EndsOk [sa, sb] dst →
      Issues (.vcvt h slot ty sa sb dst dty sat) h (slotWord slot ⟨0x0E, ty, sa, sb, dst, (if sat then 1#5 else 0#5) ++ dty⟩)
        (VecResult dty dst 3 (len dty)
          (fun k i => match vxCvtSource ty dty i with
            | none => 0
            | some (second, j) => (vxConvert ty dty sat (if second then b k j else a k j)).1)
          (fun k i => match vxCvtSource ty dty i with
            | none => false
            | some (second, j) => if second then marked ty sb k j else marked ty sa k j)) ∧
      Issues (.vexpd h ty sa sb dst m) h { vxa := ⟨0x14, ty, sa, sb, dst, m.zeroExtend 8⟩ }
        (VecResult ty dst 3 (len ty) (fun k i => if (k.mask m).getLsbD i then a k (maskRank (k.mask m) i) else b k i)
          (fun k i => if (k.mask m).getLsbD i then marked ty sa k (maskRank (k.mask m) i) else marked ty sb k i))) ∧
    (EndsOk [sa] dst →
      Issues (.vfn h ty sa dst fn) h { vxa := ⟨0x10, ty, sa, 0, dst, fn.zeroExtend 8⟩ }
        (VecResult ty dst 9 (len ty) (fun k i => (vfnElem ty fn.toNat (a k i)).1) (marked ty sa)) ∧
      Issues (.vcmpr h ty sa dst m) h { vxa := ⟨0x13, ty, sa, 0, dst, m.zeroExtend 8⟩ }
        (VecResult ty dst 3 (fun k => (set k).length) (fun k i => a k (((set k)[i]?).getD 0))
          (fun k i => marked ty sa k (((set k)[i]?).getD 0))) ∧
      Issues (.vrsum h ty sa dst) h { vxa := ⟨0x11, ty, sa, 0, dst, 0⟩ }
        (fun k k' now => Pushed k' dst
          ⟨BitVec.ofNat 256 (vxSum ty (xs k)).1, if (List.range (len ty k)).any (marked ty sa k) then 1 else 0⟩ (now + 4)) ∧
      Issues (.vrmax h ty sa dst) h { vxa := ⟨0x12, ty, sa, 0, dst, 0⟩ }
        (fun k k' now => Pushed k' dst
          ⟨BitVec.ofNat 256 (vxMax ty (xs k)).1, if (List.range (len ty k)).any (marked ty sa k) then 1 else 0⟩ (now + 3)) ∧
      Issues (.vrng h ty sa dst) h { vxa := ⟨0x15, ty, sa, 0, dst, 0⟩ }
        (VecResult ty dst 12 (len ty) (fun k i => vrngElem ty (((vrngWords (k.peek sa).data)[i]?).getD 0))
          (fun k _ => (k.peek sa).poison &&& 7 != 0)) ∧
      Issues (.vacc h slot ty sa acc half dst) h (slotWord slot ⟨0x16, ty, sa, acc.zeroExtend 5, dst, if half then 1 else 0⟩)
        (VecResult ty dst 2 (len ty)
          (fun k i =>
            let x := (k.mx.accElem acc ((if half then 8 else 0) + i)).toNat
            if sa = 0 then x
            else if ty = 0 then (fp32.sum [fp32.decode x, fp32.decode (at_ 0 sa k i)]).1
            else lowBits 32 (clampInt 32 (signedOf 32 x + signedOf 32 (at_ 0 sa k i))).1)
          (fun k i => k.mx.accMark acc ((if half then 8 else 0) + i) || (sa != 0 && marked 0 sa k i))))

/-- VCMP writes its mask two cycles later, bits of poisoned elements 0, and pushes truth elements; VSETVL sets the vector length and
clamps above 32; VNOP and MNOP change no unit (R168, R282, R292, R293, R306, R310). That such a row is the issue of a word with this
field alone is log entry 41. -/
def Obligations.VectorMasksAndLength : Prop :=
  ∀ (h : HamperId) (slot : Slot) (ty cond : BitVec 3) (sa sb dst : BitVec 5) (m : BitVec 2) (fromSrc : Bool) (n : BitVec 6),
    let truth := fun (k : Core) (i : Nat) =>
      (vxCompare cond ty (at_ ty sa k i) (at_ ty sb k i)).1 && !(marked ty sa k i || marked ty sb k i)
    (EndsOk [sa, sb] dst →
      Issues (.vcmp h slot ty sa sb dst cond m) h (slotWord slot ⟨7, ty, sa, sb, dst, 0#3 ++ m ++ cond⟩) (fun k k' now =>
        VecResult ty dst 2 (len ty) (fun k i => if truth k i then 2 ^ vxBits ty - 1 else 0)
          (fun k i => marked ty sa k i || marked ty sb k i) k k' now ∧
        ∃ v : BitVec 32, ⟨now + 2, m, v⟩ ∈ k'.maskWr ∧ ∀ i, v.getLsbD i = (decide (i < len ty k) && truth k i))) ∧
    (endIsSource sa = true →
      Issues (.vsetvl h slot fromSrc n sa) h (slotWord slot ⟨0x17, 0, sa, 0, 0, (if fromSrc then 2#2 else 0#2) ++ n⟩) (fun k k' _ =>
        let x := if fromSrc then (k.peek sa).data.toNat % 65536 else n.toNat
        k'.vl.toNat = min x 32 ∧ (32 < x → k'.vxStatus.getLsbD 1 = true) ∧ SameUnits k k')) ∧
    Issues (.vnop h slot) h {} (fun k k' _ => SameUnits k k' ∧ k'.iq = k.iq ∧ k'.vl = k.vl ∧ k'.flags = k.flags) ∧
    Issues (.mnop h) h {} (fun k k' _ => SameUnits k k' ∧ k'.iq = k.iq ∧ k'.vl = k.vl ∧ k'.flags = k.flags)

/-! ## The matrix array -/

/-- MMA, MMS, MMAS and MMAC: what an operation does with its captured operands, with an open pass group that it continues, closes or
breaks, with a pending block that it adds to, closes or breaks, and in an occupied array (R222, R228, R236 to R242, R247 to R251,
R258, R259). Where the spec leaves a point open, the model's choices stand in log entries 20, 135. That such a row is the issue of a
word with this field alone is log entry 41. -/
def Obligations.ArrayOperations : Prop :=
  ∀ (h : HamperId) (fmt : BitVec 4) (mode ocs : BitVec 2) (acc : BitVec 3) (opa opb : BitVec 6) (pass : BitVec 4),
    let ok := (codeEnd opa).toNat < 16 ∧ (codeEnd opb).toNat < 16
    (ok → Issues (.mma h fmt mode acc opa opb pass ocs) h { mx := ⟨1, fmt, mode, acc, opa, opb, pass, ocs⟩ }
      (ArrayEffect ⟨1, fmt, mode, acc, opa, opb, pass, ocs⟩)) ∧
    (ok → Issues (.mms h fmt mode acc opa opb pass ocs) h { mx := ⟨2, fmt, mode, acc, opa, opb, pass, ocs⟩ }
      (ArrayEffect ⟨2, fmt, mode, acc, opa, opb, pass, ocs⟩)) ∧
    (ok → Issues (.mmas h fmt mode acc opa opb ocs) h { mx := ⟨3, fmt, mode, acc, opa, opb, 0, ocs⟩ }
      (ArrayEffect ⟨3, fmt, mode, acc, opa, opb, 0, ocs⟩)) ∧
    (ok → Issues (.mmac h fmt mode acc opa pass ocs) h { mx := ⟨4, fmt, mode, acc, opa, 0, pass, ocs⟩ }
      (ArrayEffect ⟨4, fmt, mode, acc, opa, 0, pass, ocs⟩))

/-- MOCL, MZERO, MCHAIN, which reads its accumulator at issue, and MOUT (R231, R250, R254, R255, R259, R261, R265). Where the spec
leaves a point open, the model's choices stand in log entries 20, 136. That such a row is the issue of a word with this field alone
is log entry 41. -/
def Obligations.AccumulatorOperations : Prop :=
  ∀ (h : HamperId) (acc : BitVec 3) (opa opb : BitVec 6) (ocs : BitVec 2) (half : Bool) (dst : BitVec 5),
    ((codeEnd opb).toNat < 16 → Issues (.mocl h opb ocs) h { mx := { op := 5, opb := opb, ocs := ocs } } (fun k k' _ =>
      let x := k.mxOperand k.peek opb
      let o := k.mx.ocEntry ocs
      (isTileCode opb = true → k'.mx.ocEntry ocs = x) ∧
      (isTileCode opb = false → (k'.mx.ocEntry ocs).data = x.data.extractLsb' 0 256 ++ o.data.extractLsb' 0 256) ∧
      (∀ n, n ≠ ocs → k'.mx.ocEntry n = k.mx.ocEntry n) ∧ k'.mx.acc = k.mx.acc)) ∧
    Issues (.mzero h acc) h { mx := { op := 6, acc := acc } } (fun k k' now =>
      (k'.mx.block acc).count = 0 ∧ (∀ e, e < 16 → k'.mx.summer acc e = {}) ∧
      (∀ g, k'.mx.pass = some g → g.acc ≠ acc) ∧
      ∃ r ∈ k'.mx.results, r.acc = acc ∧ now + 1 ≤ r.due ∧ r.effect = .zero) ∧
    ((codeEnd opa).toNat < 16 → (codeEnd opb).toNat < 16 →
      Issues (.mchain h acc opa opb) h { mx := { op := 7, acc := acc, opa := opa, opb := opb } } (fun k k' now =>
        let x := (k.mxOperand k.peek opa).data
        let y := (k.mxOperand k.peek opb).data
        let both := isTileCode opa && opb = 0
        ∃ r was marks, r ∈ k'.mx.results ∧ r.acc = acc ∧ now + 3 ≤ r.due ∧
          (∀ e, e < 16 → was.extractLsb' (32 * e) 32 = k.mx.accElem acc e) ∧
          r.effect = .chain was marks (if opa = 0 then none else some (x.extractLsb' 0 256))
            (if both then some (x.extractLsb' 256 256) else if opb = 0 then none else some (y.extractLsb' 0 256)))) ∧
    (endIsDest dst = true →
      Issues (.mout h acc half dst) h { mx := { op := 8, acc := acc, opb := 0#1 ++ dst, pass := if half then 1 else 0 } }
        (fun k k' now => (∃ e, Pushed k' dst e (now + 1) ∧
            ∀ i, i < 8 → elemOf 0 e.data i = (k.mx.accElem acc ((if half then 8 else 0) + i)).toNat) ∧ SameUnits k k'))

/-- ACCUMULATOR_READABLE and TILE_BYTES_CHANGED: what has come due lands in its order, each result with the value that
`landed` gives for its effect, a tile taking all the writes that are due in the order of their issue, nothing else does, and the
core's other units keep their state (R222, R237, R241, R242, R254, R259 to R261, R274, R306). Where the spec leaves a point
open, the model's choices stand in log entries 10, 137. -/
def Obligations.ResultsLand : Prop :=
  ∀ (c : CoreId) (s : State),
    let now := s.cycle (groveOf c)
    (∃ t, exec (.accumulatorReadable c) s = .next t ∧
      (t.core c).mx.results = (s.core c).mx.results.filter (fun r => now < r.due) ∧
      (∀ a e, (∀ r ∈ (s.core c).mx.results, r.due ≤ now → r.acc ≠ a) → e < 16 →
        (t.core c).mx.accElem a e = (s.core c).mx.accElem a e) ∧
      (∀ a e, e < 16 → (t.core c).mx.accElem a e =
        ((s.core c).mx.results.filter fun r => r.due ≤ now && r.acc = a).foldl (fun v r => landed r e v)
          ((s.core c).mx.accElem a e)) ∧
      (∀ r, (s.core c).mx.results = [r] → r.due ≤ now → r.effect = .zero → ∀ e, e < 16 → (t.core c).mx.accElem r.acc e = 0) ∧
      (t.core c).tiles = (s.core c).tiles ∧ (t.core c).iq = (s.core c).iq ∧ t.hbm = s.hbm ∧
      ∀ d, d ≠ c → t.core d = s.core d) ∧
    (∃ t, exec (.tileBytesChanged c) s = .next t ∧
      (t.core c).tileWr = (s.core c).tileWr.filter (fun w => now < w.due) ∧
      (∀ w, (s.core c).tileWr = [w] → w.due ≤ now → (t.core c).tile w.tile = tileWritten ((s.core c).tile w.tile) w) ∧
      (∀ i, (t.core c).tile i =
        ((s.core c).tileWr.filter fun w => w.due ≤ now && w.tile = i).foldl tileWritten ((s.core c).tile i)) ∧
      (∀ i, (∀ w ∈ (s.core c).tileWr, w.due ≤ now → w.tile ≠ i) → (t.core c).tile i = (s.core c).tile i) ∧
      (t.core c).mx = (s.core c).mx ∧ (t.core c).iq = (s.core c).iq ∧ t.hbm = s.hbm ∧ ∀ d, d ≠ c → t.core d = s.core d)

/-! ## Queue ends, generators, tiles and masks -/

/-- FWD, DROP, TLD, TST and TCFG (R152, R160, R274, R275, R306). That such a row is the issue of a word with this field alone is log
entry 41. -/
def Obligations.QueueAndTileOperations : Prop :=
  ∀ (h : HamperId) (src dst t : BitVec 5) (part : Bool) (rows bpr : BitVec 3),
    (EndsOk [src] dst → Issues (.fwd h src dst) h { net := { op := 1, src := src, dst := dst } } (fun k k' now =>
      Pushed k' dst (k.peek src) (if endSend dst then now else now + 1) ∧ SameUnits k k')) ∧
    (endIsSource src = true → Issues (.drop h src) h { net := { op := 2, src := src } } (fun k k' _ =>
      (endInternal src = true → k'.queue src = (k.queue src).tail) ∧
      (endReceive src = true → k'.rqueue (src.toNat - 8) = (k.rqueue (src.toNat - 8)).pop.1) ∧
      (∀ q, q ≠ src → k'.queue q = k.queue q) ∧ SameUnits k k')) ∧
    (endIsSource src = true → Issues (.tld h t src part) h { tile := { op := 1, tile := t, rest := tileRest src part } } (fun k k' now =>
      ⟨now + 3, t, part, (k.tile t).size, k.peek src⟩ ∈ k'.tileWr ∧ SameUnits k k')) ∧
    (endIsDest dst = true → Issues (.tst h t dst part) h { tile := { op := 2, tile := t, rest := tileRest dst part } } (fun k k' now =>
      Pushed k' dst ((k.tile t).half part) (now + 1) ∧ SameUnits k k')) ∧
    Issues (.tcfg h t rows bpr) h { tile := { op := 3, tile := t, rest := rows ++ bpr ++ 0#3 } } (fun k k' _ =>
      (k'.tile t).rows = rows ∧ (k'.tile t).bpr = bpr ∧ (k'.tile t).data = (k.tile t).data ∧ (k'.tile t).marks = (k.tile t).marks ∧
      (∀ i, i ≠ t → k'.tile i = k.tile i) ∧ k'.agus = k.agus ∧ k'.mx = k.mx ∧ k'.spad.rows = k.spad.rows ∧ k'.iq = k.iq)

/-- ASET stores one value and, but for BASE, rewinds the generator; ARST rewinds it; ASKIP advances it as a use would
(R129, R153 to R155). The other generators keep their state. -/
def Sys2Proof.Claims.GeneratorOperations : Prop :=
  ∀ (h : HamperId) (g sel : BitVec 3) (vsrc : BitVec 2) (val : BitVec 14),
    (endIsSource (if vsrc = 2 then val.extractLsb' 9 5 else 0) = true →
      ∀ s, Goes s h { agu := { op := 1, gen := g, sel := sel, vsrc := vsrc, val := val } } →
      ∃ t, exec (.aset h g sel vsrc val) s = .next t ∧ Elsewhere s t h ∧ InLanes s t h (fun k k' _ =>
        let v : BitVec 16 :=
          if vsrc = 0 then (if sel = 1 ∨ sel = 2 then val.signExtend 16 else val.zeroExtend 16)
          else if vsrc = 1 then (smGet 0 (s.hamper h).scalars (val.extractLsb' 10 4).toNat).extractLsb' 0 16
          else (k.peek (val.extractLsb' 9 5)).data.extractLsb' 0 16
        let a := k.agu g
        let b := k'.agu g
        (sel = 0 → b = { a with base := v }) ∧
        (sel ≠ 0 → b.i = 0 ∧ b.j = 0 ∧ b.phase = false ∧ b.base = a.base) ∧
        (sel = 1 → b.stride1 = v) ∧ (sel = 2 → b.stride2 = v) ∧ (sel = 3 → b.count1 = v) ∧ (sel = 4 → b.count2 = v) ∧
        (sel = 5 → b.ringLo = v) ∧ (sel = 6 → b.ringHi = v) ∧
        (sel = 7 → v.extractLsb' 0 3 ≤ 4 → v.extractLsb' 3 5 ≤ 19 → b.mode = v.extractLsb' 0 3 ∧ b.src = v.extractLsb' 3 5) ∧
        (∀ n, n ≠ g → k'.agu n = k.agu n) ∧ k'.tiles = k.tiles ∧ k'.mx = k.mx ∧ k'.spad.rows = k.spad.rows)) ∧
    Issues (.arst h g) h { agu := { op := 2, gen := g } } (fun k k' _ =>
      k'.agu g = { k.agu g with i := 0, j := 0, phase := false } ∧ (∀ n, n ≠ g → k'.agu n = k.agu n) ∧ k'.tiles = k.tiles ∧
      k'.mx = k.mx ∧ k'.spad.rows = k.spad.rows ∧ k'.iq = k.iq) ∧
    Issues (.askip h g) h { agu := { op := 3, gen := g } } (fun k k' _ =>
      let a := k.agu g
      (a.mode = 0 → k'.agu g = { a with i := if a.i = a.count1 then 0 else a.i + 1 }) ∧
      (a.mode = 1 → a.i ≠ a.count1 → k'.agu g = { a with i := a.i + 1 }) ∧
      (a.mode = 1 → a.i = a.count1 → k'.agu g = { a with i := 0, j := if a.j = a.count2 then 0 else a.j + 1 }) ∧
      (a.mode = 2 → a.ringLo ≤ a.ringHi → a.i.toNat + a.stride1.toNat < a.ringHi.toNat - a.ringLo.toNat + 1 →
        k'.agu g = { a with i := BitVec.ofNat 16 (a.i.toNat + a.stride1.toNat) }) ∧
      (a.mode = 3 ∨ a.mode = 4 → k'.agu g = a) ∧
      (∀ n, n ≠ g → k'.agu n = k.agu n) ∧ k'.tiles = k.tiles ∧ k'.mx = k.mx ∧ k'.spad.rows = k.spad.rows ∧ k'.iq = k.iq)

/-- ENM, ENALL, MONES, MZERO and MNOT act in every core of the hamper, in a disabled one too; a mask takes its value in
the next cycle (R114, R118, R161). -/
def Sys2Proof.Claims.MaskOperations : Prop :=
  ∀ (h : HamperId) (m : BitVec 2) (s : State),
    (Goes s h { mask := { mop := 1, mi := m } } → ∃ t, exec (.enm h m) s = .next t ∧
      Elsewhere s t h ∧ InAllLanes s t h fun k k' _ => k'.en = (k.mask m != 0) ∧ k'.masks = k.masks ∧ k'.maskWr = k.maskWr ∧ k'.iq = k.iq) ∧
    (Goes s h { mask := { mop := 2 } } → ∃ t, exec (.enall h) s = .next t ∧
      Elsewhere s t h ∧ InAllLanes s t h fun k k' _ => k'.en = true ∧ k'.masks = k.masks ∧ k'.maskWr = k.maskWr ∧ k'.iq = k.iq) ∧
    (Goes s h { mask := { mop := 3, mi := m } } → ∃ t, exec (.mones h m) s = .next t ∧
      Elsewhere s t h ∧ InAllLanes s t h fun k k' now => ⟨now + 1, m, 0xFFFFFFFF⟩ ∈ k'.maskWr ∧ k'.masks = k.masks ∧ k'.en = k.en ∧ k'.iq = k.iq) ∧
    (Goes s h { mask := { mop := 4, mi := m } } → ∃ t, exec (.maskMzero h m) s = .next t ∧
      Elsewhere s t h ∧ InAllLanes s t h fun k k' now => ⟨now + 1, m, 0⟩ ∈ k'.maskWr ∧ k'.masks = k.masks ∧ k'.en = k.en ∧ k'.iq = k.iq) ∧
    (Goes s h { mask := { mop := 5, mi := m } } → ∃ t, exec (.mnot h m) s = .next t ∧
      Elsewhere s t h ∧ InAllLanes s t h fun k k' now => ⟨now + 1, m, ~~~ k.mask m⟩ ∈ k'.maskWr ∧ k'.masks = k.masks ∧ k'.en = k.en ∧ k'.iq = k.iq)

/-- The operations of the AGU and MASK fields of a control word. That such a row is the issue of a word with this field alone is log
entry 41. -/
def Obligations.GeneratorAndMaskOperations : Prop := GeneratorOperations ∧ MaskOperations

/-- FWD, DROP, TLD, TST, VADD, VSUB, VMUL, VMIN, VMAX, VAND, VOR, VXOR, VSEL, VCMP, VMOV, VFMA, VFN, MMA, MOUT, and ASET from an
end, do nothing in any enabled core where they name an end in a position that R95 does not allow: the core's units and queues keep
their state and BAD_END of CORE_STATUS is set (R96). That such a row is the issue of a word with this field alone is log entry
41. -/
def Obligations.BadEndDoesNothing : Prop :=
  ∀ (h : HamperId) (slot : Slot) (ty : BitVec 3) (sa sb sc dst t : BitVec 5) (part : Bool) (g sel : BitVec 3) (val : BitVec 14)
    (cond : BitVec 3) (m : BitVec 2) (fn fmt pass : BitVec 4) (mode ocs : BitVec 2) (acc : BitVec 3) (opa opb : BitVec 6) (half : Bool),
    let nothing := fun (k k' : Core) (_now : Nat) => SameUnits k k' ∧ k'.iq = k.iq ∧ k'.net = k.net ∧ k'.status.getLsbD 0 = true
    (¬ EndsOk [sa, sb] dst →
      Issues (.vsub h slot ty sa sb dst) h (slotWord slot ⟨2, ty, sa, sb, dst, 0⟩) nothing ∧
      Issues (.vmul h slot ty sa sb dst) h (slotWord slot ⟨3, ty, sa, sb, dst, 0⟩) nothing ∧
      Issues (.vmin h slot ty sa sb dst) h (slotWord slot ⟨5, ty, sa, sb, dst, 0⟩) nothing ∧
      Issues (.vmax h slot ty sa sb dst) h (slotWord slot ⟨6, ty, sa, sb, dst, 0⟩) nothing ∧
      Issues (.vcmp h slot ty sa sb dst cond m) h (slotWord slot ⟨7, ty, sa, sb, dst, 0#3 ++ m ++ cond⟩) nothing ∧
      Issues (.vsel h slot ty sa sb dst m) h (slotWord slot ⟨8, ty, sa, sb, dst, m.zeroExtend 8⟩) nothing ∧
      Issues (.vand h slot ty sa sb dst) h (slotWord slot ⟨9, ty, sa, sb, dst, 0⟩) nothing ∧
      Issues (.vor h slot ty sa sb dst) h (slotWord slot ⟨10, ty, sa, sb, dst, 0⟩) nothing ∧
      Issues (.vxor h slot ty sa sb dst) h (slotWord slot ⟨11, ty, sa, sb, dst, 0⟩) nothing) ∧
    (¬ EndsOk [sa] dst →
      Issues (.vmov h slot ty sa dst) h (slotWord slot ⟨0x0F, ty, sa, 0, dst, 0⟩) nothing ∧
      Issues (.vfn h ty sa dst fn) h { vxa := ⟨0x10, ty, sa, 0, dst, fn.zeroExtend 8⟩ } nothing) ∧
    (¬ EndsOk [sa, sb, sc] dst →
      Issues (.vfma h ty sa sb sc dst) h { vxa := ⟨4, ty, sa, sb, dst, sc.zeroExtend 8⟩ } nothing) ∧
    (endIsSource sa = false → Issues (.tld h t sa part) h { tile := { op := 1, tile := t, rest := tileRest sa part } } nothing) ∧
    (endIsDest dst = false → Issues (.mout h acc half dst) h
      { mx := { op := 8, acc := acc, opb := 0#1 ++ dst, pass := if half then 1 else 0 } } nothing) ∧
    ((16 ≤ (codeEnd opa).toNat ∨ 16 ≤ (codeEnd opb).toNat) → Issues (.mma h fmt mode acc opa opb pass ocs) h
      { mx := ⟨1, fmt, mode, acc, opa, opb, pass, ocs⟩ } nothing) ∧
    (endIsSource (val.extractLsb' 9 5) = false →
      Issues (.aset h g sel 2 val) h { agu := { op := 1, gen := g, sel := sel, vsrc := 2, val := val } } nothing) ∧
    (¬ EndsOk [sa] dst → Issues (.fwd h sa dst) h { net := { op := 1, src := sa, dst := dst } } nothing) ∧
    (endIsSource sa = false → Issues (.drop h sa) h { net := { op := 2, src := sa } } nothing) ∧
    (¬ EndsOk [sa, sb] dst → Issues (.vadd h slot ty sa sb dst) h (slotWord slot ⟨1, ty, sa, sb, dst, 0⟩) nothing) ∧
    (endIsDest dst = false → Issues (.tst h t dst part) h { tile := { op := 2, tile := t, rest := tileRest dst part } } nothing)

/-! ## Issue -/

/-- A hamper tries the word at the head of its queue: where nothing refuses it, it leaves the queue and every core of the hamper
takes it; where a condition fails, nothing of it happens and the stall is counted (R104, R105, R350). Holds are left to
`HoldComputesItsTarget`. Where the spec leaves a point open, the model's choices stand in log entries 25, 113. -/
def Obligations.IssueTakesTheHead : Prop :=
  ∀ (h : HamperId) (q : QWord) (rest : List QWord) (s : State),
    (s.hamper h).iq = q :: rest → s.mayIssue h = true → q.pushed < s.cycle (groveOfHamper h) →
    let w := decodeCw q.word
    ((settled s h).wordRefusal h w = none → (w.seq.op &&& 0x3C ≠ 0x20) →
      ∃ t, exec (.issue h) s = .next t ∧ (t.hamper h).iq = rest ∧ (t.hamper h).refused = 0 ∧
        (w.seq.op ≠ 0x11 → w.seq.op ≠ 0x3E → InAllLanes s t h fun k k' now =>
          ∃ x : IssueAt, x.now = now ∧ x.aset = q.aset ∧
            k'.tiles = (k.issueAny x w).1.tiles ∧ k'.agus = (k.issueAny x w).1.agus ∧ k'.mx = (k.issueAny x w).1.mx ∧
            k'.iq = (k.issueAny x w).1.iq ∧ k'.en = (k.issueAny x w).1.en)) ∧
    (∀ l r, (settled s h).wordRefusal h w = some (l, r) →
      ∃ t, exec (.issue h) s = .next t ∧ (t.hamper h).iq = q :: rest ∧ (t.hamper h).refused = (s.hamper h).refused + 1 ∧
        (t.hamper h).refusedAt = State.refusedBits l r ∧ ∀ c, t.core c = (settled s h).core c)

/-- HOLD_AT and HOLD_REL: HOLD_BASE moves by ceil(d × S / 65536), HOLD_POS to the offset or by the distance, an offset below
HOLD_POS moves nothing and sets HOLD_ORDER; with no abort pending the hamper then waits for its grove (R44 to R49, R55, R187). That
such a row is the issue of a word with this field alone is log entry 41. -/
def Obligations.HoldComputesItsTarget : Prop :=
  ∀ (h : HamperId) (t18 : BitVec 18) (a : BitVec 4),
    let after := fun (rel : Bool) (off : BitVec 32) (s t : State) =>
      let k := s.hamper h
      let k' := t.hamper h
      let low := !rel && off.toNat < k.holdPos.toNat
      let d := if rel then off.toNat else off.toNat - k.holdPos.toNat
      let base := k.holdBase + (s.time.podDefer - k.podSeen) + BitVec.ofNat 64 ((d * s.scaleField + 65535) / 65536)
      k'.holdBase = base ∧
      k'.holdPos = (if rel then k.holdPos + off.zeroExtend 64 else if low then k.holdPos else off.zeroExtend 64) ∧
      (low = true → k'.fault.getLsbD 1 = true) ∧
      (low = false → k.badEnd = false → s.plane.abort = none → k.state ≠ stStopped →
        k'.hold = some ⟨base, s.cycle (groveOfHamper h), s.time.almanac⟩ ∧ k'.state = (if k.state = stRunning then stHolding else k.state) ∧
        k'.iq = k.iq)
    let sv := fun (s : State) => smGet 0 (s.hamper h).scalars a.toNat
    IssuesTo (.holdAtI h t18) h { seq := ⟨0x20, t18⟩ } (fun s t => after false (t18.zeroExtend 32) s t) ∧
    IssuesTo (.holdAtR h a) h { seq := ⟨0x21, a ++ 0#14⟩ } (fun s t => after false (sv s) s t) ∧
    IssuesTo (.holdRelI h t18) h { seq := ⟨0x22, t18⟩ } (fun s t => after true (t18.zeroExtend 32) s t) ∧
    IssuesTo (.holdRelR h a) h { seq := ⟨0x23, a ++ 0#14⟩ } (fun s t => after true (sv s) s t)

/-- WAIT stops issue for its count of schedule cycles, END makes the hamper done, PSWAP swaps the parameter banks, and a
word with CHECK.AUDIT leaves the Almanac, its id and a further count (R164, R177, R188, R189). That the count of the audit
tag wraps is the model's choice (log entry 115). -/
def Sys2Proof.Claims.WaitsEndSwapAudit : Prop :=
  ∀ (h : HamperId) (n : BitVec 14) (a : BitVec 4) (id : BitVec 5),
    let g := groveOfHamper h
    IssuesTo (.waitI h n) h { seq := ⟨0x24, 0#4 ++ n⟩ } (fun s t => (t.hamper h).waitUntil = s.total g + 1 + n.toNat) ∧
    IssuesTo (.waitR h a) h { seq := ⟨0x25, a ++ 0#14⟩ } (fun s t =>
      (t.hamper h).waitUntil = s.total g + 1 + (smGet 0 (s.hamper h).scalars a.toNat).toNat) ∧
    IssuesTo (.seqEnd h) h { seq := ⟨0x3E, 0⟩ } (fun s t =>
      (t.hamper h).state = stDone ∧ (t.hamper h).stopped = true ∧ (t.hamper h).loops = [] ∧ (t.hamper h).iq = (s.hamper h).iq) ∧
    IssuesTo (.pswap h) h { seq := ⟨0x11, 0⟩ } (fun s t =>
      (t.hamper h).paramAct = !(s.hamper h).paramAct ∧ (t.hamper h).paramReady = false ∧ (t.hamper h).swapWait = false ∧
      ((s.hamper h).paramReady = false → (t.hamper h).fault.getLsbD 4 = true)) ∧
    IssuesTo (.auditPoint h id) h { check := { audit := 1, id := id } } (fun s t =>
      (t.hamper h).auditAlm = s.time.almanac ∧ getBits (t.hamper h).auditTag 4 0 = id.toNat ∧
      getBits (t.hamper h).auditTag 63 32 = (getBits (s.hamper h).auditTag 63 32 + 1) % 2 ^ 32)

/-- WATCHDOG: at the threshold the refused condition goes to SEQ_WD, the grove's bit of CP_WD_MAP is set, and a
force-stop request is pending where a hamper runs (R350 to R352). -/
def Sys2Proof.Claims.WatchdogFires : Prop :=
  ∀ (h : HamperId) (s : State),
    s.flag CP_WD_CFG.EN = true → (s.hamper h).wdFired = false → 2 ^ s.fld CP_WD_CFG.LOG2 ≤ (s.hamper h).refused →
    ∃ t, exec (.watchdog h) s = .next t ∧ (t.hamper h).wd = (s.hamper h).refusedAt ||| 1 ∧ (t.hamper h).wdFired = true ∧
      t.flag (groveBit CP_WD_MAP.off (groveOfHamper h)) = true ∧
      (s.anyHamper Hamper.runs = true → ∃ r, t.plane.abort = some r ∧ r.force = true)

/-- What a word's SEQ field does at issue besides holds, audit points, and the watchdog. Where the spec leaves a point open, the
model's choice stands in log entry 115. That such a row is the issue of a word with this field alone is log entry 41. -/
def Obligations.WaitsEndSwapAuditWatchdog : Prop := WaitsEndSwapAudit ∧ WatchdogFires

/-! ## The front end -/

/-- The scalar operations of SEQ: NOP, SLI, SLIS, SMOV, SADD, SSUB, SMAD, SADDI (R174, R175). Results are modulo 2^32 and SOVF is
set where the exact result does not fit. That such a row is the push of the word that holds it is log entry 43. -/
def Obligations.ScalarArithmetic : Prop :=
  ∀ (h : HamperId) (d a b c : BitVec 4) (imm : BitVec 14) (i10 : BitVec 10),
    let x := fun (n : BitVec 4) (k : Hamper) => (k.scalar n).toNat
    (∀ s, MayPush s h ⟨0x00, 0⟩ → ∃ t, exec (.nop h) s = .next t ∧ PushedWord s t h ⟨0x00, 0⟩ ∧
      (t.hamper h).scalars = (s.hamper h).scalars ∧ (t.hamper h).lcs = (s.hamper h).lcs ∧ (t.hamper h).fault = (s.hamper h).fault ∧
      (t.hamper h).pc = nextPc (s.hamper h).pc) ∧
    ScalarOp (.sli h d imm) h ⟨0x01, d ++ imm⟩ d (fun _ => imm.zeroExtend 32) (fun _ => false) ∧
    ScalarOp (.slis h d imm) h ⟨0x02, d ++ imm⟩ d (fun k => k.scalar d <<< 14 ||| imm.zeroExtend 32)
      (fun k => 2 ^ 18 ≤ x d k) ∧
    ScalarOp (.smov h d a) h ⟨0x03, d ++ a ++ 0#10⟩ d (fun k => k.scalar a) (fun _ => false) ∧
    ScalarOp (.sadd h d a b) h ⟨0x04, d ++ a ++ b ++ 0#6⟩ d (fun k => k.scalar a + k.scalar b) (fun k => 2 ^ 32 ≤ x a k + x b k) ∧
    ScalarOp (.ssub h d a b) h ⟨0x05, d ++ a ++ b ++ 0#6⟩ d (fun k => k.scalar a - k.scalar b) (fun k => x a k < x b k) ∧
    ScalarOp (.smad h d a b c) h ⟨0x06, d ++ a ++ b ++ c ++ 0#2⟩ d (fun k => k.scalar a * k.scalar b + k.scalar c)
      (fun k => 2 ^ 32 ≤ x a k * x b k + x c k) ∧
    ScalarOp (.saddi h d a i10) h ⟨0x07, d ++ a ++ i10⟩ d (fun k => k.scalar a + i10.signExtend 32)
      (fun k => decide ((x a k : Int) + i10.toInt < 0) || decide ((2 ^ 32 : Int) ≤ (x a k : Int) + i10.toInt))

/-- Shifts, minimum, maximum, step parameters, loop indexes and loop counters (R174, R182). That such a row is the push of the word
that holds it is log entry 43. -/
def Obligations.ScalarMovesAndCounters : Prop :=
  ∀ (h : HamperId) (d a b : BitVec 4) (sh : BitVec 5) (idx : BitVec 6) (k : BitVec 2) (imm : BitVec 16),
    ScalarOp (.sshl h d a sh) h ⟨0x08, d ++ a ++ sh ++ 0#5⟩ d (fun r => r.scalar a <<< sh.toNat) (fun _ => false) ∧
    ScalarOp (.sshr h d a sh) h ⟨0x09, d ++ a ++ sh ++ 0#5⟩ d (fun r => r.scalar a >>> sh.toNat) (fun _ => false) ∧
    ScalarOp (.smin h d a b) h ⟨0x0A, d ++ a ++ b ++ 0#6⟩ d
      (fun r => BitVec.ofNat 32 (min (r.scalar a).toNat (r.scalar b).toNat)) (fun _ => false) ∧
    ScalarOp (.smax h d a b) h ⟨0x0B, d ++ a ++ b ++ 0#6⟩ d
      (fun r => BitVec.ofNat 32 (max (r.scalar a).toNat (r.scalar b).toNat)) (fun _ => false) ∧
    ScalarOp (.sgetp h d idx) h ⟨0x10, d ++ 0#8 ++ idx⟩ d
      (fun r => smGet 0 r.params ((if r.paramAct then 64 else 0) + idx.toNat)) (fun _ => false) ∧
    ScalarOp (.sgetli h d k) h ⟨0x12, d ++ 0#12 ++ k⟩ d
      (fun r => match r.loops.find? (fun l => l.k = k) with | some l => BitVec.ofNat 32 l.index | none => 0) (fun _ => false) ∧
    (∀ s, MayPush s h ⟨0x18, k ++ imm⟩ → ∃ t, exec (.setlc h k imm) s = .next t ∧ PushedWord s t h ⟨0x18, k ++ imm⟩ ∧
      (t.hamper h).lc k = imm.zeroExtend 32 ∧ (∀ n, n ≠ k → (t.hamper h).lc n = (s.hamper h).lc n) ∧
      (t.hamper h).scalars = (s.hamper h).scalars) ∧
    (∀ s, MayPush s h ⟨0x19, k ++ 0#2 ++ a ++ 0#10⟩ → ∃ t, exec (.setlcr h k a) s = .next t ∧
      PushedWord s t h ⟨0x19, k ++ 0#2 ++ a ++ 0#10⟩ ∧ (t.hamper h).lc k = (s.hamper h).scalar a ∧
      (∀ n, n ≠ k → (t.hamper h).lc n = (s.hamper h).lc n) ∧ (t.hamper h).scalars = (s.hamper h).scalars)

/-- LOOP latches its counter, or with a counter of 0 passes over its body; the word after a body's last word is the body's first
until the passes are over, and then the next word or an outer loop's first; a LOOP whose counter is in use, or a CALL as the last
word of a body, sets BAD_LOOP; CALL and RET move between the program and the library store (R179 to R184). Where the spec leaves a
point open, the model's choice stands in log entry 42. That such a row is the push of the word that holds it is log entry 43. -/
def Obligations.LoopCallReturn : Prop :=
  ∀ (h : HamperId) (k : BitVec 2) (body : BitVec 14) (target : BitVec 13) (s : State),
    let r := s.hamper h
    let now := s.cycle (groveOfHamper h)
    let last := pcPlus r.pc body.toNat
    (MayPush s h ⟨0x1A, k ++ 0#2 ++ body⟩ → body ≠ 0 → (∀ l ∈ r.loops, l.k ≠ k) →
      (∀ l ∈ r.loops.head?, l.depth = r.calls.length → l.last.getLsbD 24 = r.pc.getLsbD 24 → last ≤ l.last) →
      ∃ t, exec (.loop h k body) s = .next t ∧ PushedWord s t h ⟨0x1A, k ++ 0#2 ++ body⟩ ∧
        ((r.lc k).toNat ≠ 0 → (t.hamper h).pc = nextPc r.pc ∧
          (t.hamper h).loops = ⟨k, (r.lc k).toNat, 0, nextPc r.pc, last, r.calls.length⟩ :: r.loops) ∧
        ((r.lc k).toNat = 0 → (∀ l ∈ r.loops, ¬ (l.depth = r.calls.length ∧ l.last = last)) →
          (t.hamper h).pc = nextPc last ∧ (t.hamper h).loops = r.loops ∧ (t.hamper h).pushFrom = now + 2)) ∧
    (let may := s.mayPush h = true ∧ r.smad = none
     let ends := fun (l : Loop) => l.depth = r.calls.length ∧ l.last = r.pc
     let pushed := fun (t : State) => PushedWord s t h ⟨0x00, 0⟩ ∧ (t.hamper h).pushFrom = now + 1 ∧ (t.hamper h).fault = r.fault
     (∀ l ls, may → r.loops = l :: ls → ends l → l.index + 1 < l.n → ∃ t, exec (.nop h) s = .next t ∧ pushed t ∧
       (t.hamper h).pc = l.first ∧ (t.hamper h).loops = { l with index := l.index + 1 } :: ls) ∧
     (∀ l ls, may → r.loops = l :: ls → ends l → l.n ≤ l.index + 1 → (∀ y ∈ ls.head?, ¬ ends y) →
       ∃ t, exec (.nop h) s = .next t ∧ pushed t ∧ (t.hamper h).pc = nextPc r.pc ∧ (t.hamper h).loops = ls) ∧
     (∀ l y ls, may → r.loops = l :: y :: ls → ends l → l.n ≤ l.index + 1 → ends y → y.index + 1 < y.n →
       ∃ t, exec (.nop h) s = .next t ∧ pushed t ∧ (t.hamper h).pc = y.first ∧
         (t.hamper h).loops = { y with index := y.index + 1 } :: ls) ∧
     (may → body ≠ 0 → (∃ l ∈ r.loops, l.k = k) → (∀ l ∈ r.loops, ¬ ends l) → ∃ t, exec (.loop h k body) s = .next t ∧
       PushedWord s t h ⟨0x1A, k ++ 0#2 ++ body⟩ ∧ (t.hamper h).fault.getLsbD sfBadLoop = true ∧
       (t.hamper h).pc = nextPc r.pc ∧ (t.hamper h).loops = r.loops) ∧
     (∀ l ls, may → r.loops = l :: ls → ends l → (∀ y ∈ ls, ¬ ends y) → r.calls.length < 4 →
       ∃ t, exec (.call h target) s = .next t ∧ PushedWord s t h ⟨0x1C, 0#5 ++ target⟩ ∧
         (t.hamper h).fault.getLsbD sfBadLoop = true ∧ (t.hamper h).loops = ls ∧ (t.hamper h).calls = nextPc r.pc :: r.calls)) ∧
    (MayPush s h ⟨0x1C, 0#5 ++ target⟩ → r.calls.length < 4 →
      ∃ t, exec (.call h target) s = .next t ∧ PushedWord s t h ⟨0x1C, 0#5 ++ target⟩ ∧
        (t.hamper h).calls = nextPc r.pc :: r.calls ∧ (t.hamper h).pc = BitVec.ofNat 25 (2 ^ 24 + target.toNat) ∧
        (t.hamper h).loops = r.loops ∧ (t.hamper h).pushFrom = now + 3) ∧
    (∀ a as, MayPush s h ⟨0x1D, 0⟩ → r.calls = a :: as → (∀ l ∈ r.loops, l.depth < r.calls.length) →
      ∃ t, exec (.ret h) s = .next t ∧ PushedWord s t h ⟨0x1D, 0⟩ ∧ (t.hamper h).calls = as ∧ (t.hamper h).pc = a ∧
        (t.hamper h).loops = r.loops ∧ (t.hamper h).pushFrom = now + 3 ∧ (t.hamper h).fault = r.fault)

/-- WORD_PUSH pushes the library word or the cached word at the PC, and on a miss asks for its line; IC_FILL then places
the line, with the words that HBM holds, and for a preload moves on (R172, R184, R192, R193, R214). Where the spec leaves a point open, the
model's choices stand in log entries 42, 116, 117, 140, 145. -/
def Obligations.FetchAndFill : Prop :=
  ∀ (h : HamperId) (s : State),
    let r := s.hamper h
    let g := groveOfHamper h
    let line := r.pc.extractLsb' 3 21
    (s.mayPush h = true → r.pc.getLsbD 24 = true → r.smad = none →
      ∃ t q, exec (.wordPush h) s = .next t ∧ (t.hamper h).iq = r.iq ++ [q] ∧ q.pushed = s.cycle g ∧
        q.pc = r.pc ∧ (reservedFields (decodeCw (smGet 0 (s.grove g).lib (r.pc.toNat % 8192)))
            (r.asetValue (decodeCw (smGet 0 (s.grove g).lib (r.pc.toNat % 8192))).agu) = [] →
          (decodeCw (smGet 0 (s.grove g).lib (r.pc.toNat % 8192))).seq.op ≠ 0x1D →
          q.word = smGet 0 (s.grove g).lib (r.pc.toNat % 8192))) ∧
    (∀ x, s.mayPush h = true → r.pc.getLsbD 24 = false → r.cached line = some x → r.smad = none →
      let raw := (x.words[r.pc.toNat % 8]?).getD 0
      ∃ t q, exec (.wordPush h) s = .next t ∧ (t.hamper h).iq = r.iq ++ [q] ∧ q.pushed = s.cycle g ∧ q.pc = r.pc ∧
        (t.hamper h).icMisses = r.icMisses ∧
        (reservedFields (decodeCw raw) (r.asetValue (decodeCw raw).agu) = [] → (decodeCw raw).seq.op ≠ 0x1D → q.word = raw)) ∧
    (s.mayPush h = true → r.pc.getLsbD 24 = false → r.cached line = none →
      ∃ t, exec (.wordPush h) s = .next t ∧ (t.hamper h).icMiss = some line ∧ (t.hamper h).iq = r.iq ∧ (t.hamper h).pc = r.pc ∧
        (t.hamper h).icMisses.toNat = min 0xFFFFFFFF (r.icMisses.toNat + 1)) ∧
    (∀ l, r.icMiss = some l → r.progBase.toNat + 256 * l.toNat + 256 ≤ hbmEnd →
      ∃ t x, exec (.icFill h) s = .next t ∧ (t.hamper h).icMiss = none ∧ (t.hamper h).cached l = some x ∧
        x.words = s.lineWords h l ∧ t.hbm = s.hbm) ∧
    (∀ p, r.icMiss = none → r.preload = some p → r.progBase.toNat + 256 * p.line.toNat + 256 ≤ hbmEnd →
      ∃ t x, exec (.icFill h) s = .next t ∧ (t.hamper h).cached p.line = some x ∧ x.words = s.lineWords h p.line ∧
        (t.hamper h).preload = (if p.left ≤ 1 then none else some { p with line := p.line + 1, left := p.left - 1 })) ∧
    ((∀ l, r.icMiss = some l → hbmEnd < r.progBase.toNat + 256 * l.toNat + 256 → exec (.icFill h) s = .fault .noSuchMemory))

/-! ## Sequencer commands and aborts -/

/-- START, STEP and CLEAR of SEQ_CTRL in the states that allow them, and CMD_REFUSED in the others (R195, R207, R208). That START
keeps the words in the issue queue and CLEAR zeroes all of SEQ_FAULT are the model's choices (log entry 141); further ones stand in
log entry 44. -/
def Obligations.SequencerCommands : Prop :=
  ∀ (h : HamperId) (s : State),
    let r := s.hamper h
    ((r.state = stIdle ∨ r.state = stStopped) → r.preload = none →
      ∃ t, exec (.seqStart h) s = .next t ∧ (t.hamper h).state = stRunning ∧ (t.hamper h).holdBase = s.time.almanac ∧
        (t.hamper h).holdPos = 0 ∧ (t.hamper h).pc = r.pc ∧ (t.hamper h).scalars = r.scalars ∧ t.hbm = s.hbm ∧
        ∀ g, g ≠ h → t.hamper g = s.hamper g) ∧
    (r.state = stStopped → r.preload = none →
      ∃ t, exec (.seqStep h) s = .next t ∧ (t.hamper h).stepPush = true ∧ (t.hamper h).stepOne = true ∧
        (t.hamper h).state = stStopped ∧ ∀ g, g ≠ h → t.hamper g = s.hamper g) ∧
    ((r.state = stIdle ∨ r.state = stStopped ∨ r.state = stDone) →
      ∃ t, exec (.seqClear h) s = .next t ∧ (t.hamper h).state = stIdle ∧ (t.hamper h).iq = [] ∧ (t.hamper h).loops = [] ∧
        (t.hamper h).calls = [] ∧ (t.hamper h).fault = 0 ∧ (t.hamper h).holdBase = 0 ∧ (t.hamper h).holdPos = 0 ∧
        (t.hamper h).pc = r.pc ∧ (t.hamper h).scalars = r.scalars ∧ ∀ g, g ≠ h → t.hamper g = s.hamper g) ∧
    (∀ c ∈ [Instr.seqStart h, .seqStep h, .seqClear h],
      (c = .seqStart h → r.preload ≠ none ∨ (r.state ≠ stIdle ∧ r.state ≠ stStopped)) →
      (c = .seqStep h → r.preload ≠ none ∨ r.state ≠ stStopped) → (c = .seqClear h → r.quiet = false) →
      ∃ t, exec c s = .next t ∧ t.hamper h = { r with cmdRefused := true, fresh := (t.hamper h).fresh } ∧
        (∀ g, g ≠ h → t.hamper g = s.hamper g) ∧
        t = { s with plane := { s.plane with hampers := t.plane.hampers } })

/-- Writes of SEQ_PC, SEQ_ABORT_CFG, SEQ_PROG_BASE, scalars and loop counters are taken by an idle, stopped or done hamper
and by no other (R205, R210, R213 to R215). That SEQ_PC and SEQ_PROG_BASE keep the bits of their address alone, whatever stands
above them in the value written, is the model's choice (log entry 45). -/
def Obligations.SequencerRegisters : Prop :=
  ∀ (h : HamperId) (v : BitVec 64) (off : BitVec 12) (s : State),
    let r := s.hamper h
    (r.quiet = false → exec (.seqRegWrite h off v) s = .next s) ∧
    (r.quiet = true → off = 0x010 → v.getLsbD 24 = false →
      ∃ t, exec (.seqRegWrite h off v) s = .next t ∧ (t.hamper h).pc.toNat = v.toNat % 2 ^ 24 ∧ (t.hamper h).scalars = r.scalars) ∧
    (r.quiet = true → off = 0x010 → v.getLsbD 24 = true → getBits v 23 13 = 0 →
      ∃ t, exec (.seqRegWrite h off v) s = .next t ∧ (t.hamper h).pc.toNat = 2 ^ 24 + v.toNat % 8192) ∧
    (r.quiet = true → off = 0x030 →
      ∃ t, exec (.seqRegWrite h off v) s = .next t ∧ getBits (t.hamper h).abortCfg 56 32 = getBits v 56 32 ∧
        (t.hamper h).abortCfg.getLsbD 25 = v.getLsbD 25 ∧ getBits (t.hamper h).abortCfg 12 0 = getBits v 12 0 ∧
        (t.hamper h).pc = r.pc ∧ (t.hamper h).scalars = r.scalars) ∧
    (r.quiet = true → off = 0x038 → getBits v 7 0 = 0 →
      ∃ t, exec (.seqRegWrite h off v) s = .next t ∧ (t.hamper h).progBase.toNat = v.toNat % 2 ^ 42 ∧ (t.hamper h).pc = r.pc) ∧
    (∀ n, n < 8 → r.quiet = true → off = BitVec.ofNat 12 (0x040 + 8 * n) →
      ∃ t, exec (.seqRegWrite h off v) s = .next t ∧ smGet 0 (t.hamper h).scalars (2 * n) = v.extractLsb' 0 32 ∧
        smGet 0 (t.hamper h).scalars (2 * n + 1) = v.extractLsb' 32 32 ∧
        (∀ m, m ≠ 2 * n → m ≠ 2 * n + 1 → smGet 0 (t.hamper h).scalars m = smGet 0 r.scalars m) ∧ (t.hamper h).lcs = r.lcs) ∧
    (∀ n, n < 2 → r.quiet = true → off = BitVec.ofNat 12 (0x080 + 8 * n) →
      ∃ t, exec (.seqRegWrite h off v) s = .next t ∧ smGet 0 (t.hamper h).lcs (2 * n) = v.extractLsb' 0 32 ∧
        smGet 0 (t.hamper h).lcs (2 * n + 1) = v.extractLsb' 32 32 ∧ (t.hamper h).scalars = r.scalars)

/-- The instruction cache's preload, whose fields SEQ_IC_PRELOAD keeps, and unlocking, and writes of the library store (R186,
R193, R195, R216). Where the spec leaves a point open, the model's choices stand in log entry 42. -/
def Obligations.CacheAndLibrary : Prop :=
  ∀ (h : HamperId) (start : BitVec 24) (n : BitVec 7) (lock : Bool) (g : GroveId) (w : BitVec 13) (k : BitVec 2) (v : BitVec 64)
    (s : State),
    let r := s.hamper h
    (r.quiet = true → r.preload = none →
      ∃ t, exec (.icPreload h start n lock) s = .next t ∧
        (t.hamper h).preload = some ⟨start.extractLsb' 3 21, n.toNat + 1, lock⟩ ∧ (t.hamper h).icLines = r.icLines ∧
        getBits (t.hamper h).icCfg 63 40 = start.toNat ∧ getBits (t.hamper h).icCfg 30 24 = n.toNat ∧
        (t.hamper h).icCfg.getLsbD 1 = lock) ∧
    ((r.quiet = false ∨ r.preload.isSome = true) →
      ∃ t, exec (.icPreload h start n lock) s = .next t ∧ (t.hamper h).icFlags.getLsbD 0 = true ∧ (t.hamper h).preload = r.preload) ∧
    (∃ t, exec (.unlockAll h) s = .next t ∧ (∀ x ∈ (t.hamper h).icLines, x.locked = false) ∧
      (t.hamper h).icLines.map (fun x => (x.line, x.words)) = r.icLines.map (fun x => (x.line, x.words))) ∧
    (s.allHampers g Hamper.quiet = true →
      ∃ t, exec (.libraryWrite g w k v) s = .next t ∧
        (smGet 0 (t.grove g).lib w.toNat).extractLsb' (64 * k.toNat) 64 = v ∧
        (∀ j : BitVec 2, j ≠ k → (smGet 0 (t.grove g).lib w.toNat).extractLsb' (64 * j.toNat) 64 =
          (smGet 0 (s.grove g).lib w.toNat).extractLsb' (64 * j.toNat) 64) ∧
        (∀ i, i ≠ w.toNat → smGet 0 (t.grove g).lib i = smGet 0 (s.grove g).lib i) ∧ t.hbm = s.hbm) ∧
    (s.allHampers g Hamper.quiet = false →
      ∃ t, exec (.libraryWrite g w k v) s = .next t ∧ (t.grove g).libRefused = true ∧ (t.grove g).lib = (s.grove g).lib)

/-- A request for an abort is kept with its instant, a later one only adds force-stop, and without a running hamper there is none; a
hamper that waits at a hold, its grove not able to release, acts on it at A + 64: it stops, or enters its abort routine (R51, R196
to R199, R202, R204). That an event whose condition does not hold leaves the state as it was is log entry 6. -/
def Obligations.AbortRequests : Prop :=
  ∀ (useAt force : Bool) (h : HamperId) (s : State),
    let at_ := s.reg CP_ABORT_AT.off
    let a := if useAt && !(at_ < s.time.almanac) then at_ else s.time.almanac
    (s.anyHamper Hamper.runs = true → s.plane.abort = none →
      ∃ t, exec (.cpAbortReq useAt force) s = .next t ∧ t.plane.abort = some ⟨a, force⟩ ∧ t.reg CP_ABORT_AT.off = a ∧
        t.plane.hampers = s.plane.hampers ∧ t.plane.cores = s.plane.cores) ∧
    (∀ r, s.anyHamper Hamper.runs = true → s.plane.abort = some r →
      ∃ t, exec (.cpAbortReq useAt force) s = .next t ∧ t.plane.abort = some { r with force := r.force || force }) ∧
    (s.anyHamper Hamper.runs = false → exec (.cpAbortReq useAt force) s = .next s) ∧
    (∀ r w, s.plane.abort = some r → (s.hamper h).hold = some w → (s.hamper h).owes = true →
      w.alm.toNat < r.at_.toNat + 64 → r.at_.toNat + 64 ≤ s.time.almanac.toNat → s.releaseDue (groveOfHamper h) = false →
      ∃ t, exec (.abortAtHoldTimeout h) s = .next t ∧ (t.hamper h).hold = none ∧ (t.hamper h).iq = [] ∧
        (t.hamper h).loops = [] ∧ (t.hamper h).fault.getLsbD 6 = true ∧
        ((r.force = true ∨ (s.hamper h).abortCfg.getLsbD 25 = false) →
          (t.hamper h).state = stStopped ∧ (t.hamper h).calls = []) ∧
        (r.force = false → (s.hamper h).abortCfg.getLsbD 25 = true →
          (t.hamper h).state = stAbort ∧ (t.hamper h).calls = [(s.hamper h).abortCfg.extractLsb' 32 25] ∧
          (t.hamper h).pc = BitVec.ofNat 25 (2 ^ 24 + getBits (s.hamper h).abortCfg 12 0))) ∧
    (∀ r w, s.plane.abort = some r → (s.hamper h).hold = some w → r.at_.toNat + 64 ≤ w.alm.toNat →
      exec (.abortAtHoldTimeout h) s = .next s) ∧
    (s.releaseDue (groveOfHamper h) = true → exec (.abortAtHoldTimeout h) s = .next s)

/-! ## Port cycles and the scratchpad -/

/-- LD_CORE and LD_STREAM: the row is read, its tag checked where the word asks for it, and the entry goes to ld0 or ld1 or to a
send end; the row's data keep their value (R109, R131, R146, R148, R373, R381). -/
def Obligations.LoadsReadTheirRow : Prop :=
  ∀ (c : CoreId) (s : State) (p : PortRead),
    (s.core c).spad.portRd = some p → p.cycle ≤ s.cycle (groveOf c) →
    let k := s.core c
    let row := k.spadRow p.row
    let chk := if p.tag then checkRead row p.phase else (row.tag, none)
    let e0 := if chk.2.isSome then ⟨row.data, 15⟩ else row.entry
    let e := if p.bc then broadcast e0 p.bsz p.el else e0
    let kept := fun (k' : Core) => k'.spad.portRd = none ∧ (k'.spadRow p.row).data = row.data ∧ (k'.spadRow p.row).marks = row.marks ∧
      (k'.spadRow p.row).tag = chk.1 ∧ (∀ r, r ≠ p.row → k'.spadRow r = k.spadRow r) ∧ k'.tiles = k.tiles ∧ k'.mx = k.mx ∧
      k'.agus = k.agus
    (p.toCore = true → ∃ t, exec (.ldCore c) s = .next t ∧ kept (t.core c) ∧
      (p.dest ≠ 0 → (t.core c).queue p.dest = fillSlot e (p.cycle + 1) (k.queue p.dest)) ∧ ∀ d, d ≠ c → t.core d = s.core d) ∧
    (p.toCore = false → ∃ t, exec (.ldStream c) s = .next t ∧ kept (t.core c) ∧
      (endSend p.dest = true → ∃ x ∈ ((t.core c).sendEnd (p.dest.toNat - 16)).buf, x.ready = p.cycle + 1 ∧
        x.words = (List.range ((k.sendEnd (p.dest.toNat - 16)).tw.toNat + 1)).map fun w => (wordOf e.data w, e.poison.getLsbD w)) ∧
      (t.core c).iq = k.iq ∧ ∀ d, d ≠ c → t.core d = s.core d)

/-- ST_CORE and ST_STREAM with no read owed in the port cycle: the row takes the entry with fresh check bits, its tag goes
by the write rule, a masked ST writes nothing, and an empty inlet sets STREAM_EMPTY (R109, R110, R374, R382, R386). -/
def Sys2Proof.Claims.StoresWriteTheirRow : Prop :=
  ∀ (c : CoreId) (s : State) (p : PortWrite),
    (s.core c).spad.portWr = some p → p.cycle ≤ s.cycle (groveOf c) → (s.core c).spad.portRd = none →
    (s.core c).spad.injecting = [] →
    let k := s.core c
    let wrote := fun (r : BitVec 16) (phase : Bool) (e : Entry) (k' : Core) =>
      (k'.spadRow r).data = e.data ∧ (k'.spadRow r).marks = e.poison ∧ (k'.spadRow r).chk = rowChecks e ∧
      (k'.spadRow r).tag = (if p.tag then (checkWrite (k.spadRow r) phase).1 else (k.spadRow r).tag) ∧
      ∀ q, q ≠ r → k'.spadRow q = k.spadRow q
    (p.byCore = true → ∃ t, exec (.stCore c) s = .next t ∧ (t.core c).spad.portWr = none ∧
      (p.masked = false → wrote p.row p.phase p.entry (t.core c)) ∧ (p.masked = true → (t.core c).spad.rows = k.spad.rows) ∧
      (t.core c).tiles = k.tiles ∧ (t.core c).mx = k.mx ∧ (t.core c).iq = k.iq ∧ ∀ d, d ≠ c → t.core d = s.core d) ∧
    (∀ x xs, p.byCore = false → k.net.inlet = x :: xs → x.due < p.cycle →
      ∃ t, exec (.stStream c) s = .next t ∧ (t.core c).net.inlet = xs ∧
        (p.masked = false → wrote (rowOf x.row.toNat) x.phase x.entry (t.core c)) ∧
        (p.masked = true → (t.core c).spad.rows = k.spad.rows)) ∧
    (p.byCore = false → (∀ x ∈ k.net.inlet.head?, p.cycle ≤ x.due) →
      ∃ t, exec (.stStream c) s = .next t ∧ (t.core c).status.getLsbD 2 = true ∧ (t.core c).spad.rows = k.spad.rows ∧
        (t.core c).net.inlet = k.net.inlet)

/-- ENTRY_LANDED makes an entry poppable whose data was written by the end of the cycle before, and no other (R100). -/
def Sys2Proof.Claims.EntriesLand : Prop :=
  ∀ (c : CoreId) (q : BitVec 5) (s : State), endInternal q = true →
    ∃ t, exec (.entryLanded c q) s = .next t ∧
      (t.core c).queue q = ((s.core c).queue q).map (fun x =>
        if x.filled = true ∧ x.due ≤ s.cycle (groveOf c) - 1 then { x with landed := true } else x) ∧
      (∀ p, p ≠ q → (t.core c).queue p = (s.core c).queue p) ∧ (t.core c).spad = (s.core c).spad ∧ (t.core c).mx = (s.core c).mx ∧
      (∀ d, d ≠ c → t.core d = s.core d) ∧ t.hbm = s.hbm

/-- What the write port of a scratchpad does, and when an entry of an internal queue can be popped. Where the spec leaves a point
open, the model's choices stand in log entry 13. -/
def Obligations.StoresAndLandings : Prop := StoresWriteTheirRow ∧ EntriesLand

/-- SCRUB, once the port operations that the cycle's word owns are carried out: an idle, marked read cycle reads the row at
PTR; a clean row moves PTR on and changes nothing else of the rows, a row with an error waits for its rewrite in the next
port cycle, and a rewrite that is due writes the corrected row (R376, R377). -/
def Sys2Proof.Claims.ScrubberWorks : Prop :=
  ∀ (c : CoreId) (s : State),
    let k := (s.settleLane c).core c
    let cyc := s.cycle (groveOf c)
    let p := k.spad
    let marked := p.scrubMark cyc = true
    let ws := (k.rowIn cyc p.ptr).decode
    (marked → p.scrubWr = none → (p.portAt cyc).rdOwned = false → p.scrubEn = true → (ws.all fun w => w.2.2.1 = .clean) = true →
      ∃ t, exec (.scrub c) s = .next t ∧ (t.core c).spad.ptr = rowOf (p.ptr.toNat + 1) ∧ (t.core c).spad.rows = p.rows ∧
        (t.core c).spad.scrubWr = none ∧ (t.core c).iq = k.iq) ∧
    (marked → p.scrubWr = none → (p.portAt cyc).rdOwned = false → p.scrubEn = true → (ws.all fun w => w.2.2.1 = .clean) = false →
      ∃ t, exec (.scrub c) s = .next t ∧ (t.core c).spad.scrubWr = some ⟨cyc + 1, p.ptr, (k.rowIn cyc p.ptr).entry⟩ ∧
        (t.core c).spad.rows = p.rows ∧ (t.core c).spad.ptr = p.ptr) ∧
    (∀ w, p.scrubWr = some w → w.cycle = cyc → marked → (p.portAt cyc).wrOwned = false →
      smGet 0 p.writtenAt w.row.toNat ≠ cyc → (p.portAt cyc).rdOwned = true →
      ∃ t, exec (.scrub c) s = .next t ∧ ((t.core c).spadRow w.row).data = w.entry.data ∧
        ((t.core c).spadRow w.row).chk = rowChecks w.entry ∧ ((t.core c).spadRow w.row).tag = (k.spadRow w.row).tag ∧
        (t.core c).spad.ptr = rowOf (p.ptr.toNat + 1) ∧ ∀ r, r ≠ w.row → (t.core c).spadRow r = k.spadRow r)

/-! ## Registers of a core -/

/-- A core whose grove is clocked in and whose hamper is idle, stopped or done takes register writes, where no word of the
same cycle has changed one of its registers (R130, R132, R356). -/
def Sys2Proof.Claims.Takes (s : State) (c : CoreId) : Prop :=
  s.gated (groveOf c) = false ∧ ((s.settleLane c).hamper (hamperOf c)).quiet = true ∧
  ((s.settleLane c).core c).wordSet.1 ≠ s.cycle (groveOf c)

/-- CLEAR_LOGS, TAG_CLEAR, SPAD_INJECT and SPAD_TAG_WRITE (R387, R397 to R399); an injection stands behind those under way,
reads its row in the next cycle and writes it back in the one after. The state before is the one in which what has
come due in the core has taken effect. -/
def Sys2Proof.Claims.ScratchpadMaintenance : Prop :=
  ∀ (c : CoreId) (n : BitVec 4) (v : BitVec 64) (s : State), Takes s c →
    let k := (s.settleLane c).core c
    let row := rowOf (getBits v 47 32)
    let flip := BitVec.ofNat 32 (getBits v 7 0 * 2 ^ (8 * getBits v 17 16))
    let now := s.cycle (groveOf c)
    (∃ t, exec (.clearLogs c) s = .next t ∧ (t.core c).spad.ecc = 0 ∧ (t.core c).spad.chkCnt = 0 ∧ (t.core c).spad.rows = k.spad.rows ∧
      (t.core c).spad.errLog = k.spad.errLog ∧ (t.core c).spad.chkStat = k.spad.chkStat) ∧
    (∃ t, exec (.tagClear c) s = .next t ∧ (t.core c).spad.ecc = k.spad.ecc ∧
      ∀ r, ((t.core c).spadRow r).data = (k.spadRow r).data ∧ ((t.core c).spadRow r).tag = 0 ∧ ((t.core c).spadRow r).tagOk = true) ∧
    (∃ t, exec (.spadInject c v) s = .next t ∧ (t.core c).spad.rows = k.spad.rows ∧
      (t.core c).spad.injecting = k.spad.injecting ++ [⟨now + 1, row, flip, none⟩] ∧
      ∀ alm m, now + 2 ≤ m → k.spad.injecting = [] → k.spad.portRd = none → k.spad.portWr = none →
        k.spad.lastWrite ≠ (now + 1, row) →
        let k' := ((t.core c).ports alm m).1
        k'.spadRow row = { k.spadRow row with chk := (k.spadRow row).chk ^^^ flip } ∧ ∀ r, r ≠ row → k'.spadRow r = k.spadRow r) ∧
    (∃ t, exec (.spadTagWrite c n v) s = .next t ∧
      (∀ m, m < 32 → let r := BitVec.ofNat 16 (32 * n.toNat + m)
        ((t.core c).spadRow r).tag = v.extractLsb' (2 * m) 2 ∧ ((t.core c).spadRow r).tagOk = true ∧
        ((t.core c).spadRow r).data = (k.spadRow r).data) ∧
      ∀ r : BitVec 16, r.toNat / 32 ≠ n.toNat → (t.core c).spadRow r = k.spadRow r)

/-- Scrubbing, and the commands that maintain a scratchpad. Where the spec leaves a point open, the
model's choices stand in log entries 12, 120, 142. -/
def Obligations.ScrubbingAndMaintenance : Prop := ScrubberWorks ∧ ScratchpadMaintenance

/-- Writes of VX_VL, TILE_SHAPEk, AGU_n_CFG0, NET_SEND_n and NET_RQ_n (R129, R141, R311, R312, R337, R358); a write of a
generator is in effect from the next cycle (R130). -/
def Sys2Proof.Claims.CoreRegisterWrites : Prop :=
  ∀ (c : CoreId) (i : BitVec 2) (n : BitVec 3) (v : BitVec 64) (s : State), Takes s c →
    let k := (s.settleLane c).core c
    let q := k.rqueue n.toNat
    (∃ t, exec (.vxVlWrite c v) s = .next t ∧ (t.core c).vl.toNat = min 32 (v.toNat % 64) ∧
      (32 < v.toNat % 64 → (t.core c).vxStatus.getLsbD 1 = true) ∧ (t.core c).tiles = k.tiles) ∧
    (∃ t, exec (.tileShapeWrite c i v) s = .next t ∧ ∀ m, m < 8 →
      let x := BitVec.ofNat 5 (8 * i.toNat + m)
      let r := v.extractLsb' (8 * m + 3) 3
      let b := v.extractLsb' (8 * m) 3
      ((t.core c).tile x).data = (k.tile x).data ∧
      (r ≤ 4 → b ≤ 4 → shapeOk r b = true → ((t.core c).tile x).rows = r ∧ ((t.core c).tile x).bpr = b) ∧
      (r ≤ 4 → b ≤ 4 → shapeOk r b = false → (t.core c).tile x = k.tile x)) ∧
    (∃ t, exec (.aguCfgWrite c n false v) s = .next t ∧ (t.core c).agus = k.agus ∧
      let a := (k.cfgDone).agu n
      let b := ((t.core c).cfgBy (s.cycle (groveOf c) + 1)).agu n
      b.base = v.extractLsb' 0 16 ∧ b.stride1 = v.extractLsb' 16 16 ∧ b.stride2 = v.extractLsb' 32 16 ∧
      b.count2 = v.extractLsb' 48 16 ∧ b.i = 0 ∧ b.j = 0 ∧ b.phase = false ∧ b.count1 = a.count1 ∧
      ∀ m, m ≠ n → ((t.core c).cfgBy (s.cycle (groveOf c) + 1)).agu m = k.cfgDone.agu m) ∧
    (∃ t, exec (.aguCfgWrite c n true v) s = .next t ∧ (t.core c).agus = k.agus ∧
      let b := ((t.core c).cfgBy (s.cycle (groveOf c) + 1)).agu n
      b.count1 = v.extractLsb' 16 16 ∧ b.ringLo = v.extractLsb' 32 16 ∧ b.ringHi = v.extractLsb' 48 16 ∧
      b.base = (k.cfgDone.agu n).base ∧ b.i = 0) ∧
    (v.extractLsb' 0 2 ≠ 3 → 1 ≤ (v.extractLsb' 12 4).toNat → (v.extractLsb' 12 4).toNat ≤ 8 →
      ∃ t, exec (.netSendWrite c i v) s = .next t ∧
        let e := (t.core c).sendEnd i.toNat
        e.type = v.extractLsb' 0 2 ∧ e.tw = v.extractLsb' 4 2 ∧ e.cinit = v.extractLsb' 12 4 ∧ e.credit = v.extractLsb' 12 4 ∧
        e.buf = (k.sendEnd i.toNat).buf ∧ ∀ m, m ≠ i.toNat → (t.core c).sendEnd m = k.sendEnd m) ∧
    (Core.rqFree q = true → v.extractLsb' 0 2 = 0 → ∃ t, exec (.netRqWrite c n v) s = .next t ∧
      let r := (t.core c).rqueue n.toNat
      r.tw = v.extractLsb' 16 2 ∧ r.expm1 = v.extractLsb' 8 5 ∧ r.rfmt = v.getLsbD 5 ∧ r.svcreply = v.getLsbD 4 ∧
      r.potluck = false ∧ r.entries = q.entries ∧ ∀ m, m ≠ n.toNat → (t.core c).rqueue m = k.rqueue m) ∧
    (Core.rqFree q = false → ∃ t, exec (.netRqWrite c n v) s = .next t ∧ (t.core c).rqueue n.toNat = q ∧
      (t.core c).net.rqStat.getLsbD 18 = true)

/-- ROUTE_WRITE: each of the two entries is stored, but for one that would give an output to two inputs in its slot, which
keeps its value and sets OVERLAP (R322). -/
def Sys2Proof.Claims.RouteWrites : Prop :=
  ∀ (c : CoreId) (input n : BitVec 3) (v : BitVec 64) (s : State), Takes s c → input.toNat ≤ 4 →
    let k := (s.settleLane c).core c
    let i := input.toNat
    let put := fun (sl : Nat) (w : BitVec 32) (k' : Core) =>
      let e := Core.routeEntry i (k.route i sl) w
      (k.routeClash i sl e = false → k'.route i sl = e) ∧
      (k.routeClash i sl e = true → k'.route i sl = k.route i sl ∧ k'.net.routerStat.getLsbD 2 = true)
    ∃ t, exec (.routeWrite c input n v) s = .next t ∧ put (2 * n.toNat) (v.extractLsb' 0 32) (t.core c) ∧
      put (2 * n.toNat + 1) (v.extractLsb' 32 32) (t.core c) ∧
      (∀ j sl, j < 5 → sl < 16 → (j ≠ i ∨ sl / 2 ≠ n.toNat) → (t.core c).route j sl = k.route j sl) ∧
      (t.core c).net.rq = k.net.rq ∧ (t.core c).net.send = k.net.send

/-- The writes of core registers that have a row of their own. -/
def Obligations.CoreAndRouteWrites : Prop := CoreRegisterWrites ∧ RouteWrites

/-! ## The service mesh -/

/-- A service access that is turned away: REFUSED is set, a host's read answers all ones, and cores, hampers, groves and HBM keep
what they held (R356). -/
def Sys2Proof.Claims.Refused (agent : Agent) (op : SvcOp) (u t : State) : Prop :=
  t.flag SVC_STATUS.REFUSED = true ∧ t.plane = u.plane ∧ t.hbm = u.hbm ∧
  t.out = u.out ++ (if agent = .host ∧ op.write = false then [.readData (List.replicate op.width.size 0xFF) false] else [])

/-- SERVICE_ACCESS of a register of a core, a hamper or a grove: a listed one is read and written, an unlisted one is refused, and
so is a write of a core's block while its hamper runs or of the library store while a hamper of the grove does, with nothing
changed (R132, R186, R312, R354, R356). `w` is the state with the host's bytes counted. -/
def Sys2Proof.Claims.RegisterAccesses : Prop :=
  ∀ (agent : Agent) (off : BitVec 26) (width : Width) (v : BitVec 64) (s : State) (g : GroveId),
    let p := s.svcWindow off.toNat
    let w := if agent = .host then s.addTotal 73 width.size else s
    let u := s.svcSettle p
    let uw := w.svcSettle p
    let wr := exec (.serviceAccess agent off ⟨true, width⟩ v) s
    let rd := exec (.serviceAccess agent off ⟨false, width⟩ v) s
    let written := uw.svcWriteReg p (width.merge (uw.svcKept p) v)
    s.asleep agent = false → (agent = .host → s.flag HIF_STATUS.READY = true) → off.toNat < 0x3000000 →
    State.svcGrove p = some g → s.gated g = false → State.svcSpad p = none →
    (∀ x, u.svcReadReg p = some x → ∃ t, rd = .next t ∧ t.plane = u.plane ∧ t.hbm = u.hbm ∧
      t.out = u.out ++ (if agent = .host then [.readData (bytesOf width.size (width.part x).toNat) false] else [])) ∧
    (u.svcReadReg p = none → ∃ t, rd = .next t ∧ Refused agent ⟨false, width⟩ u t) ∧
    (∀ t, uw.libTurned p = false → written = some t → wr = .next t) ∧
    (written = none → ∃ t, wr = .next t ∧ Refused agent ⟨true, width⟩ uw t) ∧
    (∀ c o, p = .core c o → (uw.hamper (hamperOf c)).quiet = false → ∃ t, wr = .next t ∧ Refused agent ⟨true, width⟩ uw t) ∧
    (∀ c, p = .core c 0x060 → width = .full → (uw.hamper (hamperOf c)).quiet = true →
      (uw.core c).wordSet.1 ≠ uw.cycle (groveOf c) → ∃ t, wr = .next t ∧ (t.core c).vl.toNat = min 32 (v.toNat % 64) ∧
        (t.core c).tiles = (uw.core c).tiles ∧ (∀ d, d ≠ c → t.core d = uw.core d) ∧ t.hbm = uw.hbm ∧ t.out = uw.out) ∧
    (∀ o, p = .grove g o → 0x40000 ≤ o → o < 0x80000 →
      (s.allHampers g Hamper.quiet = true → width = .full → ∃ t, wr = .next t ∧ t.out = uw.out ∧
        (smGet 0 (t.grove g).lib ((o - 0x40000) / 32)).extractLsb' (64 * (o / 8 % 4)) 64 = v ∧
        ∀ i, i ≠ (o - 0x40000) / 32 → smGet 0 (t.grove g).lib i = smGet 0 (s.grove g).lib i) ∧
      (s.allHampers g Hamper.quiet = false → ∃ t, wr = .next t ∧ t.flag SVC_STATUS.REFUSED = true ∧
        (t.grove g).libRefused = true ∧ (t.grove g).lib = (s.grove g).lib ∧ t.plane.cores = s.plane.cores ∧
        t.plane.hampers = s.plane.hampers))

/-- SERVICE_ACCESS of a scratchpad: with an idle read port a read answers at once and a write has read the row that it merges
into; with a busy one the access waits (R112, R356, R378, R778). -/
def Sys2Proof.Claims.ScratchpadAccesses : Prop :=
  ∀ (agent : Agent) (off : BitVec 26) (width : Width) (v : BitVec 64) (s : State) (c : CoreId) (o : Nat),
    let w := if agent = .host then s.addTotal 73 width.size else s
    let m := s.settleLane c
    let mw := w.settleLane c
    let at_ := State.svcRow o
    let row := fun (x : State) => (x.core c).rowIn (x.cycle (groveOf c)) at_.1
    let waits := fun (x t : State) (a : SvcAccess) => t.plane.svc = x.plane.svc ++ [a] ∧ a.core = c ∧ a.width = width ∧
      a.offset = BitVec.ofNat 20 o ∧ a.data = v ∧ (t.core c).spad.rows = (x.core c).spad.rows ∧ t.out = x.out
    let wr := exec (.serviceAccess agent off ⟨true, width⟩ v) s
    let rd := exec (.serviceAccess agent off ⟨false, width⟩ v) s
    s.asleep agent = false → (agent = .host → s.flag HIF_STATUS.READY = true) → off.toNat < 0x3000000 →
    s.svcWindow off.toNat = .core c o → 0x4000 ≤ o → o < 0x8000 → s.gated (groveOf c) = false →
    (m.svcPort c false = true → ∃ t, rd = .next t ∧ t.plane.svc = m.plane.svc ∧ (t.core c).spad.rows = (m.core c).spad.rows ∧
      t.out = m.out ++ (if agent = .host then
        [.readData (bytesOf width.size (width.part (wordOf (row m).entry.data at_.2)).toNat) false] else [])) ∧
    (m.svcPort c false = false → ∃ t a, rd = .next t ∧ waits m t a ∧ a.write = false ∧ a.merge = none) ∧
    (mw.svcPort c false = true → ∃ t a, wr = .next t ∧ waits mw t a ∧ a.write = true ∧
      a.merge = some (mw.cycle (groveOf c), (row mw).entry)) ∧
    (mw.svcPort c false = false → ∃ t a, wr = .next t ∧ waits mw t a ∧ a.write = true ∧ a.merge = none)

/-- SERVICE_ACCESS while READY is 0, when the host reads zero and writes nothing; to a gated grove or a reserved offset, which is
refused; and through the third window, where it is the access to the control register that it names (R354, R356, R590). -/
def Sys2Proof.Claims.WindowsRefuse : Prop :=
  ∀ (agent : Agent) (off : BitVec 26) (width : Width) (v : BitVec 64) (s : State),
    let p := s.svcWindow off.toNat
    let w := if agent = .host then s.addTotal 73 width.size else s
    let wr := exec (.serviceAccess agent off ⟨true, width⟩ v) s
    let rd := exec (.serviceAccess agent off ⟨false, width⟩ v) s
    let served := agent = .host → s.flag HIF_STATUS.READY = true
    s.asleep agent = false →
    (off.toNat < 0x3000000 → ¬ served →
      (∃ t, wr = .next t ∧ SameDevice s t ∧ t.out = s.out) ∧
      ∃ t, rd = .next t ∧ SameDevice s t ∧ t.out = s.out ++ [.readData (bytesOf width.size 0) false]) ∧
    (off.toNat < 0x3000000 → served → (p = .reserved ∨ ∃ g, State.svcGrove p = some g ∧ s.gated g = true) →
      (∃ t, wr = .next t ∧ Refused agent ⟨true, width⟩ w t) ∧ ∃ t, rd = .next t ∧ Refused agent ⟨false, width⟩ s t) ∧
    (0x3000000 ≤ off.toNat → wr = exec (.registerWrite agent off width v) s ∧
      ∃ t, rd = .next t ∧ SameDevice s t ∧ t.out = s.out ++ (if agent = .host then
        [.readData (bytesOf width.size (s.hostReadPart (off.toNat / 8 * 8) width).toNat) false] else []))

/-- SERVICE_ACCESS: registers, scratchpads, refusals and the three windows. Where the spec leaves a point open, the
model's choices stand in log entries 14, 19, 60, 112, 120. -/
def Obligations.ServiceAccesses : Prop := RegisterAccesses ∧ ScratchpadAccesses ∧ WindowsRefuse

/-- SERVICE_REQUEST: a core's request for a register of its hamper is carried out and answered with one word in the lowest queue
with SVCREPLY; SERVICE_TIMEOUT gives up the accesses that have waited too long; SERVICE_MERGE_WRITE writes the merged row with its
other words unchanged, and starts again where the row was written meanwhile (R355, R356, R778). Where the spec leaves a point open,
the model's choices stand in log entries 15, 16. That an event whose condition does not hold leaves the state as it was is log entry
6. -/
def Obligations.ServiceRequests : Prop :=
  ∀ (c : CoreId) (n : BitVec 2) (s : State) (x : Tuple) (rest : List Tuple) (w : BitVec 64 × Bool) (ws : List (BitVec 64 × Bool)) (r : Nat),
    let e := (s.core c).sendEnd n.toNat
    let q := (s.core c).rqueue r
    (e.buf = x :: rest → e.type = 2 → x.ready < s.cycle (groveOf c) → x.words = w :: ws → getBits w.1 59 58 = 1 →
      coreAt (getBits w.1 29 20) (getBits w.1 39 30) = c → w.1.getLsbD 63 = false → s.gated (groveOfHamper (hamperOf c)) = false →
      State.replyQueue (s.core c) = some r → q.potluck = false → q.entries.length < 8 →
      ∀ v, (s.hamper (hamperOf c)).readAt (getBits w.1 19 0) = some v →
      ∃ t y, exec (.serviceRequest c n) s = .next t ∧ ((t.core c).sendEnd n.toNat).buf = rest ∧
        ((t.core c).rqueue r).entries = q.entries ++ [y] ∧ y.data = v ∧ y.poison = false ∧ t.plane.hampers = s.plane.hampers) ∧
    (let old := fun (a : SvcAccess) => decide (a.started + s.fld SVC_CFG.TIMEOUT ≤ s.cycle (groveOf a.core))
     (s.plane.svc.filter old ≠ [] → ∃ t, exec .serviceTimeout s = .next t ∧
        t.plane.svc = s.plane.svc.filter (fun a => !old a) ∧ t.flag SVC_STATUS.TIMEOUT = true) ∧
     (s.plane.svc.filter old = [] → exec .serviceTimeout s = .next s)) ∧
    (∀ a as at_ f,
      State.takeFirst (fun y : SvcAccess => y.core = c && y.merge.isSome) s.plane.svc = some (a, as) → a.merge = some (at_, f) →
      let u := (s.setSvc as).settleLane c
      let now := u.cycle (groveOf c)
      let rw := State.svcRow a.offset.toNat
      let last := smGet 0 (u.core c).spad.writtenAt rw.1.toNat
      let e := State.withWord f rw.2 (a.width.merge (wordOf f.data rw.2) a.data) a.poison
      (last ≤ at_ → at_ < now → u.svcPort c true = true → a.who = .manager →
        ∃ t, exec (.serviceMergeWrite c) s = .next t ∧ t.plane.svc = u.plane.svc ∧
          ((t.core c).spadRow rw.1).data = e.data ∧ ((t.core c).spadRow rw.1).chk = rowChecks e ∧
          ((t.core c).spadRow rw.1).tag = ((u.core c).spadRow rw.1).tag ∧
          ∀ i, i ≠ rw.1 → (t.core c).spadRow i = (u.core c).spadRow i) ∧
      (at_ < last → last ≤ now → ∃ t, exec (.serviceMergeWrite c) s = .next t ∧
        t.plane.svc = { a with merge := none } :: u.plane.svc ∧ t.plane.cores = u.plane.cores))

/-! ## The data mesh -/

/-- A flit at a router goes to the outputs of its slot's entry in the same cycle: to a neighbour in the grove it arrives one
schedule cycle later, an entry of several outputs sends a copy to each, to a normal receive queue its word is added, and without
a valid entry it is discarded and STRAY is set; a word whose parity is wrong there goes on poisoned, and PARITY is set (R318,
R320, R321, R323, R324, R327, R333). -/
def Sys2Proof.Claims.FlitsAreRouted : Prop :=
  ∀ (c : CoreId) (input : BitVec 2) (s : State) (l : LinkFlit) (rest : List LinkFlit) (n : CoreId) (d : Nat)
    (n0 n1 : BitVec 65),
    let g := groveOf c
    s.catching g = false →
    State.takeFirst (fun x : LinkFlit => x.core = c && x.input = input.toNat && x.due ≤ s.total g) s.plane.mesh.links = some (l, rest) →
    let f := l.flit.noisy n0 n1
    let bad := f.badPar &&& f.valid
    let lag := s.total g - l.due
    let e := (s.core c).route l.input ((s.sched g + 16 - lag % 16) % 16)
    (bad ≠ 0 → ∃ t, exec (.flitArrival c ⟨input, n0, n1⟩) s = .next t ∧ (t.core c).net.routerStat.getLsbD 0 = true) ∧
    (routeValid e = false → ∃ t, exec (.flitArrival c ⟨input, n0, n1⟩) s = .next t ∧ t.plane.mesh.links = rest ∧
      (t.core c).net.routerStat.getLsbD 1 = true ∧ (t.core c).net.rq = (s.core c).net.rq) ∧
    (routeValid e = true → (List.range 4).filter (State.routeOut e) = [d] → State.routeOut e 4 = false → State.coreBeside c d = some n →
      groveOf n = g → ∃ t, exec (.flitArrival c ⟨input, n0, n1⟩) s = .next t ∧
        t.plane.mesh.links = rest ++ [⟨n, inputFrom d, s.total g + 1 - lag,
          { f with hops := f.hops + 1, poison := f.poison ||| bad, badPar := f.badPar &&& ~~~bad }⟩] ∧
        t.plane.mesh.crossing = s.plane.mesh.crossing ∧ (t.core c).net.rq = (s.core c).net.rq) ∧
    (routeValid e = true → (∀ o, o < 4 → State.routeOut e o = true → ∃ m, State.coreBeside c o = some m ∧ groveOf m = g) →
      ∃ t, exec (.flitArrival c ⟨input, n0, n1⟩) s = .next t ∧ t.plane.mesh.crossing = s.plane.mesh.crossing ∧
        t.plane.mesh.links = rest ++ ((List.range 4).filter (State.routeOut e)).filterMap fun o =>
          (State.coreBeside c o).map fun m => ⟨m, inputFrom o, s.total g + 1 - lag,
            { f with hops := f.hops + 1, poison := f.poison ||| bad, badPar := f.badPar &&& ~~~bad }⟩) ∧
    (routeValid e = true → (List.range 4).filter (State.routeOut e) = [] → State.routeOut e 4 = true → routeTgt e < 8 →
      ((s.core c).rqueue (routeTgt e)).potluck = false → ((s.core c).rqueue (routeTgt e)).entries.length < 8 →
      f.valid = 1 → f.last = true → smGet [] (s.core c).net.part (routeTgt e) = [] →
      ∃ t x, exec (.flitArrival c ⟨input, n0, n1⟩) s = .next t ∧ t.plane.mesh.links = rest ∧
        ((t.core c).rqueue (routeTgt e)).entries = ((s.core c).rqueue (routeTgt e)).entries ++ [x] ∧ x.data = f.w0 ∧
        x.poison = (f.poison ||| bad).getLsbD 0 ∧ x.due = s.cycle g - lag ∧
        ∀ i, i ≠ routeTgt e → (t.core c).rqueue i = (s.core c).rqueue i)

/-- What a contribution of an FP32 value makes of an accumulator entry, by the value's exponent field (R341, R342): a value from
2 ^ -100 on and below 2 ^ 127 is added exactly in units of 2 ^ -123, a smaller one but for -0 sets NONNEG_ZERO, a larger one its
range flag, an infinity and a NaN theirs. -/
def Sys2Proof.Claims.Contributes (v : BitVec 32) (mark : Bool) (a b : Potluck) : Prop :=
  let e := (v.extractLsb' 23 8).toNat
  let m := (v.extractLsb' 0 23).toNat
  let neg := v.getLsbD 31
  b.count = a.count + 1 ∧ b.poison = (a.poison || mark) ∧
  b.val = (if 27 ≤ e ∧ e < 254 then
    a.val + BitVec.ofInt 256 ((if neg then -1 else 1) * ((2 ^ 23 + m) * 2 ^ (e - 27) : Nat)) else a.val) ∧
  b.nonneg0 = (a.nonneg0 || (decide (e < 27) && v != 0x80000000)) ∧
  b.rngP = (a.rngP || (e == 254 && !neg)) ∧ b.rngN = (a.rngN || (e == 254 && neg)) ∧
  b.infP = (a.infP || (e == 255 && m == 0 && !neg)) ∧ b.infN = (a.infN || (e == 255 && m == 0 && neg)) ∧
  b.nan = (a.nan || (e == 255 && m != 0))

/-- The local output: a word of any entry that names it reaches its normal receive queue, a word of a contributor the two
accumulator entries at its pointer of a potluck queue, which can be popped one cycle later, a word of an index of E or more
nothing, with BADIDX set; a row reaches the stream inlet, or a full one discards it, with the last row's words marked and
INLET_OVERFLOW set (R321, R333, R339 to R342, R346, R779). -/
def Sys2Proof.Claims.FlitsReachTheirCore : Prop :=
  ∀ (c : CoreId) (input : BitVec 2) (s : State) (l : LinkFlit) (rest : List LinkFlit) (n0 n1 : BitVec 65),
    let g := groveOf c
    let f := l.flit.noisy n0 n1
    let mark := f.poison ||| (f.badPar &&& f.valid)
    let lag := s.total g - l.due
    let e := (s.core c).route l.input ((s.sched g + 16 - lag % 16) % 16)
    let n := routeTgt e
    let q := (s.core c).rqueue n
    let cc := routeContrib e
    let p := smGet 0 q.ptrs cc
    let go := exec (.flitArrival c ⟨input, n0, n1⟩) s
    let one := f.valid = 1 ∧ f.last = true ∧ smGet [] (s.core c).net.part n = []
    s.catching g = false →
    State.takeFirst (fun x : LinkFlit => x.core = c && x.input = input.toNat && x.due ≤ s.total g) s.plane.mesh.links = some (l, rest) →
    routeValid e = true → State.routeOut e 4 = true →
    (n < 8 → q.potluck = false → q.entries.length < 8 → one → ∃ t x, go = .next t ∧
      ((t.core c).rqueue n).entries = q.entries ++ [x] ∧ x.data = f.w0 ∧ x.poison = mark.getLsbD 0 ∧ x.due = s.cycle g - lag) ∧
    (n < 8 → q.potluck = true → one → cc ≤ q.expm1.toNat → ∃ t, go = .next t ∧
      (let r := (t.core c).rqueue n
       smGet 0 r.ptrs cc = p + 2 ∧ r.entries = q.entries ∧ r.head = q.head ∧
       Contributes (f.w0.extractLsb' 0 32) (mark.getLsbD 0) (q.slot p) (r.slot p) ∧
       Contributes (f.w0.extractLsb' 32 32) (mark.getLsbD 0) (q.slot (p + 1)) (r.slot (p + 1)) ∧
       (∀ i, i = p ∨ i = p + 1 → (r.slot i).due = s.cycle g - lag + 1) ∧
       (∀ i, i ≠ p → i ≠ p + 1 → r.slot i = q.slot i)) ∧ ∀ i, i ≠ n → (t.core c).rqueue i = (s.core c).rqueue i) ∧
    (n < 8 → q.potluck = true → one → q.expm1.toNat < cc → ∃ t, go = .next t ∧ (t.core c).net.rq = (s.core c).net.rq ∧
      (t.core c).net.rqStat.getLsbD (10 + n) = true) ∧
    (n = 8 → f.last = true →
      let ws := (smGet [] (s.core c).net.part 8 ++ State.flitWords { f with poison := mark } 0).take 4
      let inlet := (s.core c).net.inlet
      (inlet.length < 4 → ∃ t x, go = .next t ∧ (t.core c).net.inlet = inlet ++ [x] ∧
        x.entry = ⟨rowOfWords (ws.map (·.data)), marksOf (ws.map (·.poison))⟩ ∧ x.row = (f.side.extractLsb' 0 9).zeroExtend 16 ∧
        x.phase = f.side.getLsbD 9 ∧ x.due = s.cycle g - lag) ∧
      (∀ ys y, inlet = ys ++ [y] → 4 ≤ inlet.length → ∃ t, go = .next t ∧
        (t.core c).net.inlet = ys ++ [{ y with entry := { y.entry with poison := 15 } }] ∧ (t.core c).status.getLsbD 4 = true))

/-- CROSSING_PRESENT hands the flit to the receiving router in its cycle, or drops it where the receiver
takes no part in the crossing (log entry 139); INJECTION takes the next flit off the send end that
the local input's entry names, at most one a cycle; CREDIT_RETURN gives a sender the credits that have come back (R63, R66, R67,
R318, R329, R330, R332, R418, R561). -/
def Sys2Proof.Claims.CrossingInjectionCredits : Prop :=
  ∀ (c : CoreId) (input : BitVec 2) (s : State) (x : CrossFlit) (rest : List CrossFlit) (b : Tuple) (bs : List Tuple) (n : Nat)
    (st : BitVec 5) (k : Nat),
    let g := groveOf c
    let e := (s.core c).route 4 (s.slot g)
    let se := (s.core c).sendEnd (routeSend e)
    (s.catching g = false →
      State.takeFirst (fun y : CrossFlit => y.core = c && y.input = input.toNat && s.crossingDue y) s.plane.mesh.crossing = some (x, rest) →
      ∃ t, exec (.crossingPresent c input) s = .next t ∧ t.plane.mesh.crossing = rest ∧ t.plane.cores = s.plane.cores ∧
        (s.crosses g = true → t.plane.mesh.links = s.plane.mesh.links ++ [⟨c, x.input, s.presentedIn x, x.flit⟩]) ∧
        (s.crosses g = false → t.plane.mesh.links = s.plane.mesh.links)) ∧
    (s.catching g = false → routeValid e = true → se.buf = b :: bs → se.type = 1 → b.ready < s.cycle g →
      (s.core c).net.injected ≤ s.total g →
      ∃ t, exec (.injection c) s = .next t ∧ (t.core c).net.injected = s.total g + 1 ∧
        (b.words.length ≤ b.sent + 2 → ((t.core c).sendEnd (routeSend e)).buf = bs) ∧
        (b.sent + 2 < b.words.length → ∃ b', ((t.core c).sendEnd (routeSend e)).buf = b' :: bs ∧ b'.sent = b.sent + 2 ∧
          b'.words = b.words)) ∧
    (0 < s.creditsDue (.core c n) → ∃ t, exec (.creditReturn (.core c n)) s = .next t ∧
      ((t.core c).sendEnd n).credit.toNat = min 15 (((s.core c).sendEnd n).credit.toNat + s.creditsDue (.core c n)) ∧
      t.plane.mesh.words = s.plane.mesh.words ∧ (t.core c).iq = (s.core c).iq) ∧
    (n < 20 → 0 < s.creditsDue (.engine n st.toNat) → ∃ t, exec (.creditReturn (.engine n st.toNat)) s = .next t ∧
      t.fld (SE_CH_STAT.CREDIT n st.toNat) = min 15 (s.fld (SE_CH_STAT.CREDIT n st.toNat) + s.creditsDue (.engine n st.toNat)) ∧
      t.plane.cores = s.plane.cores) ∧
    (0 < s.creditsDue (.psiud n k) → ∃ t, exec (.creditReturn (.psiud n k)) s = .next t ∧
      (t.rxChan n k).credit = (s.rxChan n k).credit + s.creditsDue (.psiud n k) ∧ t.plane.cores = s.plane.cores)

/-- The data mesh: arrival, local delivery, crossing, injection and the return of credits. Where the spec leaves a point open, the
model's choices stand in log entries 22, 105, 139. -/
def Obligations.MeshMovesFlits : Prop := FlitsAreRouted ∧ FlitsReachTheirCore ∧ CrossingInjectionCredits

/-! ## The Almanac and the groves' clock -/

/-- ALMANAC_TICK, REFERENCE_LOST and REFERENCE_RETURN: an edge moves a running Almanac on by 1, or by 0 or 2 where a follower slews,
and a held one not at all; a return sets a started Almanac going again; CLK_SRC reports crystal and loop as the live source
does (R32 to R36, R75, R689, R708). -/
def Sys2Proof.Claims.AlmanacTicks : Prop :=
  ∀ s : State,
    let act := decide (s.fld ALM_SYNC.ROLE = 2) && decide (4 < s.time.slewLeft.natAbs) && !s.time.slewUsed
    (s.flag ALM_STATUS.RUNNING = false → exec .almanacTick s = .next { s with setNow := [] }) ∧
    (s.flag ALM_STATUS.RUNNING = true → ∃ t, exec .almanacTick s = .next t ∧ t.time.ticks = s.time.ticks + 1 ∧
      (act = false → t.time.almanac = s.time.almanac + 1 ∧ t.time.slewLeft = s.time.slewLeft) ∧
      (act = true → 0 < s.time.slewLeft → t.time.almanac = s.time.almanac ∧ t.time.slewLeft = s.time.slewLeft - 16) ∧
      (act = true → s.time.slewLeft < 0 → t.time.almanac = s.time.almanac + 2 ∧ t.time.slewLeft = s.time.slewLeft + 16) ∧
      ((s.time.stopped || s.time.rootGated) = true → t.time.periods = s.time.periods ∧ t.time.phase = s.time.phase) ∧
      (s.time.stopped = false → s.time.rootGated = false → s.power.stopDue = none →
        t.time.periods = s.time.periods + (if s.time.phase + levelStep (s.fld PWR_LEVEL.LEVEL) < 24 then 0 else 1) ∧
        t.time.phase = (if s.time.phase + levelStep (s.fld PWR_LEVEL.LEVEL) < 24 then s.time.phase + levelStep (s.fld PWR_LEVEL.LEVEL)
          else s.time.phase + levelStep (s.fld PWR_LEVEL.LEVEL) - 24)) ∧
      t.plane.hampers = s.plane.hampers) ∧
    (∃ t, exec .referenceLost s = .next t ∧ t.flag ALM_STATUS.REF_LOST = true ∧ t.flag ALM_STATUS.RUNNING = false ∧
      t.flag CLK_SRC.XTAL_OK = false ∧ t.flag CLK_SRC.REF_LOCK = false ∧ t.time = s.time ∧ t.plane = s.plane) ∧
    (s.flag ALM_STATUS.REF_LOST = true → ∃ t, exec .referenceReturn s = .next t ∧ t.flag ALM_STATUS.REF_LOST = false ∧
      t.flag ALM_STATUS.RUNNING = s.time.started ∧ t.flag CLK_SRC.XTAL_OK = s.time.started ∧
      t.flag CLK_SRC.REF_LOCK = s.time.started ∧ t.time = s.time ∧ t.plane = s.plane) ∧
    (s.flag ALM_STATUS.REF_LOST = false → exec .referenceReturn s = .next s)

/-- LEAP: the grove's next cycle takes two periods, and an excess over the budget sets LEAP_BUDGET; GROVE_RELEASE: with every
running hamper at a hold whose target is reached, the schedule cycle count restarts and the hampers go on; CATCH_UP_HOLD: the
current cycle counts in no schedule, and a run of refused cycles ends; GROVE_OVR_CLEAR (R41 to R43, R51, R57, R63, R65, R350, R688).
Where the spec leaves a point open, the model's choices stand in log entry 44. That an event whose condition does not hold leaves
the state as it was is log entry 6. -/
def Obligations.GroveCycles : Prop :=
  ∀ (g : GroveId) (s : State),
    let k := s.grove g
    let p := s.periodOf g
    let first := if k.inFirst p then p + 2 else p + 1
    (s.clockOn g = true → (k.leaps.any fun l => l.1 = first) = false →
      ∃ t, exec (.leap g) s = .next t ∧ (t.grove g).cycle (first + 1) = (t.grove g).cycle first ∧
        (t.grove g).leapCount = k.leapCount + 1 ∧ t.time = s.time ∧ t.plane.hampers = s.plane.hampers ∧
        ((2 < State.leapsWithin (t.grove g).leaps 64 (k.cycle p + 1) ∨ 16 < State.leapsWithin (t.grove g).leaps 1024 (k.cycle p + 1)) →
          t.flag ALM_STATUS.LEAP_BUDGET = true ∧ (t.grove g).timeFlags = k.timeFlags ||| 1 ∧
          t.fld LG_STATUS.NEIGHBOUR = min 7 (s.fld LG_STATUS.NEIGHBOUR + 1)) ∧
        ∀ h, h ≠ g → t.grove h = s.grove h) ∧
    (s.clockOn g = false → exec (.leap g) s = .next s) ∧
    (s.releaseDue g = true → ∃ t, exec (.groveRelease g) s = .next t ∧ t.sched g = 0 ∧ t.cycle g = s.cycle g ∧
      (∀ h ∈ State.groveHampers g, (t.hamper h).hold = none ∧ (t.hamper h).iq = (s.hamper h).iq ∧ (t.hamper h).pc = (s.hamper h).pc ∧
        (t.hamper h).state = (if (s.hamper h).hold.isSome ∧ (s.hamper h).state = stHolding then stRunning else (s.hamper h).state)) ∧
      (∀ h, h ∉ State.groveHampers g → t.hamper h = s.hamper h) ∧ t.time = s.time ∧ t.plane.cores = s.plane.cores) ∧
    (s.releaseDue g = false → exec (.groveRelease g) s = .next s) ∧
    (s.clockOn g = true → s.catchUpDue g = true → s.catching g = false → s.releaseDue g = false → s.idleCycle g = true →
      ∃ t, exec (.catchUpHold g) s = .next t ∧ t.catching g = true ∧ t.sched g = s.sched g ∧ t.cycle g = s.cycle g ∧
        (t.grove g).catchCount = k.catchCount + 1 ∧ t.time = s.time ∧
        (∀ h ∈ State.groveHampers g, t.hamper h = { s.hamper h with refused := 0, wdFired := false }) ∧
        ∀ h, h ∉ State.groveHampers g → t.hamper h = s.hamper h) ∧
    (s.gated g = false → ∃ t, exec (.groveOvrClear g) s = .next t ∧ (t.grove g).ovr = 0 ∧ t.time = s.time ∧
      t.plane.hampers = s.plane.hampers ∧ t.plane.cores = s.plane.cores ∧ ∀ h, h ≠ g → t.grove h = s.grove h)

/-- ALM_DEPART_WRITE, ARM, DEPART_CANCEL, DEPARTURE, DEPART and DEPART_STATE (R82 to R89); on the tick of a departure CANCEL is too
late, and no peer hears of it. That a head in state refused, which still launches, does so at the value ALM_DEPART holds then is the
model's choice (log entry 111). That an event whose condition does not hold leaves the state as it was is log entry 6. -/
def Obligations.Departures : Prop :=
  ∀ (v : BitVec 64) (dev : BitVec 6) (st : BitVec 3) (s : State),
    let state := fun (x : State) => x.fld ALM_DEPART_CTRL.STATE
    let count := s.reg ALM_DEPART.off
    let arms := fun (t : State) => state t = 1 ∧ t.plane.launch = true ∧ t.time = s.time ∧
      (∀ h, (s.hamper h).loaded = true → (s.hamper h).quiet = true → (t.hamper h).state = stArmed) ∧
      (∀ h, ¬ ((s.hamper h).loaded = true ∧ (s.hamper h).quiet = true) → t.hamper h = s.hamper h)
    let departs := fun (t : State) => state t = 2 ∧ t.plane.launch = false ∧ t.time = s.time ∧
      (∀ h, (s.hamper h).state = stArmed → (t.hamper h).state = stRunning ∧ (t.hamper h).holdBase = count ∧ (t.hamper h).holdPos = 0 ∧
        (t.hamper h).pc = (s.hamper h).pc) ∧
      (∀ h, (s.hamper h).state ≠ stArmed → t.hamper h = s.hamper h)
    (state s ≠ 1 → ∃ t, exec (.almDepartWrite v) s = .next t ∧ t.reg ALM_DEPART.off = v ∧ t.time = s.time ∧ t.plane = s.plane) ∧
    (state s = 1 → ∃ t, exec (.almDepartWrite v) s = .next t ∧ t.reg ALM_DEPART.off = count ∧
      t.flag ALM_DEPART_CTRL.ARM_REFUSED = true ∧ state t = 1 ∧ t.plane = s.plane) ∧
    (state s = 1 → ∃ t, exec (.arm false) s = .next t ∧ t.flag ALM_DEPART_CTRL.ARM_REFUSED = true ∧ state t = 1 ∧ t.plane = s.plane) ∧
    (state s ≠ 1 → s.locked = true → s.time.almanac.toNat + 64 ≤ count.toNat → ∃ t, exec (.arm false) s = .next t ∧ arms t) ∧
    (state s ≠ 1 → s.isHead = false → (s.locked = false ∨ count.toNat < s.time.almanac.toNat + 64) →
      ∃ t, exec (.arm false) s = .next t ∧ state t = (if s.locked = false then 4 else 3) ∧ t.plane.hampers = s.plane.hampers) ∧
    (state s = 1 → s.time.almanac < count → ∃ t, exec .departCancel s = .next t ∧ state t = 0 ∧ t.time = s.time ∧
      (∀ h, (t.hamper h).state = (if (s.hamper h).state = stArmed then stIdle else (s.hamper h).state))) ∧
    (state s = 2 → s.plane.launch = false → s.flag ALM_STATUS.RUNNING = true → s.plane.departTick = some s.time.ticks →
      exec .departCancel s = .next s) ∧
    ((state s = 1 ∨ s.plane.launch = true) → count ≤ s.time.almanac → ∃ t, exec .departure s = .next t ∧ departs t) ∧
    (¬ ((state s = 1 ∨ s.plane.launch = true) ∧ count ≤ s.time.almanac) → exec .departure s = .next s) ∧
    (v ≠ 0 → state s ≠ 1 → s.locked = true → s.time.almanac.toNat + 64 ≤ v.toNat →
      ∃ t, exec (.depart v) s = .next t ∧ t.reg ALM_DEPART.off = v ∧ arms t) ∧
    (v = 0 → state s ≠ 1 → s.plane.launch = false → exec (.depart v) s = .next s) ∧
    (s.isHead = true → (st = 3 ∨ st = 4) → ∃ t, exec (.departState dev st) s = .next t ∧ state t = 4 ∧
      t.fld HIF_POD_REFUSED.DEV = s.fld HIF_POD_REFUSED.DEV ||| 2 ^ dev.toNat ∧ t.plane.hampers = s.plane.hampers ∧
      t.plane.launch = s.plane.launch ∧
      (s.anyHamper Hamper.runs = true → ∃ r, t.plane.abort = some r ∧ r.force = true)) ∧
    (s.isHead = false → exec (.departState dev st) s = .next s)

/-- SCALE stores the peer's scale and defers the holds to come; TIME_REQ asks once in 65,536 ticks, over the link of
UPSTREAM, and answers a received request; TIME_RESP gives a follower its offset, by which it steps or slews (R69, R72, R73, R75, R76, R569, R571). The half tick of an
odd sum goes either way: the value is free (log entry 1). -/
def Sys2Proof.Claims.PodTime : Prop :=
  ∀ (dev : BitVec 6) (own : BitVec 20) (dfr : BitVec 32) (m : TimeMsg) (s : State),
    let up := s.fld ALM_SYNC.UPSTREAM
    let link := if s.pod.isTwin up then up - 8 else up
    (∃ t, exec (.scale dev own dfr) s = .next t ∧ smGet 0 t.time.podScales dev.toNat = own ∧
      (∀ d, d ≠ dev.toNat → smGet 0 t.time.podScales d = smGet 0 s.time.podScales d) ∧
      t.time.podDefer = s.time.podDefer + dfr.zeroExtend 64 ∧
      0x10000 ≤ t.fld ALM_SCALE.POD ∧ (∀ e ∈ t.time.podScales, e.2.toNat ≤ t.fld ALM_SCALE.POD) ∧
      (t.fld ALM_SCALE.POD = 0x10000 ∨ ∃ e ∈ t.time.podScales, e.2.toNat = t.fld ALM_SCALE.POD) ∧
      t.fld ALM_SCALE.OWN = s.fld ALM_SCALE.OWN ∧ t.fld ALM_SCALE.EFFECTIVE = max (t.fld ALM_SCALE.POD) (s.fld ALM_SCALE.OWN) ∧
      t.time.almanac = s.time.almanac ∧ t.plane = s.plane) ∧
    (∀ w, s.fld ALM_SYNC.ROLE = 2 → s.time.reqAt ≤ s.time.ticks → s.linkPort link = some w →
      ∃ t x, exec (.timeReq none) s = .next t ∧ (t.port w).svcOut = (s.port w).svcOut ++ [x] ∧ x.type.toNat = stTimeReq ∧
        x.src.toNat = s.pod.dev ∧ t.time.reqAt = s.time.ticks + 65536 ∧ t.time.almanac = s.time.almanac ∧
        ∀ q, q ≠ w → t.port q = s.port q) ∧
    (s.fld ALM_SYNC.ROLE = 2 → s.time.reqAt ≤ s.time.ticks → s.linkPort link = none →
      ∃ t, exec (.timeReq none) s = .next t ∧ t.ports = s.ports ∧ t.time.reqAt = s.time.ticks + 65536 ∧
        t.fld PSIUD_SVC_STAT.DROPPED = min (2 ^ (PSIUD_SVC_STAT.DROPPED.hi + 1 - PSIUD_SVC_STAT.DROPPED.lo) - 1)
          (s.fld PSIUD_SVC_STAT.DROPPED + 1)) ∧
    ((s.fld ALM_SYNC.ROLE ≠ 2 ∨ s.time.ticks < s.time.reqAt) → exec (.timeReq none) s = .next s) ∧
    (∃ t x, exec (.timeReq (some m)) s = .next t ∧ (t.port m.port.toNat).svcOut = (s.port m.port.toNat).svcOut ++ [x] ∧
      x.type.toNat = stTimeResp ∧ x.arg = m.t2 ∧ t.time = s.time) ∧
    (s.fld ALM_SYNC.ROLE = 2 → ∃ t b, exec (.timeResp m) s = .next t ∧ (b = 0 ∨ b = 1) ∧
      (let off := (((m.t1 - m.t2) + (m.t4 - m.t3)).toInt + b) / 2 + m.off.toInt
       t.time.measured = true ∧ t.fld ALM_OFFSET.OFFSET = (off % 2 ^ 32).toNat ∧
       ((1024 < off.natAbs ∧ s.scheduled = false) → t.flag ALM_STATUS.STEPPED = true ∧
         t.time.almanac = s.time.almanac - BitVec.ofInt 64 ((off + 8) / 16) ∧ t.time.slewLeft = off - 16 * ((off + 8) / 16)) ∧
       (¬ (1024 < off.natAbs ∧ s.scheduled = false) → t.time.almanac = s.time.almanac ∧ t.time.slewLeft = off) ∧
       t.plane = s.plane ∧ t.time.ticks = s.time.ticks)) ∧
    (s.fld ALM_SYNC.ROLE ≠ 2 → exec (.timeResp m) s = .next s)

/-- The Almanac's ticks, and pod time. Where the spec leaves a point open, the model's choices stand in log entries 52, 72, 110.
That an event whose condition does not hold leaves the state as it was is log entry 6. -/
def Obligations.AlmanacAndPodTime : Prop := AlmanacTicks ∧ PodTime

/-! ## Stream engines, host DMA and HBM -/

/-- ENABLE, RESUME, ABORT and DISABLE of a channel, and the writes of its tail, ring and configuration (R416, R420, R439 to R444,
R454 to R458, R630, R634). An abort in the tick of the status point, or in that of a withhold that brought the descriptor to its
end, is honoured, and the rows in the inlet are discarded with it. Where the spec leaves a point open, the model's choices stand in
log entries 1, 23, 122, 126. That an event whose condition does not hold leaves the state as it was is log entry 6. -/
def Obligations.ChannelCommands : Prop :=
  ∀ (u : SeUnit) (v : BitVec 64) (s : State),
    let state := fun (x : State) => x.fld u.fState
    let refused := fun (t : State) => t.fld u.fCmdRefused = 1 ∧ state t = state s ∧ t.se = s.se ∧ t.plane = s.plane
    (state s = chDisabled → s.time.failed = true → exec (.channelEnable u) s = .next s) ∧
    (state s = chDisabled → s.time.failed = false → ∃ t, exec (.channelEnable u) s = .next t ∧ state t = chRunning ∧
      (∀ n c, u = .se n c → s.fld u.fKind = 1 → t.fld u.fCredit = s.fld (SE_CH_CFG.CINIT n.val c.toNat)) ∧ t.se = s.se ∧ t.hbm = s.hbm) ∧
    (state s ≠ chDisabled → ∃ t, exec (.channelEnable u) s = .next t ∧ refused t) ∧
    (state s = chHalted → ∃ t, exec (.channelResume u) s = .next t ∧ state t = chRunning ∧ t.fld u.fHead = s.fld u.fDone ∧
      t.fld u.fDone = s.fld u.fDone ∧ t.se = s.se ∧ t.hbm = s.hbm) ∧
    (state s ≠ chHalted → ∃ t, exec (.channelResume u) s = .next t ∧ refused t) ∧
    (s.job u = none → exec (.channelAbort u) s = .next s) ∧
    (∀ j, s.job u = some j → j.point = none → j.aborted = false →
      ∃ t j', exec (.channelAbort u) s = .next t ∧ t.job u = some j' ∧ j'.aborted = true ∧ j'.desc = j.desc ∧ j'.moved = j.moved ∧
        (t.chan u).inlet = [] ∧ state t = state s ∧
        (t.chan u).blks.map (·.seq) = ((s.chan u).blks.filter fun b => b.job ≠ j.idx || State.abortKeeps b).map (·.seq) ∧
        t.hbm = s.hbm) ∧
    (∀ j p a, s.job u = some j → j.point = some (p, a) →
      ∃ t j', exec (.channelAbort u) s = .next t ∧ t.job u = some j' ∧
        ((p = s.time.ticks ∨ j.ended = s.time.ticks + 1) → j' = { j with aborted := true } ∧ (t.chan u).inlet = []) ∧
        (p ≠ s.time.ticks → j.ended ≠ s.time.ticks + 1 → j' = { j with abortLate := true } ∧ t.chan u =
          { s.chan u with jobs := (t.chan u).jobs }) ∧
        (t.chan u).blks = (s.chan u).blks) ∧
    (∃ t, exec (.channelDisable u) s = .next t ∧ state t = chDisabled ∧ t.chan u = {} ∧ t.fld u.fHeld = 0 ∧ t.plane = s.plane ∧
      t.time = s.time ∧ ∀ w, w.key ≠ u.key → t.chan w = s.chan w) ∧
    (∃ t, exec (.seChTailWrite u v) s = .next t ∧ t.fld u.fTail = v.toNat % 65536 ∧ t.fld u.fHead = s.fld u.fHead ∧ t.se = s.se ∧
      t.hbm = s.hbm) ∧
    (let base := getBits v 41 12
     let ours := match u with | .se n _ => base / 2 ^ 25 = n.val | .hdma _ => base / 2 ^ 25 < 20
     (state s = chDisabled → ours → ∃ t, exec (.seChRingWrite u v) s = .next t ∧ t.fld u.fRingBase = base ∧ t.fld u.fHead = 0 ∧
       t.fld u.fDone = 0 ∧ t.fld u.fTail = 0 ∧ (1 ≤ v.toNat % 32 → v.toNat % 32 ≤ 16 → t.fld u.fRingSize = v.toNat % 32) ∧ t.se = s.se) ∧
     ((state s ≠ chDisabled ∨ ¬ ours) → ∃ t, exec (.seChRingWrite u v) s = .next t ∧ t.fld (engCfgRefused u.eng) = 1 ∧
       t.fld u.fRingBase = s.fld u.fRingBase ∧ t.se = s.se)) ∧
    (state s ≠ chDisabled → ∃ t, exec (.seChCfgWrite u v) s = .next t ∧ t.fld (engCfgRefused u.eng) = 1 ∧ t.reg u.base = s.reg u.base) ∧
    (∀ n c, u = .se n c → state s = chDisabled → getBits v 1 0 = 0 → getBits v 31 24 < spanWidth (stackSpan n.val) →
      ∃ t, exec (.seChCfgWrite u v) s = .next t ∧ t.fld (SE_CH_CFG.KIND n.val c.toNat) = 0 ∧
        t.fld (SE_CH_CFG.PORT n.val c.toNat) = getBits v 31 24 ∧ t.fld (SE_CH_CFG.SLOTS n.val c.toNat) = getBits v 47 32 ∧
        t.fld (SE_CH_CFG.STOP n.val c.toNat) = getBits v 63 48 ∧
        (1 ≤ getBits v 14 8 → getBits v 14 8 ≤ 64 → t.fld (SE_CH_CFG.OUTSTANDING n.val c.toNat) = getBits v 14 8) ∧ t.se = s.se) ∧
    (∀ c, u = .hdma c → state s = chDisabled → 1 ≤ getBits v 14 8 → getBits v 14 8 ≤ 64 →
      ∃ t, exec (.seChCfgWrite u v) s = .next t ∧ t.fld u.fOutstanding = getBits v 14 8 ∧ t.fld u.fPoisonOn = getBits v 2 2 ∧ t.se = s.se)

/-- DESCRIPTOR_FETCH, outside refresh windows, decodes the entry at HEAD and puts its descriptor behind those in progress, a wrong
one with its error code; a fetch with a read error is made again, at most RETRY_LIMIT times, and then ends with READ_ERROR.
BLOCK_START and HDMA_BLOCK start the next block of the first channel in turn that may start one (R404, R409, R411, R412, R420, R422,
R423, R435, R586, R612, R613). A read of host memory goes out at once where the function may send requests, and otherwise waits.
Where the spec leaves a point open, the model's choices stand in log entries 59, 60, 126, 144. That an event whose condition does
not hold leaves the state as it was is log entry 6. -/
def Obligations.DescriptorsAndBlocks : Prop :=
  ∀ (u : SeUnit) (e : BurstEnd) (n : StackId) (s : State),
    let size := s.ringSize u
    let head := s.fld u.fHead % size
    let ws := s.hbmRow (s.ringAddr u head) ++ s.hbmRow (s.ringAddr u head + 32)
    let good := e = .ok ∧ ∀ w ∈ ws, w.2.2 ≠ .uncorrectable
    let bs := ws.flatMap fun w => bytesOf 8 w.1.toNat
    let d := if u.isHdma then parseHdma bs else parseDesc bs
    let err := if u.isHdma then hdmaError bs else descError bs (s.fld u.fKind) u.eng
    let fetches := s.fld u.fState = chRunning ∧ head ≠ s.fld u.fTail % size ∧ (s.chan u).jobs.any Job.ending = false ∧
      s.burstOk (s.ringAddr u head) = true
    let fresh := ∀ j ∈ (s.chan u).jobs, j.idx ≠ head
    (fetches → good → err = 0 → ∃ t, exec (.descriptorFetch ⟨u, e⟩) s = .next t ∧ t.fld u.fHead = (head + 1) % size % 65536 ∧
      (t.chan u).jobs = (s.chan u).jobs ++ [{ idx := head, desc := d }] ∧ (t.chan u).blks = (s.chan u).blks ∧ t.hbm = s.hbm) ∧
    (fetches → fresh → good → err ≠ 0 → ∃ t, exec (.descriptorFetch ⟨u, e⟩) s = .next t ∧ t.fld u.fHead = (head + 1) % size % 65536 ∧
      (∃ j ∈ (t.chan u).jobs, j.idx = head ∧ j.desc = d ∧ j.code = err) ∧ (t.chan u).blks = (s.chan u).blks ∧ t.hbm = s.hbm) ∧
    (fetches → ¬ good → (s.chan u).fetchTries < s.fld (engRetryLimit u.eng) → ∃ t, exec (.descriptorFetch ⟨u, e⟩) s = .next t ∧
      t.fld u.fHead = s.fld u.fHead ∧ t.chan u = { s.chan u with fetchTries := (s.chan u).fetchTries + 1 } ∧ t.hbm = s.hbm) ∧
    (fetches → fresh → ¬ good → s.fld (engRetryLimit u.eng) ≤ (s.chan u).fetchTries → ∃ t, exec (.descriptorFetch ⟨u, e⟩) s = .next t ∧
      t.fld u.fHead = (head + 1) % size % 65536 ∧ (∃ j ∈ (t.chan u).jobs, j.idx = head ∧ j.code = codeReadError) ∧ t.hbm = s.hbm) ∧
    (¬ fetches → exec (.descriptorFetch ⟨u, e⟩) s = .next s) ∧
    (let k := s.engine n.val
     let turn := ((List.range 32).map fun i => (k.last + i) % 32).find? fun c => s.canStart (unitOf n.val c)
     (∀ c j, k.tick ≠ s.time.ticks + 1 → turn = some c → s.startJob (unitOf n.val c) = some j →
       (j.desc.op = 3 → (s.chan (unitOf n.val c)).inlet = []) →
       ∃ t b, exec (.blockStart n) s = .next t ∧ (t.chan (unitOf n.val c)).blks = (s.chan (unitOf n.val c)).blks ++ [b] ∧
         b.job = j.idx ∧ b.seq = j.seq ∧ b.addr = j.desc.addr + j.next * j.desc.stride ∧ b.rows = j.desc.brows ∧ b.data = [] ∧
         b.phase = (if j.desc.op = 3 then .filling else if j.desc.trans then .translating else .reading) ∧
         (t.engine n.val).last = (c + 1) % 32 ∧ (t.engine n.val).tick = s.time.ticks + 1 ∧
         t.jobAt (unitOf n.val c) j.idx = some { j with next := j.next + 1, seq := j.seq + 1 } ∧ t.hbm = s.hbm) ∧
     ((k.tick = s.time.ticks + 1 ∨ turn = none) → exec (.blockStart n) s = .next s)) ∧
    (let k := s.engine 20
     let turn := ((List.range 16).map fun i => (k.last + i) % 16).find? fun c => s.canStart (unitOf 20 c)
     (∀ c j, k.tick ≠ s.time.ticks + 1 → turn = some c → s.startJob (unitOf 20 c) = some j →
       ∃ t b, exec .hdmaBlock s = .next t ∧ (t.chan (unitOf 20 c)).blks = (s.chan (unitOf 20 c)).blks ++ [b] ∧ b.phase = .reading ∧
         b.job = j.idx ∧ b.addr = j.desc.addr + 32 * j.next ∧ b.host = j.desc.host + 32 * j.next ∧
         b.rows = min ((4096 - (j.desc.host + 32 * j.next) % 4096) / 32) (j.desc.len - j.next) ∧
         (j.desc.op = 1 → s.mastering = true → t.se.hostHeld = s.se.hostHeld ∧
           t.out = s.out ++ [.hostRead b.host (32 * b.rows) j.desc.relaxed j.desc.noSnoop]) ∧
         (j.desc.op = 1 → s.mastering = false → t.out = s.out ∧
           t.se.hostHeld = s.se.hostHeld ++ [(c, .hostRead b.host (32 * b.rows) j.desc.relaxed j.desc.noSnoop)]) ∧
         t.hbm = s.hbm) ∧
     ((k.tick = s.time.ticks + 1 ∨ turn = none) → exec .hdmaBlock s = .next s))

/-- A read burst adds the decoded row to its block and a write burst stores the block's next row; KV_TRANSLATE gives a block its
physical address or drops it. -/
def Sys2Proof.Claims.BurstsAndTranslations : Prop :=
  ∀ (n : StackId) (c : BitVec 5) (u : SeUnit) (i : BitVec 6) (s : State) (j : Job),
    let se := SeUnit.se n c
    (∀ y, (s.chan se).blks[i.toNat]? = some y → (∀ x ∈ (s.chan se).blks.head?, x.phase ≠ .writing) → y.phase = .reading →
      y.data.length < y.rows → s.burstOk (y.addr + 32 * y.data.length) = true →
      (∀ w ∈ s.hbmRow (y.addr + 32 * y.data.length), w.2.2 ≠ .uncorrectable) →
      ∃ t, exec (.hbmBurstComplete se i .ok) s = .next t ∧ t.hbm = s.hbm ∧
        let ws := s.hbmRow (y.addr + 32 * y.data.length)
        (t.chan se).blks = (s.chan se).blks.map fun x => if x.same y then
          { y with data := y.data ++ [⟨rowOfWords (ws.map (·.1)), marksOf (ws.map (·.2.1))⟩], tries := 0
                   phase := if y.data.length + 1 < y.rows then .reading else .ready } else x) ∧
    (∀ x xs, Memory.wf s.hbm = true → (s.chan u).blks = x :: xs → x.phase = .writing → s.jobAt u x.job = some j →
      s.burstOk (x.addr + 32 * x.done) = true →
      ∃ t j', exec (.hbmBurstComplete u i .ok) s = .next t ∧ t.jobAt u x.job = some j' ∧ j'.moved = j.moved + 1 ∧
        memBytes t.hbm (x.addr + 32 * x.done) 32 = bytesOf 32 ((x.data[x.done]?).getD {}).data.toNat ∧
        ∀ a, a < x.addr + 32 * x.done ∨ x.addr + 32 * x.done + 32 ≤ a → memRead t.hbm a = memRead s.hbm a) ∧
    (∀ x xs, (s.chan u).blks = x :: xs → x.phase = .writing → s.burstOk (x.addr + 32 * x.done) = false →
      ∀ e, exec (.hbmBurstComplete u i e) s = .next s) ∧
    (∀ b, (s.chan se).blks.find? (fun b => b.phase = .translating) = some b → s.jobAt se b.job = some j → j.point = none →
      let beyond := 512 ≤ pageIndex (s.chan se) b
      let kept := (s.chan se).blks.filter fun x => x.job ≠ b.job || x.seq < b.seq
      (∀ pa, ¬ beyond → (s.walk b.addr).2 = some pa → pa / 2 ^ 37 = n.val → ∃ t, exec (.kvTranslate n c) s = .next t ∧
        t.hbm = s.hbm ∧
        (t.chan se).blks = (s.chan se).blks.map fun x => if x.same b then { b with addr := pa, phase := .reading } else x) ∧
      (∀ pa, ¬ beyond → (s.walk b.addr).2 = some pa → pa / 2 ^ 37 ≠ n.val → ∃ t, exec (.kvTranslate n c) s = .next t ∧
        (t.chan se).blks = kept) ∧
      ((beyond ∨ (s.walk b.addr).2 = none) → ∃ t, exec (.kvTranslate n c) s = .next t ∧ (t.chan se).blks = kept ∧
        t.fld PG_STATUS.FAULTS = min (2 ^ (PG_STATUS.FAULTS.hi + 1 - PG_STATUS.FAULTS.lo) - 1) (s.fld PG_STATUS.FAULTS + 1)))

/-- BLOCK_FORWARD sends the next flit of a channel's first block into the mesh, posts a TO_HOST block to the host, which waits
where the function may send no request, or meets a buffer fault, which fences its segment once, turns the engine serial and reads
the block again; BLOCK_WRITE begins the write, but of a block behind a descriptor that ends. -/
def Sys2Proof.Claims.BlocksLeave : Prop :=
  ∀ (n : StackId) (c : BitVec 5) (hc : BitVec 4) (u : SeUnit) (hits : SegHits) (f : BufFault) (s : State) (j : Job) (b : Blk)
      (bs : List Blk),
    let se := SeUnit.se n c
    ((s.chan se).blks = b :: bs → s.jobAt se b.job = some j → b.phase = .ready → s.behindEnd se b = false → j.desc.op = 1 →
      s.mayInject n.val c.toNat = true →
      let core := portCore n.val (s.fld (SE_CH_CFG.PORT n.val c.toNat))
      let cr := min 15 (s.fld se.fCredit + s.creditsDue (.engine n.val c.toNat))
      let rp := j.desc.rowOf (b.seq * j.desc.brows + b.done / 2)
      (b.done % 2 = 0 → 1 ≤ cr) →
      ∃ t x, exec (.blockForward se none hits) s = .next t ∧
        t.plane.mesh.links = s.plane.mesh.links ++ [⟨core, stackSide n.val, s.total (groveOf core) + 1, x⟩] ∧
        x.w0 = (((Blk.words b)[2 * b.done]?).getD (0, false)).1 ∧ x.w1 = (((Blk.words b)[2 * b.done + 1]?).getD (0, false)).1 ∧
        x.last = decide (b.done % 2 = 1) ∧ x.side = State.inletSide rp.1 rp.2 (b.done % 2) ∧
        t.fld se.fCredit = (if b.done % 2 = 0 then cr - 1 else cr) ∧ t.plane.cores = s.plane.cores ∧ t.hbm = s.hbm) ∧
    ((s.chan (.hdma hc)).blks = b :: bs → s.jobAt (.hdma hc) b.job = some j → b.phase = .ready →
      s.behindEnd (.hdma hc) b = false →
      let post : Output := .hostWrite b.host (b.data.flatMap fun x => bytesOf 32 x.data.toNat) (b.data.any fun x => x.poison ≠ 0)
        j.desc.relaxed j.desc.noSnoop
      ∃ t more, exec (.blockForward (.hdma hc) none hits) s = .next t ∧
        (s.mastering = true → t.out = s.out ++ post :: more) ∧
        (s.mastering = false → t.se.hostHeld = s.se.hostHeld ++ [(hc.toNat, post)]) ∧
        (t.chan (.hdma hc)).blks = (s.chan (.hdma hc)).blks.filter (fun x => !x.same b) ∧ t.hbm = s.hbm) ∧
    ((s.chan u).blks = b :: bs → s.jobAt u b.job = some j → b.phase = .ready → s.behindEnd u b = false → Job.reads u j = true →
      b.data ≠ [] → f.others = [] →
      ∃ t, exec (.blockForward u (some f.seg) f.toSegHits) s = .next t ∧ t.fld (engBufFault u.eng) = 1 ∧ t.fld (engSerial u.eng) = 1 ∧
        f.seg.toNat ∈ (t.engine u.eng).fenced ∧
        (f.seg.toNat ∈ (s.engine u.eng).fenced → t.fld (engFenced u.eng) = s.fld (engFenced u.eng)) ∧
        (t.chan u).blks = (b :: bs).map (fun x => if x.same b then
          { b with data := [], tries := 1, exh := false, phase := .reading } else x) ∧ t.hbm = s.hbm) ∧
    ((s.chan u).blks = b :: bs → b.phase = .full → s.behindEnd u b = true → exec (.blockWrite u none) s = .next s) ∧
    ((s.chan u).blks = b :: bs → b.phase = .full → s.behindEnd u b = false → ∃ t, exec (.blockWrite u none) s = .next t ∧
      (t.chan u).blks = (b :: bs).map (fun x => if x.same b then { b with phase := .writing } else x) ∧ t.hbm = s.hbm ∧
      (t.chan u).jobs = (s.chan u).jobs)

/-- Bursts, translations, forwarding and writes of blocks (R405, R409 to R411, R418, R424, R425, R432, R440, R446, R505, R615).
Where the spec leaves a point open, the model's choices stand in log entries 58, 59, 60, 61, 125, 144, 145. That an event whose
condition does not hold leaves the state as it was is log entry 6. -/
def Obligations.BlocksMove : Prop := BurstsAndTranslations ∧ BlocksLeave

/-- EDGE_PORT_FLIT takes a flit into the inlet of the write channel that owns its slot, or reports it stray; DEADLINE drops every
block of the descriptor from the first that is not wholly in the buffer on; WRITE_READBACK_CHECK and HDMA_HOST_READBACK end or
repeat the read-back; HDMA_HOST_COMPLETION fills its block; a completion that is not successful is recorded, and neither a request
that has not been sent nor a timeout that is switched off brings one (R417, R419, R430, R433, R586, R614, R615). -/
def Sys2Proof.Claims.ChannelEvents : Prop :=
  ∀ (n : StackId) (c : BitVec 5) (core : CoreId) (output : BitVec 2) (u : SeUnit) (hc : BitVec 4) (s : State) (j : Job),
    let se := SeUnit.se n c
    (∀ e rest, State.takeFirst (fun e : EdgeFlit => e.core = core && e.output = output.toNat) s.plane.mesh.edges = some (e, rest) →
      let np := corePort e.core e.output
      (∀ w, s.writeOwner np.1 np.2 e.slot = some w →
        let k := s.chan (unitOf np.1 w)
        let es := k.part ++ State.flitWords e.flit 0
        ∃ t, exec (.edgePortFlit core output) s = .next t ∧ t.plane.mesh.edges = rest ∧
          (e.flit.last = false → (t.chan (unitOf np.1 w)).part = es ∧ (t.chan (unitOf np.1 w)).inlet = k.inlet) ∧
          (e.flit.last = true → k.inlet.length < 8 → k.blks.find? (fun b => b.phase = .filling) = none →
            ∃ ids, (t.chan (unitOf np.1 w)).part = [] ∧ (t.chan (unitOf np.1 w)).inlet = k.inlet ++
              [(⟨rowOfWords ((es.take 4).map (·.data)), marksOf ((es.take 4).map (·.poison))⟩, ids)])) ∧
      (s.writeOwner np.1 np.2 e.slot = none → s.txOwner e.core e.output e.slot = none →
        ∃ t, exec (.edgePortFlit core output) s = .next t ∧ t.plane.mesh.edges = rest ∧ t.fld (SE_STATUS.STRAY np.1) = 1 ∧ t.se = s.se)) ∧
    ((s.chan se).jobs = [j] → j.desc.dlEn = true → j.point = none → j.desc.deadline ≤ s.time.almanac.toNat →
      ∀ b, (s.chan se).blks.find? (fun b => b.job = j.idx && b.phase ≠ .ready && b.done = 0) = some b →
      ∃ t j', exec (.deadline n c) s = .next t ∧
        (t.chan se).blks = (s.chan se).blks.filter (fun x => x.job ≠ j.idx || x.seq < b.seq) ∧ t.job se = some j' ∧ j'.code = (if j.code = 0 then codeWithheldLate else j.code) ∧ j'.next = j.desc.nblk ∧ t.hbm = s.hbm) ∧
    (∀ e, s.backJob u = some j → (u.isHdma && j.desc.op = 2) = false → s.burstOk (j.lastWr.getD 0) = true →
      let ok := e = .ok ∧ ∀ w ∈ s.hbmRow (j.lastWr.getD 0), w.2.2 ≠ .uncorrectable
      ∃ t j', exec (.writeReadbackCheck u e) s = .next t ∧ t.jobAt u j.idx = some j' ∧ t.hbm = s.hbm ∧
        (ok → j'.readback = 2 ∧ j'.code = j.code) ∧
        (¬ ok → j.rbTries < s.fld (engRetryLimit u.eng) → j'.rbTries = j.rbTries + 1 ∧ j'.readback = 1) ∧
        (¬ ok → s.fld (engRetryLimit u.eng) ≤ j.rbTries → j'.readback = 2 ∧
          j'.code = (if 4 ≤ j.code then j.code else codeWriteError))) ∧
    (∀ e, s.backJob (.hdma hc) = some j → j.desc.op = 2 → s.hostWaits hc.toNat (j.lastWr.getD 0) = false →
      (e = some .timeout → s.noTimeout = false) →
      ∃ t j', exec (.hdmaHostReadback hc e) s = .next t ∧ t.jobAt (.hdma hc) j.idx = some j' ∧ t.hbm = s.hbm ∧
        (e = none → j'.readback = 2 ∧ j'.code = j.code ∧ t.cfg = s.cfg) ∧
        (e = some .unsupported → (t.cfgRead 0x004).getLsbD 29 = true) ∧ (e = some .aborted → (t.cfgRead 0x004).getLsbD 28 = true) ∧
        (e = some .timeout → (t.cfgRead 0x104).getLsbD 14 = true ∧ (t.cfgRead 0x058).getLsbD 17 = true) ∧
        (e ≠ none → j.rbTries < s.fld (engRetryLimit 20) → j'.rbTries = j.rbTries + 1 ∧
          (s.mastering = true → t.out = s.out ++ [.hostRead (j.lastWr.getD 0) 32 j.desc.relaxed j.desc.noSnoop])) ∧
        (e ≠ none → s.fld (engRetryLimit 20) ≤ j.rbTries → j'.readback = 2 ∧
          j'.code = (if 4 ≤ j.code then j.code else codeWriteError))) ∧
    (∀ e, s.backJob (.hdma hc) = some j → j.desc.op = 2 →
      (s.hostWaits hc.toNat (j.lastWr.getD 0) = true ∨ (e = some .timeout ∧ s.noTimeout = true)) →
      exec (.hdmaHostReadback hc e) s = .next s) ∧
    (∀ b x bs, (s.chan (.hdma hc)).blks[b.toNat]? = some x → s.jobAt (.hdma hc) x.job = some j → j.desc.op = 1 → x.phase = .reading →
      s.hostWaits hc.toNat x.host = false → ∃ t, exec (.hdmaHostCompletion hc b (.data bs)) s = .next t ∧ t.hbm = s.hbm ∧
        (t.chan (.hdma hc)).blks = (s.chan (.hdma hc)).blks.map fun y => if y.same x then
          { x with data := hostRows bs x.rows 0, phase := .full, tries := 0 } else y) ∧
    (∀ b, s.noTimeout = true → exec (.hdmaHostCompletion hc b (.failed .timeout)) s = .next s)

/-- REFRESH_WINDOW opens a window of the mode read in the window before, at the stack's phase, but not under a new phase while
the old one's window is open; REFRESH_WINDOW_CLOSE ends it;
HBM_REF_WRITE is the manager's; a lost stack and a management-processor fault are device-fatal (R404 to R407, R451, R657, R658,
R663). -/
def Sys2Proof.Claims.HbmRefreshAndLoss : Prop :=
  ∀ (n : StackId) (temp : BitVec 8) (v : BitVec 64) (s : State),
    let k := s.stack n.val
    let len := if k.hot then 80 else 40
    let due := (s.time.almanac - (k.usedPhase n.val).zeroExtend 64).toNat % 512 = 0
    let fatal := fun (t : State) => t.flag HIF_STATUS.READY = false ∧
      t.fld BOOT_STATE.STATE = (if s.fld BOOT_STATE.STATE = bsReset ∨ s.fld BOOT_STATE.STATE = bsFailed then bsFailed else bsFatal) ∧
      t.plane.hampers = s.plane.hampers ∧ (s.anyHamper Hamper.runs = true → ∃ r, t.plane.abort = some r ∧ r.force = true)
    let opens := due ∧ s.se.selfRefresh = false ∧ k.opened ≠ s.time.ticks + 1 ∧
      ¬ (s.time.ticks < k.closes ∧ k.under ≠ k.usedPhase n.val)
    (opens → ∃ t, exec (.refreshWindow n temp) s = .next t ∧ (t.stack n.val).closes = max k.closes (s.time.ticks + len) ∧
      t.fld (HBM_REF.LEN n.val) = len ∧ t.fld (HBM_REF.HOT n.val) = k.hot.toNat ∧
      (t.stack n.val).hot = (if 85 < temp.toNat then true else if temp.toNat < 80 then false else k.hot) ∧
      (t.stack n.val).usedPhase n.val = BitVec.ofNat 9 (s.fld (HBM_REF.PHASE n.val)) ∧ t.hbm = s.hbm ∧
      ∀ m, m ≠ n.val → t.stack m = s.stack m) ∧
    (¬ opens → exec (.refreshWindow n temp) s = .next s) ∧
    (k.closes ≠ 0 → k.closes ≤ s.time.ticks → ∃ t, exec (.refreshWindowClose n) s = .next t ∧ (t.stack n.val).closes = 0 ∧
      (t.stack n.val).hot = k.hot ∧ t.hbm = s.hbm) ∧
    ((k.closes = 0 ∨ s.time.ticks < k.closes) → exec (.refreshWindowClose n) s = .next s) ∧
    (∃ t, exec (.hbmRefWrite .manager n v) s = .next t ∧ t.fld (HBM_REF.PHASE n.val) = v.toNat % 512 ∧ t.se = s.se ∧ t.hbm = s.hbm) ∧
    exec (.hbmRefWrite .host n v) s = .next s ∧
    (∃ t, exec (.hbmStackLost n) s = .next t ∧ fatal t) ∧
    (∃ t, exec (.mpFault v) s = .next t ∧ fatal t)

/-- The events of channels, of HBM refresh and of the loss of its content. Where the spec leaves a point open, the model's choices
stand in log entries 1, 17, 24, 60, 122, 125, 144: a narrow row's missing words read as zero (log entry 17), and a device-fatal
fault leads to FAILED where a reset is under way (log entry 122). That an event whose condition does not hold leaves the state as it
was is log entry 6. -/
def Obligations.ChannelAndHbmEvents : Prop := ChannelEvents ∧ HbmRefreshAndLoss

/-! ## The scheduler and the pager -/

/-- ENABLE, HALT, HALT with ABORT and INIT of the scheduler, and the writes of its configuration, limits and pools (R501, R519,
R520, R522, R524, R531, R534). A HALT with nothing in flight ends in IDLE (log entry 30). Where the spec leaves a point open, the
model's choices stand in log entries 26, 36, 39. -/
def Obligations.SchedulerCommands : Prop :=
  ∀ (n : StackId) (v : BitVec 64) (r : SchReg) (s : State),
    let refused := fun (t : State) => t.flag SCH_STATUS.CMD_REFUSED = true ∧ t.schState = s.schState ∧ t.sch = s.sch ∧ t.plane = s.plane
    (s.schState = schIdle → ∃ t, exec .schEnable s = .next t ∧ t.schState = schRunning ∧ t.sch.next = 0 ∧ t.sch.steps = [] ∧
      t.sch.cur = none ∧ t.sch.ended = false ∧ t.sch.tstore = [] ∧ (∀ i, t.slotOf i = { s.slotOf i with lastStep := none }) ∧
      t.sch.frames = s.sch.frames ∧ t.sch.homes = s.sch.homes ∧ t.hbm = s.hbm ∧ t.plane = s.plane) ∧
    (s.schState ≠ schIdle → ∃ t, exec .schEnable s = .next t ∧ refused t) ∧
    (s.schState = schRunning → s.sch.ended = false → ∃ t, exec .schHalt s = .next t ∧
      t.schState = (if s.sch.steps = [] then schIdle else schHalted) ∧ t.sch = s.sch ∧ t.plane = s.plane) ∧
    (s.schState ≠ schRunning → ∃ t, exec .schHalt s = .next t ∧ refused t) ∧
    (s.schState = schRunning → ∃ t, exec .schHaltAbort s = .next t ∧ t.schState = schIdle ∧ t.sch.steps = [] ∧ t.sch.ended = true ∧
      t.sch.slots = s.sch.slots ∧ t.hbm = s.hbm ∧
      (s.anyHamper Hamper.runs = true → s.plane.abort = none → ∃ q, t.plane.abort = some q ∧ q.force = false ∧ s.time.almanac ≤ q.at_)) ∧
    (s.schState ≠ schRunning → ∃ t, exec .schHaltAbort s = .next t ∧ refused t) ∧
    (s.schState ≠ schRunning → ∃ t, exec .schInit s = .next t ∧ t.schState = schIdle ∧ t.sch.slots = [] ∧ t.sch.steps = [] ∧
      t.sch.waiting = [] ∧ t.fld SCH_EVENTS.REFUSED = 0 ∧ t.fld SCH_EVENTS.MASKED = 0 ∧ t.plane = s.plane) ∧
    (s.schState = schRunning → ∃ t, exec .schInit s = .next t ∧ refused t) ∧
    (s.schState ≠ schIdle → ∃ t, exec (.schConfigWrite r v) s = .next t ∧ refused t ∧
      t.reg (State.schRegOff r) = s.reg (State.schRegOff r)) ∧
    (s.schState = schIdle → ∃ t, exec (.schConfigWrite r v) s = .next t ∧ t.sch = s.sch ∧ t.plane = s.plane ∧
      (r = .ptBase → t.fld PG_PT_BASE.BASE = getBits v 41 20) ∧
      (r = .schTiming → t.fld SCH_TIMING.STEP_TICKS = getBits v 63 32 ∧ t.fld SCH_TIMING.REF_HAMPER = getBits v 29 16 ∧
        (1536 ≤ getBits v 15 0 → t.fld SCH_TIMING.FORM_LEAD = getBits v 15 0)) ∧
      (r = .schCfg → t.fld SCH_CFG.STAGE = getBits v 21 16 ∧ (1 ≤ getBits v 11 8 → getBits v 11 8 ≤ 8 → t.fld SCH_CFG.ROT = getBits v 11 8)) ∧
      (r = .pgCfg → t.fld PG_CFG.LOW = getBits v 41 20 ∧ t.fld PG_CFG.HIGH = getBits v 63 42 ∧ t.fld SCH_LIMIT.MAX_TOKENS ≤ 512 * t.tpp)) ∧
    (∃ t, exec (.schLimitWrite v) s = .next t ∧ t.fld SCH_LIMIT.MAX_TOKENS = min (getBits v 20 0) (512 * s.tpp) ∧
      t.fld SCH_LIMIT.VOCAB = getBits v 63 32 ∧ t.sch = s.sch ∧ t.plane = s.plane) ∧
    (s.schState = schIdle → 16 * getBits v 16 0 + getBits v 41 20 ≤ 2 ^ 21 → ∃ t, exec (.pgPoolWrite n v) s = .next t ∧
      t.fld (PG_POOL.COUNT n.val) = getBits v 41 20 ∧ t.fld (PG_POOL.FIRST_MIB n.val) = getBits v 16 0 ∧ t.sch = s.sch) ∧
    ((s.schState ≠ schIdle ∨ 2 ^ 21 < 16 * getBits v 16 0 + getBits v 41 20) → ∃ t, exec (.pgPoolWrite n v) s = .next t ∧ refused t ∧
      t.reg (PG_POOL.off n.val) = s.reg (PG_POOL.off n.val))

/-- ADMIT fills the lowest free slot or posts why not, a record with a reserved OP to ring 0; CANCEL retires its sequence; SQ_POLL
reads at most 64 records and moves HEAD, and stops at a wrong TAIL, and reads nothing where the function may send no request (R460,
R462, R465 to R469, R486, R497, R586, R598 to R600). Where the spec leaves a point open, the model's choices stand in log entries
34, 35, 60, 127. That an event whose condition does not hold leaves the state as it was is log entry 6. -/
def Obligations.SubmissionRecords : Prop :=
  ∀ (rec : BitVec 512) (tail : BitVec 32) (recs : List (BitVec 512)) (heads : List (BitVec 32)) (s : State),
    let f := recField rec
    let id := BitVec.ofNat 32 (f 4 4)
    let posted := fun (t : State) (ring code : Nat) => ∃ x, (t.cring ring).held = (s.cring ring).held ++ [x] ∧ x.final = true ∧
      ∃ tag, x.bytes = crBytes id code 0 0xFFFFFFFF tag s.time.almanac
    (s.schRole = roleFollower → exec (.admitSeq rec) s = .next s ∧ exec (.cancel rec) s = .next s) ∧
    (s.schRole ≠ roleFollower → s.admitError rec = none → ∀ i, s.freeSlot = some i →
      ∃ t, exec (.admitSeq rec) s = .next t ∧ (∀ k, k ≠ i → t.slotOf k = s.slotOf k) ∧ t.hbm = s.hbm ∧ t.plane = s.plane ∧
        t.sch.cq = s.sch.cq ∧
        let q := t.slotOf i
        q.state = .prefill ∧ q.seqId = id ∧ q.cls = f 1 1 ∧ q.age = s.time.almanac ∧ q.lane = s.pickLane ∧ q.cring = f 2 1 ∧
        q.prompt = f 8 8 ∧ q.plen = f 16 4 ∧ q.maxNew = f 20 4 ∧ q.key = BitVec.ofNat 64 (f 24 8) ∧ q.userTag = BitVec.ofNat 64 (f 48 8) ∧
        q.position = 0 ∧ q.held = 0) ∧
    (s.schRole ≠ roleFollower → f 0 1 = 2 → exec (.admitSeq rec) s = exec (.cancel rec) s) ∧
    (s.schRole ≠ roleFollower → f 0 1 ≠ 1 → f 0 1 ≠ 2 →
      ∃ t, exec (.admitSeq rec) s = .next t ∧ (∃ x, (t.cring 0).held = (s.cring 0).held ++ [x] ∧
        x.bytes = crBytes id crRefusedRecord 0 0xFFFFFFFF 0 s.time.almanac) ∧ t.sch.slots = s.sch.slots) ∧
    (s.schRole ≠ roleFollower → f 0 1 = 1 → ∀ code, s.admitError rec = some code →
      ∃ t, exec (.admitSeq rec) s = .next t ∧ posted t (if f 2 1 ≤ 15 then f 2 1 else 0) code ∧ t.sch.slots = s.sch.slots ∧
        t.fld SCH_EVENTS.REFUSED = min 65535 (s.fld SCH_EVENTS.REFUSED + 1)) ∧
    (s.schRole ≠ roleFollower → id ≠ 0 → f 0 4 = 2 → f 8 56 = 0 →
      (s.slotOfSeq id = none → ∃ t, exec (.cancel rec) s = .next t ∧ posted t 0 crCancelUnknown ∧ t.sch.slots = s.sch.slots) ∧
      (∀ i, s.slotOfSeq id = some i → (s.slotOf i).state ≠ .retiring → (s.slotOf i).state ≠ .free_ →
        ∃ t x, exec (.cancel rec) s = .next t ∧ (t.cring (s.slotOf i).cring).held = (s.cring (s.slotOf i).cring).held ++ [x] ∧
          x.bytes = crBytes (s.slotOf i).seqId crCancelled 0 0xFFFFFFFF (s.slotOf i).userTag s.time.almanac ∧
          ((s.slotOf i).carried = true → (t.slotOf i).state = .retiring) ∧ ((s.slotOf i).carried = false → (t.slotOf i).state = .free_) ∧
          ∀ k, k ≠ i → t.slotOf k = s.slotOf k)) ∧
    (let size := 2 ^ s.fld HIF_SQ_BASE.SIZE_LOG2
     let head := s.fld HIF_SQ_POS.HEAD % size
     let m := min (min 64 ((tail.toNat + size - head) % size)) recs.length
     let due := s.time.almanac.toNat % s.sch.tick = 0 ∧ ∀ a r, s.sch.polled = some (a, r) →
       a ≠ s.time.almanac ∧ ∀ u, s.time.stepAt = some u → u < r ∨ r + s.sch.tick ≤ s.time.ticks
     (due → s.flag HIF_CTRL.SQ_EN = true → s.mastering = true → tail.toNat < size → 64 ≤ s.genFree →
       ∃ t, exec (.sqPoll tail recs heads false) s = .next t ∧ t.fld HIF_SQ_POS.HEAD = (head + m) % size ∧
         t.fld HIF_SQ_POS.TAIL = tail.toNat ∧ t.sch.tick = s.fld HIF_POLL.TICKS ∧ t.plane = s.plane ∧ t.hbm = s.hbm) ∧
     (due → s.mastering = false → ∃ t, exec (.sqPoll tail recs heads false) s = .next t ∧ t.bar0 = s.bar0 ∧
       t.sch.slots = s.sch.slots ∧ t.sch.cq = s.sch.cq ∧ t.out = s.out) ∧
     (due → s.flag HIF_CTRL.SQ_EN = true → s.mastering = true → size ≤ tail.toNat →
       ∃ t, exec (.sqPoll tail recs heads false) s = .next t ∧ t.flag HIF_STATUS.SQ_ERR = true ∧ t.flag HIF_CTRL.SQ_EN = false ∧
         t.fld HIF_SQ_POS.HEAD = s.fld HIF_SQ_POS.HEAD ∧ t.sch.slots = s.sch.slots) ∧
     (due → s.flag HIF_CTRL.SQ_EN = true → ∃ t, exec (.sqPoll tail recs heads true) s = .next t ∧
       t.flag HIF_STATUS.POLL_SKIP = true ∧ t.sch.slots = s.sch.slots ∧ t.sch.cq = s.sch.cq ∧ t.out = s.out) ∧
     (¬ due → ∀ busy, exec (.sqPoll tail recs heads busy) s = .next s))

/-- STEP_FORMATION forms the step that is due, of at most 256 rows; PARAM_DELIVERY puts its counts into the inactive bank of every
hamper and delivers it; DELIVERY_TEMPLATE appends a descriptor; REF_LOST ends formation where the reference hamper was not armed at
the departure, is idle or stopped after it was neither, or has no clock (R471, R472, R474 to R478, R481, R483, R485). The step
counts as delivered from PARAM_DELIVERY on (log entry 31), and a delivery whose ring is full waits for a free entry (the model's
choice, log entry 32); further choices stand in log entries 36, 145. That an event whose condition does not hold leaves the state as
it was is log entry 6. -/
def Obligations.StepsFormAndDeliver : Prop :=
  ∀ (n : BitVec 3) (s : State),
    let k := s.sch.next
    let lost := s.sch.refGone = true ∨
      (s.sch.refLive = true ∧ ((s.hamper s.refHamper).state = stIdle ∨ (s.hamper s.refHamper).state = stStopped)) ∨
      s.gated (groveOfHamper s.refHamper) = true ∨ s.time.rootGated = true
    (∀ f, s.formInstant = some f → f ≤ s.time.almanac → s.schState = schRunning → s.schRole ≠ roleFollower →
      ∃ t st, exec .stepFormation s = .next t ∧ st ∈ t.sch.steps ∧ st.k = k ∧ st.num = k ∧ st.delivered = false ∧
        t.sch.next = k + 1 ∧ t.reg SCH_STEP.off = BitVec.ofNat 64 k ∧ (∀ e ∈ st.entries, 1 ≤ e.rows) ∧
        (st.entries.map (·.rows)).sum ≤ 256 ∧ st.tokens.length = (st.entries.map (·.rows)).sum ∧
        (f < s.time.almanac → t.flag SCH_STATUS.LEAD_MISS = true)) ∧
    ((∀ f, s.formInstant = some f → s.time.almanac < f) → exec .stepFormation s = .next s) ∧
    (s.sch.bcast = none → exec .paramDelivery s = .next s) ∧
    (∀ b, s.sch.bcast = some b → ∃ t, exec .paramDelivery s = .next t ∧ t.sch.bcast = none ∧
      (b.2.1 < s.time.almanac.toNat → t.flag SCH_STATUS.LEAD_MISS = true) ∧
      (∀ h, (t.hamper h).paramReady = true ∧ (t.hamper h).paramAct = (s.hamper h).paramAct ∧
        (∀ i, i < 64 → smGet 0 (t.hamper h).params ((if (s.hamper h).paramAct then 0 else 64) + i) = (b.2.2[i]?).getD 0) ∧
        (∀ i, i < 64 → smGet 0 (t.hamper h).params ((if (s.hamper h).paramAct then 64 else 0) + i) =
          smGet 0 (s.hamper h).params ((if (s.hamper h).paramAct then 64 else 0) + i)) ∧ (t.hamper h).scalars = (s.hamper h).scalars) ∧
      (∀ st, s.sch.steps.find? (fun x => x.k = b.1) = some st →
        (∃ st' ∈ t.sch.steps, st' = { st with delivered := true }) ∧
        (Memory.wf s.hbm = true → memBytes t.hbm (s.fld SCH_LIVE_ADDR.ADDR * 32) 32 = bytesOf 32 st.live.toNat))) ∧
    (∀ d, s.sch.deliver.find? (fun d => d.n = n.toNat) = some d →
      let u := unitOf (s.fld SCH_RING.BASE / 2 ^ 22) (s.fld (SCH_DELIV_SEL.CHAN d.n))
      let tl := s.fld u.fTail % s.ringSize u
      (Memory.wf s.hbm = true → d.due ≤ s.time.almanac → (tl + 1) % s.ringSize u ≠ s.fld u.fDone % s.ringSize u →
        ∃ t, exec (.deliveryTemplate n) s = .next t ∧ t.fld u.fTail = (tl + 1) % s.ringSize u % 65536 ∧
          memBytes t.hbm (s.ringAddr u tl) 64 = s.deliveryDesc d ∧ t.sch.deliver = s.sch.deliver.filter (fun x => x ≠ d) ∧
          ∀ a, a < s.ringAddr u tl ∨ s.ringAddr u tl + 64 ≤ a → memRead t.hbm a = memRead s.hbm a) ∧
      ((s.time.almanac < d.due ∨ (tl + 1) % s.ringSize u = s.fld u.fDone % s.ringSize u) → exec (.deliveryTemplate n) s = .next s)) ∧
    (s.schState = schRunning → s.sch.ended = false → lost →
      ∃ t, exec .refLost s = .next t ∧ t.flag SCH_STATUS.REF_LOST = true ∧ t.sch.ended = true ∧ t.sch.steps = [] ∧
        t.sch.slots = s.sch.slots ∧ (s.anyHamper Hamper.runs = true → ∃ r, t.plane.abort = some r ∧ r.force = true)) ∧
    ((s.schState ≠ schRunning ∨ s.sch.ended = true ∨ ¬ lost) → exec .refLost s = .next s)

/-- TOKEN_RECORD keeps a token or masks its entry; MASK, which also finds a step of the head that waits to be delivered,
WITHHOLD_NOTICE and STEP_COPY (R434, R486, R488, R489, R492, R493). Where the spec leaves a point open, the model's choices stand in
log entries 27, 51. That an event whose condition does not hold leaves the state as it was is log entry 6. -/
def Obligations.TokensAndMasks : Prop :=
  ∀ (peer poison : Bool) (v : BitVec 64) (step : BitVec 32) (e8 : BitVec 8) (slot : BitVec 12) (reason : BitVec 4)
    (d : List Byte) (s : State) (st : SchStep) (e : Nat) (x : StepEntry),
    let masked := fun (t : State) (r : Nat) => ∃ st' ∈ t.sch.steps, st'.k = st.k ∧
      st'.entries = st.entries.set e { x with masked := true, reason := r } ∧ st'.live = st.live &&& ~~~x.mask
    let listed := s.sch.steps.find? (fun y => y.k = st.k) = some st ∧ st.entries[e]? = some x
    let row := getBits v 47 40
    (s.flag (if peer then SCH_TOKEN_CFG.PEN else SCH_TOKEN_CFG.MEN) = true →
      s.sch.steps.find? (fun y => y.num % 2 ^ 16 = getBits v 63 48) = some st → listed →
      x.gives = true → x.row0 + x.rows = row + 1 →
      (∀ i y, i < e → st.entries[i]? = some y → ¬ (y.gives = true ∧ y.row0 + y.rows = row + 1)) →
      (poison = false → (v.extractLsb' 0 32).toNat < s.fld SCH_LIMIT.VOCAB → ∃ t, exec (.tokenRecord peer v poison) s = .next t ∧
        (∃ st' ∈ t.sch.steps, st' = { st with entries := st.entries.set e { x with token := some (v.extractLsb' 0 32) } }) ∧
        t.sch.slots = s.sch.slots ∧ t.hbm = s.hbm ∧ t.plane = s.plane) ∧
      ((poison = true ∨ s.fld SCH_LIMIT.VOCAB ≤ (v.extractLsb' 0 32).toNat) → x.masked = false →
        ∃ t, exec (.tokenRecord peer v poison) s = .next t ∧ masked t 7)) ∧
    (s.flag (if peer then SCH_TOKEN_CFG.PEN else SCH_TOKEN_CFG.MEN) = false → exec (.tokenRecord peer v poison) s = .next s) ∧
    (s.stepMod (2 ^ 32) step.toNat = some st.k → e = e8.toNat → listed → x.masked = false →
      ∃ t, exec (.maskEntry step e8 slot reason) s = .next t ∧ masked t 6 ∧ t.sch.slots = s.sch.slots ∧ t.plane = s.plane) ∧
    (s.stepMod (2 ^ 32) step.toNat = none → (∀ c ∈ s.sch.copies, c.1 % 2 ^ 32 ≠ step.toNat) →
      exec (.maskEntry step e8 slot reason) s = .next s) ∧
    (∀ c, s.stepMod (2 ^ 32) step.toNat = none → s.sch.copies.find? (fun c => c.1 % 2 ^ 32 = step.toNat) = some c → e = e8.toNat →
      e < min 256 (bytesField c.2 4 4) → entryAt e + 64 ≤ c.2.length → (headEntry c.2 e).masked = false →
      ∃ t d', exec (.maskEntry step e8 slot reason) s = .next t ∧ (c.1, d') ∈ t.sch.copies ∧ (headEntry d' e).masked = true ∧
        (∀ i, i ≠ e → headEntry d' i = headEntry c.2 i) ∧ t.sch.steps = s.sch.steps ∧ t.sch.slots = s.sch.slots ∧
        t.fld SCH_EVENTS.MASKED = min 65535 (s.fld SCH_EVENTS.MASKED + 1)) ∧
    (∀ nt rest, s.se.notices = nt :: rest → s.stepMod (2 ^ 16) (nt.tag / 2 ^ 16) = some st.k → nt.slot ≠ 0xFFFF → e = nt.tag % 2 ^ 16 →
      listed → x.masked = false → ∃ t, exec .withholdNotice s = .next t ∧ t.se.notices = rest ∧
        masked t (if nt.code = 2 then 1 else if nt.code = 3 then 2 else 3)) ∧
    (∃ t, exec (.stepCopy v d) s = .next t ∧ (v.toNat, d) ∈ t.sch.copies ∧ (∀ c ∈ t.sch.copies, c.1 = v.toNat → c.2 = d) ∧
      (∀ c, c.1 ≠ v.toNat → (c ∈ t.sch.copies ↔ c ∈ s.sch.copies)) ∧ t.sch.slots = s.sch.slots ∧ t.hbm = s.hbm)

/-- SPILL to host memory, SPILL_DONE, FETCH_BACK_DONE and RESUME_SEQUENCE (R505, R512 to R514, R516 to R518). Where the spec leaves
a point open, the model's choices stand in log entries 29, 49, 50, 55, 108, 145. `v` is the state once the page-table search has
counted. That an event whose condition does not hold leaves the state as it was is log entry 6. -/
def Obligations.PagesMove : Prop :=
  ∀ (slot : BitVec 12) (lg : BitVec 5) (page : BitVec 9) (s : State) (x : Transit) (i : Nat) (y : Nat × SeqSlot) (ys : List (Nat × SeqSlot)),
    let q := s.slotOf slot.toNat
    let e := s.pte slot.toNat lg.toNat page.toNat
    let u := s.spillUnit
    let tl := s.fld u.fTail % s.ringSize u
    let v := s.searchTables
    let may := q.state = .preempted ∧ q.byPod = false ∧ s.pastLast slot.toNat q = true ∧ pteState e = pteResident
    let done := if x.host then (∃ k, x.ring = some k ∧ s.descOk u k = true) else x.moved = true
    (Memory.wf s.hbm = true → may → s.fld PG_SPILL_CFG.ORDER = 1 → v.hostPage (s.fld PG_SPILL_HPAGES.PAGES) 0 = some i →
      (tl + 1) % s.ringSize u ≠ s.fld u.fDone % s.ringSize u →
      ∃ t z, exec (.spill slot lg page) s = .next t ∧ t.sch.transits = s.sch.transits ++ [z] ∧ z.slot = slot.toNat ∧ z.lg = lg.toNat ∧
        z.page = page.toNat ∧ z.out = true ∧ z.host = true ∧ z.frame = pteFrame e ∧ z.remote = i ∧ z.ring = some tl ∧
        t.pte slot.toNat lg.toNat page.toNat = mkPte pteTransit false 0 (pteFrame e) ∧ t.sch.slots = s.sch.slots) ∧
    (may → s.fld PG_SPILL_CFG.ORDER = 1 → v.hostPage (s.fld PG_SPILL_HPAGES.PAGES) 0 = none →
      ∃ t, exec (.spill slot lg page) s = .next t ∧ t.hbm = s.hbm ∧ t.sch.transits = s.sch.transits ∧
        (t.slotOf slot.toNat).state = (if s.schRole = roleFollower ∨ q.carried = true then .retiring else .free_)) ∧
    (¬ may → exec (.spill slot lg page) s = .next s) ∧
    (Memory.wf s.hbm = true → s.findTransit slot.toNat lg.toNat page.toNat true = some x → done → x.freed = false → s.sch.waiting = [] →
      ∃ t, exec (.spillDone slot lg page) s = .next t ∧ t.sch.transits = s.sch.transits.filter (fun z => z ≠ x) ∧
        (∀ z ∈ t.sch.frames, z.1 ≠ x.frame) ∧ t.pte x.slot x.lg x.page = mkPte pteSpilled x.host x.dev x.remote ∧
        t.fld PG_STATUS.SPILLS = min 65535 (s.fld PG_STATUS.SPILLS + 1)) ∧
    (s.findTransit slot.toNat lg.toNat page.toNat true = some x → ¬ done → exec (.spillDone slot lg page) s = .next s) ∧
    (Memory.wf s.hbm = true → s.findTransit slot.toNat lg.toNat page.toNat false = some x → done → x.freed = false →
      ∃ t, exec (.fetchBackDone slot lg page) s = .next t ∧ t.sch.transits = s.sch.transits.filter (fun z => z ≠ x) ∧
        t.pte x.slot x.lg x.page = mkPte pteResident false 0 x.frame ∧ t.fld PG_STATUS.FETCHES = min 65535 (s.fld PG_STATUS.FETCHES + 1)) ∧
    (s.findTransit slot.toNat lg.toNat page.toNat false = some x → ¬ done → exec (.fetchBackDone slot lg page) s = .next s) ∧
    ((∀ n, n < 20 → s.poolCount n = 0 ∨ s.fld PG_CFG.HIGH ≤ s.freeFrames n) → s.seqsInOrder (fun q => q.state = .resuming) = [] →
      s.seqsInOrder (fun q => q.state = .preempted && !q.byPod) = y :: ys →
      let u := s.searchTables.setSlot y.1 { y.2 with state := .resuming }
      exec .resumeSequence s = .next (u.fetchSlot y.1) ∧
        ((∀ l p, pteState (u.pte y.1 l p) ≠ pteSpilled) → ∃ t, exec .resumeSequence s = .next t ∧ (t.slotOf y.1).state = .resuming ∧
          (t.slotOf y.1).seqId = y.2.seqId ∧ (∀ k, k ≠ y.1 → t.slotOf k = s.slotOf k) ∧ t.hbm = s.hbm)) ∧
    ((∃ n, n < 20 ∧ s.poolCount n ≠ 0 ∧ s.freeFrames n < s.fld PG_CFG.HIGH) → exec .resumeSequence s = .next s)

/-- SPILL_REQ lends a frame or refuses; SPILL_ACK, PAGE_DATA, FETCH_REQ and FREE between devices (R499, R512 to R514, R567). Where
the spec leaves a point open, the model's choices stand in log entries 48, 145. That an event whose condition does not hold leaves
the state as it was is log entry 6. -/
def Obligations.PagesBetweenDevices : Prop :=
  ∀ (dev : BitVec 8) (va : BitVec 42) (frame : BitVec 32) (d : List Byte) (s : State) (x : Transit) (n f : Nat),
    let lent := (s.sch.frames.filter fun e => match e.2 with | .lent _ => true | .page _ _ _ => false).length
    (∀ p, (List.range 20).find? (fun n => (s.lowestFrame n).isSome) = some n → s.lowestFrame n = some f → lent < s.fld PG_SPILL_CFG.LEND →
      s.workingPort dev.toNat = some p →
      ∃ t m, exec (.spillReq dev va) s = .next t ∧ (f, FrameUse.lent dev.toNat) ∈ t.sch.frames ∧
        (t.port p).svcOut = (s.port p).svcOut ++ [m] ∧ m.type.toNat = stSpillAck ∧ m.arg = BitVec.ofNat 64 f ∧ t.hbm = s.hbm) ∧
    (∀ p, ((∀ n, n < 20 → s.lowestFrame n = none) ∨ s.fld PG_SPILL_CFG.LEND ≤ lent) → s.workingPort dev.toNat = some p →
      ∃ t m, exec (.spillReq dev va) s = .next t ∧ t.sch = s.sch ∧ (t.port p).svcOut = (s.port p).svcOut ++ [m] ∧
        m.type.toNat = stSpillAck ∧ m.arg.getLsbD 63 = true) ∧
    (s.sch.transits.find? (fun t => t.out && !t.host && !t.moved && t.dev = dev.toNat) = some x →
      ∃ t, exec (.spillAck dev frame false) s = .next t ∧ t.sch.frames = s.sch.frames ∧ t.sch.slots = s.sch.slots ∧
        t.sch.transits = s.sch.transits.map fun z => if z = x then { x with moved := true, remote := frame.toNat } else z) ∧
    (s.sch.transits.find? (fun t => t.out && !t.host && !t.moved && t.dev = dev.toNat) = none →
      ∀ r, exec (.spillAck dev frame r) s = .next s) ∧
    (let mine := s.sch.frames.find? (fun e => e.1 = frame.toNat) = some (f, .lent dev.toNat)
     let back := s.sch.transits.find? (fun t => !t.out && !t.host && !t.moved && t.dev = dev.toNat && t.remote = frame.toNat)
     let held := fun (t : State) (a : Nat) => memBytes t.hbm a (d.take 65536).length = d.take 65536 ∧
       ∀ b, b < a ∨ a + (d.take 65536).length ≤ b → memRead t.hbm b = memRead s.hbm b
     (Memory.wf s.hbm = true → back = some x → ∃ t, exec (.pageData dev frame d) s = .next t ∧ held t (x.frame * 65536) ∧
       t.sch.transits = s.sch.transits.map fun z => if z = x then { x with moved := true } else z) ∧
     (Memory.wf s.hbm = true → back = none → mine → ∃ t, exec (.pageData dev frame d) s = .next t ∧ held t (f * 65536) ∧ t.sch = s.sch) ∧
     (∀ p, mine → s.workingPort dev.toNat = some p → ∃ t m, exec (.fetchReq dev frame) s = .next t ∧ t.sch = s.sch ∧ t.hbm = s.hbm ∧
       (t.port p).svcOut = (s.port p).svcOut ++ [m] ∧ m.type.toNat = stPageData ∧ m.payload = s.hbmTaken (f * 65536) 65536 ∧
       ((∀ k, k < 8192 → s.hbmWordMeta (f * 65536 + 8 * k) = {}) → m.payload = memBytes s.hbm (f * 65536) 65536)) ∧
     (mine → s.sch.waiting = [] → ∃ t, exec (.freeFrame dev frame) s = .next t ∧ t.sch.frames = s.sch.frames.filter (fun e => e.1 ≠ f) ∧
       t.sch.slots = s.sch.slots ∧ t.hbm = s.hbm))

/-! ## Psiud -/

/-- The states of a port: training, qualification, sparing, failure and the commands (R540 to R542, R547, R548, R573, R575, R576,
R579, R580, R634). A training or retraining that completes after its 50 ms leaves the port failed (log entry 64), and DOWN acts from
every state, a failed port and a fresh link among them (DEDUCED, log entry 109). Where the spec leaves a point open, the model's choices
stand in log entries 63, 64, 65, 109, 122; that an event a port's state does not allow is without effect is log entry 6. -/
def Obligations.PortStates : Prop :=
  ∀ (p lane : BitVec 4) (tx : Bool) (peerDev : BitVec 6) (peerPort : BitVec 4) (laser : BitVec 16) (lanes : List LaneRun) (s : State),
    let n := p.toNat
    let st := s.portState n
    let spare := if tx then PSIUD_LANES.TX_SPARE n else PSIUD_LANES.RX_SPARE n
    let known := s.pod.peer n = some (peerDev.toNat, peerPort.toNat)
    let inTime := s.time.ticks ≤ (s.port n).trainBy
    let to_ := fun (i : Instr) (x : Nat) => ∃ t, exec i s = .next t ∧ t.portState n = x ∧ (t.port n).unacked = (s.port n).unacked
    (st = psUp → s.fld spare = 0x1F → ∃ t, exec (.laneSpare p tx lane) s = .next t ∧ t.fld spare = lane.toNat ∧
      t.flag (PSIUD_STAT.SPARED n) = true ∧ (t.port n).swapping = true ∧ t.portState n = psUp ∧ (t.port n).unacked = (s.port n).unacked) ∧
    (st = psUp → s.fld spare ≠ 0x1F → ∃ t, exec (.laneSpare p tx lane) s = .next t ∧ t.portState n = psRetraining ∧
      t.fld spare = 0x1F ∧ (t.port n).unacked.map (·.flit) = (s.port n).unacked.map (·.flit) ∧
      (t.port n).trainBy = s.time.ticks + 35000000 ∧ ∃ more, t.out = s.out ++ more ++ [.portIdentity n s.pod.dev]) ∧
    (st ≠ psUp → exec (.laneSpare p tx lane) s = .next s) ∧
    ((s.port n).swapping = true → ∃ t, exec (.laneSwapDone p) s = .next t ∧ (t.port n) = { s.port n with swapping := false } ∧
      t.bar0 = s.bar0) ∧
    (st ≠ psDown → st ≠ psFailed → ∃ t, exec (.laserLow p lane) s = .next t ∧ t.portState n = psFailed ∧
      getBits (t.reg (PSIUD_STAT.off n)) (8 + lane.toNat) (8 + lane.toNat) = 0 ∧
      ∀ c, c < 64 → (s.txState n c ≠ State.txDisabled → t.txState n c = State.txHalted) ∧ (s.rxState n c ≠ State.rxDisabled → t.rxState n c = State.rxHalted)) ∧
    (st = psTraining → inTime → laser = 0xFFFF → known → to_ (.trainingComplete p peerDev peerPort laser) psQualifying) ∧
    (st = psRetraining → inTime → laser = 0xFFFF → known → to_ (.trainingComplete p peerDev peerPort laser) psUp) ∧
    ((st = psTraining ∨ st = psRetraining) → inTime → laser = 0xFFFF → ¬ known → to_ (.trainingComplete p peerDev peerPort laser) psMiswired) ∧
    ((st = psTraining ∨ st = psRetraining) → inTime → laser ≠ 0xFFFF → to_ (.trainingComplete p peerDev peerPort laser) psFailed) ∧
    ((st = psTraining ∨ st = psRetraining) → ¬ inTime → to_ (.trainingComplete p peerDev peerPort laser) psFailed) ∧
    (st ≠ psTraining → st ≠ psRetraining → exec (.trainingComplete p peerDev peerPort laser) s = .next s) ∧
    (st = psQualifying → to_ (.qualificationDone p lanes) (if lanes.length = 32 ∧
        ∀ x ∈ lanes, 100 * x.errors < 224 * s.fld (PSIUD_LINK_CFG.QUAL_MS n) ∧ x.worst ≤ 6
      then psUp else psFailed)) ∧
    (st ≠ psQualifying → exec (.qualificationDone p lanes) s = .next s) ∧
    ((st = psTraining ∨ st = psRetraining) → (s.port n).trainBy ≤ s.time.ticks → to_ (.portFailed p) psFailed) ∧
    (s.time.ticks < (s.port n).trainBy → exec (.portFailed p) s = .next s) ∧
    ((st = psDown ∨ st = psFailed) → (s.pod.peer n).isSome = true → s.time.failed = true → exec (.train p) s = .next s) ∧
    ((st = psDown ∨ st = psFailed) → (s.pod.peer n).isSome = true → s.time.failed = false →
      ∃ t more, exec (.train p) s = .next t ∧ t.portState n = psTraining ∧ t.out = s.out ++ more ++ [.portIdentity n s.pod.dev] ∧
      (t.port n).unacked = [] ∧ (t.port n).base = 0 ∧ (t.port n).expect = 0 ∧ (t.port n).trainBy = s.time.ticks + 35000000 ∧
      t.fld (PSIUD_LANES.TX_SPARE n) = 0x1F ∧ t.fld (PSIUD_LANES.RX_SPARE n) = 0x1F) ∧
    (st ≠ psDown → st ≠ psFailed → ∃ t, exec (.train p) s = .next t ∧ t.flag (PSIUD_STAT.CMD_REFUSED n) = true ∧ t.portState n = st ∧
      t.ports = s.ports) ∧
    to_ (.down p) psDown ∧
    (let idle := ∀ c, c < 64 → s.txState n c = State.txDisabled ∧ s.rxState n c = State.rxDisabled
     (st = psUp → idle → to_ (.qualify p) psQualifying) ∧
     (¬ (st = psUp ∧ idle) → ∃ t, exec (.qualify p) s = .next t ∧ t.flag (PSIUD_STAT.CMD_REFUSED n) = true ∧ t.portState n = st ∧
       t.ports = s.ports))

/-- The commands and registers of a Psiud channel, announces, and PSIUD_POD (R555, R558, R582 to R585). Where the spec leaves a
point open, the model's choices stand in log entries 68, 69, 122, 124. That an event whose condition does not hold leaves the state
as it was is log entry 6. -/
def Obligations.PsiudChannels : Prop :=
  ∀ (p : BitVec 4) (c : BitVec 6) (size : BitVec 20) (v : BitVec 64) (r : PsiudReg) (s : State),
    let n := p.toNat
    let i := c.toNat
    let tx := fun (x : State) => x.fld (PSIUD_TX_STAT.STATE n i)
    let rx := fun (x : State) => x.fld (PSIUD_RX_STAT.STATE n i)
    (s.time.failed = true → tx s = State.txDisabled → rx s = State.rxDisabled →
      exec (.txEnable p c) s = .next s ∧ exec (.rxEnable p c) s = .next s) ∧
    (tx s = State.txDisabled → s.time.failed = false → ∃ t, exec (.txEnable p c) s = .next t ∧
      tx t = (if s.fld (PSIUD_TX_STAT.RING n i) = 0 then State.txAwaiting else State.txRunning) ∧ rx t = rx s ∧ t.ports = s.ports) ∧
    (tx s ≠ State.txDisabled → exec (.txEnable p c) s = .next s) ∧
    (∃ t, exec (.txDisable p c) s = .next t ∧ tx t = State.txDisabled ∧ t.txChan n i = {} ∧ t.rxChan n i = s.rxChan n i ∧ rx t = rx s) ∧
    (let clash := s.ringClash n i (s.fld (PSIUD_RX_CFG.BASE n i)) (s.fld (PSIUD_RX_CFG.SIZE n i))
     (rx s = State.rxDisabled → s.time.failed = false → clash = true → ∃ t, exec (.rxEnable p c) s = .next t ∧
      t.flag (PSIUD_STAT.CMD_REFUSED n) = true ∧ rx t = State.rxDisabled ∧ t.ports = s.ports) ∧
     (rx s = State.rxDisabled → s.time.failed = false → clash = false → ∃ t, exec (.rxEnable p c) s = .next t ∧ rx t = State.rxRunning ∧ (t.rxChan n i).ring = [] ∧
      (t.rxChan n i).credit = s.fld (PSIUD_RX_DRAIN.CINIT n i) ∧
      (t.port n).announce = (s.port n).announce ++ [(c, 512 * s.fld (PSIUD_RX_CFG.SIZE n i))] ∧ t.txChan n i = s.txChan n i)) ∧
    (rx s ≠ State.rxDisabled → exec (.rxEnable p c) s = .next s) ∧
    (∃ t, exec (.rxDisable p c) s = .next t ∧ rx t = State.rxDisabled ∧ t.rxChan n i = {} ∧
      (t.port n).announce = (s.port n).announce ++ [(c, 0)] ∧ t.txChan n i = s.txChan n i ∧ tx t = tx s) ∧
    (size ≠ 0 → ∃ t, exec (.announce p c size) s = .next t ∧ t.fld (PSIUD_TX_STAT.RING n i) = size.toNat ∧
      t.fld (PSIUD_TX_STAT.CREDIT n i) = size.toNat ∧ t.fld (PSIUD_TX_STAT.TAIL n i) = 0 ∧
      tx t = (if tx s = State.txAwaiting then State.txRunning else tx s) ∧ t.ports = s.ports) ∧
    (size = 0 → ∃ t, exec (.announce p c size) s = .next t ∧ t.fld (PSIUD_TX_STAT.RING n i) = 0 ∧
      tx t = (if tx s = State.txDisabled then State.txDisabled else State.txHalted) ∧ t.ports = s.ports) ∧
    (r ≠ .txCfg → rx s ≠ State.rxDisabled → ∃ t, exec (.psiudChannelWrite p c r v) s = .next t ∧
      t.flag (PSIUD_STAT.CMD_REFUSED n) = true ∧ t.reg (State.psRegOff r n i) = s.reg (State.psRegOff r n i) ∧ t.ports = s.ports) ∧
    (r = .txCfg → tx s ≠ State.txDisabled → ∃ t, exec (.psiudChannelWrite p c r v) s = .next t ∧
      t.flag (PSIUD_STAT.CMD_REFUSED n) = true ∧ t.reg (State.psRegOff r n i) = s.reg (State.psRegOff r n i) ∧ t.ports = s.ports) ∧
    (r = .rxRows → rx s = State.rxDisabled → ∃ t, exec (.psiudChannelWrite p c r v) s = .next t ∧
      t.fld (PSIUD_RX_ROWS.ROW_BASE n i) = getBits v 63 48 ∧ t.fld (PSIUD_RX_ROWS.MSGS n i) = getBits v 15 0 ∧ t.ports = s.ports) ∧
    (r = .rxTime → rx s = State.rxDisabled → ∃ t, exec (.psiudChannelWrite p c r v) s = .next t ∧ t.reg (State.psRegOff r n i) = v) ∧
    ((∀ k, k < 16 → s.portState k = psDown) → ∃ t, exec (.psiudPodWrite v) s = .next t ∧ t.fld PSIUD_POD.DEV = getBits v 5 0 ∧
      t.flag PSIUD_POD.DOUBLE = v.getLsbD 21 ∧ t.ports = s.ports) ∧
    ((∃ k, k < 16 ∧ s.portState k ≠ psDown) → exec (.psiudPodWrite v) s = .next s)

/-- LINK_FLIT_RECEIVE counts the codewords that the FEC could not correct, accepts the expected flit, answers a bad or later one
with one NAK, takes acknowledgements, and hears at once what another device preempts; NAK and REPLAY_TIMEOUT start a replay;
SERVICE_FORWARD sends a message on (R544 to R547, R516, R550 to R552, R568, R569, R581). Where the spec leaves a point open, the
model's choices stand in log entries 33, 66, 107, 108. That an event whose condition does not hold leaves the state as it was is log
entry 6. -/
def Obligations.FlitsArrive : Prop :=
  ∀ (p : BitVec 4) (b : BitVec 2048) (fec : FecReport) (news : List PodNews) (ack : BitVec 12) (s : State),
    let n := p.toNat
    let k := s.port n
    (s.portCarries n = false → exec (.linkFlitReceive p ⟨b, fec, news⟩) s = .next s ∧ exec (.nak p ack) s = .next s ∧
      exec (.replayTimeout p) s = .next s) ∧
    (s.portCarries n = true → PFlit.decode b = none → ∃ t, exec (.linkFlitReceive p ⟨b, fec, news⟩) s = .next t ∧ (t.port n).nakSent = true ∧
      t.fld (PSIUD_ERR.FEC_UNCORR n) = min (2 ^ ((PSIUD_ERR.FEC_UNCORR n).hi + 1 - (PSIUD_ERR.FEC_UNCORR n).lo) - 1)
        (s.fld (PSIUD_ERR.FEC_UNCORR n) + fec.lost.toNat) ∧
      (t.port n).expect = k.expect ∧ (t.port n).unacked = k.unacked ∧ (k.nakSent = true → t.out = s.out) ∧
      (k.nakSent = false → ∃ f : PFlit, t.out = s.out ++ [.psiud n f.encode] ∧ f.type = ftNak ∧ f.ack = k.expect)) ∧
    (∀ f : PFlit, s.portCarries n = true → PFlit.decode b = some f → f.type = ftIdle → (f.ack - k.base).toNat ≤ k.unacked.length →
      ∃ t, exec (.linkFlitReceive p ⟨b, fec, news⟩) s = .next t ∧ (t.port n).base = f.ack ∧
        (t.port n).unacked = k.unacked.drop (f.ack - k.base).toNat ∧ (t.port n).expect = k.expect ∧
        ∀ i, news = [.preempted i] → s.schRole ≠ 0 →
          ((s.slotOf i.toNat).state = .prefill ∨ (s.slotOf i.toNat).state = .decode) →
          (t.slotOf i.toNat).state = .preempted ∧ (t.slotOf i.toNat).former = (s.slotOf i.toNat).state ∧
          (t.slotOf i.toNat).byPod = true) ∧
    (∀ (f : PFlit) h, s.portCarries n = true → PFlit.decode b = some f → f.type = ftData → f.seq = k.expect → f.first = true → f.last = true →
      f.payload.head? = some h → s.rxState n f.ch.toNat = State.rxRunning → (s.rxChan n f.ch.toNat).step = none →
      (∀ y ∈ (s.rxChan n f.ch.toNat).ring.head?, ∃ m, y = .msg m) →
      let len := (h.1.extractLsb' 0 32).toNat
      let x := State.place (s.rxSize n f.ch.toNat) (s.rxChan n f.ch.toNat).tail (2 + (len + 7) / 8)
      x.1 = 0 →
      ∃ t m, exec (.linkFlitReceive p ⟨b, fec, news⟩) s = .next t ∧ (t.port n).expect = k.expect + 1 ∧ (t.port n).nakSent = false ∧
        (t.rxChan n f.ch.toNat).ring = (s.rxChan n f.ch.toNat).ring ++ [.msg m] ∧ (t.rxChan n f.ch.toNat).tail = x.2 ∧ m.complete = true ∧
        m.len = len ∧ m.tag = h.1.extractLsb' 32 32 ∧ m.size = 2 + (len + 7) / 8 ∧ m.words.length = f.payload.length ∧
        ∀ i, 2 ≤ i → m.words[i]? = f.payload[i]?) ∧
    (∀ f : PFlit, s.portCarries n = true → PFlit.decode b = some f → (f.type = ftData ∨ f.type = ftService ∨ f.type = ftAnnounce) →
      f.seq ≠ k.expect → (f.seq - k.expect).toNat < 2048 → ∃ t, exec (.linkFlitReceive p ⟨b, fec, news⟩) s = .next t ∧
        (t.port n).expect = k.expect ∧ (t.port n).nakSent = true ∧ (t.port n).rx = k.rx) ∧
    (let m := (ack - k.base).toNat
     s.portCarries n = true → m < k.unacked.length → (∀ u ∈ k.unacked.drop m, u.sends ≤ s.fld (PSIUD_LINK_CFG.REPLAY_LIMIT n)) →
      ∃ t, exec (.nak p ack) s = .next t ∧ (t.port n).replay = some 0 ∧ (t.port n).base = ack ∧ (t.port n).unacked = k.unacked.drop m ∧
        t.portState n = psUp) ∧
    (s.portCarries n = true → k.unacked ≠ [] → k.ackTick + 2048 ≤ s.time.ticks →
      ((∀ u ∈ k.unacked, u.sends ≤ s.fld (PSIUD_LINK_CFG.REPLAY_LIMIT n)) → ∃ t, exec (.replayTimeout p) s = .next t ∧
        (t.port n).replay = some 0 ∧ (t.port n).unacked = k.unacked ∧ t.portState n = psUp) ∧
      ((∃ u ∈ k.unacked, s.fld (PSIUD_LINK_CFG.REPLAY_LIMIT n) < u.sends) → ∃ t, exec (.replayTimeout p) s = .next t ∧
        t.portState n = psRetraining)) ∧
    (k.svcIn = [] → exec (.serviceForward p) s = .next s) ∧
    (∀ m rest q, k.svcIn = m :: rest → s.workingPort m.dst.toNat = some q → ∃ t, exec (.serviceForward p) s = .next t ∧
      (t.port n).svcIn = rest ∧ (t.port q).svcOut = (s.port q).svcOut ++ [{ m with hops := m.hops + 1 }] ∧ t.out = s.out)

/-- MESSAGE_SEND begins a message once its credit is held, and sends an idle flit where nothing else can leave; MESSAGE_DRAIN
injects the next flit of a drained message; DRAIN_INSTANT and RX_DEADLINE, which judges its tick once that is over (R552, R554,
R559, R561, R563, R564). Where the spec leaves a point open, the model's choices stand in log entries 28, 70, 71. That an event
whose condition does not hold leaves the state as it was is log entry 6. -/
def Obligations.MessagesMove : Prop :=
  ∀ (p : BitVec 4) (c : BitVec 6) (s : State),
    let n := p.toNat
    let i := c.toNat
    let k := s.port n
    (s.portCarries n = false → ∀ ch, exec (.messageSend p ch) s = .next s) ∧
    (s.portCarries n = true → k.replay = none → k.unacked.length < 2048 → k.announce = [] → k.svcSend = none → k.svcOut = [] →
      (∃ (t : State) (f : PFlit), exec (.messageSend p none) s = .next t ∧ t.out = s.out ++ [.psiud n f.encode] ∧ f.type = ftIdle ∧ f.ack = k.expect ∧
        (t.port n).unacked = k.unacked) ∧
      (∀ r rs, s.txState n i = State.txRunning → (s.txChan n i).queue = r :: rs → (s.txChan n i).sent = 0 →
        let rows := s.fld (PSIUD_TX_CFG.MROWS_M1 n i) + 1
        let size := 2 + 4 * rows
        let x := State.place (s.fld (PSIUD_TX_STAT.RING n i)) (s.fld (PSIUD_TX_STAT.TAIL n i)) size
        2 * size - 1 ≤ s.fld (PSIUD_TX_STAT.RING n i) → x.1 + size ≤ s.fld (PSIUD_TX_STAT.CREDIT n i) →
        ∃ (t : State) (f : PFlit) (y : SentFlit), exec (.messageSend p (some c)) s = .next t ∧ t.out = s.out ++ [.psiud n f.encode] ∧ f.type = ftData ∧ f.ch = c ∧
          f.first = true ∧ f.last = decide (rows ≤ min 7 (r :: rs).length) ∧ f.payload.length = 2 + 4 * min (min 7 (r :: rs).length) rows ∧
          f.seq = k.base + BitVec.ofNat 12 k.unacked.length ∧ f.ack = k.expect ∧ (t.port n).unacked = k.unacked ++ [y] ∧ y.flit = f ∧
          t.fld (PSIUD_TX_STAT.CREDIT n i) = s.fld (PSIUD_TX_STAT.CREDIT n i) - (x.1 + size) ∧
          t.fld (PSIUD_TX_STAT.TAIL n i) = x.2 % 2 ^ 20)) ∧
    (∀ m rest, (s.rxChan n i).ring = .msg m :: rest → s.rxState n i = State.rxRunning → s.fld (PSIUD_RX_CFG.CONSUMER n i) ≠ 2 →
      s.flag (PSIUD_RX_CFG.MODE n i) = false → s.rxMayDrain n i (s.rxChan n i) m = true → s.rxMayInject n i = true →
      let fl := (s.rxChan n i).flits
      let eport := s.fld (PSIUD_RX_DRAIN.EPORT n i)
      let core := eportCore n eport
      let rp := s.rxRow n i (fl / 2)
      (∀ st, (s.rxChan n i).step = some st → s.time.almanac ≤ st.dueAt ∨ st.late = true ∨
        s.fld (PSIUD_RX_ROWS.MSGS n i) ≤ st.drained + State.completeOf (s.rxChan n i).ring st.step.toNat) →
      (fl % 2 = 0 → 1 ≤ (s.rxChan n i).credit + s.creditsDue (.psiud n i)) →
      ∃ t f, exec (.messageDrain p c 0) s = .next t ∧
        t.plane.mesh.links = s.plane.mesh.links ++ [⟨core, eportSide n eport, s.total (groveOf core) + 1, f⟩] ∧
        f.w0 = ((m.words[2 + 2 * fl]?).getD (0, false)).1 ∧ f.w1 = ((m.words[2 + 2 * fl + 1]?).getD (0, false)).1 ∧
        f.last = decide (fl % 2 = 1) ∧ f.side = State.inletSide rp.1 rp.2 (fl % 2) ∧ t.plane.cores = s.plane.cores ∧ t.hbm = s.hbm) ∧
    (∀ st, (s.rxChan n i).step = some st →
      (st.drainAt ≤ s.time.almanac → ∃ t, exec (.drainInstant p c) s = .next t ∧
        t.rxChan n i = { s.rxChan n i with step := some { st with begun := true } } ∧ t.bar0 = s.bar0) ∧
      (s.time.almanac < st.drainAt → exec (.drainInstant p c) s = .next s) ∧
      (let here := st.drained + State.completeOf (s.rxChan n i).ring st.step.toNat
       (st.dueAt < s.time.almanac → here < s.fld (PSIUD_RX_ROWS.MSGS n i) → st.late = false →
         ∃ t st', exec (.rxDeadline p c) s = .next t ∧ (t.rxChan n i).step = some st' ∧ st'.late = true ∧
           t.se.notices = s.se.notices ++ [⟨0xFFFF, 3, st.step.toNat * 2 ^ 16 + here, st.dueAt, none⟩] ∧
           t.fld (PSIUD_RX_STAT.LATE n i) = min 65535 (s.fld (PSIUD_RX_STAT.LATE n i) + 1)) ∧
       ((s.time.almanac ≤ st.dueAt ∨ s.fld (PSIUD_RX_ROWS.MSGS n i) ≤ here) → exec (.rxDeadline p c) s = .next s)))

/-! ## Reset and whole-machine rules -/

/-- The block at power-on reset: nothing waits, nothing has been sent, HBM lists nothing, every BAR0 register holds the
reset values of its fields, and cores, hampers and groves are as their chapters give them. That no command waits and
that a fresh HBM byte reads as 0 are the model's choices (log entries 3, 5). -/
def Obligations.ResetState : Prop :=
  let s := State.reset
  s.pending = [] ∧ s.out = [] ∧ s.hbm = [] ∧ s.time.almanac = 0 ∧ s.plane.svc = [] ∧ s.plane.abort = none ∧
  Memory.wf s.hbm = true ∧ Memory.wf s.boot.buffer = true ∧ s.bar0 = [] ∧ (∀ off, s.reg off = resetOf off) ∧
  (∀ n, n < 20 → s.fld (SE_ID.STACK n) = n) ∧ s.fld CP_WD_CFG.LOG2 = 20 ∧ s.flag CP_WD_CFG.EN = true ∧
  s.fld SVC_CFG.TIMEOUT = 0x10000 ∧ s.fld ALM_SCALE.OWN = 0x10000 ∧ s.reg CLK_GATE_FIELD.off = 15 ∧
  (∀ k, k < 4 → s.reg (CLK_GATE_GROVE.off k) = 0xFFFFFFFFFFFFFFFF) ∧ s.flag HIF_STATUS.READY = false ∧
  (∀ c, (s.core c).en = true ∧ (s.core c).vl = 32 ∧ (s.core c).status = 0 ∧ (s.core c).flags = 0 ∧
    (∀ m, (s.core c).mask m = 0xFFFFFFFF) ∧ (∀ r, ((s.core c).spadRow r).tag = 0 ∧ ((s.core c).spadRow r).tagOk = true) ∧
    (∀ n, n < 4 → ((s.core c).sendEnd n).credit = 8 ∧ ((s.core c).sendEnd n).type = 0) ∧
    ∀ i sl, routeValid ((s.core c).route i sl) = false) ∧
  ∀ h, (s.hamper h).state = stIdle ∧ (s.hamper h).pc = 0 ∧ (s.hamper h).holdBase = 0 ∧ (s.hamper h).iq = [] ∧
    ∀ n, (s.hamper h).scalar n = 0

/-- The keys of a table rise, so that no key is listed twice. -/
def Sys2Proof.Claims.Rising {α : Type} (m : SMap α) : Prop := m.Pairwise fun a b => a.1 < b.1

/-- A state whose memories and register table are in their canonical form. -/
def Sys2Proof.Claims.MemoriesOk (s : State) : Prop :=
  Memory.wf s.hbm = true ∧ Memory.wf s.boot.buffer = true ∧ Rising s.bar0

/-- Whatever command a step takes, HBM, the image buffer and the table of BAR0 registers keep their canonical form. -/
def Obligations.MemoryStaysCanonical : Prop := ∀ s t : State, MemoriesOk s → step s = .next t → MemoriesOk t

/-- No command changes the queue of waiting commands, and none takes back what has been sent: what the model's own queue and list
of outputs are is its choice (log entry 8), and no rule of the spec. -/
def Obligations.QueueAndOutputFrame : Prop :=
  ∀ (c : Instr) (s t : State), exec c s = .next t → t.pending = s.pending ∧ s.out <+: t.out

/-! ## The host's accesses -/

/-- REGISTER_WRITE: before READY a host's write above the bring-up registers is discarded, as is one that no block defines
an offset for; read-only fields keep their value, written fields take it, W1C bits clear unless hardware has set them in the same tick
(R11), RWS fields keep their value but
for the lifeguard, a reserved encoding leaves its field as it was, and a 4-byte write leaves the register's other half
(R6, R8, R10, R13, R14, R590, R593). In D3hot, and without Memory Space Enable, the host's write is not served (log entry 60). Shown on SVC_CFG, HIF_BAR2_BASE, BOOT_CFG, SVC_STATUS, LG_TRIP, DEV_SERIAL and
CP_WD_CFG. -/
def Sys2Proof.Claims.RegisterWrites : Prop :=
  ∀ (a : Agent) (off : BitVec 26) (w : Width) (v : BitVec 64) (s : State),
    let o := off.toNat / 8 * 8
    let at_ := fun (n : Nat) => BitVec.ofNat 26 n
    let awake := s.asleep a = false
    let up := awake ∧ (a = .host → s.flag HIF_STATUS.READY = true)
    let was := s.setInTick SVC_STATUS.off
    (s.asleep a = true → ∃ t, exec (.registerWrite a off w v) s = .next t ∧ t.bar0 = s.bar0 ∧ t.plane = s.plane ∧ t.hbm = s.hbm ∧
      (t.cfgRead 0x104).getLsbD 20 = true ∧ (t.cfgRead 0x058).getLsbD 19 = true ∧ t.out = s.out) ∧
    (awake → a = .host → s.flag HIF_STATUS.READY = false → State.takenEarly o = false →
      ∃ t, exec (.registerWrite a off w v) s = .next t ∧ SameDevice s t ∧ t.out = s.out) ∧
    (awake → bar0Defined o = false → ∃ t, exec (.registerWrite a off w v) s = .next t ∧ SameDevice s t ∧ t.out = s.out) ∧
    (up → ∃ t, exec (.registerWrite a (at_ SVC_CFG.off) .full v) s = .next t ∧ t.fld SVC_CFG.TIMEOUT = getBits v 31 0 ∧
      (∀ r, r ≠ SVC_CFG.off → t.reg r = s.reg r) ∧ t.hbm = s.hbm ∧ t.plane = s.plane) ∧
    (up → ∃ t, exec (.registerWrite a (at_ HIF_BAR2_BASE.off) .full v) s = .next t ∧ t.fld HIF_BAR2_BASE.BASE = getBits v 41 30 ∧
      (∀ r, r ≠ HIF_BAR2_BASE.off → t.reg r = s.reg r) ∧ t.hbm = s.hbm ∧ t.plane = s.plane) ∧
    (up → ∃ t, exec (.registerWrite a (at_ HIF_BAR2_BASE.off) .low v) s = .next t ∧
      getBits (t.reg HIF_BAR2_BASE.off) 41 32 = getBits (s.reg HIF_BAR2_BASE.off) 41 32 ∧
      getBits (t.reg HIF_BAR2_BASE.off) 31 30 = getBits v 31 30 ∧ t.hbm = s.hbm) ∧
    (up → ∃ t, exec (.registerWrite a (at_ HIF_BAR2_BASE.off) .high v) s = .next t ∧
      getBits (t.reg HIF_BAR2_BASE.off) 41 32 = getBits v 9 0 ∧
      getBits (t.reg HIF_BAR2_BASE.off) 31 30 = getBits (s.reg HIF_BAR2_BASE.off) 31 30 ∧ t.hbm = s.hbm) ∧
    (awake → ∃ t, exec (.registerWrite a (at_ BOOT_CFG.off) .full v) s = .next t ∧
      t.fld BOOT_CFG.LINK_RETRY = (if getBits v 15 8 = 0 then s.fld BOOT_CFG.LINK_RETRY else getBits v 15 8) ∧
      t.fld BOOT_CFG.MEMTEST = (if 2 ≤ getBits v 1 0 then s.fld BOOT_CFG.MEMTEST else getBits v 1 0) ∧
      ∀ r, r ≠ BOOT_CFG.off → t.reg r = s.reg r) ∧
    (up → ∃ t, exec (.registerWrite a (at_ SVC_STATUS.off) .full v) s = .next t ∧
      (v.getLsbD 2 = true → t.flag SVC_STATUS.REFUSED = (s.flag SVC_STATUS.REFUSED && was.getLsbD 2)) ∧
      (v.getLsbD 2 = false → t.flag SVC_STATUS.REFUSED = s.flag SVC_STATUS.REFUSED) ∧
      (v.getLsbD 1 = true → t.flag SVC_STATUS.TIMEOUT = (s.flag SVC_STATUS.TIMEOUT && was.getLsbD 1)) ∧
      (v.getLsbD 1 = false → t.flag SVC_STATUS.TIMEOUT = s.flag SVC_STATUS.TIMEOUT)) ∧
    (a ≠ .lifeguard → awake → ∃ t, exec (.registerWrite a (at_ LG_TRIP.off) .full v) s = .next t ∧ SameDevice s t) ∧
    (∃ t, exec (.registerWrite a (at_ DEV_SERIAL.off) .full v) s = .next t ∧ t.reg DEV_SERIAL.off = s.reg DEV_SERIAL.off) ∧
    (up → ∃ t, exec (.registerWrite a (at_ CP_WD_CFG.off) .full v) s = .next t ∧ t.flag CP_WD_CFG.EN = v.getLsbD 8 ∧
      (10 ≤ getBits v 4 0 → getBits v 4 0 ≤ 30 → t.fld CP_WD_CFG.LOG2 = getBits v 4 0) ∧
      (30 < getBits v 4 0 ∨ getBits v 4 0 < 10 → t.fld CP_WD_CFG.LOG2 = s.fld CP_WD_CFG.LOG2))

/-- BAR0_BAD_ACCESS, CONFIG_REQUEST, BAR2_READ and BAR2_WRITE (R7, R589, R590, R594 to R596). A read error whose retry succeeds
returns the data and counts the attempts; one left after the last allowed retry returns poison. What Command's enables do, and that a
write of it sends what has waited, is log entry 60. -/
def Sys2Proof.Claims.WindowAccesses : Prop :=
  ∀ (off : BitVec 26) (o2 : BitVec 41) (co : BitVec 12) (be : BitVec 4) (w : Option (BitVec 32)) (n : Nat) (wr bad : Bool)
    (fails : BitVec 4) (bs : List Byte) (s : State),
    let a := s.bar2Addr o2.toNat
    let limit := s.fld (engRetryLimit (a / 2 ^ 37))
    let more := fun (f : Fld) (k : Nat) => min (2 ^ (f.hi + 1 - f.lo) - 1) (s.fld f + k)
    let recorded := fun (t : State) => (t.cfgRead 0x104).getLsbD 20 = true ∧ (t.cfgRead 0x058).getLsbD 19 = true
    (∃ t, exec (.bar0BadAccess off n wr) s = .next t ∧ recorded t ∧ t.out = s.out ++ (if wr then [] else [.unsupported]) ∧
      t.bar0 = s.bar0 ∧ t.hbm = s.hbm ∧ t.plane = s.plane) ∧
    (s.boot.perst = true → exec (.configRequest co be w) s = .next s) ∧
    (s.boot.perst = false → s.boot.fusesIn = false → ∃ t, exec (.configRequest co be w) s = .next t ∧
      t.out = s.out ++ [.retryStatus] ∧ SameDevice s t) ∧
    (s.boot.perst = false → s.boot.fusesIn = true → ∃ t, exec (.configRequest co be none) s = .next t ∧
      t.out = s.out ++ [.readData (bytesOf 4 (s.cfgRead (co.toNat / 4 * 4)).toNat) false] ∧ SameDevice s t) ∧
    (∀ v : BitVec 32, s.boot.perst = false → s.boot.fusesIn = true → ∃ t, exec (.configRequest 0x004 0xF (some v)) s = .next t ∧
      t.cfgRead 0x004 = (((s.cfgRead 0x004 &&& ~~~0x00000546#32) ||| (v &&& 0x00000546#32)) &&& ~~~(v &&& 0xF9000000#32)) ∧
      t.hbm = s.hbm ∧ (s.reg 0x104400 = 0 → t.bar0 = s.bar0 ∧
        (s.se.hostHeld = [] → t.out = s.out) ∧
        (t.mastering = true → t.out = s.out ++ s.se.hostHeld.map (·.2) ∧ t.se.hostHeld = []) ∧
        (t.mastering = false → t.out = s.out ∧ t.se.hostHeld = s.se.hostHeld))) ∧
    ((s.flag HIF_STATUS.READY = false ∨ s.barsOff = true) →
      (∃ t, exec (.bar2Read o2 n fails) s = .next t ∧ t.out = s.out ++ [.unsupported] ∧ SameDevice s t) ∧
      ∃ t, exec (.bar2Write o2 bs bad) s = .next t ∧ recorded t ∧ t.hbm = s.hbm ∧ t.hbmMeta = s.hbmMeta ∧ t.bar0 = s.bar0 ∧ t.out = s.out) ∧
    (s.flag HIF_STATUS.READY = true → s.barsOff = false → hbmEnd < a + n → ∃ t, exec (.bar2Read o2 n fails) s = .next t ∧
      t.out = s.out ++ [.unsupported] ∧ t.flag HIF_STATUS.BAR2_RANGE = true ∧ t.hbm = s.hbm) ∧
    (s.flag HIF_STATUS.READY = true → s.barsOff = false → hbmEnd < a + bs.length → ∃ t, exec (.bar2Write o2 bs bad) s = .next t ∧ recorded t ∧
      t.flag HIF_STATUS.BAR2_RANGE = true ∧ t.hbm = s.hbm ∧ t.hbmMeta = s.hbmMeta) ∧
    (s.flag HIF_STATUS.READY = true → s.barsOff = false → a + n ≤ hbmEnd →
      (∀ k, a / 8 ≤ k → k < (a + n + 7) / 8 → s.hbmWordMeta (8 * k) = {}) → fails.toNat ≤ limit →
      ∃ t, exec (.bar2Read o2 n fails) s = .next t ∧ t.out = s.out ++ [.readData (memBytes s.hbm a n) false] ∧
        t.fld (HBM_ERR.RETRIES (a / 2 ^ 37)) = more (HBM_ERR.RETRIES (a / 2 ^ 37)) fails.toNat ∧
        t.fld (HBM_ERR.EXHAUSTED (a / 2 ^ 37)) = s.fld (HBM_ERR.EXHAUSTED (a / 2 ^ 37)) ∧
        t.hbm = s.hbm ∧ t.hbmMeta = s.hbmMeta ∧ t.plane = s.plane) ∧
    (s.flag HIF_STATUS.READY = true → s.barsOff = false → a + n ≤ hbmEnd → limit < fails.toNat →
      ∃ t x, exec (.bar2Read o2 n fails) s = .next t ∧ t.out = s.out ++ [.readData x true] ∧
        t.fld (HBM_ERR.RETRIES (a / 2 ^ 37)) = more (HBM_ERR.RETRIES (a / 2 ^ 37)) limit ∧
        t.fld (HBM_ERR.EXHAUSTED (a / 2 ^ 37)) = more (HBM_ERR.EXHAUSTED (a / 2 ^ 37)) 1 ∧ t.hbm = s.hbm ∧ t.plane = s.plane) ∧
    (s.flag HIF_STATUS.READY = true → s.barsOff = false → a + bs.length ≤ hbmEnd → Memory.wf s.hbm = true →
      ∃ t, exec (.bar2Write o2 bs bad) s = .next t ∧
        (∀ x, memRead t.hbm x = if a ≤ x ∧ x < a + bs.length then (bs[x - a]?).getD 0 else memRead s.hbm x) ∧
        (∀ k, a / 8 ≤ k → k < (a + bs.length + 7) / 8 → (t.hbmWordMeta (8 * k)).mark = bad ∧ (t.hbmWordMeta (8 * k)).err = 0) ∧
        (bad = true → (t.cfgRead 0x104).getLsbD 12 = true ∧ (t.cfgRead 0x058).getLsbD 17 = true) ∧
        t.bar0 = s.bar0 ∧ t.plane = s.plane ∧ t.out = s.out)

/-- CQ_WRITE, CQ_MOD_TIMER, RING_BASE_WRITE and PTM_DIALOG (R602, R604, R606, R607, R610, R621, R623); a completion ring is not
written while the function may send no request (log entry 60). -/
def Sys2Proof.Claims.RingsAndPtm : Prop :=
  ∀ (n : BitVec 4) (v : BitVec 64) (s : State),
    let k := s.cring n.toNat
    let size := s.cqSize n.toNat
    let m := min k.held.length (s.cqRoom n.toNat)
    let tail := (k.tail + m) % size
    (s.flag (HIF_CQ_BASE.EN n.toNat) = true → s.mastering = true → k.reread = false → m ≠ 0 → ∃ (t : State) (x : List Output), exec (.cqWrite n) s = .next t ∧
      t.out = s.out ++ ((List.range m).map fun i => .hostWrite (s.cqBase n.toNat + 64 + 32 * ((k.tail + i) % size))
          (((k.held[i]?).map (·.bytes)).getD []) false false false) ++
        [.hostWrite (s.cqBase n.toNat + 32) (bytesOf 4 tail) false false false] ++ x ∧ (x = [] ∨ x = [.msix n.toNat]) ∧
      (t.cring n.toNat).held = k.held.drop m ∧ (t.cring n.toNat).tail = tail ∧ (t.cring n.toNat).head = k.head ∧
      t.hbm = s.hbm ∧ t.plane = s.plane) ∧
    ((s.flag (HIF_CQ_BASE.EN n.toNat) = false ∨ s.mastering = false ∨ k.reread = true ∨ m = 0) → exec (.cqWrite n) s = .next s) ∧
    (k.unsig ≠ 0 → k.oldest + s.fld (HIF_CQ_MOD.TIME n.toNat) ≤ s.time.ticks → ∃ t, exec (.cqModTimer n) s = .next t ∧
      (t.cring n.toNat).unsig = 0 ∧ (t.cring n.toNat).held = k.held ∧ (t.cring n.toNat).tail = k.tail ∧ t.hbm = s.hbm) ∧
    ((k.unsig = 0 ∨ s.time.ticks < k.oldest + s.fld (HIF_CQ_MOD.TIME n.toNat)) → exec (.cqModTimer n) s = .next s) ∧
    (s.flag HIF_CTRL.SQ_EN = true → ∃ t, exec (.ringBaseWrite none v) s = .next t ∧ t.flag HIF_STATUS.CFG_REFUSED = true ∧
      t.reg HIF_SQ_BASE.off = s.reg HIF_SQ_BASE.off ∧ t.plane = s.plane) ∧
    (s.flag HIF_CTRL.SQ_EN = false → ∃ t, exec (.ringBaseWrite none v) s = .next t ∧ t.fld HIF_SQ_BASE.BASE = getBits v 63 12 ∧
      t.fld HIF_SQ_BASE.SIZE_LOG2 = (if 4 ≤ getBits v 3 0 then getBits v 3 0 else s.fld HIF_SQ_BASE.SIZE_LOG2) ∧ t.plane = s.plane) ∧
    (let moves := s.fld (HIF_CQ_BASE.BASE n.toNat) ≠ getBits v 63 12 ∨
        (4 ≤ getBits v 3 0 ∧ s.fld (HIF_CQ_BASE.SIZE_LOG2 n.toNat) ≠ getBits v 3 0)
     let turned := s.flag (HIF_CQ_BASE.EN n.toNat) = true ∧ v.getLsbD 4 = true ∧ moves
     (turned → ∃ t, exec (.ringBaseWrite (some n) v) s = .next t ∧ t.flag HIF_STATUS.CFG_REFUSED = true ∧
       t.reg (HIF_CQ_BASE.off n.toNat) = s.reg (HIF_CQ_BASE.off n.toNat)) ∧
     (¬ turned → ∃ t, exec (.ringBaseWrite (some n) v) s = .next t ∧ t.fld (HIF_CQ_BASE.BASE n.toNat) = getBits v 63 12 ∧
       t.flag (HIF_CQ_BASE.EN n.toNat) = v.getLsbD 4 ∧ t.fld (HIF_CQ_BASE.SIZE_LOG2 n.toNat) =
         (if 4 ≤ getBits v 3 0 then getBits v 3 0 else s.fld (HIF_CQ_BASE.SIZE_LOG2 n.toNat)))) ∧
    ((s.cfgRead 0x170).getLsbD 0 = true → s.ptmDue = true → ∃ t, exec (.ptmDialog v) s = .next t ∧ t.reg ALM_PTM.off = s.time.almanac ∧
      t.time.ptmAt = some (s.time.almanac, s.time.ticks) ∧
      t.reg HIF_PTM_MASTER.off = v ∧ t.fld HIF_PTM_CNT.COUNT = (s.fld HIF_PTM_CNT.COUNT + 1) % 2 ^ 32 ∧ t.plane = s.plane ∧ t.hbm = s.hbm) ∧
    (((s.cfgRead 0x170).getLsbD 0 = false ∨ s.ptmDue = false) → exec (.ptmDialog v) s = .next s)

/-- The accesses that reach the device over PCI Express. Where the spec leaves a point open, the model's choices stand in log
entries 7, 19, 60, 62, 129, 132. That an event whose condition does not hold leaves the state as it was is log entry 6. -/
def Obligations.HostAccesses : Prop := RegisterWrites ∧ WindowAccesses ∧ RingsAndPtm

/-! ## Power, bring-up, images and fuses -/

/-- The power-good inputs: PG_SAFE samples the straps, all five start bring-up, the loss of PG_SAFE is a power-off that keeps
only blown fuses and pins, and the loss of another one trips the device after READY (R701, R746, R752). What a power-off
keeps besides is the model's bookkeeping of commands, outputs and free values. An input that had been lost in LINKS has
the work of LINKS begin anew. -/
def Sys2Proof.Claims.PowerInputs : Prop :=
  ∀ (r : Rail) (straps : BitVec 3) (s : State),
    let bit := BitVec.ofNat 5 (2 ^ railBit r)
    let again := s.boot.pgs &&& bit = 0 ∧ s.boot.started = true ∧ s.boot.ready = false ∧ s.fld BOOT_STATE.STATE = bsLinks ∧
      s.boot.pgs ||| bit = 31
    let st := s.fld BOOT_STATE.STATE
    (∃ t, exec (.powerGoodAssert r straps) s = .next t ∧ t.boot.pgs = s.boot.pgs ||| bit ∧
      t.boot.straps = (if r = .safe ∧ s.boot.pgs.getLsbD 0 = false then straps else s.boot.straps) ∧
      t.boot.started = (s.boot.started || s.boot.pgs ||| bit == 31) ∧
      (s.boot.started = false → s.boot.pgs ||| bit = 31 → t.fld BOOT_STATE.STATE = 0 ∧ t.flag CLK_SRC.IOSC_OK = true) ∧
      ((s.boot.started = true ∨ s.boot.pgs ||| bit ≠ 31) → ¬ again → t.bar0 = s.bar0 ∧ t.out = s.out) ∧
      (again → t.boot.linksAt = s.time.ticks ∧ (s.time.failed = false → ∀ p, p < 16 → (s.pod.peer p).isSome = true →
        t.portState p = psTraining ∧ t.flag (PSIUD_STAT.QUAL_PASS p) = false)) ∧
      t.hbm = s.hbm ∧ t.plane = s.plane ∧ t.time = s.time) ∧
    (∃ t, exec (.powerGoodDeassert .safe) s = .next t ∧ t.bar0 = [] ∧ t.hbm = [] ∧ t.hbmMeta = [] ∧ t.cfg = [] ∧ t.plane = {} ∧
      t.time = {} ∧ t.ports = [] ∧ t.boot = { blown := s.boot.blown, perst := s.boot.perst } ∧ t.out = s.out) ∧
    (r ≠ .safe → s.boot.ready = false → ∃ t, exec (.powerGoodDeassert r) s = .next t ∧ t.boot.pgs = s.boot.pgs &&& ~~~bit ∧
      t.bar0 = s.bar0 ∧ t.hbm = s.hbm ∧ t.plane = s.plane) ∧
    (r ≠ .safe → s.boot.ready = true → s.flag LG_STATUS.TRIPPED = false → ∃ t, exec (.powerGoodDeassert r) s = .next t ∧
      t.boot.pgs = s.boot.pgs &&& ~~~bit ∧ t.flag LG_STATUS.TRIPPED = true ∧ t.power.thermTrip = true ∧ t.time.rootGated = true ∧
      t.flag HIF_STATUS.READY = false ∧ t.fld BOOT_STATE.STATE = (if st = bsReset ∨ st = bsFailed then bsFailed else bsFatal))

/-- The states of bring-up: each command acts in its own state, with all power good, and moves on or ends in FAILED; in any
other state it changes nothing (the model's choice, log entry 6; R34, R631 to R637, R641, R642, R647 to R652). That XTAL_STABLE
clears REF_LOST and that the Almanac begins at 0 is the model's choice (log entry 110). With DEBUG_LOCK loaded an instruction of the
JTAG port that it does not let act is no longer in force (R760, log entry 123). -/
def Sys2Proof.Claims.BringUp : Prop :=
  ∀ (ws : List FuseWord) (img : Option (List Byte)) (rs : List StackTest) (rows : List BadRow) (s : State),
    let at_ := fun (n : Nat) => s.bootAt n = true
    let off := fun (n : Nat) => s.bootAt n = false
    let goes := fun (i : Instr) (n : Nat) => ∃ t, exec i s = .next t ∧ t.fld BOOT_STATE.STATE = n
    let stays := fun (i : Instr) => exec i s = .next s
    let ok := fun (i : Nat) => (s.sensed ws i).isSome = true
    (at_ 0 → goes (.oscTrim ws) (if ws.all (fun w => (fuseEcc w).isSome) = true then 1 else bsFuse)) ∧ (off 0 → stays (.oscTrim ws)) ∧
    (at_ 1 → ∃ t, exec .xtalStable s = .next t ∧ t.fld BOOT_STATE.STATE = bsFuse ∧ t.flag CLK_SRC.XTAL_OK = true ∧
      t.flag CLK_SRC.REF_LOCK = true ∧ t.flag ALM_STATUS.RUNNING = true ∧ t.flag ALM_STATUS.REF_LOST = false ∧
      t.time.almanac = 0 ∧ t.time.started = true ∧ t.hbm = s.hbm) ∧ (off 1 → stays .xtalStable) ∧
    (at_ 1 → ∃ t, exec .xtalTimeout s = .next t ∧ t.fld BOOT_STATE.STATE = bsFuse ∧ t.boot.failing = beXtal) ∧ (off 1 → stays .xtalTimeout) ∧
    (at_ bsFuse → ∃ t, exec (.fuseLoad ws) s = .next t ∧ t.boot.fusesIn = true ∧ t.reg DEV_SERIAL.off = t.fuse 0 ∧
      (∀ i v, i < 32 → ¬ (23 ≤ i ∧ i ≤ 26) → s.sensed ws i = some v → t.fuse i = v) ∧
      (∀ n, n < 261 → t.fld (LG_CAL.OFFSET n) =
        lowBits 16 (signedOf 14 (Config.sensorTrim (t.fuse 30 ++ t.fuse 29 ++ t.fuse 28 ++ t.fuse 27) n).toNat)) ∧
      (s.boot.failing = 0 → (∀ i, i < 32 → ok i) → t.fld BOOT_STATE.STATE = bsVerify ∧ t.flag IMG_STAT.BUSY = true) ∧
      (∀ k, s.boot.jtag = .other k → (t.fuse 1).getLsbD 8 = true → t.boot.jtag = .idcode) ∧
      (s.boot.failing ≠ 0 → t.fld BOOT_STATE.STATE = bsFailed) ∧
      (∀ i, i < 32 → ¬ ok i → t.fld BOOT_STATE.STATE = bsFailed)) ∧ (off bsFuse → stays (.fuseLoad ws)) ∧
    (at_ bsVerify →
      (∀ bs, s.imgVerify bs = 0 → ∃ t, exec (.imageVerify (some bs)) s = .next t ∧ t.fld BOOT_STATE.STATE = bsConfig ∧
        t.flag BOOT_STATE.SAFE = (s.flag BOOT_STATE.SAFE || (s.fuse 1).getLsbD 9) ∧ t.out = s.out ++ [.flash [.read 0]] ∧
        t.boot.held = bs.take (imgLen bs) ∧ t.fld IMG_STAT.RESULT = 0 ∧ t.flag IMG_STAT.BUSY = false) ∧
      (∀ bs, s.imgVerify bs ≠ 0 → ∃ t, exec (.imageVerify (some bs)) s = .next t ∧ t.fld BOOT_STATE.STATE = bsWaitImage ∧
        t.boot.held = s.boot.held ∧ t.fld IMG_STAT.RESULT = s.imgVerify bs ∧ t.flag IMG_STAT.BUSY = false) ∧
      (∃ t, exec (.imageVerify none) s = .next t ∧ t.fld BOOT_STATE.STATE = bsWaitImage ∧ t.boot.held = s.boot.held ∧
        t.fld IMG_STAT.RESULT = beFlash)) ∧ (off bsVerify → stays (.imageVerify img)) ∧
    (at_ bsConfig → goes .configLoad
      (if (cfgRecords (imgSection s.boot.held 2)).all recordOk = true then bsHbm else bsFailed)) ∧ (off bsConfig → stays .configLoad) ∧
    (at_ bsHbm →
      (∀ n, rs.findIdx? (fun r => !r.trained) = some n → s.fld BOOT_ERR.CODE = 0 → n < 2 ^ 32 →
        ∃ t, exec (.hbmTest rs) s = .next t ∧ t.fld BOOT_STATE.STATE = bsFailed ∧ t.fld BOOT_ERR.CODE = beTrain ∧ t.fld BOOT_ERR.DETAIL = n) ∧
      (∀ n r, (rs.all (·.trained)) = true → rs[n]? = some r → 1024 < (State.stackBad n r).length →
        (∀ m x, m < n → rs[m]? = some x → (State.stackBad m x).length ≤ 1024) → s.fld BOOT_ERR.CODE = 0 → n < 2 ^ 32 →
        ∃ t, exec (.hbmTest rs) s = .next t ∧ t.fld BOOT_STATE.STATE = bsFailed ∧ t.fld BOOT_ERR.CODE = beBad ∧ t.fld BOOT_ERR.DETAIL = n) ∧
      ((rs.all (·.trained)) = true → (∀ r ∈ rs, r.bad.length ≤ 1024) → ∃ t, exec (.hbmTest rs) s = .next t ∧
        t.fld BOOT_STATE.STATE = bsSram ∧ ∀ f, f ∈ t.boot.badFrames ↔ ∃ n r, rs[n]? = some r ∧ ∃ b ∈ r.bad, f = n * 2 ^ 21 + b.toNat)) ∧
    (off bsHbm → stays (.hbmTest rs)) ∧
    (at_ bsSram → ∃ t, exec (.sramBist rows) s = .next t ∧
      t.boot.bist = rows.map (fun r => ⟨r, if r.row.toNat < 256 then .upper else .lower⟩) ∧
      (∀ k, State.badStrip s.boot.defects (rows.map (·.col.val)) = some k → t.fld BOOT_STATE.STATE = bsFailed ∧ t.boot.defects = s.boot.defects ∧
        (s.fld BOOT_ERR.CODE = 0 → t.fld BOOT_ERR.CODE = beSram ∧ t.fld BOOT_ERR.DETAIL = k)) ∧
      (State.badStrip s.boot.defects (rows.map (·.col.val)) = none → t.fld BOOT_STATE.STATE = bsLinks ∧ t.boot.linksAt = s.time.ticks ∧
        (Rising s.boot.defects → ∀ r ∈ rows, smGet 32 t.boot.defects (r.col.val / 33) = r.col.val % 33))) ∧
    (off bsSram → stays (.sramBist rows)) ∧
    (at_ bsLinks → s.time.failed = false → s.boot.linksAt + s.fld BOOT_CFG.LINK_RETRY * 700000000 ≤ s.time.ticks →
      ∃ t, exec .linkRetry s = .next t ∧ t.boot.linksAt = s.time.ticks ∧ t.fld BOOT_STATE.STATE = bsLinks ∧
        ∀ p, p < 16 → (s.pod.peer p).isSome = true → (s.portState p = psFailed ∨ s.portState p = psMiswired) → t.portState p = psTraining) ∧
    ((off bsLinks ∨ s.time.ticks < s.boot.linksAt + s.fld BOOT_CFG.LINK_RETRY * 700000000) → stays .linkRetry) ∧
    (at_ bsLinks → (∀ p, p < 16 → (s.pod.peer p).isSome = true → s.flag (PSIUD_STAT.QUAL_PASS p) = true) →
      ∃ t, exec .linksComplete s = .next t ∧ t.fld BOOT_STATE.STATE = bsReady ∧ t.flag HIF_STATUS.READY = true ∧ t.boot.ready = true ∧
        t.plane = s.plane ∧ t.hbm = s.hbm) ∧
    ((off bsLinks ∨ ∃ p, p < 16 ∧ (s.pod.peer p).isSome = true ∧ s.flag (PSIUD_STAT.QUAL_PASS p) = false) → stays .linksComplete)

/-- IMG_VERIFY_CMD, FLASH_PROGRAM, PLDM_UPDATE and FUSE_PROGRAM (R643 to R646). That the commands of a write to flash are handed
out as it begins is the model's choice (log entry 143). -/
def Sys2Proof.Claims.ImagesAndFuses : Prop :=
  ∀ (ok : Bool) (img : List Byte) (s : State),
    let push := s.pushedImage
    let goal := s.fuseGoal
    let now := (s.fuse 2, s.fuse 31)
    let may := s.bootAt bsReady = true ∧ s.boot.held ≠ [] ∧ s.boot.fused = false
    let up := s.powered = true
    let filled := memWriteBytes s.boot.buffer 0 (img.take 8388608)
    ((s.fld BOOT_STATE.STATE ≠ bsWaitImage ∨ ¬ up) → exec .imgVerifyCmd s = .next s) ∧
    (s.fld BOOT_STATE.STATE = bsWaitImage → up → s.imgVerify push = 0 → ∃ t, exec .imgVerifyCmd s = .next t ∧
      t.fld BOOT_STATE.STATE = bsConfig ∧ t.boot.held = push.take (imgLen push) ∧ t.boot.toFlash = s.flag IMG_CTRL.PROGRAM ∧ t.out = s.out) ∧
    (s.fld BOOT_STATE.STATE = bsWaitImage → up → s.imgVerify push ≠ 0 → ∃ t, exec .imgVerifyCmd s = .next t ∧
      t.fld BOOT_STATE.STATE = bsWaitImage ∧ t.fld IMG_STAT.RESULT = s.imgVerify push ∧ t.boot = s.boot) ∧
    (s.bootAt bsReady = true → s.boot.toFlash = true → s.flag IMG_STAT.FLASH_BUSY = false → ∃ t, exec (.flashProgram false) s = .next t ∧
      t.flag IMG_STAT.FLASH_BUSY = true ∧ t.out = s.out ++ [.flash (flashWrite s.boot.held)] ∧ t.boot = s.boot) ∧
    ((s.bootAt bsReady = false ∨ s.boot.toFlash = false ∨ s.flag IMG_STAT.FLASH_BUSY = true) → exec (.flashProgram false) s = .next s) ∧
    (s.flag IMG_STAT.FLASH_BUSY = true → ∃ t, exec (.flashProgram true) s = .next t ∧ t.out = s.out ∧
      t.flag IMG_STAT.FLASH_BUSY = false ∧ t.boot.toFlash = false ∧ t.boot.held = s.boot.held) ∧
    (s.flag IMG_STAT.FLASH_BUSY = false → exec (.flashProgram true) s = .next s) ∧
    ((s.boot.fusesIn = false ∨ ¬ up) → exec (.pldmUpdate img) s = .next s) ∧
    (s.boot.fusesIn = true → up → s.imgVerify img ≠ 0 → ∃ t, exec (.pldmUpdate img) s = .next t ∧ t.fld IMG_STAT.RESULT = s.imgVerify img ∧
      t.out = s.out ∧ t.boot = { s.boot with buffer := filled }) ∧
    (s.boot.fusesIn = true → up → s.imgVerify img = 0 → s.fld BOOT_STATE.STATE ≠ bsWaitImage → ∃ t, exec (.pldmUpdate img) s = .next t ∧
      t.out = s.out ++ [.flash (flashWrite (img.take (imgLen img)))] ∧ t.boot.next = some (img.take (imgLen img)) ∧
      t.boot.held = s.boot.held ∧ t.boot.buffer = filled) ∧
    (s.boot.fusesIn = true → up → s.imgVerify img = 0 → s.fld BOOT_STATE.STATE = bsWaitImage → ∃ t, exec (.pldmUpdate img) s = .next t ∧
      t.out = s.out ++ [.flash (flashWrite (img.take (imgLen img)))] ∧ t.boot.held = img.take (imgLen img) ∧ t.boot.buffer = filled ∧ t.fld BOOT_STATE.STATE = bsConfig) ∧
    (¬ may → exec (.fuseProgram ok) s = .next s) ∧
    (may → goal = now → ∃ t, exec (.fuseProgram ok) s = .next t ∧ t.boot.fused = true ∧ t.bar0 = s.bar0 ∧ t.boot.blown = s.boot.blown) ∧
    (may → goal ≠ now → ∃ t, exec (.fuseProgram false) s = .next t ∧ t.flag IMG_STAT.FUSE_FAIL = true ∧ t.fuse 2 = s.fuse 2 ∧
      t.fuse 31 = s.fuse 31 ∧ t.boot.blown = s.boot.blown) ∧
    (may → goal ≠ now → ∃ t, exec (.fuseProgram true) s = .next t ∧ t.fuse 2 = goal.1 ∧ t.fuse 31 = goal.2 ∧ t.boot.fused = true ∧
      ∀ i, i < 32 → i ≠ 2 → i ≠ 31 → t.fuse i = s.fuse i)

/-- Power inputs, bring-up, images and fuses. Where the spec leaves a point open, the
model's choices stand in log entries 2, 6, 84, 85, 86, 92, 93, 110, 122, 123, 130, 133, 134, 143. -/
def Obligations.BringUpAndImages : Prop := PowerInputs ∧ BringUp ∧ ImagesAndFuses

/-! ## Resets -/

/-- DEVICE_RESET, FLR and PERST_N: the cause is recorded, and but for a reset under way the core plane, the scheduler and
READY are cleared while fuses, time, power and scratchpad data stay; after a clock failure or a trip nothing begins; their
ends; FN_REINIT and its end (R387, R577, R591, R633, R661 to R664, R666, R667, R683). That FN_REINIT leaves a scheduler with nothing
left to deliver idle, and another one halted, is the model's choice (log entry 30). Where the spec leaves a point open, the
model's choices stand in log entries 6, 30, 81, 82, 83, 84, 85. -/
def Obligations.ResetsAndReinits : Prop :=
  ∀ (unit : BitVec 3) (index : BitVec 8) (s : State),
    let st := s.fld BOOT_STATE.STATE
    let u := unit.toNat
    let i := index.toNat
    let began := fun (t : State) (cause : Nat) =>
      t.fld BOOT_STATE.STATE = bsReset ∧ t.fld RESET_CAUSE.CAUSE = cause ∧
      (st ≠ bsReset → t.flag HIF_STATUS.READY = false ∧ t.boot.before = st ∧ t.sch = {} ∧ t.plane.svc = [] ∧
        t.time = { s.time with failed := false } ∧ t.se.selfRefresh = true ∧
        t.boot.toFlash = (s.boot.toFlash && !s.flag IMG_STAT.FLASH_BUSY) ∧ t.flag IMG_STAT.FLASH_BUSY = false ∧
        (t.flag BOOT_STATE.SAFE = (s.flag DEV_CTRL.SAFE_NEXT || (s.fuse 1).getLsbD 9)) ∧
        t.power = s.power ∧ (Rising s.bar0 → ∀ f, f < 32 → t.fuse f = s.fuse f) ∧ t.boot.blown = s.boot.blown ∧ t.boot.badFrames = s.boot.badFrames ∧
        (∀ h, t.hamper h = {}) ∧
        ∀ c r, ((t.core c).spadRow r).data = ((s.core c).spadRow r).data ∧ ((t.core c).spadRow r).tag = 0) ∧
      (st = bsReset → t.plane = s.plane ∧ t.sch = s.sch ∧ t.hbm = s.hbm ∧ ∀ r, r ≠ RESET_CAUSE.off → t.reg r = s.reg r)
    let good := (cfgRecords (imgSection s.boot.held 2)).all recordOk = true
    let may := st = bsReset ∨ s.time.rootGated = false
    (st ≠ bsReset → s.time.rootGated = true → exec .deviceReset s = .next s) ∧
    (∃ t, exec .deviceReset s = .next t ∧ (may → began t 3) ∧ t.cfg = s.cfg) ∧
    (∃ t, exec .flr s = .next t ∧ (may → began t 2) ∧ (st = bsReset → t.cfg = s.cfg) ∧
      (st ≠ bsReset → t.cfgRead 0x004 = cfgDefault 0x004 ∧ t.cfgRead 0x058 &&& 0xE0 = s.cfgRead 0x058 &&& 0xE0)) ∧
    (s.boot.ready = true → ∃ t, exec .perstNAssert s = .next t ∧
      (may → t.fld BOOT_STATE.STATE = bsReset ∧ t.fld RESET_CAUSE.CAUSE = 1) ∧ t.cfg = [] ∧ t.boot.perst = true) ∧
    (s.boot.ready = false → ∃ t, exec .perstNAssert s = .next t ∧ t.cfg = [] ∧ t.boot = { s.boot with perst := true } ∧ t.plane = s.plane ∧
      t.hbm = s.hbm) ∧
    (∃ t, exec .perstNDeassert s = .next t ∧ t = { s with boot := { s.boot with perst := false } }) ∧
    ((st ≠ bsReset ∨ s.powered = false) → exec .deviceResetDone s = .next s) ∧
    (st = bsReset → s.powered = true → s.boot.held = [] → ∃ t, exec .deviceResetDone s = .next t ∧
      t.fld BOOT_STATE.STATE = (if s.boot.before < bsConfig then s.boot.before else bsWaitImage) ∧ t.plane = s.plane) ∧
    (st = bsReset → s.powered = true → s.boot.held ≠ [] → s.boot.before ≤ bsConfig → ∃ t, exec .deviceResetDone s = .next t ∧
      t.fld BOOT_STATE.STATE = s.boot.before ∧ t.plane = s.plane ∧ t.se.selfRefresh = false) ∧
    (st = bsReset → s.powered = true → s.boot.held ≠ [] → bsConfig < s.boot.before → good → ∃ t, exec .deviceResetDone s = .next t ∧
      t.fld BOOT_STATE.STATE = (if s.boot.before ≤ bsLinks then s.boot.before else bsReady) ∧
      (bsLinks < s.boot.before → t.flag HIF_STATUS.READY = true ∧ t.boot.ready = true)) ∧
    (st = bsReset → s.powered = true → s.boot.held ≠ [] → bsConfig < s.boot.before → ¬ good → ∃ t, exec .deviceResetDone s = .next t ∧
      t.fld BOOT_STATE.STATE = bsFailed) ∧
    ((s.flag FN_REINIT.BUSY = true ∨ st = bsReset) → ∃ t, exec (.fnReinit unit index) s = .next t ∧ t.flag FN_REINIT.REFUSED = true ∧
      t.boot = s.boot ∧ t.plane = s.plane ∧ t.hbm = s.hbm) ∧
    (s.flag FN_REINIT.BUSY = false → st ≠ bsReset → u ≤ 5 → ∃ t, exec (.fnReinit unit index) s = .next t ∧
      t.flag FN_REINIT.BUSY = true ∧ t.boot.reinit = some (u, i) ∧
      (u = 1 → i < 16 → s.time.failed = false → t.portState i = (if (s.pod.peer i).isSome = true then psTraining else psDown)) ∧
      (u = 3 → s.schState ≠ schRunning → t.plane = s.plane ∧ t.sch = s.sch) ∧
      (u = 3 → s.schState = schRunning → t.schState = (if s.sch.ended = true ∨ s.sch.steps = [] then schIdle else schHalted)) ∧
      (u = 4 → ∀ g, g < 256 → State.unitGroves 4 i (BitVec.ofNat 8 g) = true → ∀ a ∈ t.plane.svc, groveOf a.core ≠ BitVec.ofNat 8 g)) ∧
    (s.boot.reinit = none → exec .fnReinitDone s = .next s) ∧
    (∀ x y, s.boot.reinit = some (x, y) → ∃ t, exec .fnReinitDone s = .next t ∧ t.flag FN_REINIT.BUSY = false ∧ t.boot.reinit = none ∧
      t.fld FN_REINIT.RESULT = (if x = 1 ∧ y < 16 ∧ t.flag (PSIUD_STAT.QUAL_PASS y) = false then 1 else 0))

/-! ## Attestation, monitoring, SMBus and JTAG -/

/-- A request over a transport is answered with `o`, after the flash commands `f` that the answer takes, and the device keeps its
state; where it does not reach the device nothing is sent (R653, R759). -/
def Sys2Proof.Claims.Answers (i : Instr) (smbus : Bool) (o : State → Output → Prop) (f : State → List Output := fun _ => []) : Prop :=
  ∀ s : State, ∃ t, exec i s = .next t ∧ t.hbm = s.hbm ∧ t.bar0 = s.bar0 ∧ t.plane = s.plane ∧ t.time = s.time ∧
    t.boot = { s.boot with smbHeld := t.boot.smbHeld } ∧
    (s.reached smbus = true → (∃ x, o s x ∧ t.out = s.out ++ f s ++ [x]) ∧ (smbus = true → t.boot.smbHeld = true)) ∧
    (s.reached smbus = false → t.out = s.out ∧ t.boot = s.boot)

/-- The SPDM requests (R653 to R655). A reply that gives or signs slot 0's chain reads the identity block of the flash, at each
reply (R638, R756; the model's choice, log entry 143). The chain, the boot ROM and signatures are of the part, nonces and the measurements of
an image that is not held are free values (log entry 1). -/
def Sys2Proof.Claims.Attestation : Prop :=
  ∀ (m asym hash signed : Bool) (slot : BitVec 4) (off len : BitVec 16) (nonce : BitVec 256) (i : BitVec 8),
    let reply := fun (r : State → SpdmReply → Prop) (s : State) (x : Output) => ∃ y, x = .spdm m y ∧ r s y
    let is := fun (y : SpdmReply) => reply fun _ x => x = y
    let part := (Config.identityChain.drop off.toNat).take len.toNat
    let digest := sha256 Config.identityChain
    let chain : List Output := [.flash [.read 0x800000]]
    Answers (.getVersion m) m (is (.version [0x13])) ∧
    Answers (.getCapabilities m) m (is (.capabilities true true true)) ∧
    Answers (.negotiateAlgorithms m asym hash) m (is (.algorithms asym hash)) ∧
    Answers (.getDigests m) m (is (.digests digest)) (fun _ => chain) ∧
    Answers (.getCertificate m slot off len) m
      (is (if slot = 0 then .certificate part (Config.identityChain.length - off.toNat - part.length) else .invalid))
      (fun _ => if slot = 0 then chain else []) ∧
    Answers (.challenge m slot nonce) m (reply fun s x =>
      (s.boot.key = false → x = .notReady) ∧ (s.boot.key = true → slot ≠ 0 → x = .invalid) ∧
      (s.boot.key = true → slot = 0 → ∃ mine : BitVec 256, x = .challengeAuth digest mine
        (Config.signature (bytesOf 32 nonce.toNat ++ digest ++ bytesOf 32 mine.toNat))))
      (fun s => if s.boot.key = true ∧ slot = 0 then chain else []) ∧
    Answers (.getMeasurements m i signed nonce) m (reply fun s x =>
      (signed = true → s.boot.key = false → x = .notReady) ∧
      ((signed = true → s.boot.key = true) → 5 < i → i ≠ 0xFF → x = .invalid) ∧
      (signed = false → i = 0 → x = .measurements 5 [] none) ∧
      (signed = false → i = 1 → x = .measurements 5 [(1, sha256 Config.bootRom)] none) ∧
      (signed = false → i = 2 → s.boot.held ≠ [] → x = .measurements 5 [(2, sha256 s.boot.held)] none) ∧
      (signed = false → i = 3 → s.boot.held ≠ [] → x = .measurements 5 [(3, sha256 (imgSection s.boot.held 2))] none) ∧
      (signed = false → i = 4 → x = .measurements 5
        [(4, sha256 (bytesOf 8 (s.fuse 1).toNat ++ bytesOf 8 (s.fuse 2).toNat ++ bytesOf 8 (s.fuse 31).toNat))] none) ∧
      (signed = true → s.boot.key = true → i = 1 → ∃ mine : BitVec 256, x = .measurements 5 [(1, sha256 Config.bootRom)]
        (some (mine, Config.signature (bytesOf 32 nonce.toNat ++ bytesOf 32 mine.toNat ++ 1 :: sha256 Config.bootRom)))))

/-- PLDM_MONITOR, ALERT_RESPONSE, SMBUS_TIMEOUT, ATTESTATION_KEY_DERIVED and JTAG_INSTRUCTION (R638, R654, R656, R759, R760). That
ATTESTATION_KEY_DERIVED acts in the HBM phase alone is DEDUCED (log entry 95); what boundary scan shifts out is a free value (log
entry 123). -/
def Sys2Proof.Claims.SidePorts : Prop :=
  ∀ (m : Bool) (n : Nat) (j : JtagInstr) (s : State),
    Answers (.pldmMonitor m .telemetry) m (fun _ x => ∃ d, x = .pldm m d) ∧
    (∃ t, exec (.pldmMonitor m .event) s = .next t ∧ t.boot.events = s.boot.events + 1 ∧ t.smbAlert = true ∧ t.out = s.out) ∧
    (s.boot.events ≠ 0 → s.reached m = true → ∃ t d, exec (.pldmMonitor m .readEvent) s = .next t ∧ t.out = s.out ++ [.pldm m d] ∧
      t.boot.events = s.boot.events - 1 ∧ t.bar0 = s.bar0 ∧ t.plane = s.plane ∧ t.hbm = s.hbm) ∧
    ((s.boot.events = 0 ∨ s.reached m = false) → exec (.pldmMonitor m .readEvent) s = .next s) ∧
    (s.boot.events ≠ 0 → s.reached true = true → ∃ t b, exec .alertResponse s = .next t ∧ t.out = s.out ++ [.smbus b] ∧
      b.toNat / 2 = 0x60 + s.boot.straps.toNat % 4 ∧ t.bar0 = s.bar0 ∧ t.hbm = s.hbm) ∧
    ((s.boot.events = 0 ∨ s.reached true = false) → exec .alertResponse s = .next s) ∧
    (exec .smbusTimeout s = .next { s with boot := { s.boot with smbHeld := false } }) ∧
    (s.bootAt bsHbm = true → exec .attestationKeyDerived s = .next { s with boot := { s.boot with key := true } }) ∧
    (s.bootAt bsHbm = false → exec .attestationKeyDerived s = .next s) ∧
    ((s.fuse 1).getLsbD 8 = true → exec (.jtagInstruction (.other n)) s = .next s) ∧
    ((∀ k, j = .other k → (s.fuse 1).getLsbD 8 = false) → ∃ t, exec (.jtagInstruction j) s = .next t ∧ t.boot.jtag = (if j = .reset then .idcode else j) ∧
      (j = .boundary → ∃ x, t.out = s.out ++ [.jtag x]) ∧
      (j ≠ .boundary → t.out = s.out ++ (if j = .idcode then [.jtag 0x01024B47] else [])) ∧ t.bar0 = s.bar0 ∧ t.plane = s.plane ∧ t.hbm = s.hbm)

/-- Attestation and the side ports. Where the spec leaves a point open, the
model's choices stand in log entries 6, 9, 95, 96, 97, 98, 99, 123, 143. -/
def Obligations.AttestationAndSidePorts : Prop := Attestation ∧ SidePorts

/-! ## Clocks, levels and the lifeguard -/

/-- LEVEL_DECISION, VR_READY, GROVE_RESTART and VR_TIMEOUT (R71, R692 to R696, R700). -/
def Sys2Proof.Claims.LevelMoves : Prop :=
  ∀ s : State,
    let p := s.power
    let st := s.fld PWR_LEVEL.STATE
    let f := s.level
    let d := s.decided
    let free_ := s.flag LG_STATUS.TRIPPED = false ∧ s.time.rootGated = false
    let late := p.vselWait = true ∧ s.flag PWR_LEVEL.VR_READY = false ∧ p.vselAt + 35000 ≤ s.time.ticks ∧ s.time.rootGated = false
    (∃ t, exec .levelDecision s = .next t ∧ t.fld LG_STATUS.LEVEL = d ∧ t.plane = s.plane ∧ t.hbm = s.hbm) ∧
    (free_ → st = lvIdle → f < d → p.stopDue = none → ∃ t, exec .levelDecision s = .next t ∧ t.power.target = d ∧
      t.power.stopDue = some (s.time.ticks + 2) ∧ t.reg PWR_LEVEL.off = s.reg PWR_LEVEL.off) ∧
    (free_ → st = lvIdle → d < f → p.stopDue = none → (p.fasterOff && s.flag LG_EVENT.VR_TIMEOUT) = false → ∃ t, exec .levelDecision s = .next t ∧
      t.power.target = d ∧ t.fld PWR_LEVEL.VSEL = d ∧ t.fld PWR_LEVEL.STATE = lvFaster ∧ t.level = f) ∧
    (free_ → st = lvIdle → d < f → p.stopDue = none → p.fasterOff = true → s.flag LG_EVENT.VR_TIMEOUT = true → ∃ t, exec .levelDecision s = .next t ∧
      t.power = s.power ∧ t.reg PWR_LEVEL.off = s.reg PWR_LEVEL.off) ∧
    (p.stopDue = none → st = lvFaster → s.time.rootGated = false → ∃ t, exec .vrReady s = .next t ∧ t.flag PWR_LEVEL.VR_READY = true ∧
      t.power.stopDue = some (s.time.ticks + 2) ∧ t.fld PWR_LEVEL.STATE = lvFaster ∧ t.plane = s.plane) ∧
    (p.stopDue = none → st = lvSlower → p.queued = none → s.time.rootGated = false → ∃ t, exec .vrReady s = .next t ∧ t.flag PWR_LEVEL.VR_READY = true ∧
      t.fld PWR_LEVEL.STATE = lvIdle ∧ t.power = { p with vselWait := false } ∧ t.plane = s.plane) ∧
    (free_ → (st = lvIdle ∨ st = lvSlower) → d = f → (p.fasterOff && s.flag LG_EVENT.VR_TIMEOUT) = false →
      ∃ t, exec .levelDecision s = .next t ∧ t.power.target = f ∧ t.power.queued = none ∧ t.power.stopDue = none ∧
      t.fld PWR_LEVEL.VSEL = f ∧ t.fld PWR_LEVEL.STATE = st ∧ t.level = f) ∧
    (p.stopDue.isSome = true → s.time.rootGated = false → (st = lvFaster ∨ st = lvSlower) → ∃ t, exec .vrReady s = .next t ∧
      t.flag PWR_LEVEL.VR_READY = true ∧ t.power.stopDue = p.stopDue ∧ t.fld PWR_LEVEL.STATE = (if st = lvSlower then lvIdle else st) ∧
      t.plane = s.plane) ∧
    (s.time.rootGated = true → ∃ t, exec .vrReady s = .next t ∧ t.flag PWR_LEVEL.VR_READY = true ∧ t.fld PWR_LEVEL.STATE = st ∧
      t.fld PWR_LEVEL.VSEL = s.fld PWR_LEVEL.VSEL ∧ t.level = f) ∧
    (st = lvStopped → s.time.rootGated = false → p.target < 8 → p.want = none → ∃ t, exec .groveRestart s = .next t ∧ t.level = p.target ∧
      t.fld PWR_LEVEL.STATE = (if f < p.target then lvSlower else lvIdle) ∧ (f < p.target → t.fld PWR_LEVEL.VSEL = p.target) ∧
      t.fld PWR_LEVEL.LAST_STOP = (s.time.ticks - p.stopAt) % 2 ^ 32 ∧ t.fld ALM_SCALE.OWN = levelScale p.target ∧
      t.time.stopped = false ∧ t.time.periods = s.time.periods + 1 ∧
      ∀ h, (t.hamper h).holdBase = (s.hamper h).holdBase + BitVec.ofNat 64 (s.time.ticks - p.stopAt)) ∧
    ((st ≠ lvStopped ∨ s.time.rootGated = true) → exec .groveRestart s = .next s) ∧
    (late → st = lvFaster → ∃ t, exec .vrTimeout s = .next t ∧
      t.flag LG_EVENT.VR_TIMEOUT = true ∧ t.fld PWR_LEVEL.VSEL = f ∧ t.fld PWR_LEVEL.STATE = lvIdle ∧ t.level = f ∧ t.power.target = f ∧ t.power.fasterOff = true) ∧
    (late → st ≠ lvFaster → ∃ t, exec .vrTimeout s = .next t ∧
      t.flag LG_EVENT.VR_TIMEOUT = true ∧ t.level = f ∧ t.fld PWR_LEVEL.STATE = st ∧ t.fld PWR_LEVEL.VSEL = s.fld PWR_LEVEL.VSEL ∧
      t.power = { p with vselWait := false, fasterOff := p.fasterOff && s.flag LG_EVENT.VR_TIMEOUT }) ∧
    (¬ late → exec .vrTimeout s = .next s)

/-- CLOCK_FAILURE and CLK_GATE_WRITE (R681 to R686, R701, R708 to R710). -/
def Sys2Proof.Claims.ClocksAndGates : Prop :=
  ∀ (c : ClockSource) (k : BitVec 2) (v : BitVec 64) (s : State),
    let st := s.fld BOOT_STATE.STATE
    let watched := ∀ g, c = .grove g → s.gated g = false ∧ s.time.rootGated = false ∧ s.time.stopped = false
    (¬ watched → exec (.clockFailure c) s = .next s) ∧
    (watched → ∃ t, exec (.clockFailure c) s = .next t ∧ t.time.rootGated = true ∧ t.fld PWR_LEVEL.STATE = lvIdle ∧
      t.power.stopDue = none ∧ t.power.want = none ∧ t.power.queued = none ∧ t.fld PWR_LEVEL.VSEL = 7 ∧ t.flag HIF_STATUS.READY = false ∧
      t.fld BOOT_STATE.STATE = (if st = bsReset ∨ st = bsFailed then bsFailed else bsFatal) ∧
      (c ≠ .crystal → c ≠ .refLoop → s.flag CLK_SRC.XTAL_OK = true → s.flag CLK_SRC.REF_LOCK = true → t.se.selfRefresh = true) ∧
      (c = .crystal → t.flag CLK_SRC.XTAL_OK = false ∧ t.flag CLK_SRC.REF_LOCK = false ∧ t.hbm = [] ∧ t.flag ALM_STATUS.RUNNING = false ∧ t.flag ALM_STATUS.REF_LOST = true) ∧
      (c = .refLoop → t.flag CLK_SRC.REF_LOCK = false ∧ t.hbm = [] ∧ t.flag ALM_STATUS.RUNNING = false ∧ t.flag ALM_STATUS.REF_LOST = true) ∧
      (c = .iosc → t.flag CLK_SRC.IOSC_OK = false) ∧
      (∀ g, c = .grove g → t.flag CLK_SRC.GROVE_OSC_FAIL = true ∧ t.fld CLK_SRC.FAILED_GROVE = g.toNat) ∧
      ((c = .crystal ∨ c = .refLoop) → s.flag CLK_SRC.IOSC_OK = false → t.power.thermTrip = true)) ∧
    (∀ i r rest, s.fieldRefusals v = (i, r) :: rest → ∃ t, exec (.clkGateWrite none v) s = .next t ∧ t.flag CLK_GATE_STAT.REFUSED = true ∧
      t.fld CLK_GATE_STAT.REASON = r % 4 ∧ t.fld CLK_GATE_STAT.INDEX = i % 256 ∧ t.reg CLK_GATE_FIELD.off = s.reg CLK_GATE_FIELD.off ∧
      t.plane = s.plane) ∧
    (s.fieldRefusals v = [] → ∃ t, exec (.clkGateWrite none v) s = .next t ∧
      t.reg CLK_GATE_FIELD.off = BitVec.ofNat 64 (getBits v 3 0) ∧ t.plane = s.plane) ∧
    (∀ i r rest, s.groveRefusals k.toNat v = (i, r) :: rest → ∃ t, exec (.clkGateWrite (some k) v) s = .next t ∧
      t.flag CLK_GATE_STAT.REFUSED = true ∧ t.fld CLK_GATE_STAT.REASON = r % 4 ∧ t.fld CLK_GATE_STAT.INDEX = i % 256 ∧
      t.reg (CLK_GATE_GROVE.off k.toNat) = s.reg (CLK_GATE_GROVE.off k.toNat) ∧ t.plane = s.plane) ∧
    (s.groveRefusals k.toNat v = [] → ∃ t, exec (.clkGateWrite (some k) v) s = .next t ∧ t.reg (CLK_GATE_GROVE.off k.toNat) = v ∧
      ∀ g, g < 64 → (s.reg (CLK_GATE_GROVE.off k.toNat)).getLsbD g = true → v.getLsbD g = false →
        (t.grove (BitVec.ofNat 8 (64 * k.toNat + g))).gatedAt = s.time.periods)

/-- THERMAL_EVALUATION, POWER_EVALUATION, CONTRIBUTOR_DECAY, PWR_ALERT and SENSOR_SAMPLE (R698, R700 to R702). -/
def Sys2Proof.Claims.Lifeguard : Prop :=
  ∀ (n : BitVec 9) (v : BitVec 32) (b : BitVec 2) (r : Rail) (s : State),
    let on := v.getLsbD 0
    let seen := smGet (false, 0) s.boot.pgSeen (railBit r)
    let bit := BitVec.ofNat 5 (2 ^ railBit r)
    let now := s.time.ticks
    let hot := ∃ r ∈ s.readings, s.threshold r.1 ≤ r.2
    let exceeds := match s.power64 with | some w => s.powerLimit < w | none => False
    let kept := fun (c : Contributor) => ∃ t, exec (.contributorDecay c) s = .next t ∧ t.bar0 = s.bar0 ∧ t.plane = s.plane ∧
      t.power.thermalAt = (if s.warm = true then now else s.power.thermalAt) ∧
      t.power.powerAt = (if s.powerHigh = true then now else s.power.powerAt) ∧
      (s.warm = false → s.powerHigh = false → t = s)
    let less := fun (c : Contributor) (f : Fld) (since : Nat) (up : Bool) =>
      (up = false → since + 70000 ≤ now → s.fld f ≠ 0 → ∃ t, exec (.contributorDecay c) s = .next t ∧ t.fld f = s.fld f - 1 ∧
        t.plane = s.plane) ∧
      ((up = true ∨ now < since + 70000 ∨ s.fld f = 0) → kept c)
    (hot → s.warm = true → s.tempsApart = false → ∃ t, exec .thermalEvaluation s = .next t ∧ t.power.thermalAt = now) ∧
    (hot → s.tempsApart = false → ∃ t, exec .thermalEvaluation s = .next t ∧ t.fld LG_STATUS.THERMAL = min 7 (s.fld LG_STATUS.THERMAL + 1) ∧
      t.flag LG_EVENT.THERMAL = true ∧ t.plane = s.plane) ∧
    (s.tempsApart = true → ∃ t, exec .thermalEvaluation s = .next t ∧ t.fld LG_STATUS.NEIGHBOUR = min 7 (s.fld LG_STATUS.NEIGHBOUR + 1) ∧
      t.flag LG_EVENT.NEIGHBOUR = true ∧ t.plane = s.plane) ∧
    (¬ hot → s.tempsApart = false → exec .thermalEvaluation s = .next s) ∧
    (exceeds → s.overCurrent = false → s.railsApart = false → ∃ t, exec .powerEvaluation s = .next t ∧
      t.fld LG_STATUS.POWER = min 7 (s.fld LG_STATUS.POWER + 1) ∧ t.flag LG_EVENT.POWER = true ∧ t.power.powerAt = now ∧
      t.plane = s.plane) ∧
    (s.overCurrent = true → ∃ t, exec .powerEvaluation s = .next t ∧ 4 ≤ t.fld LG_STATUS.POWER ∧ t.flag LG_EVENT.OVERCURRENT = true) ∧
    (¬ exceeds → s.overCurrent = false → s.railsApart = false → exec .powerEvaluation s =
      .next (if s.powerHigh = true then { s with power := { s.power with powerAt := now } } else s)) ∧
    less .thermal LG_STATUS.THERMAL s.power.thermalAt s.warm ∧ less .power LG_STATUS.POWER s.power.powerAt s.powerHigh ∧
    less .neighbour LG_STATUS.NEIGHBOUR s.power.neighbourAt false ∧
    (s.power.alertAt + 70000 ≤ now → s.flag LG_STATUS.ALERT_PIN = false → ∃ t, exec (.contributorDecay .alert) s = .next t ∧
      t.fld LG_STATUS.ALERT = 0 ∧ t.plane = s.plane) ∧
    ((now < s.power.alertAt + 70000 ∨ s.flag LG_STATUS.ALERT_PIN = true) → kept .alert) ∧
    (s.flag LG_STATUS.ALERT_PIN = false → ∃ t, exec .pwrAlert s = .next t ∧ t.flag LG_STATUS.ALERT_PIN = true ∧
      t.fld LG_STATUS.ALERT = s.fld LG_LIMITS.ALERT_LEVEL ∧ t.flag LG_EVENT.ALERT = true ∧ t.plane = s.plane) ∧
    (s.flag LG_STATUS.ALERT_PIN = true → exec .pwrAlert s = .next s) ∧
    (n.toNat ≤ 280 → s.calHolds n.toNat = false →
      let x := v.toInt + s.calOf n.toNat
      (if n.toNat < 261 then -640 ≤ x ∧ x ≤ 2400 else 0 ≤ x ∧ x ≤ 2000) →
      ∃ t, exec (.sensorSample (.temp n) (some v)) s = .next t ∧
        smGet {} t.power.temps n.toNat = { last := (x :: (smGet {} s.power.temps n.toNat).last).take 3, missed := 0, bad := false } ∧
        ∀ m, m ≠ n.toNat → smGet {} t.power.temps m = smGet {} s.power.temps m) ∧
    (s.calHolds n.toNat = true → exec (.sensorSample (.temp n) (some v)) s = .next s) ∧
    (s.flag LG_STATUS.TRIPPED = false → ¬ (400 ≤ v.toInt ∧ v.toInt ≤ 850) → ∃ t, exec (.sensorSample (.volt b) (some v)) s = .next t ∧
      t.flag LG_STATUS.TRIPPED = true ∧ t.power.thermTrip = true ∧ t.time.rootGated = true) ∧
    (0 ≤ v.toInt → v.toInt ≤ 1000000 → ∃ t, exec (.sensorSample (.amp b) (some v)) s = .next t ∧
      (t.amp b.toNat).last = (v.toInt :: (s.amp b.toNat).last).take 16 ∧ (t.amp b.toNat).missed = 0) ∧
    (s.power.alertSample = false → on = true → ∃ t, exec (.sensorSample .alert (some v)) s = .next t ∧ t.power.alertSample = true ∧
      t.bar0 = s.bar0) ∧
    (s.power.alertSample = true → on = true → ∃ t, exec (.sensorSample .alert (some v)) s = .next t ∧ t.flag LG_STATUS.ALERT_PIN = true) ∧
    (s.power.readySample = false → on = true → ∃ t, exec (.sensorSample .vrReady (some v)) s = .next t ∧ t.power.readySample = true ∧
      t.bar0 = s.bar0) ∧
    (400 ≤ v.toInt → v.toInt ≤ 850 → ∃ t, exec (.sensorSample (.volt b) (some v)) s = .next t ∧
      (t.volt b.toNat).last = (v.toInt :: (s.volt b.toNat).last).take 4 ∧ (t.volt b.toNat).missed = 0 ∧
      t.fld LG_STATUS.NEIGHBOUR = (if t.railsApart = true ∧ s.railsApart = false then min 7 (s.fld LG_STATUS.NEIGHBOUR + 1)
        else s.fld LG_STATUS.NEIGHBOUR)) ∧
    ((seen.1 ≠ on ∨ seen.2 < 7) → ∃ t, exec (.sensorSample (.powerGood r) (some v)) s = .next t ∧
      smGet (false, 0) t.boot.pgSeen (railBit r) = (on, if seen.1 = on then seen.2 + 1 else 1) ∧ t.boot.pgs = s.boot.pgs ∧
      t.bar0 = s.bar0 ∧ t.plane = s.plane ∧ t.hbm = s.hbm) ∧
    (seen.1 = on → 7 ≤ seen.2 → (on = true ∨ r ≠ .safe) → ∃ t, exec (.sensorSample (.powerGood r) (some v)) s = .next t ∧
      t.boot.pgs = (if on = true then s.boot.pgs ||| bit else s.boot.pgs &&& ~~~bit)) ∧
    (seen.1 = on → 7 ≤ seen.2 → on = false → r = .safe → s.boot.pgs.getLsbD 0 = true →
      ∃ t, exec (.sensorSample (.powerGood r) (some v)) s = .next t ∧ t.boot = { blown := s.boot.blown, perst := s.boot.perst } ∧
      t.hbm = [] ∧ t.plane = {})

/-- Levels, clocks and the lifeguard's inputs. Where the spec leaves a point open, the
model's choices stand in log entries 6, 73, 74, 75, 76, 77, 78, 103, 110, 121. -/
def Obligations.PowerAndClocks : Prop := LevelMoves ∧ ClocksAndGates ∧ Lifeguard

/-- The mailboxes: each request's effect and result, deferral while work is in progress, and the ends of timed requests; of two
requests in one tick the management processor's is taken first (R704 to R707). Where the spec leaves a point open, the model's
choices stand in log entries 1, 79, 80, 119, 131. That an event whose condition does not hold leaves the state as it was is log
entry 6. -/
def Obligations.MailboxRequests : Prop :=
  ∀ (mp pass : Bool) (arg : BitVec 32) (v : BitVec 64) (n : Nat) (s : State) (j : LgJob),
    let k := mp.toNat
    let f := fun (t : State) (x : Fld) => t.mbFld k x
    let busy := f s LG_MBOX_STAT.BUSY = 1
    let now := s.time.ticks
    let hosts := s.power.hostGo.filter fun g => g.tick = now
    let idle := ¬ busy ∧ (mp = true → s.flag ALM_STATUS.RUNNING = true → hosts = [])
    let ends := fun (t : State) (r : Nat) => f t LG_MBOX_STAT.BUSY = 0 ∧ f t LG_MBOX_STAT.DEFERRED = 0 ∧ f t LG_MBOX_STAT.RESULT = r
    let cal := 0x800 + 8 * n
    let fits := -8192 ≤ signedOf 16 v.toNat ∧ signedOf 16 v.toNat ≤ 8191
    let unit := (arg.extractLsb' 8 8).toNat
    let i := (arg.extractLsb' 0 8).toNat
    let bist := unit = 0 ∨ (unit = 1 ∧ i < 20) ∨ unit = 2
    (busy → ∀ c ∈ [Instr.writeReg mp arg v, .clearEvents mp v, .setLevel mp v, .calibrate mp arg, .runBist mp arg, .quiet mp arg v],
      ∃ t, exec c s = .next t ∧ f t LG_MBOX_STAT.REFUSED = 1 ∧ f t LG_MBOX_STAT.BUSY = 1 ∧ t.power.jobs = s.power.jobs ∧ t.plane = s.plane) ∧
    (idle → n ≤ 260 → arg.toNat = cal → fits → ∃ t, exec (.writeReg mp arg v) s = .next t ∧ ends t State.rsDone ∧
      t.fld (LG_CAL.OFFSET n) = getBits v 15 0 ∧ t.plane = s.plane) ∧
    (idle → n ≤ 260 → arg.toNat = cal → ¬ fits → ∃ t, exec (.writeReg mp arg v) s = .next t ∧ ends t State.rsRange ∧
      t.fld (LG_CAL.OFFSET n) = s.fld (LG_CAL.OFFSET n)) ∧
    (idle → State.rwsOk arg.toNat v = none → ∃ t, exec (.writeReg mp arg v) s = .next t ∧ ends t State.rsRange ∧
      ∀ r, r < LG_MBOX_CMD.off ∨ LG_MBOX_STAT.off < r → t.reg r = s.reg r) ∧
    (idle → arg = 0x018 → State.rwsOk 0x018 v = some true → ∃ t, exec (.writeReg mp arg v) s = .next t ∧ ends t State.rsDone ∧
      t.fld LG_TRIP.HBM_C = getBits v 31 24 ∧ t.fld LG_TRIP.HYST_C = getBits v 23 16 ∧ t.fld LG_TRIP.TRIP_C = getBits v 15 8 ∧
      t.fld LG_TRIP.THROTTLE_C = getBits v 7 0) ∧
    (idle → ∃ t, exec (.clearEvents mp v) s = .next t ∧ ends t State.rsDone ∧ t.reg LG_EVENT.off = s.reg LG_EVENT.off &&& ~~~v) ∧
    (idle → ∃ t, exec (.setLevel mp v) s = .next t ∧ ends t State.rsDone ∧ t.fld LG_CEIL.REQ = getBits v 2 0 ∧
      t.fld LG_CEIL.CEILING = s.fld LG_CEIL.CEILING ∧ (mp = false → t.power.hostGo = hosts ++ [⟨now, 3, 0, v⟩])) ∧
    (∀ d, ¬ busy → mp = true → s.flag ALM_STATUS.RUNNING = true → hosts = [⟨now, 3, 0, d⟩] →
      ∃ t, exec (.setLevel mp v) s = .next t ∧ ends t State.rsDone ∧ t.fld LG_CEIL.REQ = getBits d 2 0) ∧
    (idle → ∃ t, exec (.quiet mp arg v) s = .next t ∧ ends t State.rsDone ∧ t.power.quiet =
      (s.power.quiet.filter fun w => decide (s.time.almanac.toNat < w.1.toNat + w.2)) ++ [(v, arg.toNat)]) ∧
    (idle → 2 ≤ arg.toNat % 4 → ∃ t, exec (.calibrate mp arg) s = .next t ∧ ends t State.rsRange) ∧
    (idle → arg.toNat % 4 < 2 → s.working = false → ∃ t, exec (.calibrate mp arg) s = .next t ∧ f t LG_MBOX_STAT.BUSY = 1 ∧
      f t LG_MBOX_STAT.DEFERRED = 0 ∧ t.lgJob k = some { code := 4, arg := arg, doneAt := s.time.ticks + 7000 }) ∧
    (idle → arg.toNat % 4 < 2 → s.working = true → ∃ t, exec (.calibrate mp arg) s = .next t ∧ f t LG_MBOX_STAT.BUSY = 1 ∧
      f t LG_MBOX_STAT.DEFERRED = 1 ∧ t.lgJob k = some { code := 4, arg := arg, deferred := true }) ∧
    (idle → ¬ bist → ∃ t, exec (.runBist mp arg) s = .next t ∧ ends t State.rsRange) ∧
    (idle → bist → s.working = true → ∃ t, exec (.runBist mp arg) s = .next t ∧ f t LG_MBOX_STAT.BUSY = 1 ∧
      f t LG_MBOX_STAT.DEFERRED = 1 ∧ t.lgJob k = some { code := 5, arg := arg, deferred := true }) ∧
    (idle → bist → s.working = false → s.bistBusy arg = false → ∃ t, exec (.runBist mp arg) s = .next t ∧ f t LG_MBOX_STAT.BUSY = 1 ∧
      t.lgJob k = some { code := 5, arg := arg, doneAt := s.time.ticks + (if unit = 0 then 8400000 else 700000) }) ∧
    (idle → bist → s.working = false → s.bistBusy arg = true → ∃ t, exec (.runBist mp arg) s = .next t ∧ ends t State.rsBusy) ∧
    (s.lgJob k = none → exec (.deferredRequestStart mp) s = .next s ∧ exec (.mailboxRequestDone mp pass) s = .next s) ∧
    (s.lgJob k = some j → j.deferred = true → (j.boundary = true ∨ s.inQuiet = true) → (j.code = 5 → s.bistBusy j.arg = false) →
      ∃ t, exec (.deferredRequestStart mp) s = .next t ∧ f t LG_MBOX_STAT.DEFERRED = 0 ∧
        t.lgJob k = some { j with deferred := false, doneAt := s.time.ticks + State.jobTicks j.code j.arg }) ∧
    (s.lgJob k = some j → (j.deferred = false ∨ (j.boundary = false ∧ s.inQuiet = false)) → exec (.deferredRequestStart mp) s = .next s) ∧
    (s.lgJob k = some j → j.deferred = false → j.doneAt ≤ s.time.ticks → j.code = 5 → ∃ t, exec (.mailboxRequestDone mp pass) s = .next t ∧
      ends t (if pass then State.rsDone else State.rsFail) ∧ t.lgJob k = none ∧
      ((j.arg.extractLsb' 8 8) = 0 → ∀ c, groveOf c = j.arg.extractLsb' 0 8 → ∀ r, (t.core c).spadRow r = {}) ∧
      ∀ c, groveOf c ≠ j.arg.extractLsb' 0 8 → t.core c = s.core c) ∧
    (s.lgJob k = some j → j.deferred = false → j.doneAt ≤ s.time.ticks → j.code = 4 → ∃ t, exec (.mailboxRequestDone mp pass) s = .next t ∧
      ends t State.rsDone ∧ t.lgJob k = none ∧ t.plane = s.plane) ∧
    (s.lgJob k = some j → (j.deferred = true ∨ s.time.ticks < j.doneAt) → exec (.mailboxRequestDone mp pass) s = .next s)

/-! ## Counters, snapshots, samples and the loader -/

/-- PMC_CLEAR, PMC_MODE_WRITE, SNAPSHOT and CR_NOW (R723, R726 to R730, R738): a snapshot is latched and its record begun, or
skipped while the previous record is still being written or the ring is full; a record that has been written moves TAIL. A record
waits for the ends of the grove cycles that it counts, and one whose grove has lost its clock takes what that grove holds (R727, log
entry 53). -/
def Sys2Proof.Claims.CountersAndSnapshots : Prop :=
  ∀ (u : CtrGroup) (full busy : Bool) (v : BitVec 64) (s : State) (τ : BitVec 64),
    let others := fun (t : State) =>
      (∀ w, w ≠ u → t.pmc w = s.pmc w) ∧ t.bar0 = s.bar0 ∧ t.hbm = s.hbm ∧ t.time = s.time ∧ t.out = s.out
    let size := 2 ^ s.fld CR_RING.SIZE_LOG2
    let tail := s.fld CR_POS.TAIL
    let open_ := s.reader.record = none ∨ busy = true ∨ s.snapWaits = true
    let skip := s.reader.record.isSome = true ∨ (tail + 1) % size = s.fld CR_POS.HEAD
    let bs := s.snapBytes τ
    let at_ : BitVec 64 := v &&& ~~~1#64
    (∃ t, exec (.pmcClear u) s = .next t ∧ t.pmc u = { s.pmc u with c := [], before := if (s.pmc u).before = none then some (s.pmc u).c else (s.pmc u).before } ∧ (∀ i, (t.pmc u).ctr i = 0) ∧ others t) ∧
    (∃ t, exec (.pmcModeWrite u full) s = .next t ∧ t.pmc u = { s.pmc u with c := [], mode := full, sat := 0 } ∧ others t) ∧
    (open_ → s.snapDue = none → exec (.snapshot busy) s = .next s) ∧
    (open_ → s.snapDue = some τ → skip → ∃ t, exec (.snapshot busy) s = .next t ∧
      t.fld CR_STAT.SKIPPED = min 0xFFFF (s.fld CR_STAT.SKIPPED + 1) ∧ t.reader.skipped = true ∧ t.reader.num = s.reader.num ∧
      t.reader.record = s.reader.record ∧ t.reg CR_POS.off = s.reg CR_POS.off ∧ t.hbm = s.hbm ∧ t.plane = s.plane) ∧
    (open_ → s.snapDue = some τ → ¬ skip → ∃ t, exec (.snapshot busy) s = .next t ∧
      t.flag CR_STAT.BUSY = true ∧ t.reader.num = (s.reader.num + 1) % 2 ^ 32 ∧ t.reader.skipped = false ∧
      t.reader.record = some { at_ := τ, addr := s.fld CR_RING.BASE * 4096 + tail * bs.length, bytes := bs, tail := (tail + 1) % size
                               totals := s.reader.totals, ends := !s.reader.stepped, starts := true, late := s.lateGroves } ∧
      t.reg CR_POS.off = s.reg CR_POS.off ∧ t.hbm = s.hbm ∧ t.plane = s.plane) ∧
    (∀ r, s.settleLate.reader.record = some r → busy = false → s.snapWaits = false → s.snapDue = none → Memory.wf s.hbm = true → ∃ t, exec (.snapshot busy) s = .next t ∧
      t.fld CR_POS.TAIL = r.tail % 2 ^ (CR_POS.TAIL.hi - CR_POS.TAIL.lo + 1) ∧ t.flag CR_STAT.BUSY = false ∧ t.reader.record = none ∧
      t.reader.prev = r.totals ∧ t.reader.prevAt = (if r.starts then some r.at_ else s.reader.prevAt) ∧
      (t.reg HIF_IRQ_EVT.off).getLsbD 8 = true ∧ t.plane = s.plane ∧ memBytes t.hbm r.addr r.bytes.length = r.bytes ∧
      ∀ a, a < r.addr ∨ r.addr + r.bytes.length ≤ a → memRead t.hbm a = memRead s.hbm a) ∧
    (∃ t, exec (.crNow v) s = .next t ∧ t.reg CR_NOW.off = at_ ∧ t.hbm = s.hbm ∧ t.plane = s.plane ∧ t.out = s.out ∧
      (v.getLsbD 0 = false → t.reader = s.reader ∧ t.reg CR_STAT.off = s.reg CR_STAT.off) ∧
      (v.getLsbD 0 = true → s.time.almanac.toNat + 64 ≤ at_.toNat →
        t.reader = { s.reader with due := some at_ } ∧ t.reg CR_STAT.off = s.reg CR_STAT.off) ∧
      (v.getLsbD 0 = true → at_.toNat < s.time.almanac.toNat + 64 → t.reader = s.reader ∧ t.flag CR_STAT.LATE_REQ = true))

/-- SAMPLE_RECORD_COMPLETE, SAMP_FREE and SAMP_CFG_WRITE (R731, R733). That the LFSR shifts right is the model's choice (log
entry 40). -/
def Sys2Proof.Claims.Sampling : Prop :=
  ∀ (g : GroveId) (v : BitVec 64) (x : Sample) (xs : List Sample) (s : State),
    let p := (s.grove g).samp
    let samp := fun (t : State) => (t.grove g).samp
    let others := fun (t : State) => (∀ h, h ≠ g → t.grove h = s.grove h) ∧ (t.grove g).pmc = (s.grove g).pmc ∧
      t.bar0 = s.bar0 ∧ t.hbm = s.hbm ∧ t.plane.cores = s.plane.cores ∧ t.plane.hampers = s.plane.hampers ∧ t.out = s.out
    let seed : BitVec 32 := v.extractLsb' 32 32
    (p.live = [] → exec (.sampleRecordComplete g) s = .next s) ∧
    (p.live = x :: xs → s.cycle g < x.issued + 255 → exec (.sampleRecordComplete g) s = .next s) ∧
    (p.live = x :: xs → x.issued + 255 ≤ s.cycle g → ∃ t, exec (.sampleRecordComplete g) s = .next t ∧ (samp t).live = xs ∧ others t ∧
      (p.freeEntry = none → (samp t).recs = p.recs ∧ (samp t).lost = min 0xFFFF (p.lost + 1)) ∧
      ∀ k, p.freeEntry = some k → (samp t).lost = p.lost ∧ smGet 0 (samp t).recs k = x.record ∧
        ∀ j, j ≠ k → smGet 0 (samp t).recs j = smGet 0 p.recs j) ∧
    (∃ t, exec (.sampFree g v) s = .next t ∧ others t ∧ samp t = { p with recs := (samp t).recs } ∧
      ∀ e, e ∈ (samp t).recs ↔ e ∈ p.recs ∧ ¬ (e.1 < 16 ∧ v.getLsbD e.1 = true)) ∧
    (∃ t, exec (.sampCfgWrite g v) s = .next t ∧ others t ∧ (samp t).en = v.getLsbD 0 ∧ (samp t).seed = seed ∧
      (samp t).recs = p.recs ∧ (samp t).lost = p.lost ∧
      (4 ≤ getBits v 4 1 → (samp t).mean = getBits v 4 1) ∧ (getBits v 4 1 < 4 → (samp t).mean = p.mean) ∧
      ((v.getLsbD 0 = false ∨ p.en = true) → (samp t).lfsr = p.lfsr) ∧
      (v.getLsbD 0 = true → p.en = false → (samp t).lfsr = lfsrStep (if seed = 0 then 1 else seed) ∧
        (samp t).chosen = (samp t).lfsr.toNat % 64 ∧
        (samp t).count = (samp t).lfsr.toNat / 64 % 2 ^ 25 % 2 ^ ((samp t).mean + 1) + 1))

/-- Counter groups, snapshots and samples. Where the spec leaves a point open, the model's choices stand in log entries 46, 53, 54.
That an event whose condition does not hold leaves the state as it was is log entry 6. -/
def Obligations.CountersAndSampler : Prop := CountersAndSnapshots ∧ Sampling

/-- LOAD, PATCH, UNLOAD and MP_REQUEST_COMPLETE: a request is refused while BUSY is 1; a failed check writes nothing; PATCH
writes the relocated program at the first symbol's address; UNLOAD clears the hampers; the end of a request sets RESULT and
DETAIL, clears BUSY, and the end of a LOAD or PATCH marks its hampers loaded (R773 to R777). LOAD writes, in the order of R773, the
program and the library words, the configuration records, and the hampers' SEQ_PC, SEQ_PROG_BASE, SEQ_ABORT_CFG and preloads. Where the
spec leaves a point open, the model's choices stand in log entries 6, 55, 90, 91, 119, 145. -/
def Obligations.LoaderRequests : Prop :=
  ∀ (obj syms : BitVec 42) (s : State) (f : Nat × Nat) (p : ObjParts) (lib : List LibRecord) (rs : List Reloc) (xs : List ObjSection)
    (j : MpJob),
    let busy := s.flag MP_MBOX_STAT.BUSY = true
    let all := [Instr.load obj syms, .patch obj syms, .unload obj]
    let hampers := fun (q : ObjParts) => (objHampers q.hampers).map fun e => (BitVec.ofNat 14 e.hamper : HamperId)
    let fails := fun (i : Instr) (code : Nat) => ∃ t, exec i s = .next t ∧ t.flag MP_MBOX_STAT.BUSY = true ∧
      t.boot.mp = some { code := code, result := f.1, detail := f.2 } ∧ t.hbm = s.hbm ∧ t.plane = s.plane
    let own := objHampers (s.objParts obj.toNat xs).hampers
    let base := s.hbmTakenNat syms.toNat 8
    let code := relocateAll rs 1 p.program
    let coded := fun (u : State) => memBytes u.hbm base code.length = code ∧
      ∀ a, a < base ∨ base + code.length ≤ a → memRead u.hbm a = memRead s.hbm a
    let stored := fun (u : State) => ∀ g as r bs, lib = as ++ r :: bs → (r.grove = 0xFFFF ∨ BitVec.ofNat 8 r.grove = g) →
      (∀ y ∈ bs, y.grove ≠ 0xFFFF ∧ BitVec.ofNat 8 y.grove ≠ g) → ∀ i, i < r.count →
        smGet 0 (u.grove g).lib (r.first + i) = BitVec.ofNat 256 (bytesField (relocateAll rs 2 p.library) (r.at_ + 32 * i) 32)
    let ready := fun (t : State) => ∀ as (e : ObjHamper) bs, objHampers p.hampers = as ++ e :: bs →
      (∀ y ∈ bs, BitVec.ofNat 14 y.hamper ≠ BitVec.ofNat 14 e.hamper) →
      let x := t.hamper (BitVec.ofNat 14 e.hamper)
      x.pc = BitVec.ofNat 25 e.start ∧ x.progBase = BitVec.ofNat 64 base ∧
        x.abortCfg = BitVec.ofNat 64 (e.restart * 2 ^ 32 + e.flags / 2 * 2 ^ 25 + e.abortPc)
    (busy → ∀ i ∈ all, ∃ t, exec i s = .next t ∧ t.flag MP_MBOX_STAT.REFUSED = true ∧ t.flag MP_MBOX_STAT.BUSY = true ∧
      t.boot = s.boot ∧ t.hbm = s.hbm ∧ t.plane = s.plane) ∧
    (¬ busy → s.loadCheck obj.toNat syms.toNat = .error f → fails (.load obj syms) 1) ∧
    (¬ busy → s.loadCheck obj.toNat syms.toNat = .error f → fails (.patch obj syms) 2) ∧
    (¬ busy → s.objCheck obj.toNat = .error f → fails (.unload obj) 3) ∧
    (¬ busy → s.loadCheck obj.toNat syms.toNat = .ok (p, lib, rs) → Memory.wf s.hbm = true → ∃ t u, exec (.load obj syms) s = .next t ∧
      t.boot.mp = some { code := 1, hampers := hampers p } ∧ coded u ∧ stored u ∧ u.plane.cores = s.plane.cores ∧
      u.plane.hampers = s.plane.hampers ∧ ready t ∧
      t = ((objHampers p.hampers).foldl (fun s e => s.setupHamper base e)
        ((cfgRecords p.config).foldl (State.applyRecord State.mpGoBusy) u)).setMp (some { code := 1, hampers := hampers p })) ∧
    (¬ busy → s.loadCheck obj.toNat syms.toNat = .ok (p, lib, rs) → Memory.wf s.hbm = true → ∃ t, exec (.patch obj syms) s = .next t ∧
      t.boot.mp = some { code := 2, hampers := hampers p } ∧ t.flag MP_MBOX_STAT.BUSY = true ∧
      coded t ∧ stored t ∧ ready t ∧ (∀ h, h ∈ hampers p → (t.hamper h).progBase = BitVec.ofNat 64 base) ∧
      (∀ h, h ∉ hampers p → t.hamper h = s.hamper h) ∧ t.plane.cores = s.plane.cores) ∧
    (¬ busy → s.objCheck obj.toNat = .ok xs → State.entryCheck xs (s.objParts obj.toNat xs) = .error f → fails (.unload obj) 3) ∧
    (¬ busy → s.objCheck obj.toNat = .ok xs → State.entryCheck xs (s.objParts obj.toNat xs) = .ok lib → s.objQuiet own lib = true → ∃ t, exec (.unload obj) s = .next t ∧
      t.boot.mp = some { code := 3 } ∧ t.flag MP_MBOX_STAT.BUSY = true ∧ t.hbm = s.hbm ∧
      ∀ e ∈ own, (t.hamper (BitVec.ofNat 14 e.hamper)).state = stIdle ∧ (t.hamper (BitVec.ofNat 14 e.hamper)).loaded = false) ∧
    (¬ busy → s.objCheck obj.toNat = .ok xs → State.entryCheck xs (s.objParts obj.toNat xs) = .ok lib → s.objQuiet own lib = false → ∃ t, exec (.unload obj) s = .next t ∧
      t.boot.mp = some { code := 3, result := mrBusy, detail := s.objBusy own lib } ∧ t.hbm = s.hbm ∧ t.plane = s.plane) ∧
    (s.boot.mp = none → exec .mpRequestComplete s = .next s) ∧
    (s.boot.mp = some j → (∃ h ∈ j.hampers, (s.hamper h).preload ≠ none) → exec .mpRequestComplete s = .next s) ∧
    (s.boot.mp = some j → (∀ h ∈ j.hampers, (s.hamper h).preload = none) → ∃ t, exec .mpRequestComplete s = .next t ∧
      t.boot.mp = none ∧ t.flag MP_MBOX_STAT.BUSY = false ∧ t.fld MP_MBOX_STAT.RESULT = j.result % 8 ∧
      t.fld MP_MBOX_STAT.DETAIL = j.detail % 2 ^ 32 ∧
      (t.reg HIF_IRQ_EVT.off).getLsbD 9 = true ∧ t.hbm = s.hbm ∧
      ((j.code = 1 ∨ j.code = 2) → ∀ h ∈ j.hampers, (t.hamper h).loaded = true) ∧ (j.code ≠ 1 → j.code ≠ 2 → t.plane = s.plane))

/-! ## Completion of the commands of the front end, the service mesh and the units' results -/

/-- Under conditions on the state and the operands alone, WORD_PUSH pushes the word at the PC, of the library or of a cached
line, IC_FILL places the line of a miss or of a preload or has nothing to do, SERVICE_ACCESS writes and reads a register
through the windows of BAR0, ACCUMULATOR_READABLE lands an MZERO, and TILE_BYTES_CHANGED a tile load (R172, R192, R193, R205,
R222, R254, R259, R274, R306, R354). That a library address counts modulo 8192 (log entry 42), that a 4-byte write of a pair of
scalars keeps its other half (log entry 120), and that a fill with nothing to place does nothing (log entry 6) are the model's
choices. -/
def Obligations.PushFillAccessLandComplete : Prop :=
  ∀ (h : HamperId) (c : CoreId) (agent : Agent) (off : BitVec 26) (v : BitVec 64) (s : State),
    let r := s.hamper h
    let g := groveOfHamper h
    let now := s.cycle (groveOf c)
    let k := s.core c
    let runs := (r.state = stArmed ∨ r.state = stRunning ∨ r.state = stHolding ∨ r.state = stAbort) ∧ r.stopped = false
    let room := r.swapWait = false ∧ r.icMiss = none ∧ r.iq.length < Config.issueDepth ∧ r.pushFrom ≤ s.cycle g
    let others := fun (t : State) => t.hbm = s.hbm ∧ t.plane.cores = s.plane.cores ∧ ∀ o, o ≠ h → t.hamper o = s.hamper o
    let place := fun (t : State) (l : BitVec 21) => (t.hamper h).pc = r.pc ∧ (t.hamper h).iq = r.iq ∧ others t ∧
      ∃ x, (t.hamper h).cached l = some x ∧ x.words = s.lineWords h l
    let open_ := s.gated g = false ∧ s.asleep agent = false ∧ (agent = .host → s.flag HIF_STATUS.READY = true)
    (s.clockOn g = true → runs → room → r.smad = none → r.pc.getLsbD 24 = true →
      ∃ t q, exec (.wordPush h) s = .next t ∧ (t.hamper h).iq = r.iq ++ [q] ∧ q.pc = r.pc ∧ q.pushed = s.cycle g ∧
        q.alm = s.time.almanac ∧
        (smGet 0 (s.grove g).lib (r.pc.toNat % 8192) = 0 → r.loops = [] →
          q.word = 0 ∧ (t.hamper h).pc = nextPc r.pc ∧ (t.hamper h).scalars = r.scalars ∧ others t)) ∧
    (∀ x, s.clockOn g = true → runs → room → r.smad = none → r.pc.getLsbD 24 = false →
      r.cached (r.pc.extractLsb' 3 21) = some x →
      ∃ t q, exec (.wordPush h) s = .next t ∧ (t.hamper h).iq = r.iq ++ [q] ∧ q.pc = r.pc ∧ q.pushed = s.cycle g ∧
        ((x.words[r.pc.toNat % 8]?).getD 0 = 0 → r.loops = [] → q.word = 0 ∧ (t.hamper h).pc = nextPc r.pc ∧ others t)) ∧
    (∀ l, r.icMiss = some l → r.progBase.toNat + 256 * l.toNat + 256 ≤ hbmEnd →
      ∃ t, exec (.icFill h) s = .next t ∧ (t.hamper h).icMiss = none ∧ place t l) ∧
    (∀ p, r.icMiss = none → r.preload = some p → r.progBase.toNat + 256 * p.line.toNat + 256 ≤ hbmEnd →
      ∃ t, exec (.icFill h) s = .next t ∧ place t p.line) ∧
    (r.icMiss = none → r.preload = none → exec (.icFill h) s = .next s) ∧
    (open_ → s.svcWindow off.toNat = .hamper h 0x040 → r.quiet = true →
      (∃ t, exec (.serviceAccess agent off ⟨true, .full⟩ v) s = .next t ∧ (t.hamper h).scalar 0 = v.extractLsb' 0 32 ∧
        (t.hamper h).scalar 1 = v.extractLsb' 32 32 ∧ (∀ n, n ≠ 0 → n ≠ 1 → (t.hamper h).scalar n = r.scalar n) ∧
        (t.hamper h).pc = r.pc ∧ others t) ∧
      ∃ t, exec (.serviceAccess agent off ⟨true, .low⟩ v) s = .next t ∧ (t.hamper h).scalar 0 = v.extractLsb' 0 32 ∧
        (t.hamper h).scalar 1 = r.scalar 1 ∧ others t) ∧
    (open_ → s.svcWindow off.toNat = .hamper h 0x040 →
      ∃ t, exec (.serviceAccess agent off ⟨false, .full⟩ v) s = .next t ∧ t.plane = s.plane ∧ t.hbm = s.hbm ∧
        t.out = s.out ++ (if agent = .host then [.readData (bytesOf 8 (r.scalar 1 ++ r.scalar 0).toNat) false] else [])) ∧
    (∀ a, (∃ x ∈ k.mx.results, x.due ≤ now ∧ x.acc = a) → (∀ x ∈ k.mx.results, x.due ≤ now → x.acc = a → x.effect = .zero) →
      ∃ t, exec (.accumulatorReadable c) s = .next t ∧ (∀ e, e < 16 → (t.core c).mx.accElem a e = 0) ∧
        (∀ x ∈ (t.core c).mx.results, now < x.due) ∧ (t.core c).tiles = k.tiles ∧ ∀ d, d ≠ c → t.core d = s.core d) ∧
    (∀ w, k.tileWr.filter (fun x => x.due ≤ now) = [w] →
      ∃ t, exec (.tileBytesChanged c) s = .next t ∧ (t.core c).tile w.tile = tileWritten (k.tile w.tile) w ∧
        (∀ i, i ≠ w.tile → (t.core c).tile i = k.tile i) ∧ (∀ x ∈ (t.core c).tileWr, now < x.due) ∧
        (t.core c).mx = k.mx ∧ ∀ d, d ≠ c → t.core d = s.core d)
end

