-- ==== Sys2Proof/Laws/Columns.lean ====
section
/-! SUPPORT. Laws of the map of logical columns to physical ones (R23): the two ends of a strip, that the column without
power is never used, and that the map keeps the order of columns. -/

namespace Sys2Proof.Machine.State

/-- A logical column stands in its strip's 33 physical ones, at its own place or one further. -/
theorem physColumn_cases (m : SMap Nat) (c : Nat) :
    physColumn m c = 33 * (c / 32) + c % 32 ∧ c % 32 < smGet 32 m (c / 32) ∨
    physColumn m c = 33 * (c / 32) + c % 32 + 1 ∧ smGet 32 m (c / 32) ≤ c % 32 := by
  unfold physColumn
  dsimp only
  split <;> omega

/-- No logical column uses the physical one that its strip leaves without power. -/
theorem physColumn_ne_spareColumn (m : SMap Nat) (c : Nat) : physColumn m c ≠ spareColumn m (c / 32) := by
  have := physColumn_cases m c
  unfold spareColumn
  omega

/-- The map keeps the order of columns, so no two share a physical one. -/
theorem physColumn_lt (m : SMap Nat) {c d : Nat} (h : c < d) : physColumn m c < physColumn m d := by
  have hc := physColumn_cases m c
  have hd := physColumn_cases m d
  by_cases he : c / 32 = d / 32
  · rw [← he] at hd
    omega
  · omega

end Sys2Proof.Machine.State
end

