-- ==== Sys2Proof/Laws/Memory.lean ====
section
/-! SUPPORT. Laws of HBM's bytes: a byte just written reads as written, every other byte reads as before, and every
memory operation keeps the canonical form. -/

namespace Sys2Proof.Machine

/-- A canonical memory from a higher address on is canonical from a lower one on. -/
theorem wfFrom_mono {m : List Host.Cell} {lo lo' : Nat} (h : lo' ≤ lo) (hm : Memory.wfFrom lo m = true) :
    Memory.wfFrom lo' m = true := by
  cases m with
  | nil => rfl
  | cons e m =>
    obtain ⟨a, b⟩ := e
    simp only [Memory.wfFrom, Bool.and_eq_true, decide_eq_true_eq] at hm ⊢
    exact ⟨⟨Nat.le_trans h hm.1.1, hm.1.2⟩, hm.2⟩

/-- Below the first address of a canonical memory every byte reads as the default. -/
theorem memRead_below {m : List Host.Cell} {lo k : Nat} (hm : Memory.wfFrom lo m = true) (h : k < lo) :
    memRead m k = hbmDefault := by
  cases m with
  | nil => rfl
  | cons e m =>
    obtain ⟨a, b⟩ := e
    simp only [Memory.wfFrom, Bool.and_eq_true, decide_eq_true_eq] at hm
    have : k < a := Nat.lt_of_lt_of_le h hm.1.1
    simp [memRead, this]

/-- What every address of a canonical memory reads as after one byte is written. -/
theorem memRead_memWrite_from {m : List Host.Cell} {lo : Nat} (hm : Memory.wfFrom lo m = true) (k : Nat) (b : Byte) (j : Nat) :
    memRead (memWrite m k b) j = if j = k then b else memRead m j := by
  induction m generalizing lo with
  | nil =>
    by_cases hb : b = hbmDefault
    · simp [memWrite, memRead, hb]
    · simp only [memWrite, memRead, hb, if_false]
      split
      · have : j ≠ k := by omega
        simp [this]
      · rfl
  | cons e m ih =>
    obtain ⟨a, c⟩ := e
    simp only [Memory.wfFrom, Bool.and_eq_true, decide_eq_true_eq] at hm
    have hbelow : ∀ x, x ≤ a → memRead m x = hbmDefault := fun x hx => memRead_below hm.2 (by omega)
    simp only [memWrite]
    split
    · rename_i hka
      split
      · rename_i hb
        by_cases hj : j = k
        · subst hj; simp [memRead, hka, hb]
        · simp [hj]
      · by_cases hj : j = k
        · subst hj; simp [memRead]
        · simp only [memRead, hj, if_false]
          split
          · rename_i hjk
            simp [Nat.lt_trans hjk hka]
          · rfl
    · split
      · rename_i hka
        subst hka
        split
        · rename_i hb
          by_cases hj : j = k
          · subst hj; simp [hb, hbelow j (Nat.le_refl _)]
          · simp only [memRead, hj, if_false]
            split
            · rename_i hjk
              exact hbelow j (Nat.le_of_lt hjk)
            · rfl
        · by_cases hj : j = k
          · subst hj; simp [memRead]
          · simp [memRead, hj]
      · rename_i h1 h2
        simp only [memRead, ih hm.2]
        split
        · have : j ≠ k := by omega
          simp [this]
        · split
          · rename_i h3 h4
            have : j ≠ k := by omega
            simp [this]
          · rfl

/-- A write keeps the canonical form, from the lower of its address and the memory's bound on. -/
theorem wfFrom_memWrite {m : List Host.Cell} {lo : Nat} (hm : Memory.wfFrom lo m = true) (k : Nat) (b : Byte) (hk : lo ≤ k) :
    Memory.wfFrom lo (memWrite m k b) = true := by
  induction m generalizing lo with
  | nil =>
    by_cases hb : b = hbmDefault
    · simp [memWrite, hb, Memory.wfFrom]
    · simp [memWrite, hb, Memory.wfFrom, hk]
  | cons e m ih =>
    obtain ⟨a, c⟩ := e
    have hm0 := hm
    simp only [Memory.wfFrom, Bool.and_eq_true, decide_eq_true_eq] at hm
    simp only [memWrite]
    split
    · rename_i hka
      split
      · exact hm0
      · rename_i hb
        have : k + 1 ≤ a := hka
        simp [Memory.wfFrom, hk, hb, this, hm.1.2, hm.2]
    · split
      · rename_i hka
        subst hka
        split
        · exact wfFrom_mono (by omega) hm.2
        · rename_i hb
          simp [Memory.wfFrom, hk, hb, hm.2]
      · have h3 := ih hm.2 (by omega)
        simp [Memory.wfFrom, hm.1.1, hm.1.2, h3]

/-- A write keeps the canonical form. -/
theorem wf_memWrite {m : List Host.Cell} (hm : Memory.wf m = true) (k : Nat) (b : Byte) : Memory.wf (memWrite m k b) = true :=
  wfFrom_memWrite hm k b (Nat.zero_le _)

/-- What every address of a canonical memory reads as after one byte is written. -/
theorem memRead_memWrite {m : List Host.Cell} (hm : Memory.wf m = true) (k : Nat) (b : Byte) (j : Nat) :
    memRead (memWrite m k b) j = if j = k then b else memRead m j := memRead_memWrite_from hm k b j

/-- A write of bytes keeps the canonical form. -/
theorem wf_memWriteBytes {m : List Host.Cell} (hm : Memory.wf m = true) (a : Nat) (bs : List Byte) :
    Memory.wf (memWriteBytes m a bs) = true := by
  induction bs generalizing m a with
  | nil => exact hm
  | cons b bs ih => exact ih (wf_memWrite hm a b) (a + 1)

/-- Addresses outside the bytes written read as before. -/
theorem memRead_memWriteBytes_outside {m : List Host.Cell} (hm : Memory.wf m = true) (a : Nat) (bs : List Byte) (j : Nat)
    (h : j < a ∨ a + bs.length ≤ j) : memRead (memWriteBytes m a bs) j = memRead m j := by
  induction bs generalizing m a with
  | nil => rfl
  | cons b bs ih =>
    have h2 : j < a + 1 ∨ a + 1 + bs.length ≤ j := by
      simp only [List.length_cons] at h
      omega
    have h3 : j ≠ a := by
      simp only [List.length_cons] at h
      omega
    simp [memWriteBytes, ih (wf_memWrite hm a b) (a + 1) h2, memRead_memWrite hm, h3]

/-- The bytes just written read back. -/
theorem memBytes_memWriteBytes {m : List Host.Cell} (hm : Memory.wf m = true) (a : Nat) (bs : List Byte) :
    memBytes (memWriteBytes m a bs) a bs.length = bs := by
  induction bs generalizing m a with
  | nil => rfl
  | cons b bs ih =>
    have h1 : memRead (memWriteBytes (memWrite m a b) (a + 1) bs) a = b := by
      rw [memRead_memWriteBytes_outside (wf_memWrite hm a b) (a + 1) bs a (by omega), memRead_memWrite hm]
      simp
    simp only [memWriteBytes, List.length_cons, memBytes, h1, ih (wf_memWrite hm a b) (a + 1)]

/-- As many bytes as asked for are read. -/
@[simp] theorem memBytes_length (m : List Host.Cell) (a n : Nat) : (memBytes m a n).length = n := by
  induction n generalizing a with
  | zero => rfl
  | succ n ih => simp [memBytes, ih]

/-- A little-endian number has as many bytes as asked for. -/
@[simp] theorem bytesOf_length (n v : Nat) : (bytesOf n v).length = n := by
  induction n generalizing v with
  | zero => rfl
  | succ n ih => simp [bytesOf, ih]

/-- Bytes of a number give its low bits back. -/
theorem ofBytes_bytesOf (n v : Nat) : ofBytes (bytesOf n v) = v % 2 ^ (8 * n) := by
  induction n generalizing v with
  | zero => simp [bytesOf, ofBytes, Nat.mod_one]
  | succ n ih =>
    have h : 2 ^ (8 * (n + 1)) = 256 * 2 ^ (8 * n) := by rw [Nat.mul_succ, Nat.pow_add]; omega
    rw [bytesOf, ofBytes, ih, h, Nat.mod_mul]
    simp

namespace State

/-- A store keeps HBM's canonical form. -/
theorem hbmStore_wf (s : State) (a : Nat) (bs : List Byte) (h : Memory.wf s.hbm = true) :
    Memory.wf (s.hbmStore a bs).hbm = true := wf_memWriteBytes h a bs

/-- What is stored reads back. -/
theorem hbmStore_reads (s : State) (a : Nat) (bs : List Byte) (h : Memory.wf s.hbm = true) :
    memBytes (s.hbmStore a bs).hbm a bs.length = bs := memBytes_memWriteBytes h a bs

/-- Outside the stored bytes HBM reads as before. -/
theorem hbmStore_outside (s : State) (a : Nat) (bs : List Byte) (h : Memory.wf s.hbm = true) (j : Nat)
    (hj : j < a ∨ a + bs.length ≤ j) : memRead (s.hbmStore a bs).hbm j = memRead s.hbm j :=
  memRead_memWriteBytes_outside h a bs j hj

/-- Reset memory has the canonical form. -/
theorem reset_wf : Memory.wf State.reset.hbm = true := rfl

end State

end Sys2Proof.Machine
end

