-- ==== Sys2Proof/Laws/Maps.lean ====
section
/-! SUPPORT. Laws of the sparse maps and of bit fields: what a map gives after a change, that rising keys keep rising,
and what a field holds after it or another is stored. -/

namespace Sys2Proof.Machine

variable {α : Type}

/-- The key just stored gives the value stored, whatever the map. -/
@[simp] theorem smGet_smSet_self (d : α) (m : SMap α) (k : Nat) (v : α) : smGet d (smSet m k v) k = v := by
  induction m with
  | nil => simp [smSet, smGet]
  | cons e m ih =>
    obtain ⟨j, w⟩ := e
    simp only [smSet]
    split
    · simp [smGet]
    · split
      · simp [smGet]
      · rename_i h1 h2
        simp [smGet, h1, h2, ih]

/-- Every other key gives what it gave. -/
theorem smGet_smSet_of_ne (d : α) (m : SMap α) {k j : Nat} (v : α) (h : j ≠ k) :
    smGet d (smSet m k v) j = smGet d m j := by
  induction m with
  | nil =>
    simp only [smSet, smGet]
    split
    · rfl
    · simp
  | cons e m ih =>
    obtain ⟨i, w⟩ := e
    simp only [smSet]
    split
    · rename_i hk
      simp only [smGet, h, if_false]
      split
      · rename_i hj
        simp [Nat.lt_trans hj hk]
      · rfl
    · split
      · rename_i hk
        subst hk
        simp [smGet, h]
      · simp only [smGet, ih]

/-- Storing at a key decides by the key what every key gives. -/
theorem smGet_smSet (d : α) (m : SMap α) (k j : Nat) (v : α) :
    smGet d (smSet m k v) j = if j = k then v else smGet d m j := by
  by_cases h : j = k
  · subst h
    simp
  · simp [h, smGet_smSet_of_ne d m v h]

/-- A lower bound of a map's keys stays one. -/
theorem smSet_bound (m : SMap α) (k lo : Nat) (v : α) (hk : lo < k) (h : ∀ e ∈ m, lo < e.1) :
    ∀ e ∈ smSet m k v, lo < e.1 := by
  induction m with
  | nil => simpa [smSet] using hk
  | cons e m ih =>
    obtain ⟨j, w⟩ := e
    have hm : ∀ e ∈ m, lo < e.1 := fun e he => h e (List.mem_cons_of_mem _ he)
    have hj : lo < j := h (j, w) (List.mem_cons_self ..)
    simp only [smSet]
    split
    · simpa [hk, hj] using fun a b => hm (a, b)
    · split
      · simpa [hk] using fun a b => hm (a, b)
      · simpa [hj] using fun a b hab => ih hm (a, b) hab

/-- Keys that rise keep rising when a key is stored. -/
theorem smSet_rising (m : SMap α) (k : Nat) (v : α) (h : m.Pairwise fun a b => a.1 < b.1) :
    (smSet m k v).Pairwise fun a b => a.1 < b.1 := by
  induction m with
  | nil => simp [smSet]
  | cons e m ih =>
    obtain ⟨j, w⟩ := e
    obtain ⟨h1, h2⟩ := List.pairwise_cons.mp h
    simp only [smSet]
    split
    · rename_i hk
      refine List.pairwise_cons.mpr ⟨?_, h⟩
      intro e he
      rcases List.mem_cons.mp he with rfl | he
      · exact hk
      · exact Nat.lt_trans hk (h1 e he)
    · split
      · rename_i hk
        subst hk
        exact List.pairwise_cons.mpr ⟨h1, h2⟩
      · refine List.pairwise_cons.mpr ⟨smSet_bound m k j v (by omega) h1, ih h2⟩

/-- Keys that rise keep rising when keys are dropped. -/
theorem smDrop_rising (p : Nat → Bool) (m : SMap α) (h : m.Pairwise fun a b => a.1 < b.1) :
    (smDrop p m).Pairwise fun a b => a.1 < b.1 := h.filter _

/-! ## Bit fields -/

/-- A field holds a number below its width's bound. -/
theorem getBits_lt (v : BitVec 64) (hi lo : Nat) : getBits v hi lo < 2 ^ (hi + 1 - lo) :=
  Nat.mod_lt _ (Nat.two_pow_pos _)

/-- A bit of a field's number is the register's bit. -/
theorem testBit_getBits (v : BitVec 64) (hi lo i : Nat) :
    (getBits v hi lo).testBit i = (decide (i < hi + 1 - lo) && v.getLsbD (lo + i)) := by
  simp [getBits, Nat.testBit_mod_two_pow, Nat.testBit_div_two_pow, BitVec.getLsbD, Nat.add_comm]

/-- A bit of a register after a field is stored: the field's bits are those of the number, the others stay. -/
theorem getLsbD_putBits (v : BitVec 64) {hi lo : Nat} (n i : Nat) (hi64 : hi < 64) (hlo : lo ≤ hi) :
    (putBits v hi lo n).getLsbD i =
      if lo ≤ i ∧ i ≤ hi then n.testBit (i - lo) else v.getLsbD i := by
  simp only [putBits, BitVec.getLsbD_or, BitVec.getLsbD_and, BitVec.getLsbD_not, BitVec.getLsbD_ofNat,
    Nat.testBit_mul_two_pow, Nat.testBit_two_pow_sub_one, Nat.testBit_mod_two_pow]
  by_cases h : lo ≤ i
  · by_cases h2 : i ≤ hi
    · have h3 : i - lo < hi + 1 - lo := by omega
      have h4 : i < 64 := by omega
      simp [h, h2, h3, h4]
    · have h3 : ¬ i - lo < hi + 1 - lo := by omega
      by_cases h4 : i < 64
      · simp [h, h2, h3, h4]
      · simp [h, h2, h3, h4, BitVec.getLsbD_of_ge v i (by omega)]
  · by_cases h4 : i < 64
    · simp [h, h4]
    · simp [h, h4, BitVec.getLsbD_of_ge v i (by omega)]

/-- A field just stored holds the number's low bits. -/
theorem getBits_putBits_self (v : BitVec 64) {hi lo : Nat} (n : Nat) (hi64 : hi < 64) (hlo : lo ≤ hi) :
    getBits (putBits v hi lo n) hi lo = n % 2 ^ (hi + 1 - lo) := by
  apply Nat.eq_of_testBit_eq
  intro i
  rw [testBit_getBits, getLsbD_putBits v n _ hi64 hlo, Nat.testBit_mod_two_pow]
  by_cases h : i < hi + 1 - lo
  · have h2 : lo + i ≤ hi := by omega
    simp [h, h2]
  · simp [h]

/-- A field apart from the one stored keeps its number. -/
theorem getBits_putBits_apart (v : BitVec 64) {hi lo : Nat} (n : Nat) (a b : Nat) (hi64 : hi < 64) (hlo : lo ≤ hi)
    (h : hi < b ∨ a < lo) : getBits (putBits v hi lo n) a b = getBits v a b := by
  apply Nat.eq_of_testBit_eq
  intro i
  rw [testBit_getBits, testBit_getBits, getLsbD_putBits v n _ hi64 hlo]
  by_cases hi2 : i < a + 1 - b
  · have : ¬ (lo ≤ b + i ∧ b + i ≤ hi) := by omega
    simp [hi2, this]
  · simp [hi2]

end Sys2Proof.Machine
end

