-- ==== Sys2Proof/Laws/State.lean ====
section
/-! SUPPORT. Laws of the state's update operations: one lemma per field for each operation, so that no proof unfolds a
record update, and what each accessor gives after each update. -/

namespace Sys2Proof.Machine.State

/-! ### `setReg` -/

@[simp] theorem setReg_pending (s : State) (off : Nat) (v : BitVec 64) : (s.setReg off v).pending = s.pending := rfl
@[simp] theorem setReg_out (s : State) (off : Nat) (v : BitVec 64) : (s.setReg off v).out = s.out := rfl
@[simp] theorem setReg_free (s : State) (off : Nat) (v : BitVec 64) : (s.setReg off v).free = s.free := rfl
@[simp] theorem setReg_cfg (s : State) (off : Nat) (v : BitVec 64) : (s.setReg off v).cfg = s.cfg := rfl
@[simp] theorem setReg_hbm (s : State) (off : Nat) (v : BitVec 64) : (s.setReg off v).hbm = s.hbm := rfl
@[simp] theorem setReg_hbmMeta (s : State) (off : Nat) (v : BitVec 64) : (s.setReg off v).hbmMeta = s.hbmMeta := rfl
@[simp] theorem setReg_setNow (s : State) (off : Nat) (v : BitVec 64) : (s.setReg off v).setNow = s.setNow := rfl
@[simp] theorem setReg_time (s : State) (off : Nat) (v : BitVec 64) : (s.setReg off v).time = s.time := rfl
@[simp] theorem setReg_plane (s : State) (off : Nat) (v : BitVec 64) : (s.setReg off v).plane = s.plane := rfl
@[simp] theorem setReg_se (s : State) (off : Nat) (v : BitVec 64) : (s.setReg off v).se = s.se := rfl
@[simp] theorem setReg_ports (s : State) (off : Nat) (v : BitVec 64) : (s.setReg off v).ports = s.ports := rfl
@[simp] theorem setReg_sch (s : State) (off : Nat) (v : BitVec 64) : (s.setReg off v).sch = s.sch := rfl
@[simp] theorem setReg_reader (s : State) (off : Nat) (v : BitVec 64) : (s.setReg off v).reader = s.reader := rfl
@[simp] theorem setReg_power (s : State) (off : Nat) (v : BitVec 64) : (s.setReg off v).power = s.power := rfl
@[simp] theorem setReg_boot (s : State) (off : Nat) (v : BitVec 64) : (s.setReg off v).boot = s.boot := rfl

/-! ### `setFld` -/

@[simp] theorem setFld_pending (s : State) (f : Fld) (n : Nat) : (s.setFld f n).pending = s.pending := rfl
@[simp] theorem setFld_out (s : State) (f : Fld) (n : Nat) : (s.setFld f n).out = s.out := rfl
@[simp] theorem setFld_free (s : State) (f : Fld) (n : Nat) : (s.setFld f n).free = s.free := rfl
@[simp] theorem setFld_cfg (s : State) (f : Fld) (n : Nat) : (s.setFld f n).cfg = s.cfg := rfl
@[simp] theorem setFld_hbm (s : State) (f : Fld) (n : Nat) : (s.setFld f n).hbm = s.hbm := rfl
@[simp] theorem setFld_hbmMeta (s : State) (f : Fld) (n : Nat) : (s.setFld f n).hbmMeta = s.hbmMeta := rfl
@[simp] theorem setFld_setNow (s : State) (f : Fld) (n : Nat) : (s.setFld f n).setNow = s.setNow := rfl
@[simp] theorem setFld_time (s : State) (f : Fld) (n : Nat) : (s.setFld f n).time = s.time := rfl
@[simp] theorem setFld_plane (s : State) (f : Fld) (n : Nat) : (s.setFld f n).plane = s.plane := rfl
@[simp] theorem setFld_se (s : State) (f : Fld) (n : Nat) : (s.setFld f n).se = s.se := rfl
@[simp] theorem setFld_ports (s : State) (f : Fld) (n : Nat) : (s.setFld f n).ports = s.ports := rfl
@[simp] theorem setFld_sch (s : State) (f : Fld) (n : Nat) : (s.setFld f n).sch = s.sch := rfl
@[simp] theorem setFld_reader (s : State) (f : Fld) (n : Nat) : (s.setFld f n).reader = s.reader := rfl
@[simp] theorem setFld_power (s : State) (f : Fld) (n : Nat) : (s.setFld f n).power = s.power := rfl
@[simp] theorem setFld_boot (s : State) (f : Fld) (n : Nat) : (s.setFld f n).boot = s.boot := rfl

/-! ### `setFlag` -/

@[simp] theorem setFlag_pending (s : State) (f : Fld) : (s.setFlag f).pending = s.pending := rfl
@[simp] theorem setFlag_out (s : State) (f : Fld) : (s.setFlag f).out = s.out := rfl
@[simp] theorem setFlag_free (s : State) (f : Fld) : (s.setFlag f).free = s.free := rfl
@[simp] theorem setFlag_cfg (s : State) (f : Fld) : (s.setFlag f).cfg = s.cfg := rfl
@[simp] theorem setFlag_hbm (s : State) (f : Fld) : (s.setFlag f).hbm = s.hbm := rfl
@[simp] theorem setFlag_hbmMeta (s : State) (f : Fld) : (s.setFlag f).hbmMeta = s.hbmMeta := rfl
@[simp] theorem setFlag_time (s : State) (f : Fld) : (s.setFlag f).time = s.time := rfl
@[simp] theorem setFlag_plane (s : State) (f : Fld) : (s.setFlag f).plane = s.plane := rfl
@[simp] theorem setFlag_se (s : State) (f : Fld) : (s.setFlag f).se = s.se := rfl
@[simp] theorem setFlag_ports (s : State) (f : Fld) : (s.setFlag f).ports = s.ports := rfl
@[simp] theorem setFlag_sch (s : State) (f : Fld) : (s.setFlag f).sch = s.sch := rfl
@[simp] theorem setFlag_reader (s : State) (f : Fld) : (s.setFlag f).reader = s.reader := rfl
@[simp] theorem setFlag_power (s : State) (f : Fld) : (s.setFlag f).power = s.power := rfl
@[simp] theorem setFlag_boot (s : State) (f : Fld) : (s.setFlag f).boot = s.boot := rfl

/-! ### `noteSet` -/

@[simp] theorem noteSet_pending (s : State) (off : Nat) (bits : BitVec 64) : (s.noteSet off bits).pending = s.pending := rfl
@[simp] theorem noteSet_out (s : State) (off : Nat) (bits : BitVec 64) : (s.noteSet off bits).out = s.out := rfl
@[simp] theorem noteSet_free (s : State) (off : Nat) (bits : BitVec 64) : (s.noteSet off bits).free = s.free := rfl
@[simp] theorem noteSet_cfg (s : State) (off : Nat) (bits : BitVec 64) : (s.noteSet off bits).cfg = s.cfg := rfl
@[simp] theorem noteSet_hbm (s : State) (off : Nat) (bits : BitVec 64) : (s.noteSet off bits).hbm = s.hbm := rfl
@[simp] theorem noteSet_hbmMeta (s : State) (off : Nat) (bits : BitVec 64) : (s.noteSet off bits).hbmMeta = s.hbmMeta := rfl
@[simp] theorem noteSet_bar0 (s : State) (off : Nat) (bits : BitVec 64) : (s.noteSet off bits).bar0 = s.bar0 := rfl
@[simp] theorem noteSet_time (s : State) (off : Nat) (bits : BitVec 64) : (s.noteSet off bits).time = s.time := rfl
@[simp] theorem noteSet_plane (s : State) (off : Nat) (bits : BitVec 64) : (s.noteSet off bits).plane = s.plane := rfl
@[simp] theorem noteSet_se (s : State) (off : Nat) (bits : BitVec 64) : (s.noteSet off bits).se = s.se := rfl
@[simp] theorem noteSet_ports (s : State) (off : Nat) (bits : BitVec 64) : (s.noteSet off bits).ports = s.ports := rfl
@[simp] theorem noteSet_sch (s : State) (off : Nat) (bits : BitVec 64) : (s.noteSet off bits).sch = s.sch := rfl
@[simp] theorem noteSet_reader (s : State) (off : Nat) (bits : BitVec 64) : (s.noteSet off bits).reader = s.reader := rfl
@[simp] theorem noteSet_power (s : State) (off : Nat) (bits : BitVec 64) : (s.noteSet off bits).power = s.power := rfl
@[simp] theorem noteSet_boot (s : State) (off : Nat) (bits : BitVec 64) : (s.noteSet off bits).boot = s.boot := rfl

/-! ### `incSat` -/

@[simp] theorem incSat_pending (s : State) (f : Fld) (k : Nat) : (s.incSat f k).pending = s.pending := rfl
@[simp] theorem incSat_out (s : State) (f : Fld) (k : Nat) : (s.incSat f k).out = s.out := rfl
@[simp] theorem incSat_free (s : State) (f : Fld) (k : Nat) : (s.incSat f k).free = s.free := rfl
@[simp] theorem incSat_cfg (s : State) (f : Fld) (k : Nat) : (s.incSat f k).cfg = s.cfg := rfl
@[simp] theorem incSat_hbm (s : State) (f : Fld) (k : Nat) : (s.incSat f k).hbm = s.hbm := rfl
@[simp] theorem incSat_hbmMeta (s : State) (f : Fld) (k : Nat) : (s.incSat f k).hbmMeta = s.hbmMeta := rfl
@[simp] theorem incSat_setNow (s : State) (f : Fld) (k : Nat) : (s.incSat f k).setNow = s.setNow := rfl
@[simp] theorem incSat_time (s : State) (f : Fld) (k : Nat) : (s.incSat f k).time = s.time := rfl
@[simp] theorem incSat_plane (s : State) (f : Fld) (k : Nat) : (s.incSat f k).plane = s.plane := rfl
@[simp] theorem incSat_se (s : State) (f : Fld) (k : Nat) : (s.incSat f k).se = s.se := rfl
@[simp] theorem incSat_ports (s : State) (f : Fld) (k : Nat) : (s.incSat f k).ports = s.ports := rfl
@[simp] theorem incSat_sch (s : State) (f : Fld) (k : Nat) : (s.incSat f k).sch = s.sch := rfl
@[simp] theorem incSat_reader (s : State) (f : Fld) (k : Nat) : (s.incSat f k).reader = s.reader := rfl
@[simp] theorem incSat_power (s : State) (f : Fld) (k : Nat) : (s.incSat f k).power = s.power := rfl
@[simp] theorem incSat_boot (s : State) (f : Fld) (k : Nat) : (s.incSat f k).boot = s.boot := rfl

/-! ### `incWrap` -/

@[simp] theorem incWrap_pending (s : State) (f : Fld) (k : Nat) : (s.incWrap f k).pending = s.pending := rfl
@[simp] theorem incWrap_out (s : State) (f : Fld) (k : Nat) : (s.incWrap f k).out = s.out := rfl
@[simp] theorem incWrap_free (s : State) (f : Fld) (k : Nat) : (s.incWrap f k).free = s.free := rfl
@[simp] theorem incWrap_cfg (s : State) (f : Fld) (k : Nat) : (s.incWrap f k).cfg = s.cfg := rfl
@[simp] theorem incWrap_hbm (s : State) (f : Fld) (k : Nat) : (s.incWrap f k).hbm = s.hbm := rfl
@[simp] theorem incWrap_hbmMeta (s : State) (f : Fld) (k : Nat) : (s.incWrap f k).hbmMeta = s.hbmMeta := rfl
@[simp] theorem incWrap_setNow (s : State) (f : Fld) (k : Nat) : (s.incWrap f k).setNow = s.setNow := rfl
@[simp] theorem incWrap_time (s : State) (f : Fld) (k : Nat) : (s.incWrap f k).time = s.time := rfl
@[simp] theorem incWrap_plane (s : State) (f : Fld) (k : Nat) : (s.incWrap f k).plane = s.plane := rfl
@[simp] theorem incWrap_se (s : State) (f : Fld) (k : Nat) : (s.incWrap f k).se = s.se := rfl
@[simp] theorem incWrap_ports (s : State) (f : Fld) (k : Nat) : (s.incWrap f k).ports = s.ports := rfl
@[simp] theorem incWrap_sch (s : State) (f : Fld) (k : Nat) : (s.incWrap f k).sch = s.sch := rfl
@[simp] theorem incWrap_reader (s : State) (f : Fld) (k : Nat) : (s.incWrap f k).reader = s.reader := rfl
@[simp] theorem incWrap_power (s : State) (f : Fld) (k : Nat) : (s.incWrap f k).power = s.power := rfl
@[simp] theorem incWrap_boot (s : State) (f : Fld) (k : Nat) : (s.incWrap f k).boot = s.boot := rfl

/-! ### `resetReg` -/

@[simp] theorem resetReg_pending (s : State) (off : Nat) : (s.resetReg off).pending = s.pending := rfl
@[simp] theorem resetReg_out (s : State) (off : Nat) : (s.resetReg off).out = s.out := rfl
@[simp] theorem resetReg_free (s : State) (off : Nat) : (s.resetReg off).free = s.free := rfl
@[simp] theorem resetReg_cfg (s : State) (off : Nat) : (s.resetReg off).cfg = s.cfg := rfl
@[simp] theorem resetReg_hbm (s : State) (off : Nat) : (s.resetReg off).hbm = s.hbm := rfl
@[simp] theorem resetReg_hbmMeta (s : State) (off : Nat) : (s.resetReg off).hbmMeta = s.hbmMeta := rfl
@[simp] theorem resetReg_setNow (s : State) (off : Nat) : (s.resetReg off).setNow = s.setNow := rfl
@[simp] theorem resetReg_time (s : State) (off : Nat) : (s.resetReg off).time = s.time := rfl
@[simp] theorem resetReg_plane (s : State) (off : Nat) : (s.resetReg off).plane = s.plane := rfl
@[simp] theorem resetReg_se (s : State) (off : Nat) : (s.resetReg off).se = s.se := rfl
@[simp] theorem resetReg_ports (s : State) (off : Nat) : (s.resetReg off).ports = s.ports := rfl
@[simp] theorem resetReg_sch (s : State) (off : Nat) : (s.resetReg off).sch = s.sch := rfl
@[simp] theorem resetReg_reader (s : State) (off : Nat) : (s.resetReg off).reader = s.reader := rfl
@[simp] theorem resetReg_power (s : State) (off : Nat) : (s.resetReg off).power = s.power := rfl
@[simp] theorem resetReg_boot (s : State) (off : Nat) : (s.resetReg off).boot = s.boot := rfl

/-! ### `tookFree` -/

@[simp] theorem tookFree_pending (s : State) : (s.tookFree).pending = s.pending := rfl
@[simp] theorem tookFree_out (s : State) : (s.tookFree).out = s.out := rfl
@[simp] theorem tookFree_cfg (s : State) : (s.tookFree).cfg = s.cfg := rfl
@[simp] theorem tookFree_hbm (s : State) : (s.tookFree).hbm = s.hbm := rfl
@[simp] theorem tookFree_hbmMeta (s : State) : (s.tookFree).hbmMeta = s.hbmMeta := rfl
@[simp] theorem tookFree_bar0 (s : State) : (s.tookFree).bar0 = s.bar0 := rfl
@[simp] theorem tookFree_setNow (s : State) : (s.tookFree).setNow = s.setNow := rfl
@[simp] theorem tookFree_time (s : State) : (s.tookFree).time = s.time := rfl
@[simp] theorem tookFree_plane (s : State) : (s.tookFree).plane = s.plane := rfl
@[simp] theorem tookFree_se (s : State) : (s.tookFree).se = s.se := rfl
@[simp] theorem tookFree_ports (s : State) : (s.tookFree).ports = s.ports := rfl
@[simp] theorem tookFree_sch (s : State) : (s.tookFree).sch = s.sch := rfl
@[simp] theorem tookFree_reader (s : State) : (s.tookFree).reader = s.reader := rfl
@[simp] theorem tookFree_power (s : State) : (s.tookFree).power = s.power := rfl
@[simp] theorem tookFree_boot (s : State) : (s.tookFree).boot = s.boot := rfl

/-! ### `addTotal` -/

@[simp] theorem addTotal_pending (s : State) (i n : Nat) : (s.addTotal i n).pending = s.pending := rfl
@[simp] theorem addTotal_out (s : State) (i n : Nat) : (s.addTotal i n).out = s.out := rfl
@[simp] theorem addTotal_free (s : State) (i n : Nat) : (s.addTotal i n).free = s.free := rfl
@[simp] theorem addTotal_cfg (s : State) (i n : Nat) : (s.addTotal i n).cfg = s.cfg := rfl
@[simp] theorem addTotal_hbm (s : State) (i n : Nat) : (s.addTotal i n).hbm = s.hbm := rfl
@[simp] theorem addTotal_hbmMeta (s : State) (i n : Nat) : (s.addTotal i n).hbmMeta = s.hbmMeta := rfl
@[simp] theorem addTotal_bar0 (s : State) (i n : Nat) : (s.addTotal i n).bar0 = s.bar0 := rfl
@[simp] theorem addTotal_setNow (s : State) (i n : Nat) : (s.addTotal i n).setNow = s.setNow := rfl
@[simp] theorem addTotal_time (s : State) (i n : Nat) : (s.addTotal i n).time = s.time := rfl
@[simp] theorem addTotal_plane (s : State) (i n : Nat) : (s.addTotal i n).plane = s.plane := rfl
@[simp] theorem addTotal_se (s : State) (i n : Nat) : (s.addTotal i n).se = s.se := rfl
@[simp] theorem addTotal_ports (s : State) (i n : Nat) : (s.addTotal i n).ports = s.ports := rfl
@[simp] theorem addTotal_sch (s : State) (i n : Nat) : (s.addTotal i n).sch = s.sch := rfl
@[simp] theorem addTotal_power (s : State) (i n : Nat) : (s.addTotal i n).power = s.power := rfl
@[simp] theorem addTotal_boot (s : State) (i n : Nat) : (s.addTotal i n).boot = s.boot := rfl

/-! ### `countRead` -/

@[simp] theorem countRead_pending (s : State) (a n : Nat) : (s.countRead a n).pending = s.pending := rfl
@[simp] theorem countRead_out (s : State) (a n : Nat) : (s.countRead a n).out = s.out := rfl
@[simp] theorem countRead_free (s : State) (a n : Nat) : (s.countRead a n).free = s.free := rfl
@[simp] theorem countRead_cfg (s : State) (a n : Nat) : (s.countRead a n).cfg = s.cfg := rfl
@[simp] theorem countRead_hbm (s : State) (a n : Nat) : (s.countRead a n).hbm = s.hbm := rfl
@[simp] theorem countRead_hbmMeta (s : State) (a n : Nat) : (s.countRead a n).hbmMeta = s.hbmMeta := rfl
@[simp] theorem countRead_bar0 (s : State) (a n : Nat) : (s.countRead a n).bar0 = s.bar0 := rfl
@[simp] theorem countRead_setNow (s : State) (a n : Nat) : (s.countRead a n).setNow = s.setNow := rfl
@[simp] theorem countRead_time (s : State) (a n : Nat) : (s.countRead a n).time = s.time := rfl
@[simp] theorem countRead_plane (s : State) (a n : Nat) : (s.countRead a n).plane = s.plane := rfl
@[simp] theorem countRead_se (s : State) (a n : Nat) : (s.countRead a n).se = s.se := rfl
@[simp] theorem countRead_ports (s : State) (a n : Nat) : (s.countRead a n).ports = s.ports := rfl
@[simp] theorem countRead_sch (s : State) (a n : Nat) : (s.countRead a n).sch = s.sch := rfl
@[simp] theorem countRead_power (s : State) (a n : Nat) : (s.countRead a n).power = s.power := rfl
@[simp] theorem countRead_boot (s : State) (a n : Nat) : (s.countRead a n).boot = s.boot := rfl

/-! ### `countWrite` -/

@[simp] theorem countWrite_pending (s : State) (a n : Nat) : (s.countWrite a n).pending = s.pending := rfl
@[simp] theorem countWrite_out (s : State) (a n : Nat) : (s.countWrite a n).out = s.out := rfl
@[simp] theorem countWrite_free (s : State) (a n : Nat) : (s.countWrite a n).free = s.free := rfl
@[simp] theorem countWrite_cfg (s : State) (a n : Nat) : (s.countWrite a n).cfg = s.cfg := rfl
@[simp] theorem countWrite_hbm (s : State) (a n : Nat) : (s.countWrite a n).hbm = s.hbm := rfl
@[simp] theorem countWrite_hbmMeta (s : State) (a n : Nat) : (s.countWrite a n).hbmMeta = s.hbmMeta := rfl
@[simp] theorem countWrite_bar0 (s : State) (a n : Nat) : (s.countWrite a n).bar0 = s.bar0 := rfl
@[simp] theorem countWrite_setNow (s : State) (a n : Nat) : (s.countWrite a n).setNow = s.setNow := rfl
@[simp] theorem countWrite_time (s : State) (a n : Nat) : (s.countWrite a n).time = s.time := rfl
@[simp] theorem countWrite_plane (s : State) (a n : Nat) : (s.countWrite a n).plane = s.plane := rfl
@[simp] theorem countWrite_se (s : State) (a n : Nat) : (s.countWrite a n).se = s.se := rfl
@[simp] theorem countWrite_ports (s : State) (a n : Nat) : (s.countWrite a n).ports = s.ports := rfl
@[simp] theorem countWrite_sch (s : State) (a n : Nat) : (s.countWrite a n).sch = s.sch := rfl
@[simp] theorem countWrite_power (s : State) (a n : Nat) : (s.countWrite a n).power = s.power := rfl
@[simp] theorem countWrite_boot (s : State) (a n : Nat) : (s.countWrite a n).boot = s.boot := rfl

/-! ### `setCore` -/

@[simp] theorem setCore_pending (s : State) (c : CoreId) (k : Core) : (s.setCore c k).pending = s.pending := rfl
@[simp] theorem setCore_out (s : State) (c : CoreId) (k : Core) : (s.setCore c k).out = s.out := rfl
@[simp] theorem setCore_free (s : State) (c : CoreId) (k : Core) : (s.setCore c k).free = s.free := rfl
@[simp] theorem setCore_cfg (s : State) (c : CoreId) (k : Core) : (s.setCore c k).cfg = s.cfg := rfl
@[simp] theorem setCore_hbm (s : State) (c : CoreId) (k : Core) : (s.setCore c k).hbm = s.hbm := rfl
@[simp] theorem setCore_hbmMeta (s : State) (c : CoreId) (k : Core) : (s.setCore c k).hbmMeta = s.hbmMeta := rfl
@[simp] theorem setCore_bar0 (s : State) (c : CoreId) (k : Core) : (s.setCore c k).bar0 = s.bar0 := rfl
@[simp] theorem setCore_setNow (s : State) (c : CoreId) (k : Core) : (s.setCore c k).setNow = s.setNow := rfl
@[simp] theorem setCore_time (s : State) (c : CoreId) (k : Core) : (s.setCore c k).time = s.time := rfl
@[simp] theorem setCore_se (s : State) (c : CoreId) (k : Core) : (s.setCore c k).se = s.se := rfl
@[simp] theorem setCore_ports (s : State) (c : CoreId) (k : Core) : (s.setCore c k).ports = s.ports := rfl
@[simp] theorem setCore_sch (s : State) (c : CoreId) (k : Core) : (s.setCore c k).sch = s.sch := rfl
@[simp] theorem setCore_reader (s : State) (c : CoreId) (k : Core) : (s.setCore c k).reader = s.reader := rfl
@[simp] theorem setCore_power (s : State) (c : CoreId) (k : Core) : (s.setCore c k).power = s.power := rfl
@[simp] theorem setCore_boot (s : State) (c : CoreId) (k : Core) : (s.setCore c k).boot = s.boot := rfl
@[simp] theorem setCore_plane_hamperDflt (s : State) (c : CoreId) (k : Core) : (s.setCore c k).plane.hamperDflt = s.plane.hamperDflt := rfl
@[simp] theorem setCore_plane_hampers (s : State) (c : CoreId) (k : Core) : (s.setCore c k).plane.hampers = s.plane.hampers := rfl
@[simp] theorem setCore_plane_groves (s : State) (c : CoreId) (k : Core) : (s.setCore c k).plane.groves = s.plane.groves := rfl
@[simp] theorem setCore_plane_mesh (s : State) (c : CoreId) (k : Core) : (s.setCore c k).plane.mesh = s.plane.mesh := rfl
@[simp] theorem setCore_plane_svc (s : State) (c : CoreId) (k : Core) : (s.setCore c k).plane.svc = s.plane.svc := rfl
@[simp] theorem setCore_plane_abort (s : State) (c : CoreId) (k : Core) : (s.setCore c k).plane.abort = s.plane.abort := rfl

/-! ### `setHamper` -/

@[simp] theorem setHamper_pending (s : State) (h : HamperId) (k : Hamper) : (s.setHamper h k).pending = s.pending := rfl
@[simp] theorem setHamper_out (s : State) (h : HamperId) (k : Hamper) : (s.setHamper h k).out = s.out := rfl
@[simp] theorem setHamper_free (s : State) (h : HamperId) (k : Hamper) : (s.setHamper h k).free = s.free := rfl
@[simp] theorem setHamper_cfg (s : State) (h : HamperId) (k : Hamper) : (s.setHamper h k).cfg = s.cfg := rfl
@[simp] theorem setHamper_hbm (s : State) (h : HamperId) (k : Hamper) : (s.setHamper h k).hbm = s.hbm := rfl
@[simp] theorem setHamper_hbmMeta (s : State) (h : HamperId) (k : Hamper) : (s.setHamper h k).hbmMeta = s.hbmMeta := rfl
@[simp] theorem setHamper_bar0 (s : State) (h : HamperId) (k : Hamper) : (s.setHamper h k).bar0 = s.bar0 := rfl
@[simp] theorem setHamper_setNow (s : State) (h : HamperId) (k : Hamper) : (s.setHamper h k).setNow = s.setNow := rfl
@[simp] theorem setHamper_time (s : State) (h : HamperId) (k : Hamper) : (s.setHamper h k).time = s.time := rfl
@[simp] theorem setHamper_se (s : State) (h : HamperId) (k : Hamper) : (s.setHamper h k).se = s.se := rfl
@[simp] theorem setHamper_ports (s : State) (h : HamperId) (k : Hamper) : (s.setHamper h k).ports = s.ports := rfl
@[simp] theorem setHamper_sch (s : State) (h : HamperId) (k : Hamper) : (s.setHamper h k).sch = s.sch := rfl
@[simp] theorem setHamper_reader (s : State) (h : HamperId) (k : Hamper) : (s.setHamper h k).reader = s.reader := rfl
@[simp] theorem setHamper_power (s : State) (h : HamperId) (k : Hamper) : (s.setHamper h k).power = s.power := rfl
@[simp] theorem setHamper_boot (s : State) (h : HamperId) (k : Hamper) : (s.setHamper h k).boot = s.boot := rfl
@[simp] theorem setHamper_plane_cores (s : State) (h : HamperId) (k : Hamper) : (s.setHamper h k).plane.cores = s.plane.cores := rfl
@[simp] theorem setHamper_plane_hamperDflt (s : State) (h : HamperId) (k : Hamper) : (s.setHamper h k).plane.hamperDflt = s.plane.hamperDflt := rfl
@[simp] theorem setHamper_plane_groves (s : State) (h : HamperId) (k : Hamper) : (s.setHamper h k).plane.groves = s.plane.groves := rfl
@[simp] theorem setHamper_plane_mesh (s : State) (h : HamperId) (k : Hamper) : (s.setHamper h k).plane.mesh = s.plane.mesh := rfl
@[simp] theorem setHamper_plane_svc (s : State) (h : HamperId) (k : Hamper) : (s.setHamper h k).plane.svc = s.plane.svc := rfl
@[simp] theorem setHamper_plane_abort (s : State) (h : HamperId) (k : Hamper) : (s.setHamper h k).plane.abort = s.plane.abort := rfl

/-! ### `setGrove` -/

@[simp] theorem setGrove_pending (s : State) (g : GroveId) (k : Grove) : (s.setGrove g k).pending = s.pending := rfl
@[simp] theorem setGrove_out (s : State) (g : GroveId) (k : Grove) : (s.setGrove g k).out = s.out := rfl
@[simp] theorem setGrove_free (s : State) (g : GroveId) (k : Grove) : (s.setGrove g k).free = s.free := rfl
@[simp] theorem setGrove_cfg (s : State) (g : GroveId) (k : Grove) : (s.setGrove g k).cfg = s.cfg := rfl
@[simp] theorem setGrove_hbm (s : State) (g : GroveId) (k : Grove) : (s.setGrove g k).hbm = s.hbm := rfl
@[simp] theorem setGrove_hbmMeta (s : State) (g : GroveId) (k : Grove) : (s.setGrove g k).hbmMeta = s.hbmMeta := rfl
@[simp] theorem setGrove_bar0 (s : State) (g : GroveId) (k : Grove) : (s.setGrove g k).bar0 = s.bar0 := rfl
@[simp] theorem setGrove_setNow (s : State) (g : GroveId) (k : Grove) : (s.setGrove g k).setNow = s.setNow := rfl
@[simp] theorem setGrove_time (s : State) (g : GroveId) (k : Grove) : (s.setGrove g k).time = s.time := rfl
@[simp] theorem setGrove_se (s : State) (g : GroveId) (k : Grove) : (s.setGrove g k).se = s.se := rfl
@[simp] theorem setGrove_ports (s : State) (g : GroveId) (k : Grove) : (s.setGrove g k).ports = s.ports := rfl
@[simp] theorem setGrove_sch (s : State) (g : GroveId) (k : Grove) : (s.setGrove g k).sch = s.sch := rfl
@[simp] theorem setGrove_reader (s : State) (g : GroveId) (k : Grove) : (s.setGrove g k).reader = s.reader := rfl
@[simp] theorem setGrove_power (s : State) (g : GroveId) (k : Grove) : (s.setGrove g k).power = s.power := rfl
@[simp] theorem setGrove_boot (s : State) (g : GroveId) (k : Grove) : (s.setGrove g k).boot = s.boot := rfl
@[simp] theorem setGrove_plane_cores (s : State) (g : GroveId) (k : Grove) : (s.setGrove g k).plane.cores = s.plane.cores := rfl
@[simp] theorem setGrove_plane_hamperDflt (s : State) (g : GroveId) (k : Grove) : (s.setGrove g k).plane.hamperDflt = s.plane.hamperDflt := rfl
@[simp] theorem setGrove_plane_hampers (s : State) (g : GroveId) (k : Grove) : (s.setGrove g k).plane.hampers = s.plane.hampers := rfl
@[simp] theorem setGrove_plane_mesh (s : State) (g : GroveId) (k : Grove) : (s.setGrove g k).plane.mesh = s.plane.mesh := rfl
@[simp] theorem setGrove_plane_svc (s : State) (g : GroveId) (k : Grove) : (s.setGrove g k).plane.svc = s.plane.svc := rfl
@[simp] theorem setGrove_plane_abort (s : State) (g : GroveId) (k : Grove) : (s.setGrove g k).plane.abort = s.plane.abort := rfl

/-! ### `setMesh` -/

@[simp] theorem setMesh_pending (s : State) (m : Mesh) : (s.setMesh m).pending = s.pending := rfl
@[simp] theorem setMesh_out (s : State) (m : Mesh) : (s.setMesh m).out = s.out := rfl
@[simp] theorem setMesh_free (s : State) (m : Mesh) : (s.setMesh m).free = s.free := rfl
@[simp] theorem setMesh_cfg (s : State) (m : Mesh) : (s.setMesh m).cfg = s.cfg := rfl
@[simp] theorem setMesh_hbm (s : State) (m : Mesh) : (s.setMesh m).hbm = s.hbm := rfl
@[simp] theorem setMesh_hbmMeta (s : State) (m : Mesh) : (s.setMesh m).hbmMeta = s.hbmMeta := rfl
@[simp] theorem setMesh_bar0 (s : State) (m : Mesh) : (s.setMesh m).bar0 = s.bar0 := rfl
@[simp] theorem setMesh_setNow (s : State) (m : Mesh) : (s.setMesh m).setNow = s.setNow := rfl
@[simp] theorem setMesh_time (s : State) (m : Mesh) : (s.setMesh m).time = s.time := rfl
@[simp] theorem setMesh_se (s : State) (m : Mesh) : (s.setMesh m).se = s.se := rfl
@[simp] theorem setMesh_ports (s : State) (m : Mesh) : (s.setMesh m).ports = s.ports := rfl
@[simp] theorem setMesh_sch (s : State) (m : Mesh) : (s.setMesh m).sch = s.sch := rfl
@[simp] theorem setMesh_reader (s : State) (m : Mesh) : (s.setMesh m).reader = s.reader := rfl
@[simp] theorem setMesh_power (s : State) (m : Mesh) : (s.setMesh m).power = s.power := rfl
@[simp] theorem setMesh_boot (s : State) (m : Mesh) : (s.setMesh m).boot = s.boot := rfl
@[simp] theorem setMesh_plane_cores (s : State) (m : Mesh) : (s.setMesh m).plane.cores = s.plane.cores := rfl
@[simp] theorem setMesh_plane_hamperDflt (s : State) (m : Mesh) : (s.setMesh m).plane.hamperDflt = s.plane.hamperDflt := rfl
@[simp] theorem setMesh_plane_hampers (s : State) (m : Mesh) : (s.setMesh m).plane.hampers = s.plane.hampers := rfl
@[simp] theorem setMesh_plane_groves (s : State) (m : Mesh) : (s.setMesh m).plane.groves = s.plane.groves := rfl
@[simp] theorem setMesh_plane_svc (s : State) (m : Mesh) : (s.setMesh m).plane.svc = s.plane.svc := rfl
@[simp] theorem setMesh_plane_abort (s : State) (m : Mesh) : (s.setMesh m).plane.abort = s.plane.abort := rfl

/-! ### `setSvc` -/

@[simp] theorem setSvc_pending (s : State) (xs : List SvcAccess) : (s.setSvc xs).pending = s.pending := rfl
@[simp] theorem setSvc_out (s : State) (xs : List SvcAccess) : (s.setSvc xs).out = s.out := rfl
@[simp] theorem setSvc_free (s : State) (xs : List SvcAccess) : (s.setSvc xs).free = s.free := rfl
@[simp] theorem setSvc_cfg (s : State) (xs : List SvcAccess) : (s.setSvc xs).cfg = s.cfg := rfl
@[simp] theorem setSvc_hbm (s : State) (xs : List SvcAccess) : (s.setSvc xs).hbm = s.hbm := rfl
@[simp] theorem setSvc_hbmMeta (s : State) (xs : List SvcAccess) : (s.setSvc xs).hbmMeta = s.hbmMeta := rfl
@[simp] theorem setSvc_bar0 (s : State) (xs : List SvcAccess) : (s.setSvc xs).bar0 = s.bar0 := rfl
@[simp] theorem setSvc_setNow (s : State) (xs : List SvcAccess) : (s.setSvc xs).setNow = s.setNow := rfl
@[simp] theorem setSvc_time (s : State) (xs : List SvcAccess) : (s.setSvc xs).time = s.time := rfl
@[simp] theorem setSvc_se (s : State) (xs : List SvcAccess) : (s.setSvc xs).se = s.se := rfl
@[simp] theorem setSvc_ports (s : State) (xs : List SvcAccess) : (s.setSvc xs).ports = s.ports := rfl
@[simp] theorem setSvc_sch (s : State) (xs : List SvcAccess) : (s.setSvc xs).sch = s.sch := rfl
@[simp] theorem setSvc_reader (s : State) (xs : List SvcAccess) : (s.setSvc xs).reader = s.reader := rfl
@[simp] theorem setSvc_power (s : State) (xs : List SvcAccess) : (s.setSvc xs).power = s.power := rfl
@[simp] theorem setSvc_boot (s : State) (xs : List SvcAccess) : (s.setSvc xs).boot = s.boot := rfl
@[simp] theorem setSvc_plane_cores (s : State) (xs : List SvcAccess) : (s.setSvc xs).plane.cores = s.plane.cores := rfl
@[simp] theorem setSvc_plane_hamperDflt (s : State) (xs : List SvcAccess) : (s.setSvc xs).plane.hamperDflt = s.plane.hamperDflt := rfl
@[simp] theorem setSvc_plane_hampers (s : State) (xs : List SvcAccess) : (s.setSvc xs).plane.hampers = s.plane.hampers := rfl
@[simp] theorem setSvc_plane_groves (s : State) (xs : List SvcAccess) : (s.setSvc xs).plane.groves = s.plane.groves := rfl
@[simp] theorem setSvc_plane_mesh (s : State) (xs : List SvcAccess) : (s.setSvc xs).plane.mesh = s.plane.mesh := rfl
@[simp] theorem setSvc_plane_abort (s : State) (xs : List SvcAccess) : (s.setSvc xs).plane.abort = s.plane.abort := rfl

/-! ### `setPort` -/

@[simp] theorem setPort_pending (s : State) (p : Nat) (k : Port) : (s.setPort p k).pending = s.pending := rfl
@[simp] theorem setPort_out (s : State) (p : Nat) (k : Port) : (s.setPort p k).out = s.out := rfl
@[simp] theorem setPort_free (s : State) (p : Nat) (k : Port) : (s.setPort p k).free = s.free := rfl
@[simp] theorem setPort_cfg (s : State) (p : Nat) (k : Port) : (s.setPort p k).cfg = s.cfg := rfl
@[simp] theorem setPort_hbm (s : State) (p : Nat) (k : Port) : (s.setPort p k).hbm = s.hbm := rfl
@[simp] theorem setPort_hbmMeta (s : State) (p : Nat) (k : Port) : (s.setPort p k).hbmMeta = s.hbmMeta := rfl
@[simp] theorem setPort_bar0 (s : State) (p : Nat) (k : Port) : (s.setPort p k).bar0 = s.bar0 := rfl
@[simp] theorem setPort_setNow (s : State) (p : Nat) (k : Port) : (s.setPort p k).setNow = s.setNow := rfl
@[simp] theorem setPort_time (s : State) (p : Nat) (k : Port) : (s.setPort p k).time = s.time := rfl
@[simp] theorem setPort_plane (s : State) (p : Nat) (k : Port) : (s.setPort p k).plane = s.plane := rfl
@[simp] theorem setPort_se (s : State) (p : Nat) (k : Port) : (s.setPort p k).se = s.se := rfl
@[simp] theorem setPort_sch (s : State) (p : Nat) (k : Port) : (s.setPort p k).sch = s.sch := rfl
@[simp] theorem setPort_reader (s : State) (p : Nat) (k : Port) : (s.setPort p k).reader = s.reader := rfl
@[simp] theorem setPort_power (s : State) (p : Nat) (k : Port) : (s.setPort p k).power = s.power := rfl
@[simp] theorem setPort_boot (s : State) (p : Nat) (k : Port) : (s.setPort p k).boot = s.boot := rfl

/-! ### `setChan` -/

@[simp] theorem setChan_pending (s : State) (u : SeUnit) (k : Chan) : (s.setChan u k).pending = s.pending := rfl
@[simp] theorem setChan_out (s : State) (u : SeUnit) (k : Chan) : (s.setChan u k).out = s.out := rfl
@[simp] theorem setChan_free (s : State) (u : SeUnit) (k : Chan) : (s.setChan u k).free = s.free := rfl
@[simp] theorem setChan_cfg (s : State) (u : SeUnit) (k : Chan) : (s.setChan u k).cfg = s.cfg := rfl
@[simp] theorem setChan_hbm (s : State) (u : SeUnit) (k : Chan) : (s.setChan u k).hbm = s.hbm := rfl
@[simp] theorem setChan_hbmMeta (s : State) (u : SeUnit) (k : Chan) : (s.setChan u k).hbmMeta = s.hbmMeta := rfl
@[simp] theorem setChan_bar0 (s : State) (u : SeUnit) (k : Chan) : (s.setChan u k).bar0 = s.bar0 := rfl
@[simp] theorem setChan_setNow (s : State) (u : SeUnit) (k : Chan) : (s.setChan u k).setNow = s.setNow := rfl
@[simp] theorem setChan_time (s : State) (u : SeUnit) (k : Chan) : (s.setChan u k).time = s.time := rfl
@[simp] theorem setChan_plane (s : State) (u : SeUnit) (k : Chan) : (s.setChan u k).plane = s.plane := rfl
@[simp] theorem setChan_ports (s : State) (u : SeUnit) (k : Chan) : (s.setChan u k).ports = s.ports := rfl
@[simp] theorem setChan_sch (s : State) (u : SeUnit) (k : Chan) : (s.setChan u k).sch = s.sch := rfl
@[simp] theorem setChan_reader (s : State) (u : SeUnit) (k : Chan) : (s.setChan u k).reader = s.reader := rfl
@[simp] theorem setChan_power (s : State) (u : SeUnit) (k : Chan) : (s.setChan u k).power = s.power := rfl
@[simp] theorem setChan_boot (s : State) (u : SeUnit) (k : Chan) : (s.setChan u k).boot = s.boot := rfl

/-! ### `setEngine` -/

@[simp] theorem setEngine_pending (s : State) (e : Nat) (k : Engine) : (s.setEngine e k).pending = s.pending := rfl
@[simp] theorem setEngine_out (s : State) (e : Nat) (k : Engine) : (s.setEngine e k).out = s.out := rfl
@[simp] theorem setEngine_free (s : State) (e : Nat) (k : Engine) : (s.setEngine e k).free = s.free := rfl
@[simp] theorem setEngine_cfg (s : State) (e : Nat) (k : Engine) : (s.setEngine e k).cfg = s.cfg := rfl
@[simp] theorem setEngine_hbm (s : State) (e : Nat) (k : Engine) : (s.setEngine e k).hbm = s.hbm := rfl
@[simp] theorem setEngine_hbmMeta (s : State) (e : Nat) (k : Engine) : (s.setEngine e k).hbmMeta = s.hbmMeta := rfl
@[simp] theorem setEngine_bar0 (s : State) (e : Nat) (k : Engine) : (s.setEngine e k).bar0 = s.bar0 := rfl
@[simp] theorem setEngine_setNow (s : State) (e : Nat) (k : Engine) : (s.setEngine e k).setNow = s.setNow := rfl
@[simp] theorem setEngine_time (s : State) (e : Nat) (k : Engine) : (s.setEngine e k).time = s.time := rfl
@[simp] theorem setEngine_plane (s : State) (e : Nat) (k : Engine) : (s.setEngine e k).plane = s.plane := rfl
@[simp] theorem setEngine_ports (s : State) (e : Nat) (k : Engine) : (s.setEngine e k).ports = s.ports := rfl
@[simp] theorem setEngine_sch (s : State) (e : Nat) (k : Engine) : (s.setEngine e k).sch = s.sch := rfl
@[simp] theorem setEngine_reader (s : State) (e : Nat) (k : Engine) : (s.setEngine e k).reader = s.reader := rfl
@[simp] theorem setEngine_power (s : State) (e : Nat) (k : Engine) : (s.setEngine e k).power = s.power := rfl
@[simp] theorem setEngine_boot (s : State) (e : Nat) (k : Engine) : (s.setEngine e k).boot = s.boot := rfl

/-! ### `setStack` -/

@[simp] theorem setStack_pending (s : State) (n : Nat) (k : Stack) : (s.setStack n k).pending = s.pending := rfl
@[simp] theorem setStack_out (s : State) (n : Nat) (k : Stack) : (s.setStack n k).out = s.out := rfl
@[simp] theorem setStack_free (s : State) (n : Nat) (k : Stack) : (s.setStack n k).free = s.free := rfl
@[simp] theorem setStack_cfg (s : State) (n : Nat) (k : Stack) : (s.setStack n k).cfg = s.cfg := rfl
@[simp] theorem setStack_hbm (s : State) (n : Nat) (k : Stack) : (s.setStack n k).hbm = s.hbm := rfl
@[simp] theorem setStack_hbmMeta (s : State) (n : Nat) (k : Stack) : (s.setStack n k).hbmMeta = s.hbmMeta := rfl
@[simp] theorem setStack_bar0 (s : State) (n : Nat) (k : Stack) : (s.setStack n k).bar0 = s.bar0 := rfl
@[simp] theorem setStack_setNow (s : State) (n : Nat) (k : Stack) : (s.setStack n k).setNow = s.setNow := rfl
@[simp] theorem setStack_time (s : State) (n : Nat) (k : Stack) : (s.setStack n k).time = s.time := rfl
@[simp] theorem setStack_plane (s : State) (n : Nat) (k : Stack) : (s.setStack n k).plane = s.plane := rfl
@[simp] theorem setStack_ports (s : State) (n : Nat) (k : Stack) : (s.setStack n k).ports = s.ports := rfl
@[simp] theorem setStack_sch (s : State) (n : Nat) (k : Stack) : (s.setStack n k).sch = s.sch := rfl
@[simp] theorem setStack_reader (s : State) (n : Nat) (k : Stack) : (s.setStack n k).reader = s.reader := rfl
@[simp] theorem setStack_power (s : State) (n : Nat) (k : Stack) : (s.setStack n k).power = s.power := rfl
@[simp] theorem setStack_boot (s : State) (n : Nat) (k : Stack) : (s.setStack n k).boot = s.boot := rfl

/-! ### `setSch` -/

@[simp] theorem setSch_pending (s : State) (k : Sched) : (s.setSch k).pending = s.pending := rfl
@[simp] theorem setSch_out (s : State) (k : Sched) : (s.setSch k).out = s.out := rfl
@[simp] theorem setSch_free (s : State) (k : Sched) : (s.setSch k).free = s.free := rfl
@[simp] theorem setSch_cfg (s : State) (k : Sched) : (s.setSch k).cfg = s.cfg := rfl
@[simp] theorem setSch_hbm (s : State) (k : Sched) : (s.setSch k).hbm = s.hbm := rfl
@[simp] theorem setSch_hbmMeta (s : State) (k : Sched) : (s.setSch k).hbmMeta = s.hbmMeta := rfl
@[simp] theorem setSch_bar0 (s : State) (k : Sched) : (s.setSch k).bar0 = s.bar0 := rfl
@[simp] theorem setSch_setNow (s : State) (k : Sched) : (s.setSch k).setNow = s.setNow := rfl
@[simp] theorem setSch_time (s : State) (k : Sched) : (s.setSch k).time = s.time := rfl
@[simp] theorem setSch_plane (s : State) (k : Sched) : (s.setSch k).plane = s.plane := rfl
@[simp] theorem setSch_se (s : State) (k : Sched) : (s.setSch k).se = s.se := rfl
@[simp] theorem setSch_ports (s : State) (k : Sched) : (s.setSch k).ports = s.ports := rfl
@[simp] theorem setSch_reader (s : State) (k : Sched) : (s.setSch k).reader = s.reader := rfl
@[simp] theorem setSch_power (s : State) (k : Sched) : (s.setSch k).power = s.power := rfl
@[simp] theorem setSch_boot (s : State) (k : Sched) : (s.setSch k).boot = s.boot := rfl

/-! ### `setPower` -/

@[simp] theorem setPower_pending (s : State) (p : Power) : (s.setPower p).pending = s.pending := rfl
@[simp] theorem setPower_out (s : State) (p : Power) : (s.setPower p).out = s.out := rfl
@[simp] theorem setPower_free (s : State) (p : Power) : (s.setPower p).free = s.free := rfl
@[simp] theorem setPower_cfg (s : State) (p : Power) : (s.setPower p).cfg = s.cfg := rfl
@[simp] theorem setPower_hbm (s : State) (p : Power) : (s.setPower p).hbm = s.hbm := rfl
@[simp] theorem setPower_hbmMeta (s : State) (p : Power) : (s.setPower p).hbmMeta = s.hbmMeta := rfl
@[simp] theorem setPower_bar0 (s : State) (p : Power) : (s.setPower p).bar0 = s.bar0 := rfl
@[simp] theorem setPower_setNow (s : State) (p : Power) : (s.setPower p).setNow = s.setNow := rfl
@[simp] theorem setPower_time (s : State) (p : Power) : (s.setPower p).time = s.time := rfl
@[simp] theorem setPower_plane (s : State) (p : Power) : (s.setPower p).plane = s.plane := rfl
@[simp] theorem setPower_se (s : State) (p : Power) : (s.setPower p).se = s.se := rfl
@[simp] theorem setPower_ports (s : State) (p : Power) : (s.setPower p).ports = s.ports := rfl
@[simp] theorem setPower_sch (s : State) (p : Power) : (s.setPower p).sch = s.sch := rfl
@[simp] theorem setPower_reader (s : State) (p : Power) : (s.setPower p).reader = s.reader := rfl
@[simp] theorem setPower_boot (s : State) (p : Power) : (s.setPower p).boot = s.boot := rfl

/-! ### `setBoot` -/

@[simp] theorem setBoot_pending (s : State) (b : Boot) : (s.setBoot b).pending = s.pending := rfl
@[simp] theorem setBoot_out (s : State) (b : Boot) : (s.setBoot b).out = s.out := rfl
@[simp] theorem setBoot_free (s : State) (b : Boot) : (s.setBoot b).free = s.free := rfl
@[simp] theorem setBoot_cfg (s : State) (b : Boot) : (s.setBoot b).cfg = s.cfg := rfl
@[simp] theorem setBoot_hbm (s : State) (b : Boot) : (s.setBoot b).hbm = s.hbm := rfl
@[simp] theorem setBoot_hbmMeta (s : State) (b : Boot) : (s.setBoot b).hbmMeta = s.hbmMeta := rfl
@[simp] theorem setBoot_bar0 (s : State) (b : Boot) : (s.setBoot b).bar0 = s.bar0 := rfl
@[simp] theorem setBoot_setNow (s : State) (b : Boot) : (s.setBoot b).setNow = s.setNow := rfl
@[simp] theorem setBoot_time (s : State) (b : Boot) : (s.setBoot b).time = s.time := rfl
@[simp] theorem setBoot_plane (s : State) (b : Boot) : (s.setBoot b).plane = s.plane := rfl
@[simp] theorem setBoot_se (s : State) (b : Boot) : (s.setBoot b).se = s.se := rfl
@[simp] theorem setBoot_ports (s : State) (b : Boot) : (s.setBoot b).ports = s.ports := rfl
@[simp] theorem setBoot_sch (s : State) (b : Boot) : (s.setBoot b).sch = s.sch := rfl
@[simp] theorem setBoot_reader (s : State) (b : Boot) : (s.setBoot b).reader = s.reader := rfl
@[simp] theorem setBoot_power (s : State) (b : Boot) : (s.setBoot b).power = s.power := rfl

/-! ### `setCfg` -/

@[simp] theorem setCfg_pending (s : State) (off : Nat) (v : BitVec 32) : (s.setCfg off v).pending = s.pending := rfl
@[simp] theorem setCfg_out (s : State) (off : Nat) (v : BitVec 32) : (s.setCfg off v).out = s.out := rfl
@[simp] theorem setCfg_free (s : State) (off : Nat) (v : BitVec 32) : (s.setCfg off v).free = s.free := rfl
@[simp] theorem setCfg_hbm (s : State) (off : Nat) (v : BitVec 32) : (s.setCfg off v).hbm = s.hbm := rfl
@[simp] theorem setCfg_hbmMeta (s : State) (off : Nat) (v : BitVec 32) : (s.setCfg off v).hbmMeta = s.hbmMeta := rfl
@[simp] theorem setCfg_bar0 (s : State) (off : Nat) (v : BitVec 32) : (s.setCfg off v).bar0 = s.bar0 := rfl
@[simp] theorem setCfg_setNow (s : State) (off : Nat) (v : BitVec 32) : (s.setCfg off v).setNow = s.setNow := rfl
@[simp] theorem setCfg_time (s : State) (off : Nat) (v : BitVec 32) : (s.setCfg off v).time = s.time := rfl
@[simp] theorem setCfg_plane (s : State) (off : Nat) (v : BitVec 32) : (s.setCfg off v).plane = s.plane := rfl
@[simp] theorem setCfg_se (s : State) (off : Nat) (v : BitVec 32) : (s.setCfg off v).se = s.se := rfl
@[simp] theorem setCfg_ports (s : State) (off : Nat) (v : BitVec 32) : (s.setCfg off v).ports = s.ports := rfl
@[simp] theorem setCfg_sch (s : State) (off : Nat) (v : BitVec 32) : (s.setCfg off v).sch = s.sch := rfl
@[simp] theorem setCfg_reader (s : State) (off : Nat) (v : BitVec 32) : (s.setCfg off v).reader = s.reader := rfl
@[simp] theorem setCfg_power (s : State) (off : Nat) (v : BitVec 32) : (s.setCfg off v).power = s.power := rfl
@[simp] theorem setCfg_boot (s : State) (off : Nat) (v : BitVec 32) : (s.setCfg off v).boot = s.boot := rfl

/-! ### `cfgOr` -/

@[simp] theorem cfgOr_pending (s : State) (off : Nat) (v : BitVec 32) : (s.cfgOr off v).pending = s.pending := rfl
@[simp] theorem cfgOr_out (s : State) (off : Nat) (v : BitVec 32) : (s.cfgOr off v).out = s.out := rfl
@[simp] theorem cfgOr_free (s : State) (off : Nat) (v : BitVec 32) : (s.cfgOr off v).free = s.free := rfl
@[simp] theorem cfgOr_hbm (s : State) (off : Nat) (v : BitVec 32) : (s.cfgOr off v).hbm = s.hbm := rfl
@[simp] theorem cfgOr_hbmMeta (s : State) (off : Nat) (v : BitVec 32) : (s.cfgOr off v).hbmMeta = s.hbmMeta := rfl
@[simp] theorem cfgOr_bar0 (s : State) (off : Nat) (v : BitVec 32) : (s.cfgOr off v).bar0 = s.bar0 := rfl
@[simp] theorem cfgOr_setNow (s : State) (off : Nat) (v : BitVec 32) : (s.cfgOr off v).setNow = s.setNow := rfl
@[simp] theorem cfgOr_time (s : State) (off : Nat) (v : BitVec 32) : (s.cfgOr off v).time = s.time := rfl
@[simp] theorem cfgOr_plane (s : State) (off : Nat) (v : BitVec 32) : (s.cfgOr off v).plane = s.plane := rfl
@[simp] theorem cfgOr_se (s : State) (off : Nat) (v : BitVec 32) : (s.cfgOr off v).se = s.se := rfl
@[simp] theorem cfgOr_ports (s : State) (off : Nat) (v : BitVec 32) : (s.cfgOr off v).ports = s.ports := rfl
@[simp] theorem cfgOr_sch (s : State) (off : Nat) (v : BitVec 32) : (s.cfgOr off v).sch = s.sch := rfl
@[simp] theorem cfgOr_reader (s : State) (off : Nat) (v : BitVec 32) : (s.cfgOr off v).reader = s.reader := rfl
@[simp] theorem cfgOr_power (s : State) (off : Nat) (v : BitVec 32) : (s.cfgOr off v).power = s.power := rfl
@[simp] theorem cfgOr_boot (s : State) (off : Nat) (v : BitVec 32) : (s.cfgOr off v).boot = s.boot := rfl

/-! ### `addPins` -/

@[simp] theorem addPins_pending (s : State) (a i n : Nat) : (s.addPins a i n).pending = s.pending := rfl
@[simp] theorem addPins_out (s : State) (a i n : Nat) : (s.addPins a i n).out = s.out := rfl
@[simp] theorem addPins_free (s : State) (a i n : Nat) : (s.addPins a i n).free = s.free := rfl
@[simp] theorem addPins_cfg (s : State) (a i n : Nat) : (s.addPins a i n).cfg = s.cfg := rfl
@[simp] theorem addPins_hbm (s : State) (a i n : Nat) : (s.addPins a i n).hbm = s.hbm := rfl
@[simp] theorem addPins_hbmMeta (s : State) (a i n : Nat) : (s.addPins a i n).hbmMeta = s.hbmMeta := rfl
@[simp] theorem addPins_bar0 (s : State) (a i n : Nat) : (s.addPins a i n).bar0 = s.bar0 := rfl
@[simp] theorem addPins_setNow (s : State) (a i n : Nat) : (s.addPins a i n).setNow = s.setNow := rfl
@[simp] theorem addPins_time (s : State) (a i n : Nat) : (s.addPins a i n).time = s.time := rfl
@[simp] theorem addPins_plane (s : State) (a i n : Nat) : (s.addPins a i n).plane = s.plane := rfl
@[simp] theorem addPins_se (s : State) (a i n : Nat) : (s.addPins a i n).se = s.se := rfl
@[simp] theorem addPins_ports (s : State) (a i n : Nat) : (s.addPins a i n).ports = s.ports := rfl
@[simp] theorem addPins_sch (s : State) (a i n : Nat) : (s.addPins a i n).sch = s.sch := rfl
@[simp] theorem addPins_power (s : State) (a i n : Nat) : (s.addPins a i n).power = s.power := rfl
@[simp] theorem addPins_boot (s : State) (a i n : Nat) : (s.addPins a i n).boot = s.boot := rfl

/-! ### Operations that do one of two things -/

@[simp] theorem emit_out (s : State) (o : Output) : (s.emit o).out = s.out ++ [o] := by
  unfold emit
  dsimp only
  split <;> rfl

@[simp] theorem emit_pending (s : State) (o : Output) : (s.emit o).pending = s.pending := by
  unfold emit
  dsimp only
  split <;> rfl

@[simp] theorem emit_free (s : State) (o : Output) : (s.emit o).free = s.free := by
  unfold emit
  dsimp only
  split <;> rfl

@[simp] theorem emit_cfg (s : State) (o : Output) : (s.emit o).cfg = s.cfg := by
  unfold emit
  dsimp only
  split <;> rfl

@[simp] theorem emit_hbm (s : State) (o : Output) : (s.emit o).hbm = s.hbm := by
  unfold emit
  dsimp only
  split <;> rfl

@[simp] theorem emit_hbmMeta (s : State) (o : Output) : (s.emit o).hbmMeta = s.hbmMeta := by
  unfold emit
  dsimp only
  split <;> rfl

@[simp] theorem emit_bar0 (s : State) (o : Output) : (s.emit o).bar0 = s.bar0 := by
  unfold emit
  dsimp only
  split <;> rfl

@[simp] theorem emit_setNow (s : State) (o : Output) : (s.emit o).setNow = s.setNow := by
  unfold emit
  dsimp only
  split <;> rfl

@[simp] theorem emit_time (s : State) (o : Output) : (s.emit o).time = s.time := by
  unfold emit
  dsimp only
  split <;> rfl

@[simp] theorem emit_plane (s : State) (o : Output) : (s.emit o).plane = s.plane := by
  unfold emit
  dsimp only
  split <;> rfl

@[simp] theorem emit_se (s : State) (o : Output) : (s.emit o).se = s.se := by
  unfold emit
  dsimp only
  split <;> rfl

@[simp] theorem emit_ports (s : State) (o : Output) : (s.emit o).ports = s.ports := by
  unfold emit
  dsimp only
  split <;> rfl

@[simp] theorem emit_sch (s : State) (o : Output) : (s.emit o).sch = s.sch := by
  unfold emit
  dsimp only
  split <;> rfl

@[simp] theorem emit_power (s : State) (o : Output) : (s.emit o).power = s.power := by
  unfold emit
  dsimp only
  split <;> rfl

@[simp] theorem emit_boot (s : State) (o : Output) : (s.emit o).boot = s.boot := by
  unfold emit
  dsimp only
  split <;> rfl

@[simp] theorem hbmStore_pending (s : State) (a : Nat) (bs : List Byte) : (s.hbmStore a bs).pending = s.pending := rfl
@[simp] theorem hbmStore_free (s : State) (a : Nat) (bs : List Byte) : (s.hbmStore a bs).free = s.free := rfl
@[simp] theorem hbmStore_cfg (s : State) (a : Nat) (bs : List Byte) : (s.hbmStore a bs).cfg = s.cfg := rfl
@[simp] theorem hbmStore_bar0 (s : State) (a : Nat) (bs : List Byte) : (s.hbmStore a bs).bar0 = s.bar0 := rfl
@[simp] theorem hbmStore_setNow (s : State) (a : Nat) (bs : List Byte) : (s.hbmStore a bs).setNow = s.setNow := rfl
@[simp] theorem hbmStore_time (s : State) (a : Nat) (bs : List Byte) : (s.hbmStore a bs).time = s.time := rfl
@[simp] theorem hbmStore_plane (s : State) (a : Nat) (bs : List Byte) : (s.hbmStore a bs).plane = s.plane := rfl
@[simp] theorem hbmStore_se (s : State) (a : Nat) (bs : List Byte) : (s.hbmStore a bs).se = s.se := rfl
@[simp] theorem hbmStore_ports (s : State) (a : Nat) (bs : List Byte) : (s.hbmStore a bs).ports = s.ports := rfl
@[simp] theorem hbmStore_sch (s : State) (a : Nat) (bs : List Byte) : (s.hbmStore a bs).sch = s.sch := rfl
@[simp] theorem hbmStore_power (s : State) (a : Nat) (bs : List Byte) : (s.hbmStore a bs).power = s.power := rfl
@[simp] theorem hbmStore_boot (s : State) (a : Nat) (bs : List Byte) : (s.hbmStore a bs).boot = s.boot := rfl
@[simp] theorem hbmStore_out (s : State) (a : Nat) (bs : List Byte) : (s.hbmStore a bs).out = s.out := rfl
@[simp] theorem hbmStore_hbm (s : State) (a : Nat) (bs : List Byte) : (s.hbmStore a bs).hbm = memWriteBytes s.hbm a bs := rfl

/-! ### Accessors after updates -/

theorem reg_setReg (s : State) (off r : Nat) (v : BitVec 64) : (s.setReg off v).reg r = if r = off then v else s.reg r :=
  smGet_smSet _ _ _ _ _

@[simp] theorem reg_setReg_self (s : State) (off : Nat) (v : BitVec 64) : (s.setReg off v).reg off = v := by simp [reg_setReg]

theorem reg_setReg_of_ne (s : State) {off r : Nat} (v : BitVec 64) (h : r ≠ off) : (s.setReg off v).reg r = s.reg r := by
  simp [reg_setReg, h]

@[simp] theorem noteSet_reg (s : State) (off : Nat) (bits : BitVec 64) (r : Nat) : (s.noteSet off bits).reg r = s.reg r := rfl

/-- Storing a field leaves every other register. -/
theorem reg_setFld_of_ne (s : State) (f : Fld) (n : Nat) {r : Nat} (h : r ≠ f.off) : (s.setFld f n).reg r = s.reg r :=
  reg_setReg_of_ne s _ h

/-- A field just stored holds the number's low bits. -/
theorem fld_setFld_self (s : State) (f : Fld) (n : Nat) (h : f.hi < 64) (hlo : f.lo ≤ f.hi) :
    (s.setFld f n).fld f = n % 2 ^ (f.hi + 1 - f.lo) := by
  simp [setFld, fld, getBits_putBits_self _ n h hlo]

/-- A field of another register keeps its number. -/
theorem fld_setFld_of_ne (s : State) (f g : Fld) (n : Nat) (h : g.off ≠ f.off) : (s.setFld f n).fld g = s.fld g := by
  simp [fld, reg_setFld_of_ne s f n h]

/-- A field apart from the one stored in the same register keeps its number. -/
theorem fld_setFld_apart (s : State) (f g : Fld) (n : Nat) (hoff : g.off = f.off) (h : f.hi < 64) (hlo : f.lo ≤ f.hi)
    (hd : f.hi < g.lo ∨ g.hi < f.lo) : (s.setFld f n).fld g = s.fld g := by
  simp [setFld, fld, hoff, getBits_putBits_apart _ n _ _ h hlo hd]

/-- A one-bit field just set reads as set. -/
theorem flag_setFlag_self (s : State) (f : Fld) (h : f.hi < 64) (hlo : f.lo ≤ f.hi) : (s.setFlag f).flag f = true := by
  have h2 : 1 < 2 ^ (f.hi + 1 - f.lo) := Nat.one_lt_two_pow (by omega)
  rw [setFlag, flag, fld_setFld_self _ f 1 h hlo, Nat.mod_eq_of_lt h2]
  rfl

theorem core_setCore (s : State) (c d : CoreId) (k : Core) : (s.setCore c k).core d = if d = c then k else s.core d := by
  simp only [core, setCore, smGet_smSet, BitVec.toNat_inj]

theorem hamper_setHamper (s : State) (h g : HamperId) (k : Hamper) :
    (s.setHamper h k).hamper g = if g = h then k else s.hamper g := by
  simp only [hamper, setHamper, smGet_smSet, BitVec.toNat_inj]

theorem grove_setGrove (s : State) (g j : GroveId) (k : Grove) : (s.setGrove g k).grove j = if j = g then k else s.grove j := by
  simp only [grove, setGrove, smGet_smSet, BitVec.toNat_inj]

theorem port_setPort (s : State) (p q : Nat) (k : Port) : (s.setPort p k).port q = if q = p then k else s.port q :=
  smGet_smSet _ _ _ _ _

theorem engine_setEngine (s : State) (e f : Nat) (k : Engine) : (s.setEngine e k).engine f = if f = e then k else s.engine f :=
  smGet_smSet _ _ _ _ _

theorem stack_setStack (s : State) (n m : Nat) (k : Stack) : (s.setStack n k).stack m = if m = n then k else s.stack m :=
  smGet_smSet _ _ _ _ _

theorem chan_setChan (s : State) (u w : SeUnit) (k : Chan) : (s.setChan u k).chan w = if w.key = u.key then k else s.chan w :=
  smGet_smSet _ _ _ _ _

@[simp] theorem setCore_core_self (s : State) (c : CoreId) (k : Core) : (s.setCore c k).core c = k := by simp [core_setCore]
@[simp] theorem setHamper_hamper_self (s : State) (h : HamperId) (k : Hamper) : (s.setHamper h k).hamper h = k := by
  simp [hamper_setHamper]
@[simp] theorem setGrove_grove_self (s : State) (g : GroveId) (k : Grove) : (s.setGrove g k).grove g = k := by
  simp [grove_setGrove]

/-! ### Reset -/

@[simp] theorem reset_pending : State.reset.pending = [] := rfl
@[simp] theorem reset_out : State.reset.out = [] := rfl
@[simp] theorem reset_bar0 : State.reset.bar0 = [] := rfl
@[simp] theorem reset_hbm : State.reset.hbm = [] := rfl

/-- Every register reads as its reset value at reset. -/
@[simp] theorem reset_reg (off : Nat) : State.reset.reg off = resetOf off := rfl

end Sys2Proof.Machine.State
end

