-- ==== Sys2Proof/Laws/Ops.lean ====
section
/-! SUPPORT. Laws of the shared operations over interrupts, outputs and fault entries: what each leaves unchanged, what
each does, and that each keeps the queue, what has been sent, and the canonical forms. -/

namespace Sys2Proof.Machine

/-! ## What every operation keeps -/

/-- The queue is the same, nothing sent is taken back, and the memories and the register table keep their form. -/
structure Keeps (s t : State) : Prop where
  pending : t.pending = s.pending
  out     : s.out <+: t.out
  hbm     : Memory.wf s.hbm = true → Memory.wf t.hbm = true
  bar0    : s.bar0.Pairwise (fun a b => a.1 < b.1) → t.bar0.Pairwise fun a b => a.1 < b.1
  buffer  : Memory.wf s.boot.buffer = true → Memory.wf t.boot.buffer = true

namespace Keeps

theorem refl (s : State) : Keeps s s := ⟨rfl, List.prefix_refl _, id, id, id⟩

theorem trans {s t u : State} (h : Keeps s t) (g : Keeps t u) : Keeps s u :=
  ⟨g.pending.trans h.pending, h.out.trans g.out, g.hbm ∘ h.hbm, g.bar0 ∘ h.bar0, g.buffer ∘ h.buffer⟩

/-- A state that differs in none of the five fields. -/
theorem of_eq {s t : State} (hp : t.pending = s.pending) (ho : t.out = s.out) (hm : t.hbm = s.hbm) (hb : t.bar0 = s.bar0)
    (hu : t.boot.buffer = s.boot.buffer) : Keeps s t :=
  ⟨hp, by rw [ho], by rw [hm]; exact id, by rw [hb]; exact id, by rw [hu]; exact id⟩

/-- A fold keeps what each of its steps keeps. -/
theorem foldl {β : Type} (f : State → β → State) (hf : ∀ s b, Keeps s (f s b)) (xs : List β) (s : State) :
    Keeps s (xs.foldl f s) := by
  induction xs generalizing s with
  | nil => exact refl s
  | cons x xs ih => exact (hf s x).trans (ih (f s x))

/-- Either branch of a choice. -/
theorem ite {p : Prop} [Decidable p] {s t u : State} (h : Keeps s t) (g : Keeps s u) : Keeps s (if p then t else u) := by
  split
  · exact h
  · exact g

theorem setReg (s : State) (off : Nat) (v : BitVec 64) : Keeps s (s.setReg off v) :=
  ⟨rfl, List.prefix_refl _, id, smSet_rising _ _ _, id⟩

theorem setFld (s : State) (f : Fld) (n : Nat) : Keeps s (s.setFld f n) := setReg s _ _
theorem noteSet (s : State) (off : Nat) (bits : BitVec 64) : Keeps s (s.noteSet off bits) := of_eq rfl rfl rfl rfl rfl
theorem setFlag (s : State) (f : Fld) : Keeps s (s.setFlag f) := (noteSet s _ _).trans (setFld _ f 1)
theorem incSat (s : State) (f : Fld) (k : Nat) : Keeps s (s.incSat f k) := setReg s _ _
theorem incWrap (s : State) (f : Fld) (k : Nat) : Keeps s (s.incWrap f k) := setReg s _ _
theorem resetReg (s : State) (off : Nat) : Keeps s (s.resetReg off) := setReg s _ _

theorem regWrite (s : State) (a : Agent) (off : Nat) (v : BitVec 64) : Keeps s (s.regWrite a off v) := by
  unfold State.regWrite
  split
  · exact refl s
  · exact setReg s _ _

theorem tookFree (s : State) : Keeps s s.tookFree := of_eq rfl rfl rfl rfl rfl
theorem addTotal (s : State) (i n : Nat) : Keeps s (s.addTotal i n) := of_eq rfl rfl rfl rfl rfl
theorem countRead (s : State) (a n : Nat) : Keeps s (s.countRead a n) := of_eq rfl rfl rfl rfl rfl
theorem setCore (s : State) (c : CoreId) (k : Core) : Keeps s (s.setCore c k) := of_eq rfl rfl rfl rfl rfl
theorem setHamper (s : State) (h : HamperId) (k : Hamper) : Keeps s (s.setHamper h k) := of_eq rfl rfl rfl rfl rfl
theorem setGrove (s : State) (g : GroveId) (k : Grove) : Keeps s (s.setGrove g k) := of_eq rfl rfl rfl rfl rfl
theorem setMesh (s : State) (m : Mesh) : Keeps s (s.setMesh m) := of_eq rfl rfl rfl rfl rfl
theorem setSvc (s : State) (xs : List SvcAccess) : Keeps s (s.setSvc xs) := of_eq rfl rfl rfl rfl rfl
theorem setPort (s : State) (p : Nat) (k : Port) : Keeps s (s.setPort p k) := of_eq rfl rfl rfl rfl rfl
theorem setChan (s : State) (u : SeUnit) (k : Chan) : Keeps s (s.setChan u k) := of_eq rfl rfl rfl rfl rfl
theorem setEngine (s : State) (e : Nat) (k : Engine) : Keeps s (s.setEngine e k) := of_eq rfl rfl rfl rfl rfl
theorem setStack (s : State) (n : Nat) (k : Stack) : Keeps s (s.setStack n k) := of_eq rfl rfl rfl rfl rfl
theorem setSch (s : State) (k : Sched) : Keeps s (s.setSch k) := of_eq rfl rfl rfl rfl rfl
theorem setPower (s : State) (p : Power) : Keeps s (s.setPower p) := of_eq rfl rfl rfl rfl rfl
theorem setCfg (s : State) (off : Nat) (v : BitVec 32) : Keeps s (s.setCfg off v) := of_eq rfl rfl rfl rfl rfl

/-- A change of `boot` that leaves the image buffer. -/
theorem setBoot (s : State) (b : Boot) (h : b.buffer = s.boot.buffer) : Keeps s (s.setBoot b) := of_eq rfl rfl rfl rfl h

theorem emit (s : State) (o : Output) : Keeps s (s.emit o) :=
  ⟨by simp, by simp, by simp, by simp, by simp⟩

theorem hbmStore (s : State) (a : Nat) (bs : List Byte) : Keeps s (s.hbmStore a bs) :=
  ⟨rfl, List.prefix_refl _, fun h => wf_memWriteBytes h a bs, id, id⟩

theorem hbmStoreNat (s : State) (a n v : Nat) : Keeps s (s.hbmStoreNat a n v) := hbmStore s _ _

theorem signal (s : State) (v : Nat) : Keeps s (s.signal v) := by
  unfold State.signal
  dsimp only
  split
  · exact emit s _
  · exact setReg s _ _

theorem irqEvt (s : State) (k : Nat) : Keeps s (s.irqEvt k) := by
  unfold State.irqEvt
  dsimp only
  split
  · exact setFlag s _
  · exact (setFlag s _).trans (signal _ _)

theorem irqReg (s : State) (off b v : Nat) : Keeps s (s.irqReg off b v) := by
  unfold State.irqReg
  dsimp only
  split
  · exact ((noteSet s _ _).trans (setReg _ _ _)).trans (signal _ _)
  · exact (noteSet s _ _).trans (setReg _ _ _)

theorem copyEntry (s : State) (off : Nat → Nat) (bs : List Byte) : Keeps s (s.copyEntry off bs) :=
  foldl _ (fun s _ => setReg s _ _) _ s

theorem faultRing (s : State) (bs : List Byte) : Keeps s (s.faultRing bs) := by
  unfold State.faultRing
  dsimp only
  split
  · split
    · exact incSat s _ _
    · exact (hbmStore s _ _).trans (setFld _ _ _)
  · exact refl s

theorem faultEntry (s : State) (cls src index code detail : Nat) : Keeps s (s.faultEntry cls src index code detail) := by
  unfold State.faultEntry
  dsimp only
  refine .trans (.trans ?_ (setFlag _ _)) (signal _ 52)
  split
  · refine .trans (.trans ?_ (copyEntry _ _ _)) (setFlag _ _)
    exact .trans (.trans (faultRing _ _) (incWrap _ _ _)) (copyEntry _ _ _)
  · exact .trans (.trans (faultRing _ _) (incWrap _ _ _)) (copyEntry _ _ _)

end Keeps

/-! ## What interrupts and fault entries leave unchanged -/

namespace State

/-- The fields that signals and fault entries leave. -/
structure SameUnits (s t : State) : Prop where
  free  : t.free = s.free
  cfg   : t.cfg = s.cfg
  time  : t.time = s.time
  plane : t.plane = s.plane
  se    : t.se = s.se
  ports : t.ports = s.ports
  sch   : t.sch = s.sch
  power : t.power = s.power
  boot  : t.boot = s.boot

theorem SameUnits.refl (s : State) : SameUnits s s := ⟨rfl, rfl, rfl, rfl, rfl, rfl, rfl, rfl, rfl⟩

theorem SameUnits.trans {s t u : State} (h : SameUnits s t) (g : SameUnits t u) : SameUnits s u :=
  ⟨g.free.trans h.free, g.cfg.trans h.cfg, g.time.trans h.time, g.plane.trans h.plane, g.se.trans h.se, g.ports.trans h.ports,
    g.sch.trans h.sch, g.power.trans h.power, g.boot.trans h.boot⟩

theorem setReg_units (s : State) (off : Nat) (v : BitVec 64) : SameUnits s (s.setReg off v) :=
  ⟨rfl, rfl, rfl, rfl, rfl, rfl, rfl, rfl, rfl⟩

theorem setFld_units (s : State) (f : Fld) (n : Nat) : SameUnits s (s.setFld f n) := setReg_units s _ _

theorem noteSet_units (s : State) (off : Nat) (bits : BitVec 64) : SameUnits s (s.noteSet off bits) :=
  ⟨rfl, rfl, rfl, rfl, rfl, rfl, rfl, rfl, rfl⟩

theorem setFlag_units (s : State) (f : Fld) : SameUnits s (s.setFlag f) := (noteSet_units s _ _).trans (setFld_units _ f 1)

theorem emit_units (s : State) (o : Output) : SameUnits s (s.emit o) :=
  ⟨by simp, by simp, by simp, by simp, by simp, by simp, by simp, by simp, by simp⟩

theorem hbmStore_units (s : State) (a : Nat) (bs : List Byte) : SameUnits s (s.hbmStore a bs) :=
  ⟨rfl, rfl, rfl, rfl, rfl, rfl, rfl, rfl, rfl⟩

theorem signal_units (s : State) (v : Nat) : SameUnits s (s.signal v) := by
  unfold signal
  dsimp only
  split
  · exact emit_units s _
  · exact setReg_units s _ _

theorem irqEvt_units (s : State) (k : Nat) : SameUnits s (s.irqEvt k) := by
  unfold irqEvt
  dsimp only
  split
  · exact setFlag_units s _
  · exact (setFlag_units s _).trans (signal_units _ _)

theorem irqReg_units (s : State) (off b v : Nat) : SameUnits s (s.irqReg off b v) := by
  unfold irqReg
  dsimp only
  split
  · exact ((noteSet_units s _ _).trans (setReg_units _ _ _)).trans (signal_units _ _)
  · exact (noteSet_units s _ _).trans (setReg_units _ _ _)

theorem foldl_units {β : Type} (f : State → β → State) (hf : ∀ s b, SameUnits s (f s b)) (xs : List β) (s : State) :
    SameUnits s (xs.foldl f s) := by
  induction xs generalizing s with
  | nil => exact .refl s
  | cons x xs ih => exact (hf s x).trans (ih (f s x))

theorem copyEntry_units (s : State) (off : Nat → Nat) (bs : List Byte) : SameUnits s (s.copyEntry off bs) :=
  foldl_units _ (fun s _ => setReg_units s _ _) _ s

theorem faultRing_units (s : State) (bs : List Byte) : SameUnits s (s.faultRing bs) := by
  unfold faultRing
  dsimp only
  split
  · split
    · exact setFld_units s _ _
    · exact (hbmStore_units s _ _).trans (setFld_units _ _ _)
  · exact .refl s

theorem faultEntry_units (s : State) (cls src index code detail : Nat) :
    SameUnits s (s.faultEntry cls src index code detail) := by
  unfold faultEntry
  dsimp only
  refine .trans (.trans ?_ (setFlag_units _ _)) (signal_units _ 52)
  split
  · refine .trans (.trans ?_ (copyEntry_units _ _ _)) (setFlag_units _ _)
    exact .trans (.trans (faultRing_units _ _) (setFld_units _ _ _)) (copyEntry_units _ _ _)
  · exact .trans (.trans (faultRing_units _ _) (setFld_units _ _ _)) (copyEntry_units _ _ _)

/-! ## What a signal does -/

/-- A signal leaves HBM. -/
@[simp] theorem signal_hbm (s : State) (v : Nat) : (s.signal v).hbm = s.hbm := by
  unfold signal
  dsimp only
  split <;> simp

/-- A signal leaves every register but the pending bits. -/
theorem signal_reg (s : State) (v : Nat) {r : Nat} (h : r ≠ 0x104400) : (s.signal v).reg r = s.reg r := by
  unfold signal
  dsimp only
  split
  · simp [reg]
  · exact reg_setReg_of_ne s _ h

/-- An interrupt event leaves HBM. -/
@[simp] theorem irqEvt_hbm (s : State) (k : Nat) : (s.irqEvt k).hbm = s.hbm := by
  unfold irqEvt
  dsimp only
  split <;> simp

/-- An interrupt event leaves every register but HIF_IRQ_EVT and the pending bits. -/
theorem irqEvt_reg (s : State) (k : Nat) {r : Nat} (h : r ≠ 0x104400) (h2 : r ≠ HIF_IRQ_EVT.off) :
    (s.irqEvt k).reg r = s.reg r := by
  unfold irqEvt
  dsimp only
  split
  · exact reg_setFld_of_ne _ _ _ h2
  · rw [signal_reg _ _ h]
    exact reg_setFld_of_ne _ _ _ h2

/-- A signal that is not masked, of a function that may send requests, sends its message and changes nothing else but the byte
total. -/
theorem signal_sends (s : State) (v : Nat) (hm : (s.cfgWord 0x90).getLsbD 31 = true) (hf : (s.cfgWord 0x90).getLsbD 30 = false)
    (hv : (smGet 0x0000_0001_0000_0000#64 s.bar0 (0x104000 + 16 * v + 8)).getLsbD 32 = false) (hd : s.mastering = true) :
    s.signal v = s.emit (.msix v) := by
  simp only [signal, hm, hf, hv, hd, Bool.not_false, Bool.and_self, if_true]

/-- What a request of host memory can do: it is sent, or waits and changes nothing else. -/
theorem hostReq_cases (s : State) (c : Nat) (o : Output) :
    (s.mastering = true ∧ s.hostReq c o = s.emit o) ∨
    (s.mastering = false ∧ s.hostReq c o = { s with se := { s.se with hostHeld := s.se.hostHeld ++ [(c, o)] } }) := by
  unfold hostReq
  cases s.mastering <;> simp

end State

end Sys2Proof.Machine
end

