-- ==== Sys2Proof/Laws/Issue.lean ====
section
/-! SUPPORT. Laws of issue: the three things that trying a word can do, and which cores a word reaches. -/

namespace Sys2Proof.Machine.State

/-! ## Changes of the data mesh alone -/

/-- Every field but `plane`, and every part of `plane` but the mesh, is the same. -/
structure MeshOnly (s t : State) : Prop where
  eq : t = s.setMesh t.plane.mesh

theorem MeshOnly.refl (s : State) : MeshOnly s s := ⟨rfl⟩

theorem MeshOnly.trans {s t u : State} (h : MeshOnly s t) (g : MeshOnly t u) : MeshOnly s u :=
  ⟨by rw [g.eq, h.eq]; rfl⟩

theorem MeshOnly.core {s t : State} (h : MeshOnly s t) (c : CoreId) : t.core c = s.core c := by rw [h.eq]; rfl
theorem MeshOnly.hamper {s t : State} (h : MeshOnly s t) (k : HamperId) : t.hamper k = s.hamper k := by rw [h.eq]; rfl
theorem MeshOnly.grove {s t : State} (h : MeshOnly s t) (g : GroveId) : t.grove g = s.grove g := by rw [h.eq]; rfl

theorem setMesh_meshOnly (s : State) (m : Mesh) : MeshOnly s (s.setMesh m) := ⟨rfl⟩

theorem endWord_meshOnly (s : State) (w : MeshWord) : MeshOnly s (s.endWord w) := by
  unfold endWord
  dsimp only
  split <;> exact setMesh_meshOnly s _

theorem putWord_meshOnly (s : State) (w : MeshWord) : MeshOnly s (s.putWord w) := ⟨rfl⟩

theorem wordBack_meshOnly (s : State) (g : GroveId) (r : WordRef) : MeshOnly s (s.wordBack g r) := by
  unfold wordBack
  split
  · exact .refl s
  · dsimp only
    split
    · exact endWord_meshOnly s _
    · exact putWord_meshOnly s _

theorem wordsBack_meshOnly (s : State) (g : GroveId) (rs : List WordRef) : MeshOnly s (s.wordsBack g rs) := by
  unfold wordsBack
  induction rs generalizing s with
  | nil => exact .refl s
  | cons r rs ih => exact (wordBack_meshOnly s g r).trans (ih _)

/-! ## One lane -/

/-- A word that issues in one core leaves every other core. -/
theorem issueLane_core_of_ne (w : Cw) (aset : BitVec 16) (bad conflict : Bool) (s : State) {c d : CoreId} (h : d ≠ c) :
    (issueLane w aset bad conflict s c).core d = s.core d := by
  unfold issueLane
  dsimp only
  rw [(wordsBack_meshOnly _ _ _).core, core_setCore, if_neg h]

/-- A word that issues in one core leaves the hampers and groves. -/
theorem issueLane_hamper (w : Cw) (aset : BitVec 16) (bad conflict : Bool) (s : State) (c : CoreId) (h : HamperId) :
    (issueLane w aset bad conflict s c).hamper h = s.hamper h := by
  unfold issueLane
  dsimp only
  rw [(wordsBack_meshOnly _ _ _).hamper]
  rfl

/-- A word reaches no core outside its hamper. -/
theorem issueLanes_fold_core (w : Cw) (aset : BitVec 16) (bad conflict : Bool) (cs : List CoreId) (s : State) {d : CoreId}
    (h : d ∉ cs) : (cs.foldl (issueLane w aset bad conflict) s).core d = s.core d := by
  induction cs generalizing s with
  | nil => rfl
  | cons c cs ih =>
    have h1 : d ≠ c := fun e => h (e ▸ List.mem_cons_self ..)
    have h2 : d ∉ cs := fun e => h (List.mem_cons_of_mem _ e)
    rw [List.foldl_cons, ih _ h2, issueLane_core_of_ne w aset bad conflict s h1]

/-! ## Trying a word -/

/-- A hamper that may not issue tries nothing. -/
theorem issueField_idle (s : State) (h : HamperId) (w : Cw) (hm : s.mayIssue h = false) : s.issueField h w = s.noIssue h := by
  simp [issueField, hm]

/-- Where a condition fails, the hamper stalls and nothing of the word happens. -/
theorem tryWord_stalls (s : State) (h : HamperId) (q : QWord) (w : Cw) (fromQueue : Bool) (l : Nat) (r : Refused)
    (hr : ((lanes h).foldl settleLane s).wordRefusal h w = some (l, r)) :
    s.tryWord h q w fromQueue = ((lanes h).foldl settleLane s).stall h l r := by
  unfold tryWord
  dsimp only
  rw [hr]

/-- Where no condition fails, the word issues. -/
theorem tryWord_issues (s : State) (h : HamperId) (q : QWord) (w : Cw) (fromQueue : Bool)
    (hr : ((lanes h).foldl settleLane s).wordRefusal h w = none) :
    s.tryWord h q w fromQueue = ((lanes h).foldl settleLane s).issueGo h q w fromQueue := by
  unfold tryWord
  dsimp only
  rw [hr]

/-- A word without reserved encodings is checked without effect. -/
theorem checkWord_ok (s : State) (h : HamperId) (w : Cw) (sv : BitVec 16) (hr : reservedFields w sv = []) :
    s.checkWord h w sv = (s, w) := by
  simp [checkWord, hr]

end Sys2Proof.Machine.State
end

