-- ==== Sys2Proof/Laws/Link.lean ====
section
/-! SUPPORT. Laws of the bytes of a Psiud flit: a received flit is read from its 252 bytes where the CRC that follows
them is theirs, and refused where it is not (R543, R544). -/

namespace Sys2Proof.Machine

/-- A list of bytes is a number below 2 to the power of its bits. -/
theorem ofBytes_lt (bs : List Byte) : ofBytes bs < 2 ^ (8 * bs.length) := by
  induction bs with
  | nil => simp [ofBytes]
  | cons b bs ih =>
    have hb := b.isLt
    have : 2 ^ (8 * (bs.length + 1)) = 256 * 2 ^ (8 * bs.length) := by rw [Nat.mul_add, Nat.pow_add]; omega
    simp only [ofBytes, List.length_cons, this]
    omega

/-- The bytes of the number that a list of bytes spells are that list. -/
theorem bytesOf_ofBytes (bs : List Byte) : bytesOf bs.length (ofBytes bs) = bs := by
  induction bs with
  | nil => rfl
  | cons b bs ih =>
    have hb := b.isLt
    have h1 : BitVec.ofNat 8 (b.toNat + 256 * ofBytes bs) = b := by
      apply BitVec.eq_of_toNat_eq; simp only [BitVec.toNat_ofNat]; omega
    have h2 : (b.toNat + 256 * ofBytes bs) / 256 = ofBytes bs := by omega
    simp only [List.length_cons, bytesOf, ofBytes, h1, h2, ih]

/-- A flit's bytes as they travel: 252 bytes and a check value of 4. -/
def flitWord (body : List Byte) (c : BitVec 32) : BitVec 2048 := BitVec.ofNat 2048 (ofBytes (body ++ bytesOf 4 c.toNat))

/-- The bytes of a received flit are those that were sent. -/
theorem bytesOf_flitWord {body : List Byte} (h : body.length = 252) (c : BitVec 32) :
    bytesOf 256 (flitWord body c).toNat = body ++ bytesOf 4 c.toNat := by
  have hl : (body ++ bytesOf 4 c.toNat).length = 256 := by simp [h]
  have hlt := ofBytes_lt (body ++ bytesOf 4 c.toNat)
  rw [hl] at hlt
  have : (flitWord body c).toNat = ofBytes (body ++ bytesOf 4 c.toNat) := by
    simp only [flitWord, BitVec.toNat_ofNat]
    exact Nat.mod_eq_of_lt hlt
  rw [this]
  have := bytesOf_ofBytes (body ++ bytesOf 4 c.toNat)
  rwa [hl] at this

/-- A field of a flit's first 252 bytes does not depend on the check value. -/
theorem bytesField_body {body tl : List Byte} {at_ n : Nat} (h : at_ + n ≤ body.length) :
    bytesField (body ++ tl) at_ n = bytesField body at_ n := by
  have h1 : at_ ≤ body.length := by omega
  have h2 : n ≤ (body.drop at_).length := by simp only [List.length_drop]; omega
  simp only [bytesField, List.drop_append_of_le_length h1, List.take_append_of_le_length h2]

/-- A flit whose check value is not the CRC of its bytes is refused. -/
theorem decode_flitWord_bad {body : List Byte} (h : body.length = 252) {c : BitVec 32} (hc : c ≠ crc32 body) :
    PFlit.decode (flitWord body c) = none := by
  have hf : bytesField (body ++ bytesOf 4 c.toNat) 252 4 = c.toNat := by
    have := ofBytes_bytesOf 4 c.toNat
    simp only [bytesField, ← h, List.drop_left, List.take_of_length_le (bytesOf_length 4 c.toNat).le, this]
    exact Nat.mod_eq_of_lt c.isLt
  have ht : (body ++ bytesOf 4 c.toNat).take 252 = body := by rw [← h, List.take_left]
  have hne : c.toNat ≠ (crc32 body).toNat := fun e => hc (BitVec.eq_of_toNat_eq e)
  simp only [PFlit.decode, bytesOf_flitWord h, hf, ht, ne_eq, hne, not_false_eq_true, if_true]

/-- The flit that 252 bytes spell (R543). -/
def flitOf (bs : List Byte) : PFlit :=
  let h := BitVec.ofNat 64 (bytesField bs 0 8)
  { type := h.extractLsb' 60 4, seq := h.extractLsb' 48 12, ack := h.extractLsb' 36 12, csvc := h.getLsbD 35
    cch := h.extractLsb' 29 6, cred := h.extractLsb' 16 13, ch := h.extractLsb' 10 6, first := h.getLsbD 9, last := h.getLsbD 8
    payload := (List.range (min 30 (getBits h 7 3))).map fun w =>
      (BitVec.ofNat 64 (bytesField bs (8 + 8 * w) 8), bytesField bs 248 4 / 2 ^ w % 2 = 1) }

/-- A flit that is followed by the CRC of its bytes is read from them. -/
theorem decode_flitWord {body : List Byte} (h : body.length = 252) : PFlit.decode (flitWord body (crc32 body)) = some (flitOf body) := by
  have hf : bytesField (body ++ bytesOf 4 (crc32 body).toNat) 252 4 = (crc32 body).toNat := by
    have := ofBytes_bytesOf 4 (crc32 body).toNat
    simp only [bytesField, ← h, List.drop_left, List.take_of_length_le (bytesOf_length 4 _).le, this]
    exact Nat.mod_eq_of_lt (crc32 body).isLt
  have ht : (body ++ bytesOf 4 (crc32 body).toNat).take 252 = body := by rw [← h, List.take_left]
  simp only [PFlit.decode, bytesOf_flitWord h, hf, ht, ne_eq, not_true_eq_false, if_false, flitOf, Option.some.injEq, PFlit.mk.injEq]
  rw [bytesField_body (by omega), bytesField_body (by omega)]
  refine ⟨rfl, rfl, rfl, rfl, rfl, rfl, rfl, rfl, rfl, ?_⟩
  apply List.map_congr_left
  intro w hw
  have : w < 30 := by have := List.mem_range.1 hw; omega
  rw [bytesField_body (by omega)]

end Sys2Proof.Machine
end

