-- ==== Sys2Proof/Laws/Reads.lean ====
section
/-! SUPPORT. Laws of the reads of HBM that no channel makes: words with right check bits read as they are stored. -/

namespace Sys2Proof.Machine

theorem memBytes_append (m : List Host.Cell) (a n k : Nat) :
    memBytes m a (n + k) = memBytes m a n ++ memBytes m (a + n) k := by
  induction n generalizing a with
  | zero => simp [memBytes]
  | succ n ih =>
    rw [show n + 1 + k = n + k + 1 by omega]
    simp only [memBytes, List.cons_append, ih, show a + 1 + n = a + (n + 1) by omega]

theorem memBytes_drop (m : List Host.Cell) (a n k : Nat) (h : k ≤ n) : (memBytes m a n).drop k = memBytes m (a + k) (n - k) := by
  obtain ⟨j, rfl⟩ := Nat.le.dest h
  rw [memBytes_append, List.drop_append_of_le_length (by simp), List.drop_of_length_le (by simp)]
  simp

theorem memBytes_take (m : List Host.Cell) (a n k : Nat) (h : k ≤ n) : (memBytes m a n).take k = memBytes m a k := by
  obtain ⟨j, rfl⟩ := Nat.le.dest h
  rw [memBytes_append, List.take_append_of_le_length (by simp), List.take_of_length_le (by simp)]

/-- Words in a row, each by its eight bytes. -/
theorem flatMap_words (m : List Host.Cell) (b : Nat) :
    ∀ n, ((List.range n).flatMap fun w => memBytes m (b + 8 * w) 8) = memBytes m b (8 * n)
  | 0 => rfl
  | n + 1 => by
    rw [List.range_succ, List.flatMap_append, flatMap_words m b n, show 8 * (n + 1) = 8 * n + 8 by omega, memBytes_append]
    simp

namespace State

/-- A word with right check bits and no mark reads as it is stored. -/
theorem hbmWords_clean (s : State) (a n : Nat) (h : ∀ w < n, s.hbmWordMeta (a - a % 8 + 8 * w) = {}) :
    s.hbmWords a n = (List.range n).map fun w => (BitVec.ofNat 64 (s.hbmNat (a - a % 8 + 8 * w) 8), false, EccKind.clean) := by
  unfold hbmWords
  apply List.map_congr_left
  intro w hw
  dsimp only
  rw [h w (List.mem_range.1 hw)]
  rfl

/-- A read over words with right check bits takes the stored bytes (R409). -/
theorem hbmTaken_clean (s : State) (a n : Nat) (h : ∀ w < wordSpan a n, s.hbmWordMeta (a - a % 8 + 8 * w) = {}) :
    s.hbmTaken a n = memBytes s.hbm a n := by
  have word : ∀ b, bytesOf 8 (BitVec.ofNat 64 (s.hbmNat b 8)).toNat = memBytes s.hbm b 8 := by
    intro b
    have hl : ofBytes (memBytes s.hbm b 8) < 2 ^ 64 := by simpa using ofBytes_lt (memBytes s.hbm b 8)
    rw [BitVec.toNat_ofNat, hbmNat, Nat.mod_eq_of_lt hl]
    simpa using bytesOf_ofBytes (memBytes s.hbm b 8)
  have span : a % 8 + n ≤ 8 * wordSpan a n := by unfold wordSpan; omega
  unfold hbmTaken
  rw [hbmWords_clean s a _ h, List.flatMap_map]
  simp only [reduceCtorEq, if_false, word]
  rw [flatMap_words, memBytes_drop _ _ _ _ (by omega), memBytes_take _ _ _ _ (by omega), Nat.sub_add_cancel (Nat.mod_le a 8)]

/-- The same for a number. -/
theorem hbmTakenNat_clean (s : State) (a n : Nat) (h : ∀ w < wordSpan a n, s.hbmWordMeta (a - a % 8 + 8 * w) = {}) :
    s.hbmTakenNat a n = s.hbmNat a n := by
  unfold hbmTakenNat hbmNat
  rw [hbmTaken_clean s a n h]

end State

end Sys2Proof.Machine
end

