-- ==== Sys2Proof/Tests/Slice0.lean ====
section
/-! SUPPORT. Tests: ill-formed commands are refused, control words written out from the field tables decode as they
should, and every statement's hypotheses are met by a state and operands written out here. -/

namespace Sys2Proof.Tests

set_option Elab.async false

open Sys2Proof Sys2Proof.Machine Sys2Proof.Claims

/-! ## Ill-formed commands (WellFormed) -/

theorem test_wf_bad_access_aligned : WellFormed (.bar0BadAccess 8 8 false) = false := by decide
theorem test_wf_bad_access : WellFormed (.bar0BadAccess 4 8 false) = true := by decide
theorem test_wf_bad_access_empty : WellFormed (.bar0BadAccess 4 0 true) = false := by decide
theorem test_wf_bar2_read_empty : WellFormed (.bar2Read 0 0 0) = false := by decide
theorem test_wf_bar2_read_outside : WellFormed (.bar2Read (BitVec.ofNat 41 (2 ^ 41 - 1)) 2 0) = false := by decide +kernel
theorem test_wf_bar2_read : WellFormed (.bar2Read (BitVec.ofNat 41 (2 ^ 41 - 1)) 1 15) = true := by decide +kernel
theorem test_wf_bar2_write_empty : WellFormed (.bar2Write 0 [] false) = false := by decide
theorem test_wf_bar2_write_outside : WellFormed (.bar2Write (BitVec.ofNat 41 (2 ^ 41 - 1)) [1, 2] false) = false := by decide +kernel
theorem test_wf_credit_core : WellFormed (.creditReturn (.core 0 4)) = false := by decide
theorem test_wf_credit_engine : WellFormed (.creditReturn (.engine 20 0)) = false := by decide
theorem test_wf_credit_psiud : WellFormed (.creditReturn (.psiud 0 64)) = false := by decide
theorem test_wf_completion_part : WellFormed (.hdmaHostCompletion 0 0 (.data [1, 2, 3])) = false := by decide
theorem test_wf_completion_poisoned : WellFormed (.hdmaHostCompletion 0 0 (.poisoned [])) = false := by decide
theorem test_wf_poll_records : WellFormed (.sqPoll 0 (List.replicate 65 0) [] false) = false := by decide +kernel
theorem test_wf_poll_heads : WellFormed (.sqPoll 0 [] (List.replicate 17 0) false) = false := by decide +kernel
theorem test_wf_buffer_fault : WellFormed (.blockForward (.hdma 0) (some 16) {}) = false := by decide
theorem test_wf_fuses : WellFormed (.fuseLoad []) = false := by decide
theorem test_wf_hbm : WellFormed (.hbmTest []) = false := by decide
theorem test_wf_bist : WellFormed (.sramBist [⟨3, 1, 0⟩, ⟨3, 1, 0⟩]) = false := by decide

/-! ## Control words from the field tables (R142, R146, R152, R165, R168, R174) -/

/-- SEQ SADD s3 = s1 + s2: OP 0x04 at [255:250], then D, A and B from the operand's upper bits on. -/
theorem test_word_sadd :
    decodeCw (BitVec.ofNat 256 (0x04 * 2 ^ 250 + (3 * 2 ^ 14 + 1 * 2 ^ 10 + 2 * 2 ^ 6) * 2 ^ 232)) =
      { seq := ⟨0x04, 3#4 ++ 1#4 ++ 2#4 ++ 0#6⟩ } := by decide +kernel

/-- MX MMA: FMT 5, MODE 1, ACC 2, OPA tile 1, OPB tile 3. -/
theorem test_word_mma :
    decodeCw (BitVec.ofNat 256 ((1 * 2 ^ 27 + 5 * 2 ^ 23 + 1 * 2 ^ 21 + 2 * 2 ^ 18 + 33 * 2 ^ 12 + 35 * 2 ^ 6) * 2 ^ 200)) =
      { mx := ⟨1, 5, 1, 2, 33, 35, 0, 0⟩ } := by decide +kernel

/-- VXA VADD of INT32: q0 + q1 to xq0. -/
theorem test_word_vadd :
    decodeCw (BitVec.ofNat 256 ((1 * 2 ^ 26 + 3 * 2 ^ 23 + 8 * 2 ^ 18 + 9 * 2 ^ 13 + 3 * 2 ^ 8) * 2 ^ 168)) =
      { vxa := ⟨1, 3, 8, 9, 3, 0⟩ } := by decide +kernel

/-- LD of the core's scratchpad with generator 2 to ld1, with a tag check. -/
theorem test_word_ld :
    decodeCw (BitVec.ofNat 256 ((1 * 2 ^ 22 + 2 * 2 ^ 19 + 2 * 2 ^ 14 + 1 * 2 ^ 13) * 2 ^ 112)) =
      { ld := ⟨1, 2, 2, 1, 0, 0, 0, 0⟩ } := by decide +kernel

/-- NET FWD of q2 to so1. -/
theorem test_word_fwd :
    decodeCw (BitVec.ofNat 256 ((1 * 2 ^ 21 + 10 * 2 ^ 16 + 17 * 2 ^ 11) * 2 ^ 64)) = { net := ⟨1, 10, 17, 0⟩ } := by
  decide +kernel

/-! ## Small states -/

/-- The block takes the host's accesses: READY, and Command's Memory Space and Bus Master Enable. -/
def up : State := { State.reset.setFlag HIF_STATUS.READY with cfg := [(0x004, 6)] }

/-- The cores of hamper 0: lane 0 is `k`, the others are disabled. -/
def lane0 (k : Core) : State :=
  (State.lanes 0).tail.foldl (fun s c => s.setCore c { en := false }) (State.reset.setCore (laneCore 0 0) k)

/-- Hamper 0 as `f` makes it. -/
def hampered (f : Hamper → Hamper) (s : State) : State := s.setHamper 0 (f (s.hamper 0))

/-- Time has come to period `n` of the groves' clock. -/
def later (n : Nat) (s : State) : State := { s with time := { s.time with periods := n } }

/-- Hamper 0 runs in cycle 3, with lane 0 as `k`. -/
def ready (k : Core) : State := later 3 (hampered (fun h => { h with state := stRunning }) (lane0 k))

/-- A landed entry. -/
def landed (n : Nat) : QSlot := { entry := { data := BitVec.ofNat 256 n } }

/-- ld0, ld1 and xq0 hold an entry each. -/
def fed : Core := { iq := [(1, [landed 5]), (2, [landed 7]), (3, [landed 9])] }

/-- Hamper 0 runs with an issue queue. -/
def queued (q : QWord) (k : Core) : State := hampered (fun h => { h with iq := [q] }) (ready k)

/-- The front end of hamper 0 can push. -/
def pushing : State := hampered (fun h => { h with state := stRunning }) State.reset

/-- A front end that can push, without an SMAD under way and outside every loop, may push any word. -/
theorem mayPush_plain {s : State} {h : HamperId} (f : SeqF) (hm : s.mayPush h = true) (hs : (s.hamper h).smad = none)
    (hl : (s.hamper h).loops = []) : MayPush s h f :=
  ⟨hm, by simp [hs], by simp [hl]⟩

/-! ## States and operands that meet the statements' hypotheses -/


theorem witness_VectorArithmetic :
    EndsOk [1, 2] 3 ∧ EndsOk [1, 2, 3] 3 ∧ Goes (ready fed) 0 (slotWord .a ⟨1, 3, 1, 2, 3, 0⟩) ∧
    Goes (ready fed) 0 (slotWord .b ⟨2, 0, 1, 2, 3, 0⟩) ∧ Goes (ready fed) 0 (slotWord .a ⟨3, 3, 1, 2, 3, 0⟩) ∧
    Goes (ready fed) 0 { vxa := ⟨4, 0, 1, 2, 3, 3⟩ } := by
  unfold EndsOk Goes; decide +kernel

theorem witness_VectorSelectAndBits :
    EndsOk [1, 2] 3 ∧ EndsOk [1] 3 ∧ (∀ op ∈ [5, 6, 9, 10, 11, 8], Goes (ready fed) 0 (slotWord .a ⟨op, 3, 1, 2, 3, 0⟩)) ∧
    ∀ op ∈ [0x0C, 0x0D, 0x0F], Goes (ready fed) 0 (slotWord .b ⟨op, 3, 1, 0, 3, 0⟩) := by
  unfold EndsOk Goes; decide +kernel

theorem witness_VectorFunctions :
    EndsOk [1, 2] 3 ∧ EndsOk [1] 3 ∧ Goes (ready fed) 0 (slotWord .a ⟨0x0E, 0, 1, 2, 3, 1⟩) ∧
    Goes (ready fed) 0 { vxa := ⟨0x14, 3, 1, 2, 3, 0⟩ } ∧ Goes (ready fed) 0 { vxa := ⟨0x10, 0, 1, 0, 3, 0⟩ } ∧
    (∀ op ∈ [0x13, 0x11, 0x12, 0x15], Goes (ready fed) 0 { vxa := ⟨op, 3, 1, 0, 3, 0⟩ }) ∧
    Goes (ready fed) 0 (slotWord .a ⟨0x16, 0, 1, 2, 3, 1⟩) := by
  unfold EndsOk Goes; decide +kernel

theorem witness_VectorMasksAndLength :
    EndsOk [1, 2] 3 ∧ endIsSource 1 = true ∧ Goes (ready fed) 0 (slotWord .a ⟨7, 3, 1, 2, 3, 0⟩) ∧
    Goes (ready fed) 0 (slotWord .a ⟨0x17, 0, 0, 0, 0, 33⟩) ∧ Goes (ready fed) 0 (slotWord .a ⟨0x17, 0, 1, 0, 0, 0x80⟩) ∧
    Goes (ready fed) 0 {} := by
  unfold EndsOk Goes; decide +kernel

theorem witness_ArrayOperations :
    (codeEnd 1).toNat < 16 ∧ (codeEnd 33).toNat < 16 ∧
    (∀ op ∈ [1, 2], ∀ fmt ∈ [0, 3, 5], Goes (ready fed) 0 { mx := ⟨op, fmt, 0, 2, 33, 35, 0, 0⟩ }) ∧
    Goes (ready fed) 0 { mx := ⟨1, 0, 0, 2, 1, 2, 0, 0⟩ } ∧ Goes (ready fed) 0 { mx := ⟨3, 4, 0, 0, 33, 35, 0, 0⟩ } ∧
    Goes (ready fed) 0 { mx := ⟨4, 4, 0, 0, 33, 0, 0, 0⟩ } := by
  unfold Goes; decide +kernel

theorem witness_AccumulatorOperations :
    (codeEnd 2).toNat < 16 ∧ Goes (ready fed) 0 { mx := { op := 5, opb := 2, ocs := 1 } } ∧
    Goes (ready fed) 0 { mx := { op := 5, opb := 34 } } ∧ Goes (ready fed) 0 { mx := { op := 6, acc := 7 } } ∧
    Goes (ready fed) 0 { mx := { op := 7, acc := 1, opa := 1, opb := 2 } } ∧
    Goes (ready fed) 0 { mx := { op := 7, acc := 1, opa := 33, opb := 0 } } ∧ endIsDest 3 = true ∧
    Goes (ready fed) 0 { mx := { op := 8, acc := 1, opb := 3, pass := 1 } } := by
  unfold Goes; decide +kernel

theorem witness_ResultsLand :
    ∃ s : State, ∃ r w, (s.core 0).mx.results = [r] ∧ r.due ≤ s.cycle 0 ∧ r.effect = .zero ∧ (s.core 0).tileWr = [w] ∧ w.due ≤ s.cycle 0 :=
  ⟨lane0 { mx := { results := [{ due := 0, acc := 1, effect := .zero, poison := 0 }] }, tileWr := [⟨0, 1, false, 0, {}⟩] }, _, _, rfl,
    by decide +kernel, rfl, rfl, by decide +kernel⟩

theorem witness_QueueAndTileOperations :
    EndsOk [1] 4 ∧ endIsSource 1 = true ∧ endIsDest 4 = true ∧ Goes (ready fed) 0 { net := { op := 1, src := 1, dst := 4 } } ∧
    Goes (ready fed) 0 { net := { op := 2, src := 1 } } ∧ Goes (ready fed) 0 { tile := { op := 1, tile := 2, rest := tileRest 1 true } } ∧
    Goes (ready fed) 0 { tile := { op := 2, tile := 2, rest := tileRest 4 true } } ∧
    Goes (ready fed) 0 { tile := { op := 3, tile := 31, rest := 1#3 ++ 2#3 ++ 0#3 } } := by
  unfold EndsOk Goes; decide +kernel

theorem witness_GeneratorAndMaskOperations :
    (∀ sel ∈ [0, 1, 2, 3, 4, 5, 6, 7], Goes (ready fed) 0 { agu := { op := 1, gen := 7, sel := sel, vsrc := 0, val := 3 } }) ∧
    Goes (ready fed) 0 { agu := { op := 1, gen := 1, sel := 0, vsrc := 1, val := 0x2400 } } ∧
    Goes (ready fed) 0 { agu := { op := 1, gen := 1, sel := 0, vsrc := 2, val := 0x200 } } ∧
    Goes (ready fed) 0 { agu := { op := 2, gen := 3 } } ∧ Goes (ready fed) 0 { agu := { op := 3, gen := 3 } } ∧
    (∀ mop ∈ [1, 3, 4, 5], Goes (ready fed) 0 { mask := { mop := mop, mi := 3 } }) ∧ Goes (ready fed) 0 { mask := { mop := 2 } } := by
  unfold Goes; decide +kernel

theorem witness_BadEndDoesNothing :
    ¬ EndsOk [1] 8 ∧ endIsSource 16 = false ∧ endIsDest 7 = false ∧ ¬ EndsOk [1, 20] 3 ∧
    Goes (ready fed) 0 { net := { op := 1, src := 1, dst := 8 } } ∧ Goes (ready fed) 0 { net := { op := 2, src := 16 } } ∧
    Goes (ready fed) 0 (slotWord .a ⟨1, 3, 1, 20, 3, 0⟩) ∧ Goes (ready fed) 0 { tile := { op := 2, tile := 0, rest := tileRest 7 false } } := by
  unfold EndsOk Goes; decide +kernel

/-- A queued word pushed before the current cycle: DROP of ld0. -/
def dropWord : QWord := { word := encodeCw { net := { op := 2, src := 1 } } }

theorem witness_IssueTakesTheHead :
    (let s := queued dropWord fed
     (s.hamper 0).iq = [dropWord] ∧ s.mayIssue 0 = true ∧ dropWord.pushed < s.cycle 0 ∧
     (settled s 0).wordRefusal 0 (decodeCw dropWord.word) = none ∧ (decodeCw dropWord.word).seq.op &&& 0x3C ≠ 0x20) ∧
    (let s := queued dropWord {}
     (s.hamper 0).iq = [dropWord] ∧ s.mayIssue 0 = true ∧ dropWord.pushed < s.cycle 0 ∧
     ((settled s 0).wordRefusal 0 (decodeCw dropWord.word)).isSome = true) := by
  decide +kernel

theorem witness_Holds :
    (∀ f ∈ [(⟨0x20, 100⟩ : SeqF), ⟨0x21, 0⟩, ⟨0x22, 5⟩, ⟨0x23, 0⟩], Goes (ready {}) 0 { seq := f }) ∧
    (let s := hampered (fun h => { h with holdPos := 101 }) (ready {})
     Goes s 0 { seq := ⟨0x20, 100⟩ } ∧ (100 : Nat) < (s.hamper 0).holdPos.toNat) ∧
    ((ready {}).hamper 0).badEnd = false ∧ (ready {}).plane.abort = none ∧ ((ready {}).hamper 0).state ≠ stStopped := by
  unfold Goes; decide +kernel

theorem witness_WaitsEndSwapAuditWatchdog :
    (∀ f ∈ [(⟨0x24, 9⟩ : SeqF), ⟨0x25, 0⟩, ⟨0x3E, 0⟩, ⟨0x11, 0⟩], Goes (ready {}) 0 { seq := f }) ∧
    Goes (ready {}) 0 { check := { audit := 1, id := 5 } } ∧ ((ready {}).hamper 0).paramReady = false ∧
    (let s := hampered (fun h => { h with refused := 2 ^ 20 }) (ready {})
     s.flag CP_WD_CFG.EN = true ∧ (s.hamper 0).wdFired = false ∧ 2 ^ s.fld CP_WD_CFG.LOG2 ≤ (s.hamper 0).refused ∧
     s.anyHamper Hamper.runs = true) := by
  unfold Goes; decide +kernel

theorem witness_ScalarArithmetic (f : SeqF) : MayPush pushing 0 f := mayPush_plain f (by decide +kernel) rfl rfl

theorem witness_ScalarMovesAndCounters : MayPush pushing 0 ⟨0x18, 0⟩ ∧ MayPush pushing 0 ⟨0x19, 0⟩ :=
  ⟨witness_ScalarArithmetic _, witness_ScalarArithmetic _⟩

theorem witness_LoopCallReturn :
    (MayPush pushing 0 ⟨0x1A, 1⟩ ∧ (pushing.hamper 0).loops = [] ∧ ((pushing.hamper 0).lc 0).toNat = 0) ∧
    (MayPush (hampered (fun h => { h with lcs := [(0, 7)] }) pushing) 0 ⟨0x1A, 1⟩ ∧
      ((hampered (fun h => { h with lcs := [(0, 7)] }) pushing).hamper 0).lc 0 = 7) ∧
    (MayPush (hampered (fun h => { h with calls := [1, 2, 3] }) pushing) 0 ⟨0x1C, 5⟩ ∧
      ((hampered (fun h => { h with calls := [1, 2, 3] }) pushing).hamper 0).calls.length < 4) ∧
    (MayPush (hampered (fun h => { h with calls := [9] }) pushing) 0 ⟨0x1D, 0⟩ ∧
      ((hampered (fun h => { h with calls := [9] }) pushing).hamper 0).calls = 9 :: []) :=
  ⟨⟨mayPush_plain _ (by decide +kernel) rfl rfl, rfl, by decide +kernel⟩,
    ⟨mayPush_plain _ (by decide +kernel) rfl rfl, by decide +kernel⟩,
    ⟨mayPush_plain _ (by decide +kernel) rfl rfl, by decide +kernel⟩,
    ⟨mayPush_plain _ (by decide +kernel) rfl rfl, rfl⟩⟩

theorem witness_FetchAndFill :
    (let s := hampered (fun h => { h with pc := BitVec.ofNat 25 (2 ^ 24) }) pushing
     s.mayPush 0 = true ∧ (s.hamper 0).pc.getLsbD 24 = true ∧ (s.hamper 0).smad = none) ∧
    (pushing.mayPush 0 = true ∧ (pushing.hamper 0).pc.getLsbD 24 = false ∧
      (pushing.hamper 0).cached ((pushing.hamper 0).pc.extractLsb' 3 21) = none) ∧
    (let x : IcLine := ⟨0, [5], false, 0⟩
     let s := hampered (fun h => { h with icLines := [x] }) pushing
     s.mayPush 0 = true ∧ (s.hamper 0).pc.getLsbD 24 = false ∧ (s.hamper 0).cached ((s.hamper 0).pc.extractLsb' 3 21) = some x ∧
     (s.hamper 0).smad = none) ∧
    (let s := hampered (fun h => { h with icMiss := some 3 }) pushing
     (s.hamper 0).icMiss = some 3 ∧ (s.hamper 0).progBase.toNat + 256 * 3 + 256 ≤ hbmEnd) ∧
    (let s := hampered (fun h => { h with preload := some ⟨3, 1, true⟩ }) State.reset
     (s.hamper 0).icMiss = none ∧ (s.hamper 0).preload = some ⟨3, 1, true⟩ ∧ (s.hamper 0).progBase.toNat + 256 * 3 + 256 ≤ hbmEnd) ∧
    (let s := hampered (fun h => { h with icMiss := some 0, progBase := BitVec.ofNat 64 hbmEnd }) State.reset
     (s.hamper 0).icMiss = some 0 ∧ hbmEnd < (s.hamper 0).progBase.toNat + 256 * 0 + 256) := by
  decide +kernel

theorem witness_PushFillAccessLandComplete :
    (let s := hampered (fun h => { h with pc := BitVec.ofNat 25 (2 ^ 24) }) pushing
     let r := s.hamper 0
     s.clockOn 0 = true ∧ r.state = stRunning ∧ r.stopped = false ∧ r.swapWait = false ∧ r.icMiss = none ∧
     r.iq.length < Config.issueDepth ∧ r.pushFrom ≤ s.cycle 0 ∧ r.smad = none ∧ r.pc.getLsbD 24 = true ∧ r.loops = [] ∧
     smGet 0 (s.grove 0).lib (r.pc.toNat % 8192) = 0) ∧
    (let x : IcLine := ⟨0, [0], false, 0⟩
     let s := hampered (fun h => { h with icLines := [x] }) pushing
     let r := s.hamper 0
     s.clockOn 0 = true ∧ r.pc.getLsbD 24 = false ∧ r.cached (r.pc.extractLsb' 3 21) = some x ∧
     (x.words[r.pc.toNat % 8]?).getD 0 = 0 ∧ r.smad = none) ∧
    ((State.reset.hamper 0).icMiss = none ∧ (State.reset.hamper 0).preload = none) ∧
    (let s := up
     s.gated 0 = false ∧ s.asleep .host = false ∧ s.flag HIF_STATUS.READY = true ∧ s.svcWindow 0x2080040 = .hamper 0 0x040 ∧
     (s.hamper 0).quiet = true) ∧
    (let z : MxResult := { due := 0, acc := 1, effect := .zero, poison := 0 }
     let w : TileWrite := ⟨0, 1, false, 0, {}⟩
     let s := lane0 { mx := { results := [z] }, tileWr := [w] }
     z ∈ (s.core 0).mx.results ∧ z.due ≤ s.cycle 0 ∧ (∀ x ∈ (s.core 0).mx.results, x.effect = .zero) ∧
     (s.core 0).tileWr.filter (fun x => x.due ≤ s.cycle 0) = [w]) := by
  decide +kernel

theorem witness_SequencerCommands :
    (let r := State.reset.hamper 0
     r.state = stIdle ∧ r.preload = none ∧ r.state ≠ stStopped) ∧
    (let r := (hampered (fun h => { h with state := stStopped }) State.reset).hamper 0
     r.state = stStopped ∧ r.preload = none) ∧
    (let r := pushing.hamper 0
     r.state ≠ stIdle ∧ r.state ≠ stStopped ∧ r.quiet = false) ∧
    (let r := (hampered (fun h => { h with preload := some ⟨0, 1, false⟩ }) State.reset).hamper 0
     r.preload ≠ none) := by
  decide +kernel

theorem witness_SequencerRegisters :
    (pushing.hamper 0).quiet = false ∧ (State.reset.hamper 0).quiet = true ∧ (0xFFFFFF : BitVec 64).getLsbD 24 = false ∧
    (0x1001FFF : BitVec 64).getLsbD 24 = true ∧ getBits 0x1001FFF 23 13 = 0 ∧ getBits 0xFFFFFFFFFF00 7 0 = 0 := by
  decide +kernel

theorem witness_CacheAndLibrary :
    (State.reset.hamper 0).quiet = true ∧ (State.reset.hamper 0).preload = none ∧ (pushing.hamper 0).quiet = false ∧
    State.reset.allHampers 0 Hamper.quiet = true ∧ pushing.allHampers 0 Hamper.quiet = false := by
  decide +kernel

/-- Hamper 0 waits at a hold with target 500, and a request of instant 3 is due. -/
def aborting (cfg : BitVec 64) (force : Bool) : State :=
  let s := hampered (fun h => { h with hold := some ⟨500, 0, 0⟩, state := stHolding, abortCfg := cfg }) State.reset
  { s with plane := { s.plane with abort := some ⟨3, force⟩ }, time := { s.time with almanac := 67 } }

theorem witness_AbortRequests :
    (pushing.anyHamper Hamper.runs = true ∧ pushing.plane.abort = none) ∧ State.reset.anyHamper Hamper.runs = false ∧
    ((aborting 0 false).anyHamper Hamper.runs = true ∧ (aborting 0 false).plane.abort = some ⟨3, false⟩) ∧
    (∀ force ∈ [true, false],
      (aborting 0 force).plane.abort = some ⟨3, force⟩ ∧ ((aborting 0 force).hamper 0).hold = some ⟨500, 0, 0⟩ ∧
      ((aborting 0 force).hamper 0).owes = true ∧ (aborting 0 force).releaseDue (groveOfHamper 0) = false ∧ (3 : BitVec 64).toNat + 64 ≤ (aborting 0 force).time.almanac.toNat) ∧
    ((aborting (1 <<< 25) false).hamper 0).owes = true ∧ ((aborting (1 <<< 25) false).hamper 0).abortCfg.getLsbD 25 = true ∧
    (0 : BitVec 64).toNat < (3 : BitVec 64).toNat + 64 ∧ (3 : BitVec 64).toNat + 64 ≤ (67 : BitVec 64).toNat := by
  decide +kernel

/-! ### Port cycles, scratchpads, the meshes -/

/-- Cycle 3, and core 0 is `k`. -/
def coreOne (k : Core) : State := later 3 (State.reset.setCore 0 k)

/-- A read of row 511 that port cycle 3 owes. -/
def readOwed (toCore : Bool) (dest : BitVec 5) : PortRead :=
  { cycle := 3, toCore := toCore, row := 511, phase := true, dest := dest, tag := true, bc := false, bsz := 0, el := 0, masked := false,
    cost := 1, coll := false }

theorem witness_LoadsReadTheirRow :
    (∀ p ∈ [readOwed true 1, readOwed false 16],
      ((coreOne { spad := { portRd := some p } }).core 0).spad.portRd = some p ∧ p.cycle ≤ (coreOne { spad := { portRd := some p } }).cycle 0) ∧
    (readOwed true 1).toCore = true ∧ (readOwed true 1).dest ≠ 0 ∧ (readOwed false 16).toCore = false ∧ endSend 16 = true := by
  decide +kernel

/-- A write of row 511 that port cycle 3 owes. -/
def writeOwed (byCore masked : Bool) : PortWrite :=
  { cycle := 3, byCore := byCore, row := 511, phase := true, entry := {}, tag := true, masked := masked, coll := false }

/-- Core 0 owes a write, with an inlet. -/
def storing (byCore masked : Bool) (inlet : List InletRow) : State :=
  coreOne { spad := { portWr := some (writeOwed byCore masked) }, net := { inlet := inlet } }

theorem witness_StoresAndLandings :
    (∀ byCore ∈ [true, false], ∀ masked ∈ [true, false], ∀ inlet ∈ [[], [({ due := 2 } : InletRow)], [{ due := 3 }]],
      let s := storing byCore masked inlet
      (s.core 0).spad.portWr = some (writeOwed byCore masked) ∧ (writeOwed byCore masked).cycle ≤ s.cycle 0 ∧ (s.core 0).spad.portRd = none ∧
      (s.core 0).spad.injecting = [] ∧ (s.core 0).net.inlet = inlet) ∧ endInternal 1 = true ∧ endInternal 6 = true := by
  decide +kernel

/-- Core 0 in a port cycle with the scrub mark. -/
def scrubbing (rdOwned : Bool) (w : Option ScrubWrite) (rows : SMap SpadRow) : State :=
  coreOne { spad := { port := { cycle := 3, rdOwned := rdOwned, scrub := true }, scrubWr := w, rows := rows } }

theorem witness_ScrubbingAndMaintenance :
    (let s := scrubbing false none []
     let p := ((s.settleLane 0).core 0).spad
     p.scrubMark (s.cycle 0) = true ∧ p.scrubWr = none ∧ (p.portAt (s.cycle 0)).rdOwned = false ∧ p.scrubEn = true ∧
     ((((s.settleLane 0).core 0).rowIn (s.cycle 0) p.ptr).decode.all fun w => w.2.2.1 = .clean) = true) ∧
    (let s := scrubbing false none [(0, { chk := 1 })]
     let p := ((s.settleLane 0).core 0).spad
     p.scrubMark (s.cycle 0) = true ∧ (p.portAt (s.cycle 0)).rdOwned = false ∧
     ((((s.settleLane 0).core 0).rowIn (s.cycle 0) p.ptr).decode.all fun w => w.2.2.1 = .clean) = false) ∧
    (let s := scrubbing true (some ⟨3, 9, {}⟩) []
     let p := ((s.settleLane 0).core 0).spad
     p.scrubWr = some ⟨3, 9, {}⟩ ∧ 3 = s.cycle 0 ∧ p.scrubMark 3 = true ∧ (p.portAt 3).wrOwned = false ∧
     smGet 0 p.writtenAt 9 ≠ 3 ∧ (p.portAt 3).rdOwned = true) ∧
    Takes (later 3 State.reset) 0 ∧
    (let s := later 3 State.reset
     let k := (s.settleLane 0).core 0
     k.spad.injecting = [] ∧ k.spad.portRd = none ∧ k.spad.portWr = none ∧ k.spad.lastWrite ≠ (4, 0)) := by
  unfold Takes; decide +kernel

theorem witness_CoreAndRouteWrites :
    Takes (later 3 State.reset) 0 ∧ 32 < (33 : BitVec 64).toNat % 64 ∧ shapeOk 0 4 = true ∧ shapeOk 4 4 = false ∧
    (let v : BitVec 64 := 0x8002
     v.extractLsb' 0 2 ≠ 3 ∧ 1 ≤ (v.extractLsb' 12 4).toNat ∧ (v.extractLsb' 12 4).toNat ≤ 8) ∧
    Core.rqFree ((State.reset.core 0).rqueue 7) = true ∧ Core.rqFree { entries := [{}] } = false ∧ (4 : BitVec 3).toNat ≤ 4 ∧
    (({} : Core).routeClash 4 15 (1 <<< 31)) = false ∧
    (Core.routeClash { net := { routes := [(0, 0xC0000000)] } } 4 0 0xC0000000) = true := by
  unfold Takes; decide +kernel

theorem witness_ServiceAccesses :
    State.reset.flag HIF_STATUS.READY = false ∧
    (let p := up.svcWindow 0x1000000
     up.flag HIF_STATUS.READY = true ∧ State.svcGrove p = some 0 ∧ up.gated 0 = false ∧ State.svcSpad p = none ∧
     ((up.svcSettle p).svcReadReg p).isSome = true) ∧
    (let p := up.svcWindow 0x2000010
     State.svcGrove p = some 0 ∧ up.gated 0 = false ∧ State.svcSpad p = none ∧ up.libTurned p = false ∧
     ((up.svcSettle p).svcWriteReg p (Width.low.merge ((up.svcSettle p).svcKept p) 0)).isSome = true) ∧
    (up.asleep .host = false ∧ State.reset.asleep .manager = false ∧ up.allHampers 0 Hamper.quiet = true ∧
      up.svcWindow 0x2040000 = .grove 0 0x40000 ∧ pushing.allHampers 0 Hamper.quiet = false) ∧
    (let s := { State.reset with cfg := [(0x004, 6)] }
     s.asleep .host = false ∧ s.flag HIF_STATUS.READY = false) ∧
    (let p := pushing.svcWindow 0x1000060
     p = .core 0 0x060 ∧ ((pushing.svcSettle p).hamper (hamperOf 0)).quiet = false ∧ State.svcSpad p = none) ∧
    (let p := (later 3 State.reset).svcWindow 0x1000060
     let u := (later 3 State.reset).svcSettle p
     (u.hamper (hamperOf 0)).quiet = true ∧ (u.core 0).wordSet.1 ≠ u.cycle (groveOf 0)) ∧
    (let p := up.svcWindow 0x1003FF8
     State.svcGrove p = some 0 ∧ State.svcSpad p = none ∧ (up.svcSettle p).svcReadReg p = none ∧
     ((up.svcSettle p).svcWriteReg p 0).isSome = false) ∧
    (∀ busy ∈ [true, false], let s := (later 3 (State.reset.setCore 0 { spad := { port := { cycle := 3, rdOwned := busy } } }))
     s.svcWindow 0x1004020 = .core 0 0x4020 ∧ s.gated (groveOf 0) = false ∧ (s.settleLane 0).svcPort 0 false = !busy) ∧
    (let s := State.reset.setReg CLK_GATE_FIELD.off 0
     State.svcGrove (s.svcWindow 0x2000000) = some 0 ∧ s.gated 0 = true) ∧
    State.reset.svcWindow 0x20C0000 = .reserved := by
  decide +kernel

/-- A core's request for SEQ_PC of its hamper. -/
def pcWord : BitVec 64 := BitVec.ofNat 64 (2 ^ 58 + 0x10)

/-- That request at a send end. -/
def askPc : Tuple := { words := [(pcWord, false)] }

/-- Core 0 with that request, and a reply queue. -/
def asking : State := coreOne { net := { send := [(0, { type := 2, buf := [askPc] })], rq := [(7, { svcreply := true })] } }

/-- A service write of row 1 whose merge has read its row. -/
def merging : SvcAccess :=
  { who := .manager, core := 0, offset := 0x4020, write := true, data := 5, poison := false, started := 0, merge := some (2, {}) }

theorem witness_ServiceRequests :
    (let e := (asking.core 0).sendEnd 0
     e.buf = [askPc] ∧ e.type = 2 ∧ askPc.ready < asking.cycle 0 ∧ askPc.words = [(pcWord, false)] ∧
     getBits pcWord 59 58 = 1 ∧ coreAt (getBits pcWord 29 20) (getBits pcWord 39 30) = 0 ∧ pcWord.getLsbD 63 = false ∧
     ((asking.hamper 0).readAt (getBits pcWord 19 0)).isSome = true ∧
     asking.gated 0 = false ∧ State.replyQueue (asking.core 0) = some 7 ∧ ((asking.core 0).rqueue 7).potluck = false ∧
     ((asking.core 0).rqueue 7).entries.length < 8) ∧
    (let s := (later 65536 State.reset).setSvc [merging]
     s.plane.svc.filter (fun a => decide (a.started + s.fld SVC_CFG.TIMEOUT ≤ s.cycle (groveOf a.core))) ≠ []) ∧
    (let s := (later 65535 State.reset).setSvc [merging]
     s.plane.svc.filter (fun a => decide (a.started + s.fld SVC_CFG.TIMEOUT ≤ s.cycle (groveOf a.core))) = []) ∧
    (let s := (coreOne {}).setSvc [merging]
     let u := (s.setSvc []).settleLane 0
     State.takeFirst (fun y : SvcAccess => y.core = 0 && y.merge.isSome) s.plane.svc = some (merging, []) ∧
     merging.merge = some (2, {}) ∧ smGet 0 (u.core 0).spad.writtenAt (State.svcRow merging.offset.toNat).1.toNat ≤ 2 ∧
     ((u.core 0).spadRow (State.svcRow merging.offset.toNat).1).entry = {} ∧ 2 < u.cycle 0 ∧ u.svcPort 0 true = true ∧
     merging.who = .manager) ∧
    (let s := (coreOne { spad := { writtenAt := [(1, 3)] } }).setSvc [merging]
     let u := (s.setSvc []).settleLane 0
     (State.svcRow merging.offset.toNat).1 = 1 ∧ 2 < smGet 0 (u.core 0).spad.writtenAt 1 ∧
     smGet 0 (u.core 0).spad.writtenAt 1 ≤ u.cycle 0) := by
  decide +kernel

/-- A flit at the north input of core 0 in schedule cycle 3, with the entry of slot 3. -/
def flitHere (e : BitVec 32) : State :=
  (coreOne { net := { routes := [(3, e)] } }).setMesh { links := [⟨0, 0, 3, { valid := 1 }⟩] }

/-- Grove 0 is in a schedule cycle, that flit is the due one, and `e` is the entry of its slot. -/
def atRouter (e : BitVec 32) : Bool :=
  let s := flitHere e
  decide (s.catching 0 = false ∧ State.takeFirst (fun x : LinkFlit => x.core = 0 && x.input = 0 && x.due ≤ s.total 0) s.plane.mesh.links =
    some (⟨0, 0, 3, { valid := 1 }⟩, []) ∧ (s.core 0).route 0 ((s.sched 0 + 16 - 0 % 16) % 16) = e)

theorem witness_FlitsAreRouted :
    (let f := ({ valid := 1 } : Flit)
     (f.noisy 0 0).badPar &&& (f.noisy 0 0).valid = 0 ∧ (f.noisy 1 0).badPar &&& (f.noisy 1 0).valid ≠ 0 ∧
     (f.noisy 3 0).valid = 1 ∧ (f.noisy 3 0).last = true) ∧
    atRouter 0 = true ∧ atRouter (5 <<< 29) = true ∧ atRouter (0x212 <<< 22) = true ∧
    routeValid 0 = false ∧
    (routeValid (5 <<< 29) = true ∧ (List.range 4).filter (State.routeOut (5 <<< 29)) = [1] ∧ State.routeOut (5 <<< 29) 4 = false ∧
      State.coreBeside 0 1 = some (coreAt 1 0) ∧ groveOf (coreAt 1 0) = 0) ∧
    (routeValid (0x212 <<< 22) = true ∧ (List.range 4).filter (State.routeOut (0x212 <<< 22)) = [] ∧
      State.routeOut (0x212 <<< 22) 4 = true ∧ routeTgt (0x212 <<< 22) < 8 ∧
      (((flitHere (0x212 <<< 22)).core 0).rqueue (routeTgt (0x212 <<< 22))).entries.length < 8 ∧
      smGet [] ((flitHere (0x212 <<< 22)).core 0).net.part (routeTgt (0x212 <<< 22)) = []) := by
  decide +kernel

/-- Core 0 injects from so1 in slot 3. -/
def injecting (words : List (BitVec 64 × Bool)) : State :=
  coreOne { net := { routes := [(67, 0x10001 <<< 15)], send := [(1, { type := 1, buf := [{ words := words }] })] } }

theorem witness_CrossingInjectionCredits :
    (let s := (hampered (fun h => { h with state := stRunning }) (coreOne {})).setMesh { crossing := [⟨0, 1, 0, 3, {}⟩] }
     s.catching 0 = false ∧ State.takeFirst (fun y : CrossFlit => y.core = 0 && y.input = 1 && s.crossingDue y) s.plane.mesh.crossing =
       some (⟨0, 1, 0, 3, {}⟩, []) ∧ s.crosses 0 = true) ∧ (State.reset.setReg CLK_GATE_FIELD.off 0).crosses 0 = false ∧
    (∀ ws ∈ [[((5 : BitVec 64), false)], [(5, false), (6, false), (7, true)]],
      let s := injecting ws
      let e := (s.core 0).route 4 (s.slot 0)
      s.catching 0 = false ∧ routeValid e = true ∧ ((s.core 0).sendEnd (routeSend e)).buf = [{ words := ws }] ∧
      ((s.core 0).sendEnd (routeSend e)).type = 1 ∧ (s.core 0).net.injected ≤ s.total 0) ∧
    (∀ src ∈ [Source.core 0 3, .engine 19 31, .psiud 15 63],
      0 < ((coreOne {}).setMesh { credits := [⟨src, 0, 2, 3⟩] }).creditsDue src) := by
  decide +kernel

/-! ### Time -/

/-- The Almanac runs. -/
def ticking : State :=
  let s := State.reset.setFlag ALM_STATUS.RUNNING
  { s with time := { s.time with started := true } }

/-- Grove 0 is 10 cycles ahead of grove 1, whose hamper 0 runs, and a router forwards from one to the other. -/
def drifted : State :=
  let s := (later 10 State.reset).setCore (coreAt 63 0) { net := { routes := [(0, 5 <<< 29)] } }
  let s := s.setHamper (hamperAt 1 0) { state := stRunning }
  s.setGrove 1 { lostLeaps := 10 }

/-- Hamper 0 waits at a hold whose target has come. -/
def holding : State := later 3 (hampered (fun h => { h with state := stHolding, hold := some ⟨0, 1, 0⟩ }) State.reset)

theorem witness_AlmanacTicks :
    State.reset.flag ALM_STATUS.RUNNING = false ∧ ticking.flag ALM_STATUS.RUNNING = true ∧
    (∀ n ∈ [(5 : Int), -5], let t : Time := { slewLeft := n }
      (decide (4 < t.slewLeft.natAbs) && !t.slewUsed) = true) ∧
    (decide (4 < ({ slewLeft := 4 } : Time).slewLeft.natAbs) && !({ slewLeft := 4 } : Time).slewUsed) = false ∧
    (ticking.time.stopped = false ∧ ticking.time.rootGated = false ∧ ticking.power.stopDue = none) ∧
    (ticking.setFlag ALM_STATUS.REF_LOST).flag ALM_STATUS.REF_LOST = true ∧ ticking.flag ALM_STATUS.REF_LOST = false := by
  decide +kernel

theorem witness_GroveCycles :
    (State.reset.clockOn 0 = true ∧ ((State.reset.grove 0).leaps.any fun l => l.1 = 1) = false) ∧
    (State.reset.setReg CLK_GATE_FIELD.off 0).clockOn 0 = false ∧ holding.releaseDue 0 = true ∧ State.reset.releaseDue 0 = false ∧
    (drifted.clockOn 0 = true ∧ drifted.catchUpDue 0 = true ∧ drifted.catching 0 = false ∧ drifted.releaseDue 0 = false ∧
      drifted.idleCycle 0 = true) ∧ State.reset.gated 0 = false ∧
    (let g : Grove := { leaps := [(1, 1), (3, 2)] }
     2 < State.leapsWithin ((5, 3) :: g.leaps) 64 (g.cycle 4 + 1)) := by
  decide +kernel

theorem witness_Departures :
    (let s := ticking
     s.fld ALM_DEPART_CTRL.STATE ≠ 1 ∧ s.locked = true ∧ s.isHead = false ∧ (s.reg ALM_DEPART.off).toNat < s.time.almanac.toNat + 64) ∧
    (ticking.setReg ALM_DEPART.off 64).time.almanac.toNat + 64 ≤ ((ticking.setReg ALM_DEPART.off 64).reg ALM_DEPART.off).toNat ∧
    ((State.reset.setFld ALM_SYNC.ROLE 2).locked = false ∧ (State.reset.setFld ALM_SYNC.ROLE 2).isHead = false) ∧
    (let s := (ticking.setReg ALM_DEPART.off 64).setFld ALM_DEPART_CTRL.STATE 1
     s.fld ALM_DEPART_CTRL.STATE = 1 ∧ s.time.almanac < s.reg ALM_DEPART.off) ∧
    (let s := ticking.setFld ALM_DEPART_CTRL.STATE 1
     s.fld ALM_DEPART_CTRL.STATE = 1 ∧ s.reg ALM_DEPART.off ≤ s.time.almanac) ∧
    (let s := (ticking.setLaunch true).setFld ALM_DEPART_CTRL.STATE 4
     s.fld ALM_DEPART_CTRL.STATE ≠ 1 ∧ s.plane.launch = true ∧ s.reg ALM_DEPART.off ≤ s.time.almanac) ∧
    State.reset.plane.launch = false ∧
    (pushing.setFld ALM_SYNC.ROLE 1).isHead = true ∧ (pushing.setFld ALM_SYNC.ROLE 1).anyHamper Hamper.runs = true := by
  decide +kernel

theorem witness_PodTime :
    (let s := (State.reset.setFld ALM_SYNC.ROLE 2).setFld (PSIUD_STAT.STATE 0) psUp
     s.fld ALM_SYNC.ROLE = 2 ∧ s.time.reqAt ≤ s.time.ticks ∧ s.portState (s.fld ALM_SYNC.UPSTREAM) = psUp ∧ s.scheduled = false) ∧
    State.reset.fld ALM_SYNC.ROLE ≠ 2 ∧ 1024 < (1025 : Int).natAbs ∧ ¬ 1024 < (1024 : Int).natAbs := by
  decide +kernel

/-! ### Stream engines, host DMA and HBM -/

/-- Channel 0 of stack 0, and channel 0 of the host DMA engine. -/
def seU : SeUnit := .se 0 0
def hdU : SeUnit := .hdma 0

/-- Channel `u` runs, with descriptors and blocks as in `k`. -/
def onChan (u : SeUnit) (k : Chan) (s : State := State.reset) : State := (s.setChan u k).setFld u.fState chRunning

/-- A READ descriptor under way. -/
def aJob : Job := { idx := 0, desc := { op := 1 } }

/-- A block of one row. -/
def aBlk (p : BlkPhase) : Blk := { seq := 0, addr := 0, rows := 1, phase := p, data := if p = .reading then [] else [{}] }

/-- A channel with that descriptor and block. -/
def busyChan (p : BlkPhase) : Chan := { jobs := [aJob], blks := [aBlk p] }

theorem witness_ChannelCommands :
    State.reset.fld seU.fState = chDisabled ∧ (onChan seU {}).fld seU.fState ≠ chDisabled ∧ (onChan seU {}).fld seU.fState ≠ chHalted ∧
    (State.reset.setFld seU.fState chHalted).fld seU.fState = chHalted ∧
    (State.reset.setFld seU.fKind 1).fld seU.fKind = 1 ∧ State.reset.job seU = none ∧
    ((onChan seU (busyChan .ready)).job seU = some aJob ∧ aJob.point = none ∧ aJob.aborted = false) ∧
    (∀ p ∈ [0, 9], (onChan seU { jobs := [{ aJob with point := some (p, 0) }] }).job seU = some { aJob with point := some (p, 0) }) ∧
    getBits (0 : BitVec 64) 41 12 / 2 ^ 25 = 0 ∧ getBits (BitVec.ofNat 64 (19 * 2 ^ 37)) 41 12 / 2 ^ 25 < 20 ∧
    ¬ getBits (BitVec.ofNat 64 (20 * 2 ^ 37)) 41 12 / 2 ^ 25 < 20 ∧
    1 ≤ (1 : BitVec 64).toNat % 32 ∧ (16 : BitVec 64).toNat % 32 ≤ 16 ∧ 1 ≤ getBits (0x100 : BitVec 64) 14 8 ∧
    getBits (0x4000 : BitVec 64) 14 8 ≤ 64 ∧ getBits (0x4000 : BitVec 64) 1 0 = 0 ∧
    getBits (0x4000 : BitVec 64) 31 24 < spanWidth (stackSpan 0) := by
  decide +kernel

/-- Channel `u` runs, and its ring's first entry starts with `bs`. -/
def ringed (u : SeUnit) (bs : List Host.Cell) : State := { (onChan u {}).setFld u.fTail 1 with hbm := bs }

theorem witness_DescriptorsAndBlocks :
    (let s := (ringed seU [(20, 1)]).setFld seU.fKind 1
     s.fld seU.fState = chRunning ∧ s.fld seU.fHead % s.ringSize seU ≠ s.fld seU.fTail % s.ringSize seU ∧ (s.chan seU).jobs.head? = none ∧
     descError (memBytes s.hbm (s.ringAddr seU 0) 64) (s.fld seU.fKind) 0 = 0) ∧
    (let s := ringed seU []
     s.fld seU.fHead % s.ringSize seU ≠ s.fld seU.fTail % s.ringSize seU ∧
     descError (memBytes s.hbm (s.ringAddr seU 0) 64) (s.fld seU.fKind) 0 ≠ 0) ∧
    (let s := ringed hdU [(17, 4), (20, 1)]
     s.fld hdU.fHead % s.ringSize hdU ≠ s.fld hdU.fTail % s.ringSize hdU ∧ hdmaError (memBytes s.hbm (s.ringAddr hdU 0) 64) = 0) ∧
    (let s := onChan seU { jobs := [aJob] }
     (s.engine 0).tick ≠ s.time.ticks + 1 ∧
     ((List.range 32).map fun i => ((s.engine 0).last + i) % 32).find? (fun c => s.canStart (unitOf 0 c)) = some 0 ∧
     s.job (unitOf 0 0) = some aJob ∧ aJob.desc.op ≠ 3) ∧
    (let s := onChan hdU { jobs := [{ idx := 0, desc := { op := 1, len := 1 } }] }
     (s.engine 20).tick ≠ s.time.ticks + 1 ∧
     ((List.range 16).map fun i => ((s.engine 20).last + i) % 16).find? (fun c => s.canStart (unitOf 20 c)) = some 0 ∧
     (s.job (unitOf 20 0)).isSome = true) ∧
    ((List.range 32).map fun i => ((State.reset.engine 0).last + i) % 32).find? (fun c => State.reset.canStart (unitOf 0 c)) = none := by
  decide +kernel

/-- The translation store holds frame `f` for page 0. -/
def mapped (f : Nat) (s : State) : State := { s with sch := { s.sch with tstore := [(0, [(0, mkPte pteResident false 0 f)])] } }

theorem witness_BlocksMove :
    (let s := onChan seU (busyChan .reading)
     (s.chan seU).blks[0]? = some (aBlk .reading) ∧ (∀ x ∈ (s.chan seU).blks.head?, x.phase ≠ .writing) ∧ s.burstOk 0 = true ∧
     ∀ w ∈ s.hbmRow 0, w.2.2 ≠ .uncorrectable) ∧
    (let s := onChan seU (busyChan .writing)
     Memory.wf s.hbm = true ∧ (s.chan seU).blks = [aBlk .writing] ∧ s.job seU = some aJob ∧ s.burstOk 0 = true ∧
     (s.setStack 0 { closes := 1, done := 1 }).burstOk 0 = false) ∧
    (let s := onChan seU (busyChan .translating)
     s.job seU = some aJob ∧ aJob.point = none ∧
     (s.chan seU).blks.find? (fun b => b.phase = .translating) = some (aBlk .translating) ∧
     ((mapped 5 s).walk 0).2 = some (5 * 65536) ∧ 5 * 65536 / 2 ^ 37 = 0 ∧
     ((mapped (2 ^ 21) s).walk 0).2 = some (2 ^ 37) ∧ 2 ^ 37 / 2 ^ 37 ≠ 0 ∧ (s.walk 0).2 = none) ∧
    (let s := ((onChan seU (busyChan .ready)).setFld (SE_CH_CFG.KIND 0 0) 1).setFld (SE_CH_CFG.SLOTS 0 0) 0xFFFF
     let s := s.setFld seU.fCredit 1
     (s.chan seU).blks = [aBlk .ready] ∧ aJob.desc.op = 1 ∧ s.mayInject 0 0 = true ∧
     1 ≤ min 15 (s.fld seU.fCredit + s.creditsDue (.engine 0 0))) ∧
    (let s := onChan seU (busyChan .full)
     (s.chan seU).blks = [aBlk .full]) := by
  decide +kernel

/-- A flit at the north edge port of core (0,0). -/
def edgeFlit (last : Bool) (s : State) : State := s.setMesh { edges := [⟨0, 0, 3, { last := last }⟩] }

/-- A state whose channel 0 of stack 0 owns the slots of that port. -/
def owning : State := ((onChan seU {}).setFld (SE_CH_CFG.KIND 0 0) 2).setFld (SE_CH_CFG.SLOTS 0 0) 0xFFFF

/-- A descriptor whose last row's read-back is in progress. -/
def reading (op tries : Nat) : Job := { idx := 0, desc := { op := op }, readback := 1, rbTries := tries }

/-- No transmit channel of four ports is enabled after reset. -/
def txIdle (n : Nat) : Bool :=
  (List.range 4).all fun i => (List.range 64).all fun c => State.reset.txState (4 * n + i) c = State.txDisabled

theorem witness_txIdle_0 : txIdle 0 = true := by decide +kernel
theorem witness_txIdle_1 : txIdle 1 = true := by decide +kernel
theorem witness_txIdle_2 : txIdle 2 = true := by decide +kernel
theorem witness_txIdle_3 : txIdle 3 = true := by decide +kernel

/-- After reset no transmit channel owns a slot, so that a flit at an edge port without a write channel is stray. -/
theorem witness_stray (core : CoreId) (side slot : Nat) : State.reset.txOwner core side slot = none := by
  have h : ∀ n < 4, txIdle n = true := by
    intro n hn
    obtain rfl | rfl | rfl | rfl : n = 0 ∨ n = 1 ∨ n = 2 ∨ n = 3 := by omega
    exacts [witness_txIdle_0, witness_txIdle_1, witness_txIdle_2, witness_txIdle_3]
  simp only [txIdle, List.all_eq_true, List.mem_range, decide_eq_true_eq] at h
  simp only [State.txOwner, List.find?_eq_none, List.mem_flatMap, List.mem_map, List.mem_range]
  rintro x ⟨p, hp, c, hc, rfl⟩
  have := h (p / 4) (by omega) (p % 4) (by omega) c hc
  rw [Nat.div_add_mod] at this
  simp [this]

theorem witness_ChannelEvents :
    (∀ l ∈ [true, false], let s := edgeFlit l owning
     State.takeFirst (fun e : EdgeFlit => e.core = 0 && e.output = 0) s.plane.mesh.edges = some (⟨0, 0, 3, { last := l }⟩, []) ∧
     s.writeOwner (corePort 0 0).1 (corePort 0 0).2 3 = some 0 ∧ (s.chan seU).inlet.length < 8 ∧
     (s.chan seU).blks.find? (fun b => b.phase = .filling) = none) ∧
    State.reset.writeOwner (corePort 0 0).1 (corePort 0 0).2 3 = none ∧
    (let j : Job := { idx := 0, desc := { op := 1, dlEn := true } }
     let s := onChan seU { jobs := [j], blks := [aBlk .reading] }
     s.job seU = some j ∧ j.desc.dlEn = true ∧ j.desc.deadline ≤ s.time.almanac.toNat ∧
     (s.chan seU).blks.find? (fun b => b.phase ≠ .ready) = some (aBlk .reading)) ∧
    ((∀ j ∈ [reading 3 0, reading 3 7], (onChan seU { jobs := [j] }).job seU = some j) ∧
     (∀ w ∈ State.reset.hbmRow 0, w.2.2 ≠ .uncorrectable) ∧ BurstEnd.parity 0 ≠ .ok ∧
     0 < State.reset.fld (engRetryLimit 0) ∧ State.reset.fld (engRetryLimit 0) ≤ 7) ∧
    (∀ j ∈ [reading 2 0, reading 2 7], (onChan hdU { jobs := [j] }).job hdU = some j) ∧
    (0 < State.reset.fld (engRetryLimit 20) ∧ State.reset.fld (engRetryLimit 20) ≤ 7) ∧
    (let s := onChan hdU (busyChan .reading)
     s.job hdU = some aJob ∧ (s.chan hdU).blks[0]? = some (aBlk .reading)) := by
  decide +kernel

theorem witness_HbmRefreshAndLoss :
    (State.reset.time.almanac - ((State.reset.stack 0).usedPhase 0).zeroExtend 64).toNat % 512 = 0 ∧ (State.reset.stack 0).closes = 0 ∧
    (let s := State.reset.setStack 0 { closes := 40 }
     ¬ ((s.stack 0).closes = 0) ∧ s.time.ticks < (s.stack 0).closes ∧
     (s.stack 0).closes ≤ ({ s with time := { s.time with ticks := 40 } } : State).time.ticks) ∧
    pushing.anyHamper Hamper.runs = true := by
  decide +kernel

/-! ### The scheduler and the pager -/

/-- The scheduler runs. -/
def scheduling : State := State.reset.setFld SCH_STATUS.STATE schRunning

/-- The scheduler's state as `f` makes it. -/
def sched (f : Sched → Sched) (s : State) : State := { s with sch := f s.sch }

/-- An ADMIT record of SEQ_ID 1, one prompt token and one new token. -/
def admitRecord : BitVec 512 := BitVec.ofNat 512 (1 + 2 ^ 32 + 2 ^ 128 + 2 ^ 160)

/-- Slot 3 holds SEQ_ID 1. -/
def decoding : State := sched (fun k => { k with slots := [(3, { state := .decode, seqId := 1 })] }) scheduling

theorem witness_SchedulerCommands :
    State.reset.schState = schIdle ∧ (scheduling.schState = schRunning ∧ scheduling.sch.ended = false) ∧
    (State.reset.setFld SCH_STATUS.STATE schHalted).schState ≠ schRunning ∧
    (pushing.anyHamper Hamper.runs = true ∧ pushing.plane.abort = none) ∧
    1536 ≤ getBits (0x600 : BitVec 64) 15 0 ∧ 1 ≤ getBits (0x100 : BitVec 64) 11 8 ∧ getBits (0x800 : BitVec 64) 11 8 ≤ 8 ∧
    16 * getBits (BitVec.ofNat 64 (131071 + 16 * 2 ^ 20)) 16 0 + getBits (BitVec.ofNat 64 (131071 + 16 * 2 ^ 20)) 41 20 ≤ 2 ^ 21 ∧
    2 ^ 21 < 16 * getBits (BitVec.ofNat 64 (131071 + 17 * 2 ^ 20)) 16 0 + getBits (BitVec.ofNat 64 (131071 + 17 * 2 ^ 20)) 41 20 := by
  decide +kernel

theorem witness_SubmissionRecords :
    (State.reset.setFld SCH_CFG.ROLE roleFollower).schRole = roleFollower ∧
    (State.reset.schRole ≠ roleFollower ∧ State.reset.admitError admitRecord = none ∧ State.reset.freeSlot = some 0) ∧
    State.reset.admitError 0 = some crRefusedRecord ∧
    (let c : BitVec 512 := BitVec.ofNat 512 (2 + 2 ^ 32)
     BitVec.ofNat 32 (recField c 4 4) = 1 ∧ recField c 0 4 = 2 ∧ recField c 8 56 = 0 ∧ State.reset.slotOfSeq 1 = none ∧
     decoding.slotOfSeq 1 = some 3 ∧ (decoding.slotOf 3).state ≠ .retiring ∧ (decoding.slotOf 3).state ≠ .free_) ∧
    (let s := State.reset.setFlag HIF_CTRL.SQ_EN
     s.time.almanac.toNat % s.fld HIF_POLL.TICKS = 0 ∧ s.flag HIF_CTRL.SQ_EN = true ∧
     (63 : BitVec 32).toNat < 2 ^ s.fld HIF_SQ_BASE.SIZE_LOG2 ∧ 2 ^ s.fld HIF_SQ_BASE.SIZE_LOG2 ≤ (64 : BitVec 32).toNat ∧
     64 ≤ s.genFree ∧ s.sch.polled = none ∧ s.pollDue = true ∧ (1 : BitVec 64).toNat % s.fld HIF_POLL.TICKS ≠ 0) ∧
    (let s := sched (fun k => { k with polled := some (0, 0) }) State.reset
     s.sch.polled = some (0, 0) ∧ s.time.almanac = 0 ∧ s.pollDue = false) := by
  decide +kernel

/-- The formation instant of step 0 is Almanac value 1. -/
def forming (alm : Nat) : State :=
  let s := sched (fun k => { k with forms := [(0, 1)] }) scheduling
  { s with time := { s.time with almanac := BitVec.ofNat 64 alm } }

/-- A delivery by template 0 is due, and its channel's ring holds `n` descriptors. -/
def delivering (n : Nat) : State :=
  sched (fun k => { k with deliver := [⟨0, 0, 0⟩] }) (State.reset.setFld seU.fTail n)

theorem witness_StepsFormAndDeliver :
    (∀ a ∈ [0, 1, 2], (forming a).formInstant = some 1 ∧ (forming a).schState = schRunning ∧ (forming a).schRole ≠ roleFollower) ∧
    (1 : BitVec 64) ≤ 1 ∧ (1 : BitVec 64) < 2 ∧ (0 : BitVec 64) < 1 ∧ State.reset.sch.bcast = none ∧
    (let s := sched (fun k => { k with bcast := some (0, 0, []), steps := [{ k := 0, num := 0 }] }) scheduling
     s.sch.bcast = some (0, 0, []) ∧ s.sch.steps.find? (fun x => x.k = 0) = some { k := 0, num := 0 } ∧ Memory.wf s.hbm = true) ∧
    (let s := delivering 0
     let u := unitOf (s.fld SCH_RING.BASE / 2 ^ 22) (s.fld (SCH_DELIV_SEL.CHAN 0))
     s.sch.deliver.find? (fun d => d.n = 0) = some ⟨0, 0, 0⟩ ∧ u = seU ∧ Memory.wf s.hbm = true ∧ (0 : BitVec 64) ≤ s.time.almanac ∧
     (0 + 1) % s.ringSize u ≠ s.fld u.fDone % s.ringSize u) ∧
    (let s := delivering (State.reset.ringSize seU - 1)
     (s.fld seU.fTail % s.ringSize seU + 1) % s.ringSize seU = s.fld seU.fDone % s.ringSize seU) ∧
    (let s := sched (fun k => { k with cur := some 0 }) scheduling
     s.schState = schRunning ∧ s.sch.ended = false ∧ s.sch.cur.isSome = true ∧ (s.hamper s.refHamper).state = stIdle) := by
  decide +kernel

/-- A step of one entry, whose row 0 gives a token. -/
def anEntry : StepEntry :=
  { slot := 3, seqId := 1, cls := 0, row0 := 0, rows := 1, prefill := false, lastCh := false, position := 0, kvLen := 0, key := 0 }
def aStep : SchStep := { k := 0, num := 0, entries := [anEntry], live := 1 }

/-- That step has been delivered, and a withhold notice of its entry waits. -/
def stepped : State :=
  let s := sched (fun k => { k with steps := [aStep] }) ((scheduling.setFlag SCH_TOKEN_CFG.MEN).setFlag SCH_TOKEN_CFG.PEN)
  { s with se := { s.se with notices := [⟨3, 3, 0, 0, none⟩] } }

theorem witness_TokensAndMasks :
    (stepped.flag SCH_TOKEN_CFG.MEN = true ∧ stepped.flag SCH_TOKEN_CFG.PEN = true ∧
     stepped.sch.steps.find? (fun y => y.num % 2 ^ 16 = getBits (5 : BitVec 64) 63 48) = some aStep ∧
     stepped.sch.steps.find? (fun y => y.k = aStep.k) = some aStep ∧ aStep.entries[0]? = some anEntry ∧ anEntry.gives = true ∧
     anEntry.row0 + anEntry.rows = getBits (5 : BitVec 64) 47 40 + 1) ∧ (5 : BitVec 32).toNat < stepped.fld SCH_LIMIT.VOCAB ∧
    stepped.fld SCH_LIMIT.VOCAB ≤ (0xFFFFFFFF : BitVec 32).toNat ∧ anEntry.masked = false ∧
    State.reset.flag SCH_TOKEN_CFG.MEN = false ∧ stepped.stepMod (2 ^ 32) 0 = some aStep.k ∧ stepped.stepMod (2 ^ 32) 1 = none ∧
    (stepped.se.notices = [⟨3, 3, 0, 0, none⟩] ∧ stepped.stepMod (2 ^ 16) (0 / 2 ^ 16) = some aStep.k ∧ 3 ≠ 0xFFFF ∧ 0 = 0 % 2 ^ 16) := by
  decide +kernel

/-- Slot 0 is preempted, its page 0 resident in frame 0, and the host spill area has `n` pages. -/
def preempted (n : Nat) : State :=
  let s := ((State.reset.setFld PG_SPILL_CFG.ORDER 1).setFld PG_SPILL_HPAGES.PAGES n)
  sched (fun k => { k with slots := [(0, { state := .preempted })] }) { s with hbm := [(2 ^ 20 + 7, 0x40)] }

/-- A page that leaves for host memory, or comes back, by entry 0 of the DMA channel's ring. -/
def moving (out : Bool) : Transit := { slot := 0, lg := 0, page := 0, out := out, host := true, frame := 0, ring := some 0 }

/-- That move, with the status of its descriptor written where `ok`. -/
def transit (out ok : Bool) : State :=
  sched (fun k => { k with transits := [moving out] }) { State.reset with hbm := if ok then [(50, 1)] else [] }

/-- Slot 0 is preempted and none of its pages is allocated. -/
def resumable : State := sched (fun k => { k with slots := [(0, { state := .preempted })] }) State.reset

theorem witness_PagesMove :
    (let s := preempted 1
     Memory.wf s.hbm = true ∧ (s.slotOf 0).state = .preempted ∧ s.pastLast 0 (s.slotOf 0) = true ∧ pteState (s.pte 0 0 0) = pteResident ∧
     s.fld PG_SPILL_CFG.ORDER = 1 ∧ s.searchTables.hostPage (s.fld PG_SPILL_HPAGES.PAGES) 0 = some 0 ∧
     (s.fld s.spillUnit.fTail % s.ringSize s.spillUnit + 1) % s.ringSize s.spillUnit ≠
       s.fld s.spillUnit.fDone % s.ringSize s.spillUnit) ∧
    (preempted 0).searchTables.hostPage ((preempted 0).fld PG_SPILL_HPAGES.PAGES) 0 = none ∧ (State.reset.slotOf 0).state ≠ .preempted ∧
    (∀ out ∈ [true, false], let s := transit out true
      Memory.wf s.hbm = true ∧ s.findTransit 0 0 0 out = some (moving out) ∧ s.descOk s.spillUnit 0 = true ∧
      (moving out).freed = false ∧ s.sch.waiting = [] ∧ (transit out false).findTransit 0 0 0 out = some (moving out) ∧
      (transit out false).descOk s.spillUnit 0 = false) ∧
    ((∀ n < 20, resumable.poolCount n = 0 ∨ resumable.fld PG_CFG.HIGH ≤ resumable.freeFrames n) ∧
     resumable.seqsInOrder (fun q => q.state = .resuming) = [] ∧
     resumable.seqsInOrder (fun q => q.state = .preempted) = [(0, { state := .preempted })]) ∧
    (let s := (resumable.setFld (PG_POOL.COUNT 19) 1).setFld PG_CFG.HIGH 2
     s.poolCount 19 ≠ 0 ∧ s.freeFrames 19 < s.fld PG_CFG.HIGH) := by
  decide +kernel

theorem witness_PagesMove_unspilled (l p : Nat) :
    pteState ((resumable.searchTables.setSlot 0 { state := .resuming }).pte 0 l p) ≠ pteSpilled := by
  rw [State.pte, State.hbmTakenNat_clean _ _ _ fun _ _ => rfl, State.hbmNat,
    show (resumable.searchTables.setSlot 0 { state := .resuming }).hbm = [] from rfl]
  simp [memBytes, memRead, hbmDefault, ofBytes, pteState, getBits, pteSpilled]

/-- Device 0 of a pod of two whose port 0 is up, with frames `k`; the pool of stack 0 has one frame, of which it lends one. -/
def lender (k : SMap FrameUse) (ts : List Transit) : State :=
  let s := (((State.reset.setFld PSIUD_POD.TOPO 1).setFld PSIUD_POD.NM1 1).setFld (PSIUD_STAT.STATE 0) psUp)
  let s := (s.setFld (PG_POOL.COUNT 0) 1).setFld PG_SPILL_CFG.LEND 1
  sched (fun x => { x with frames := k, transits := ts }) s

/-- A page that goes to device 1, and one that comes back from its frame 7. -/
def leaving : Transit := { slot := 0, lg := 0, page := 0, out := true, host := false, dev := 1, frame := 0 }
def returning : Transit := { slot := 0, lg := 0, page := 0, out := false, host := false, dev := 1, frame := 0, remote := 7 }

theorem witness_PagesBetweenDevices :
    (let s := lender [] []
     (List.range 20).find? (fun n => (s.lowestFrame n).isSome) = some 0 ∧ s.lowestFrame 0 = some 0 ∧ 0 < s.fld PG_SPILL_CFG.LEND ∧
     s.workingPort 1 = some 0) ∧
    (let s := lender [(0, .lent 1)] []
     (s.sch.frames.filter fun e => match e.2 with | .lent _ => true | .page _ _ _ => false).length = 1 ∧
     s.fld PG_SPILL_CFG.LEND ≤ 1 ∧ (∀ n < 20, s.lowestFrame n = none) ∧
     s.sch.frames.find? (fun e => e.1 = 0) = some (0, .lent 1) ∧ s.sch.waiting = [] ∧ Memory.wf s.hbm = true ∧
     s.sch.transits.find? (fun t => !t.out && !t.host && !t.moved && t.dev = 1 && t.remote = 0) = none ∧
     s.sch.transits.find? (fun t => t.out && !t.host && !t.moved && t.dev = 1) = none) ∧
    (lender [] [leaving]).sch.transits.find? (fun t => t.out && !t.host && !t.moved && t.dev = 1) = some leaving ∧
    (lender [] [returning]).sch.transits.find? (fun t => !t.out && !t.host && !t.moved && t.dev = 1 && t.remote = 7) = some returning := by
  decide +kernel

/-! ### Psiud -/

/-- Device 0 of a pod of two, whose port 0 is in state `st` with `k`. -/
def linked (st : Nat) (k : Port := {}) : State :=
  (((State.reset.setFld PSIUD_POD.TOPO 1).setFld PSIUD_POD.NM1 1).setFld (PSIUD_STAT.STATE 0) st).setPort 0 k

theorem witness_PortStates :
    (let s := linked psUp
     s.portState 0 = psUp ∧ s.fld (PSIUD_LANES.TX_SPARE 0) = 0x1F ∧ s.fld (PSIUD_LANES.RX_SPARE 0) = 0x1F ∧
     (s.setFld (PSIUD_LANES.TX_SPARE 0) 15).fld (PSIUD_LANES.TX_SPARE 0) ≠ 0x1F ∧ s.portState 0 ≠ psDown ∧ s.portState 0 ≠ psFailed ∧
     s.portState 0 ≠ psTraining ∧ s.portState 0 ≠ psRetraining ∧ s.portState 0 ≠ psQualifying) ∧
    ((linked psUp { swapping := true }).port 0).swapping = true ∧
    (let s := linked psTraining
     s.portState 0 = psTraining ∧ s.pod.peer 0 = some (1, 0) ∧ s.pod.peer 0 ≠ some (2, 0) ∧ (s.port 0).trainBy ≤ s.time.ticks ∧
     ((linked psTraining { trainBy := 1 }).port 0).trainBy = 1 ∧ s.time.ticks < 1) ∧
    (linked psRetraining).portState 0 = psRetraining ∧ (linked psQualifying).portState 0 = psQualifying ∧
    ((linked psDown).portState 0 = psDown ∧ (linked psFailed).portState 0 = psFailed ∧ ((linked psDown).pod.peer 0).isSome = true) := by
  decide +kernel

theorem witness_PortStates_idle :
    (∀ c < 64, (linked psUp).txState 0 c = State.txDisabled ∧ (linked psUp).rxState 0 c = State.rxDisabled) ∧
    (let s := (linked psUp).setFld (PSIUD_RX_STAT.STATE 0 63) State.rxRunning
     s.rxState 0 63 ≠ State.rxDisabled) := by
  decide +kernel

theorem witness_PsiudChannels :
    (let s := State.reset
     s.fld (PSIUD_TX_STAT.STATE 0 0) = State.txDisabled ∧ s.fld (PSIUD_RX_STAT.STATE 0 0) = State.rxDisabled ∧
     ∀ k < 16, s.portState k = psDown) ∧
    (State.reset.setFld (PSIUD_TX_STAT.STATE 0 0) State.txRunning).fld (PSIUD_TX_STAT.STATE 0 0) ≠ State.txDisabled ∧
    (State.reset.setFld (PSIUD_RX_STAT.STATE 0 0) State.rxRunning).fld (PSIUD_RX_STAT.STATE 0 0) ≠ State.rxDisabled ∧
    (linked psUp).portState 0 ≠ psDown := by
  decide +kernel

/-- A message of 8 bytes in one data flit with SEQ `n`. -/
def dataFlit (n : BitVec 12) : PFlit :=
  { type := ftData, seq := n, first := true, last := true, payload := [(8, false), (0, false), (5, false)] }

/-- Flits whose bytes end in their CRC are read back, and one that ends in its complement is refused. -/
theorem witness_flits_decode :
    PFlit.decode (PFlit.encode { ack := 1 }) = some { ack := 1 } ∧ PFlit.decode (PFlit.encode (dataFlit 0)) = some (dataFlit 0) ∧
    PFlit.decode (PFlit.encode (dataFlit 1)) = some (dataFlit 1) ∧
    PFlit.decode (flitWord (dataFlit 0).body (~~~crc32 (dataFlit 0).body)) = none := by
  refine ⟨(decode_flitWord (by decide +kernel)).trans (by decide +kernel), (decode_flitWord (by decide +kernel)).trans (by decide +kernel),
    (decode_flitWord (by decide +kernel)).trans (by decide +kernel), decode_flitWord_bad (by decide +kernel) fun e => ?_⟩
  have := congrArg (fun x : BitVec 32 => x.getLsbD 0) e
  simp at this

/-- A sent flit that waits for its acknowledgement. -/
def sentFlit (sends : Nat) : SentFlit := { flit := dataFlit 0, sends := sends }

/-- A service message for device 1. -/
def forOther : SvcMsg := { type := 1, src := 0, dst := 1, arg := 0 }

theorem witness_FlitsArrive :
    (linked psDown).portCarries 0 = false ∧ (linked psUp).portCarries 0 = true ∧
    ((linked psUp { nakSent := true }).portCarries 0 = true ∧ ((linked psUp { nakSent := true }).port 0).nakSent = true) ∧
    (let k : Port := { unacked := [sentFlit 1] }
     let s := linked psUp k
     s.portCarries 0 = true ∧ s.port 0 = k ∧ ((1 : BitVec 12) - k.base).toNat ≤ k.unacked.length ∧
     ((0 : BitVec 12) - k.base).toNat < k.unacked.length ∧ (∀ u ∈ k.unacked, u.sends ≤ s.fld (PSIUD_LINK_CFG.REPLAY_LIMIT 0)) ∧
     k.ackTick + 2048 ≤ ({ s with time := { s.time with ticks := 2048 } } : State).time.ticks) ∧
    (linked psUp).fld (PSIUD_LINK_CFG.REPLAY_LIMIT 0) < (sentFlit 99).sends ∧
    (let s := ((linked psUp).setFld (PSIUD_RX_STAT.STATE 0 0) State.rxRunning).setFld (PSIUD_RX_CFG.SIZE 0 0) 1
     s.portCarries 0 = true ∧ s.rxState 0 0 = State.rxRunning ∧ s.rxChan 0 0 = {} ∧ (s.port 0).expect = 0 ∧
     (State.place (s.rxSize 0 0) (s.rxChan 0 0).tail (2 + (8 + 7) / 8)).1 = 0 ∧ (1 - (s.port 0).expect).toNat < 2048) ∧
    (let s := linked psUp { svcIn := [forOther] }
     (s.port 0).svcIn = [forOther] ∧ s.workingPort 1 = some 0) := by
  decide +kernel

/-- A row that waits to be sent. -/
def txRow : TxRow := { entry := {}, tag := some 0 }

/-- Transmit channel 0 of port 0 runs with that row, a ring of `z` units and credit for all of it. -/
def sending (z : Nat) : State :=
  let s := ((linked psUp { tx := [(0, { queue := [txRow] })] }).setFld (PSIUD_TX_STAT.STATE 0 0) State.txRunning)
  (s.setFld (PSIUD_TX_STAT.RING 0 0) z).setFld (PSIUD_TX_STAT.CREDIT 0 0) z

/-- A complete message of one row. -/
def aMsg : RxMsg := { len := 32, tag := 0, words := List.replicate 6 (0, false), size := 6, complete := true }

/-- Receive channel 0 of port 0 runs with that message, and may inject in every slot. -/
def draining (st : Option RxStep) : State :=
  let s := (linked psUp { rx := [(0, { ring := [.msg aMsg], credit := 1, step := st })] }).setFld (PSIUD_RX_STAT.STATE 0 0) State.rxRunning
  s.setFld (PSIUD_RX_DRAIN.SLOTS 0 0) 0xFFFF

theorem witness_MessagesMove :
    (let s := sending 11
     s.portCarries 0 = true ∧ (s.port 0).replay = none ∧ (s.port 0).unacked.length < 2048 ∧ (s.port 0).announce = [] ∧
     (s.port 0).svcSend = none ∧ (s.port 0).svcOut = [] ∧ s.txState 0 0 = State.txRunning ∧ (s.txChan 0 0).queue = [txRow] ∧
     (s.txChan 0 0).sent = 0 ∧ 2 + 4 * (s.fld (PSIUD_TX_CFG.MROWS_M1 0 0) + 1) = 6 ∧ 2 * 6 - 1 ≤ s.fld (PSIUD_TX_STAT.RING 0 0) ∧
     (State.place (s.fld (PSIUD_TX_STAT.RING 0 0)) (s.fld (PSIUD_TX_STAT.TAIL 0 0)) 6).1 + 6 ≤ s.fld (PSIUD_TX_STAT.CREDIT 0 0)) ∧
    (let s := draining none
     (s.rxChan 0 0).ring = [.msg aMsg] ∧ s.rxState 0 0 = State.rxRunning ∧ s.fld (PSIUD_RX_CFG.CONSUMER 0 0) ≠ 2 ∧
     s.flag (PSIUD_RX_CFG.MODE 0 0) = false ∧ s.rxMayDrain 0 0 (s.rxChan 0 0) aMsg = true ∧ s.rxMayInject 0 0 = true ∧
     1 ≤ (s.rxChan 0 0).credit + s.creditsDue (.psiud 0 0)) ∧
    (let st : RxStep := { step := 1, drainAt := 0, dueAt := 0 }
     let s := (draining (some st)).setFld (PSIUD_RX_ROWS.MSGS 0 0) 1
     (s.rxChan 0 0).step = some st ∧ st.drainAt ≤ s.time.almanac ∧ st.dueAt ≤ s.time.almanac ∧
     st.drained + State.completeOf (s.rxChan 0 0).ring st.step.toNat < s.fld (PSIUD_RX_ROWS.MSGS 0 0) ∧ st.late = false ∧
     s.fld (PSIUD_RX_ROWS.MSGS 0 0) ≤ 1 + State.completeOf (s.rxChan 0 0).ring 0) ∧
    (let st : RxStep := { step := 0, drainAt := 1, dueAt := 1 }
     let s := draining (some st)
     (s.rxChan 0 0).step = some st ∧ s.time.almanac < st.drainAt ∧ s.time.almanac < st.dueAt) := by
  decide +kernel

/-! ### A signed image

Its key and signature were made outside the model, by the scheme of R640. -/

/-- The modulus of key slot 0, and the signature of the image below. -/
def keyN : Nat :=
  0xbcc19303f77bbaccc5f6b198f3e6cdc4b28f0758c8408b66c8e88b7b330a8b0e5152826de6990811cd9bc52dc1c15c85e6c5e6a5007964d3dc18ccf416f220acde819224a3af6975316427f1e7206b12cf19d750f4e785377a96ffdde8544de5ba032e2ef9ffa46d5378dd5e06194dd4b4a9c44a6ef57e3d16cd0566b7d03ce26a5bb3151b4e7d08cbadf6606cc1fe88ac6d93907e2486a30195b8fed62c9ac71bb2777de7bd54be5f8dd756996243426aff61b098374a07bafc1ab0c7053e95d67ed8e1df5d8bac02440abd5f159ef3e1fcfc934597bbadcfebb8c21f051b836056b66af170f744561d5691c3a0fa55c14bfe9587206c23d288c5e8c17230779fec99e1edfd22736428da1bbd64b7342cf651a7fd7252c645fb5b8df8882ef65406f87582b392a55598fcbe206c1475ee5bbe85fd6765e4de0f26f627070650c80390be6a86afea2e0b3103ad99844d669e5c33637541b8f9da608ea75ca1e5d5180509e2316300ebae905af985c19b945a547d96ec401171f7da1b5341f873
def sigN : Nat :=
  0xa72e463cd15317c2791771bd2908829797ae2a067738cb993e227559c499ac1bb053a6df9a2bb4187324107d9da25c6332d7a4f1264db6ffd7218d8ccecd953f2a1fc0b60f974f8b0f2e2a360df2c3a9eb510fd6d1da1880279ec10774ce93dff2b1ecef778b7c73276def75a869a4ba516477d0330d20ccc0887720f0424fbca93afc79287f771c0f5b5416852ab86695b8c893852af1bcab0e179cd83bc67faefa6b5ef27f650834626723c72189440c4033435ecb58c913e5691a699fd1a098024f623a5e62324f98f5dfc1f2e88f97d03338b9374e9ba1f17ddc405f7fc38910230fb7368e43c9a1c0ed02046e2ba3c8befe83a0a5d80d7d53a13946dcd99c9f6bc4b51ca905b1dcb0950358cc71c4ca514976483ef05ad4ba69f54a2fa4c359eaae65a499f40ccd0dfdcfe4a54d47f4b7ae43f1ac4f5fad7f6c931571d9d6abe541694b254b26dff459897fa003f183fbf714682cab0ea4922839d07cb8ce5829538da1e35a6ecbf026b739a30bdfe5bb1224955ac2559f0f209717fd4

/-- An image of 8 KiB: SVN 0, a firmware section of 64 bytes at 1,024 and an empty configuration section. -/
def imgBody : List Byte :=
  bytesOf 4 0x494D5A42 ++ bytesOf 8 1 ++ bytesOf 4 8192 ++ bytesOf 8 0 ++ bytesOf 8 2 ++ bytesOf 384 keyN ++ bytesOf 4 65537 ++
  bytesOf 92 0 ++ (bytesOf 4 1 ++ bytesOf 4 1024 ++ bytesOf 8 64) ++ (bytesOf 4 2 ++ bytesOf 12 1088) ++ List.replicate 7264 0
def goodImage : List Byte := imgBody ++ bytesOf 384 sigN

/-- The words of the hash of its key. -/
def keyHashWord (i : Nat) : BitVec 64 :=
  match i with | 0 => 0x6359e586903017a0 | 1 => 0xbfd3fb6cc66e0475 | 2 => 0x398dce8ab62c16f3 | _ => 0x856da8f79e778f0f

/-- A device whose fuses name that key, in bring-up state `n`, with image buffer `b`. -/
def fused (n : Nat) (b : List Host.Cell) : State :=
  let s := (List.range 4).foldl (fun s i => s.setReg (FUSE.off (7 + i)) (keyHashWord i)) (State.reset.setReg (FUSE.off 1) 1)
  let s := s.setFld BOOT_STATE.STATE n
  { s with boot := { s.boot with started := true, pgs := 31, fusesIn := true, buffer := b } }

/-- The hash value after 41, 82 and 123 blocks of the signed bytes. -/
def sha41 : List (BitVec 32) :=
  [0xeb103f33, 0x2c3c2fd5, 0x3a2e8175, 0x7a714570, 0x72ea804a, 0x76566a7f, 0x8c61d1d9, 0x12621b4]
def sha82 : List (BitVec 32) :=
  [0x35efd132, 0xde0a7370, 0x92a6dd06, 0xd8b3cfa4, 0x1d537123, 0x8008dbf3, 0xb288df73, 0xa8db02e1]
def sha123 : List (BitVec 32) :=
  [0xf9960a81, 0x2a580452, 0x9b9b0e45, 0x54c0f1f9, 0xabf00503, 0x685c2d70, 0xd9d8f0aa, 0xaf01a1ec]

/-- The signed bytes as SHA-256 pads them. -/
def padded : List Byte := imgBody ++ [0x80#8] ++ bytesOf 55 0 ++ beBytes 8 62464

theorem shaBlocks_add (a b : Nat) (h : List (BitVec 32)) (bs : List Byte) :
    shaBlocks (a + b) h bs = shaBlocks b (shaBlocks a h bs) (bs.drop (64 * a)) := by
  induction a generalizing h bs with
  | zero => simp [shaBlocks]
  | succ a ih => rw [Nat.add_right_comm, shaBlocks, ih, shaBlocks, List.drop_drop]; congr 2; omega

theorem test_sha_1 : shaBlocks 41 shaInit padded = sha41 := by decide +kernel
theorem test_sha_2 : shaBlocks 41 sha41 (padded.drop 2624) = sha82 := by decide +kernel
theorem test_sha_3 : shaBlocks 41 sha82 (padded.drop 5248) = sha123 := by decide +kernel

theorem imgBody_length : imgBody.length = 7808 := by decide +kernel

theorem test_image_hash : sha256 imgBody = sha123.flatMap fun w => beBytes 4 w.toNat := by
  have hl : padded.length / 64 = 41 + (41 + 41) := by simp [padded, beBytes, imgBody_length]
  have hp : sha256 imgBody = (shaBlocks (padded.length / 64) shaInit padded).flatMap fun w => beBytes 4 w.toNat := by
    simp only [sha256, padded, imgBody_length, Nat.reduceMod, Nat.reduceSub, Nat.reduceMul]
  rw [hp, hl, shaBlocks_add, test_sha_1, shaBlocks_add, List.drop_drop, test_sha_2, test_sha_3]

theorem test_image_pss : rsaPssOk keyN sigN imgBody = true := by
  rw [rsaPssOk, test_image_hash]; decide +kernel

theorem test_image_header : imgHeaderOk goodImage = true ∧ imgSectionsOk goodImage = true ∧ imgSlot goodImage = 0 ∧
    bytesField goodImage 32 384 = keyN ∧ imgLen goodImage = 8192 ∧ bytesField goodImage 7808 384 = sigN ∧ imgSvn goodImage = 0 := by
  decide +kernel

theorem test_image_key : sha256 ((goodImage.drop 32).take 388) = (List.range 4).flatMap fun i => bytesOf 8 (keyHashWord i).toNat := by
  decide +kernel

theorem goodImage_take : goodImage.take 7808 = imgBody := by
  rw [goodImage, ← imgBody_length, List.take_left]

/-- The image passes every check of a device in VERIFY or WAIT_IMAGE whose fuses name its key (R641). -/
theorem test_image_verifies {n : Nat} (hn : n = bsVerify ∨ n = bsWaitImage) (b : List Host.Cell) :
    (fused n b).imgVerify goodImage = 0 := by
  have hf : ∀ w, (fused n b).fuse w = (fused n []).fuse w := fun _ => rfl
  obtain ⟨h1, h2, h3, h4, h5, h6, h7⟩ := test_image_header
  have hk : (fused n []).keyHash 0 = (List.range 4).flatMap fun i => bytesOf 8 (keyHashWord i).toNat := by
    obtain rfl | rfl := hn <;> decide +kernel
  have hv : ((fused n []).fuse 1).getLsbD 0 = true ∧ ((fused n []).fuse 31).getLsbD 0 = false ∧ popCount ((fused n []).fuse 2) = 0 := by
    obtain rfl | rfl := hn <;> decide +kernel
  have hs := test_image_pss
  rw [← goodImage_take] at hs
  simp only [State.keyHash] at hk
  simp only [State.imgVerify, imgCheck, State.keyHash, State.arb, hf, h1, h2, h3, h4, h5, h6, h7, hv, test_image_key, hk, hs,
    Nat.reduceSub]
  rfl

/-! ### Reset, the host's accesses -/

theorem witness_MemoryStaysCanonical : MemoriesOk State.reset ∧ step State.reset = .next State.reset :=
  ⟨⟨rfl, rfl, List.Pairwise.nil⟩, rfl⟩

theorem witness_QueueAndOutputFrame : ∃ t, exec .perstNDeassert State.reset = .next t := ⟨_, rfl⟩

/-- The device with its fuses loaded, out of PERST_N. -/
def linkedUp : State := { State.reset with boot := { State.reset.boot with perst := false, fusesIn := true } }

theorem witness_HostAccesses :
    (State.takenEarly 0x101000 = false ∧ bar0Defined 0x3F00000 = false) ∧
    (State.reset.flag HIF_STATUS.READY = false ∧ up.flag HIF_STATUS.READY = true) ∧
    getBits (0x100 : BitVec 64) 15 8 ≠ 0 ∧ (10 ≤ getBits (10 : BitVec 64) 4 0 ∧ getBits (30 : BitVec 64) 4 0 ≤ 30 ∧
      getBits (9 : BitVec 64) 4 0 < 10 ∧ 30 < getBits (31 : BitVec 64) 4 0) ∧
    (State.reset.boot.perst = true ∧ linkedUp.boot.perst = false ∧ linkedUp.boot.fusesIn = true) ∧
    ({ linkedUp with boot := { linkedUp.boot with fusesIn := false } } : State).boot.fusesIn = false ∧
    (let at_ := fun n => up.bar2Addr (BitVec.ofNat 41 n).toNat
     at_ (2 ^ 41 - 1) + 1 ≤ hbmEnd ∧ Memory.wf up.hbm = true ∧ up.hbmWordMeta 0 = {} ∧ at_ 0 = 0) ∧
    (let s := up.setFld HIF_BAR2_BASE.BASE 2496
     s.flag HIF_STATUS.READY = true ∧ s.bar2Addr (BitVec.ofNat 41 (2 ^ 36 - 1)).toNat + 1 ≤ hbmEnd ∧
     hbmEnd < s.bar2Addr (BitVec.ofNat 41 (2 ^ 36 - 1)).toNat + 2) ∧
    (let s := (sched (fun k => { k with cq := [(0, { held := [{ final := true, general := true, bytes := [] }], unsig := 1 })] })
       (State.reset.setFlag (HIF_CQ_BASE.EN 0)))
     s.flag (HIF_CQ_BASE.EN 0) = true ∧ (s.cring 0).reread = false ∧ min (s.cring 0).held.length (s.cqRoom 0) ≠ 0 ∧
     (s.cring 0).unsig ≠ 0 ∧ s.time.ticks < (s.cring 0).oldest + s.fld (HIF_CQ_MOD.TIME 0) ∧
     (s.cring 0).oldest + (s.setFld (HIF_CQ_MOD.TIME 0) 0).fld (HIF_CQ_MOD.TIME 0) ≤ s.time.ticks ∧
     (0x1010 : BitVec 64).getLsbD 4 = true ∧ s.fld (HIF_CQ_BASE.BASE 0) ≠ getBits (0x1010 : BitVec 64) 63 12) ∧
    ((State.reset.setFlag HIF_CTRL.SQ_EN).flag HIF_CTRL.SQ_EN = true ∧ State.reset.flag HIF_CTRL.SQ_EN = false) ∧
    (({ State.reset with cfg := [(0x170, 1)] } : State).cfgRead 0x170).getLsbD 0 = true ∧ (State.reset.cfgRead 0x170).getLsbD 0 = false := by
  decide +kernel

/-! ### Power, bring-up, images, fuses and resets -/

/-- Bring-up is in state `n`, with image `img` held. -/
def boot (n : Nat) (img : List Byte := []) : State :=
  let s := State.reset.setFld BOOT_STATE.STATE n
  { s with boot := { s.boot with started := true, pgs := 31, held := img } }

theorem witness_PowerInputs :
    BitVec.ofNat 5 (2 ^ railBit .safe) = 1 ∧ State.reset.boot.pgs.getLsbD 0 = false ∧ State.reset.boot.started = false ∧
    (30 : BitVec 5) ||| 1 = 31 ∧ (0 : BitVec 5) ||| 1 ≠ 31 ∧ (boot bsReady).boot.started = true ∧ State.reset.boot.ready = false ∧
    State.reset.flag LG_STATUS.TRIPPED = false := by
  decide +kernel

/-- A fuse word as blown without errors, and one that two bits of differ from. -/
def zeroFuse : FuseWord := ⟨0, checkBits 0 false, 0, 0⟩
def badFuse : FuseWord := ⟨3, checkBits 0 false, 0, 0⟩

/-- A configuration section with one record for an offset that no block defines. -/
def badRecord : List Byte := (1 :: bytesOf 23 0) ++ (1 :: bytesOf 487 0) ++ (2 :: bytesOf 7 0) ++ bytesOf 4 16

theorem witness_BringUp :
    (∀ n ∈ [0, 1, bsFuse, bsVerify, bsConfig, bsHbm, bsSram, bsLinks], (boot n).bootAt n = true ∧ State.reset.bootAt n = false) ∧
    ((∀ i < 32, ((boot bsFuse).sensed (List.replicate 32 zeroFuse) i).isSome = true) ∧ (boot bsFuse).boot.failing = 0 ∧
     ¬ ((boot bsFuse).sensed [badFuse] 0).isSome = true ∧ [zeroFuse].all (fun w => (fuseEcc w).isSome) = true) ∧
    ((boot bsVerify).imgVerify [] ≠ 0) ∧ (cfgRecords (imgSection badRecord 2)).all recordOk = false ∧
    (let rs : List StackTest := [⟨true, []⟩, ⟨false, []⟩]
     rs.findIdx? (fun r => !r.trained) = some 1 ∧ (boot bsHbm).fld BOOT_ERR.CODE = 0) ∧
    (let rs : List StackTest := List.replicate 20 ⟨true, [0]⟩
     (rs.all (·.trained)) = true ∧ ∀ r ∈ rs, r.bad.length ≤ 1024) ∧
    (let s := { boot bsLinks with time := { State.reset.time with ticks := State.reset.fld BOOT_CFG.LINK_RETRY * 700000000 } }
     s.boot.linksAt + s.fld BOOT_CFG.LINK_RETRY * 700000000 ≤ s.time.ticks ∧
     (boot bsLinks).time.ticks < (boot bsLinks).boot.linksAt + (boot bsLinks).fld BOOT_CFG.LINK_RETRY * 700000000) ∧
    (let s := (linked psUp).setFlag (PSIUD_STAT.QUAL_PASS 0)
     (s.pod.peer 0).isSome = true ∧ (∀ p < 16, (s.pod.peer p).isSome = true → s.flag (PSIUD_STAT.QUAL_PASS p) = true) ∧
     (linked psFailed).flag (PSIUD_STAT.QUAL_PASS 0) = false) := by
  decide +kernel

theorem memBytes_drop (m : List Host.Cell) (a i n : Nat) : (memBytes m a (i + n)).drop i = memBytes m (a + i) n := by
  induction i generalizing a with
  | zero => simp
  | succ i ih => rw [Nat.add_right_comm, memBytes, List.drop_succ_cons, ih]; congr 1; omega

theorem memBytes_take (m : List Host.Cell) (a n k : Nat) : (memBytes m a (n + k)).take n = memBytes m a n := by
  induction n generalizing a with
  | zero => simp [memBytes]
  | succ n ih => rw [Nat.add_right_comm, memBytes, List.take_succ_cons, ih, memBytes]

/-- Some buffer holds the signed image. -/
theorem imageBuffer : ∃ b, memBytes b 0 (12 + (4 + 8176)) = goodImage := by
  have hl : goodImage.length = 12 + (4 + 8176) := by decide +kernel
  exact ⟨memWriteBytes [] 0 goodImage, hl ▸ memBytes_memWriteBytes (m := []) rfl 0 goodImage⟩

/-- The signed image verifies in VERIFY, and as the pushed image of a device that waits for one. -/
theorem witness_image_verifies :
    ((fused bsVerify []).bootAt bsVerify = true ∧ (fused bsVerify []).imgVerify goodImage = 0 ∧
     (fused bsVerify []).fld BOOT_STATE.STATE ≠ bsWaitImage ∧ (fused bsVerify []).boot.fusesIn = true) ∧
    ∃ b, (fused bsWaitImage b).fld BOOT_STATE.STATE = bsWaitImage ∧ (fused bsWaitImage b).boot.fusesIn = true ∧
      (fused bsWaitImage b).imgVerify (fused bsWaitImage b).pushedImage = 0 ∧ (fused bsWaitImage b).imgVerify goodImage = 0 := by
  obtain ⟨b, hb⟩ := imageBuffer
  have h12 : memBytes b 12 4 = (goodImage.drop 12).take 4 := by rw [← hb, memBytes_drop, memBytes_take]
  have hm : max 1024 (min (ofBytes ((goodImage.drop 12).take 4)) 8388608) = 12 + (4 + 8176) := by decide +kernel
  have hp : (fused bsWaitImage b).pushedImage = goodImage := by
    have : (fused bsWaitImage b).boot.buffer = b := rfl
    rw [State.pushedImage, this, h12, hm, hb]
  have hs : (fused bsWaitImage []).fld BOOT_STATE.STATE = bsWaitImage := by decide +kernel
  refine ⟨⟨by decide +kernel, test_image_verifies (.inl rfl) [], by decide +kernel, by decide +kernel⟩, b, hs, rfl, ?_,
    test_image_verifies (.inr rfl) b⟩
  rw [hp]
  exact test_image_verifies (.inr rfl) b

theorem witness_ImagesAndFuses :
    (boot bsReady).fld BOOT_STATE.STATE ≠ bsWaitImage ∧
    ((boot bsWaitImage).fld BOOT_STATE.STATE = bsWaitImage ∧ (boot bsWaitImage).imgVerify (boot bsWaitImage).pushedImage ≠ 0) ∧
    (let s := { boot bsReady with boot := { (boot bsReady).boot with toFlash := true, fusesIn := true } }
     s.bootAt bsReady = true ∧ s.boot.toFlash = true ∧ s.boot.fusesIn = true ∧ s.imgVerify [] ≠ 0) ∧
    ((boot bsReady).setFlag IMG_STAT.FLASH_BUSY).flag IMG_STAT.FLASH_BUSY = true ∧ (boot bsReady).flag IMG_STAT.FLASH_BUSY = false ∧
    (State.reset.bootAt bsReady = false ∧ State.reset.boot.fusesIn = false) ∧
    (let s := boot bsReady [0]
     s.bootAt bsReady = true ∧ s.boot.held ≠ [] ∧ s.boot.fused = false ∧ s.fuseGoal = (s.fuse 2, s.fuse 31)) ∧
    (let s := boot bsReady [0, 0, 0, 0, 0, 0, 1, 2]
     s.bootAt bsReady = true ∧ s.boot.held ≠ [] ∧ s.boot.fused = false ∧ s.fuseGoal ≠ (s.fuse 2, s.fuse 31)) := by
  decide +kernel

/-- A device reset is under way that began in state `n`. -/
def resetting (n : Nat) (img : List Byte) : State :=
  { boot bsReset img with boot := { (boot bsReset img).boot with before := n } }

theorem witness_ResetsAndReinits :
    (State.reset.fld BOOT_STATE.STATE ≠ bsReset ∧ (boot bsReset).fld BOOT_STATE.STATE = bsReset) ∧ Rising State.reset.bar0 ∧
    State.reset.boot.ready = false ∧ ({ State.reset with boot := { State.reset.boot with ready := true } } : State).boot.ready = true ∧
    State.reset.time.rootGated = false ∧ ({ State.reset with time := { State.reset.time with rootGated := true } } : State).time.rootGated = true ∧
    ((resetting bsHbm []).fld BOOT_STATE.STATE = bsReset ∧ (resetting bsHbm []).boot.held = []) ∧
    (∀ n ∈ [bsVerify, bsConfig], (resetting n [0]).boot.before ≤ bsConfig) ∧
    (∀ n ∈ [bsHbm, bsReady], (resetting n [0]).boot.held ≠ [] ∧ bsConfig < (resetting n [0]).boot.before ∧
      (cfgRecords (imgSection (resetting n [0]).boot.held 2)).all recordOk = true) ∧
    (bsLinks < bsReady ∧ badRecord ≠ [] ∧ (cfgRecords (imgSection (resetting bsHbm badRecord).boot.held 2)).all recordOk = false) ∧
    ((State.reset.setFlag FN_REINIT.BUSY).flag FN_REINIT.BUSY = true ∧ State.reset.flag FN_REINIT.BUSY = false) ∧
    State.unitGroves 4 3 (BitVec.ofNat 8 3) = true ∧ State.reset.boot.reinit = none := by
  unfold Rising; decide +kernel

/-! ### Attestation, side ports, clocks, levels and the lifeguard -/

/-- Requests over both transports reach the device, which has derived its key and holds an image. -/
def attesting : State :=
  { State.reset with boot := { State.reset.boot with pgs := 31, perst := false, key := true, held := [0], events := 1 } }

theorem witness_AttestationAndSidePorts :
    (attesting.reached true = true ∧ attesting.reached false = true ∧ attesting.boot.key = true ∧ attesting.boot.held ≠ [] ∧
     attesting.boot.events ≠ 0) ∧ (State.reset.reached true = false ∧ State.reset.reached false = false ∧ State.reset.boot.key = false ∧
     State.reset.boot.events = 0) ∧ (1 : BitVec 4) ≠ 0 ∧ (5 : BitVec 8) < 6 ∧ (6 : BitVec 8) ≠ 0xFF ∧
    ((boot bsHbm).bootAt bsHbm = true ∧ State.reset.bootAt bsHbm = false) ∧
    ((State.reset.setReg (FUSE.off 1) 0x100).fuse 1).getLsbD 8 = true ∧ (State.reset.fuse 1).getLsbD 8 = false := by
  decide +kernel

/-- The sequencer is in state `st` at level 2, on its way to level `m`. -/
def leveled (st m : Nat) : State :=
  let s := (State.reset.setFld PWR_LEVEL.LEVEL 2).setFld PWR_LEVEL.STATE st
  { s with power := { s.power with target := m }, time := { s.time with ticks := 35000 } }

theorem witness_LevelMoves :
    (let s := (leveled lvIdle 2).setFld LG_STATUS.THERMAL 7
     s.flag LG_STATUS.TRIPPED = false ∧ s.time.rootGated = false ∧ s.fld PWR_LEVEL.STATE = lvIdle ∧ s.level < s.decided ∧
     s.power.stopDue = none) ∧
    (let s := (leveled lvIdle 2).setFld LG_CEIL.CEILING 0
     s.decided < s.level ∧ s.flag LG_EVENT.VR_TIMEOUT = false ∧ (s.setFlag LG_EVENT.VR_TIMEOUT).flag LG_EVENT.VR_TIMEOUT = true) ∧
    (let s := leveled lvFaster 0
     s.power.stopDue = none ∧ s.fld PWR_LEVEL.STATE = lvFaster ∧ s.flag PWR_LEVEL.VR_READY = false ∧
     s.power.vselAt + 35000 ≤ s.time.ticks) ∧
    (let s := leveled lvSlower 2
     s.power.stopDue = none ∧ s.fld PWR_LEVEL.STATE = lvSlower ∧ s.power.queued = none ∧ s.flag PWR_LEVEL.VR_READY = false) ∧
    (∀ m ∈ [0, 7], let s := leveled lvStopped m
     s.fld PWR_LEVEL.STATE = lvStopped ∧ s.power.target < 8 ∧ s.power.want = none ∧ (s.level < s.power.target ↔ m = 7)) ∧
    (State.reset.fld PWR_LEVEL.STATE ≠ lvStopped ∧ State.reset.time.ticks < State.reset.power.vselAt + 35000) := by
  decide +kernel

theorem witness_ClocksAndGates :
    (State.reset.setFld CLK_SRC.IOSC_OK 0).flag CLK_SRC.IOSC_OK = false ∧
    State.reset.fieldRefusals 0 = [(0, State.gateChildOn), (1, State.gateChildOn), (2, State.gateChildOn), (3, State.gateChildOn)] ∧
    State.reset.fieldRefusals 15 = [] ∧
    (ready {}).groveRefusals 0 0 = [(0, State.gateInUse)] ∧ State.reset.groveRefusals 3 (BitVec.ofNat 64 (2 ^ 63)) = [] ∧
    (State.reset.reg (CLK_GATE_GROVE.off 3)).getLsbD 0 = true ∧ (BitVec.ofNat 64 (2 ^ 63)).getLsbD 0 = false := by
  decide +kernel

/-- Sensor 0 reads `t` sixteenths of a degree, and its neighbour `u`. -/
def heated (t u : Int) : State :=
  let k : Int → Sensor := fun t => { last := [t, t, t] }
  { State.reset with power := { State.reset.power with temps := [(0, k t), (1, k u)] } }

/-- Every field's rail is at `v` mV and `i` mA. -/
def loaded (v i : Int) : State :=
  let all : Sensor → SMap Sensor := fun k => (List.range 4).map fun f => (f, k)
  { State.reset with power :=
      { State.reset.power with volts := all { last := List.replicate 4 v }, amps := all { last := List.replicate 16 i } } }

theorem witness_Lifeguard :
    (let s := heated 2000 2000
     (∃ r ∈ s.readings, s.threshold r.1 ≤ r.2) ∧ s.tempsApart = false) ∧
    (heated 0 401).tempsApart = true ∧
    (let s := heated 0 400
     ¬ (∃ r ∈ s.readings, s.threshold r.1 ≤ r.2) ∧ s.tempsApart = false) ∧
    (let s := (loaded 850 450000).setFld LG_LIMITS.OCP_A 1000
     (∃ w, s.power64 = some w ∧ s.powerLimit < w) ∧ s.overCurrent = false ∧ s.railsApart = false) ∧
    (loaded 400 1000000).overCurrent = true ∧
    (State.reset.power64 = none ∧ State.reset.overCurrent = false ∧ State.reset.railsApart = false) ∧
    (let s := ((State.reset.setFld LG_STATUS.THERMAL 1).setFld LG_STATUS.POWER 1).setFld LG_STATUS.NEIGHBOUR 1
     let s := { s with time := { s.time with ticks := 70000 } }
     s.power.thermalAt + 70000 ≤ s.time.ticks ∧ s.power.powerAt + 70000 ≤ s.time.ticks ∧ s.power.neighbourAt + 70000 ≤ s.time.ticks ∧
     s.power.alertAt + 70000 ≤ s.time.ticks ∧ s.fld LG_STATUS.THERMAL ≠ 0 ∧ s.fld LG_STATUS.POWER ≠ 0 ∧ s.fld LG_STATUS.NEIGHBOUR ≠ 0 ∧
     s.flag LG_STATUS.ALERT_PIN = false ∧ (s.setFlag LG_STATUS.ALERT_PIN).flag LG_STATUS.ALERT_PIN = true) ∧
    State.reset.time.ticks < State.reset.power.thermalAt + 70000 ∧
    (∀ n ∈ [0, 260], State.reset.calHolds n = false ∧ State.reset.calOf n = 0) ∧
    (-640 ≤ (BitVec.ofInt 32 (-640)).toInt ∧ (BitVec.ofInt 32 2400).toInt ≤ 2400) ∧
    (∀ n ∈ [261, 280], State.reset.calHolds n = false ∧ State.reset.calOf n = 0) ∧ (0 ≤ (0 : BitVec 32).toInt ∧ (2000 : BitVec 32).toInt ≤ 2000) ∧
    ({ State.reset with power := { State.reset.power with jobs := [(0, { code := 4, arg := 0 })] } } : State).calHolds 0 = true ∧
    (¬ (400 ≤ (399 : BitVec 32).toInt ∧ (399 : BitVec 32).toInt ≤ 850) ∧ ¬ (400 ≤ (851 : BitVec 32).toInt ∧ (851 : BitVec 32).toInt ≤ 850)) ∧
    (State.reset.power.alertSample = false ∧ State.reset.power.readySample = false ∧ (1 : BitVec 32) ≠ 0 ∧
     ({ State.reset with power := { State.reset.power with alertSample := true } } : State).power.alertSample = true) := by
  refine ⟨⟨⟨(0, 2000), by decide +kernel⟩, by decide +kernel⟩, by decide +kernel, ⟨by decide +kernel, by decide +kernel⟩,
    ⟨⟨64 * 850 * 450000 * 4, by decide +kernel⟩, by decide +kernel⟩, ?_⟩
  decide +kernel

/-! ### Mailboxes, counters, samples and the loader -/

/-- Mailbox `k` of the lifeguard has request `j` under way. -/
def posted (k : Nat) (j : LgJob) : State := { State.reset with power := { State.reset.power with jobs := [(k, j)] } }

theorem witness_MailboxRequests :
    (∀ k ∈ [0, 1], State.reset.mbFld k LG_MBOX_STAT.BUSY ≠ 1 ∧ (State.reset.setMbFld k LG_MBOX_STAT.BUSY 1).mbFld k LG_MBOX_STAT.BUSY = 1) ∧
    ((0x1020 : BitVec 32).toNat = 0x800 + 8 * 260 ∧ signedOf 16 (0xE000 : BitVec 64).toNat = -8192 ∧
     signedOf 16 (0x1FFF : BitVec 64).toNat = 8191 ∧ signedOf 16 (0x2000 : BitVec 64).toNat = 8192) ∧
    (State.rwsOk 0x1028 0 = none ∧ State.rwsOk 0x018 0x5501553C = some true) ∧
    ((2 : BitVec 32).toNat % 4 = 2 ∧ (1 : BitVec 32).toNat % 4 < 2) ∧ State.reset.working = false ∧ (ready {}).working = true ∧
    (∀ a ∈ [0x000, 0x113, 0x200], let unit := ((BitVec.ofNat 32 a).extractLsb' 8 8).toNat
     unit = 0 ∨ (unit = 1 ∧ ((BitVec.ofNat 32 a).extractLsb' 0 8).toNat < 20) ∨ unit = 2) ∧
    (((0x114 : BitVec 32).extractLsb' 8 8).toNat = 1 ∧ ¬ ((0x114 : BitVec 32).extractLsb' 0 8).toNat < 20) ∧
    (State.reset.bistBusy 0x100 = false ∧ (onChan seU {}).bistBusy 0x100 = true ∧ (onChan seU {}).working = false) ∧
    (∀ k ∈ [0, 1], State.reset.lgJob k = none ∧
      (let j : LgJob := { code := 5, arg := 0, deferred := true, boundary := true }
       (posted k j).lgJob k = some j ∧ (posted k j).bistBusy j.arg = false) ∧
      (let j : LgJob := { code := 4, arg := 0, deferred := true }
       (posted k j).lgJob k = some j ∧ j.boundary = false ∧ (posted k j).inQuiet = false ∧
       ({ posted k j with power := { (posted k j).power with quiet := [(9, 1), (0, 1)] } } : State).inQuiet = true) ∧
      ∀ c ∈ [4, 5], (posted k { code := c, arg := 0 }).lgJob k = some { code := c, arg := 0 } ∧ 0 ≤ (posted k { code := c, arg := 0 }).time.ticks) ∧
    ((posted 0 { code := 5, arg := 0, doneAt := 1 }).lgJob 0 = some { code := 5, arg := 0, doneAt := 1 } ∧
     (posted 0 { code := 5, arg := 0, doneAt := 1 }).time.ticks < 1) := by
  decide +kernel

/-- A sample that grove 0 has taken, with a sampler that holds `n` records. -/
def aSample : Sample :=
  { issued := 0, hamper := 0, pushAlm := 0, dt := 0, stall := 0, kind := 0, ldLand := 0, mxRdy := 0, vxaRdy := 0, vxbRdy := 0, sends := [], pc := 0 }
def sampled (n : Nat) : Sampler := { live := [aSample], recs := (List.range n).map fun k => (k, 0) }

theorem witness_CountersAndSampler :
    (let s := { State.reset with reader := { State.reset.reader with due := some 0 } }
     s.snapDue = some 0 ∧ Memory.wf s.hbm = true ∧
     (s.fld CR_POS.TAIL + 1) % 2 ^ s.fld CR_RING.SIZE_LOG2 ≠ s.fld CR_POS.HEAD ∧
     (let u := s.setFld CR_POS.HEAD 1
      (u.fld CR_POS.TAIL + 1) % 2 ^ u.fld CR_RING.SIZE_LOG2 = u.fld CR_POS.HEAD)) ∧ State.reset.snapDue = none ∧
    ((65 : BitVec 64).getLsbD 0 = true ∧ State.reset.time.almanac.toNat + 64 ≤ (65 &&& ~~~1#64).toNat ∧ (64 : BitVec 64).getLsbD 0 = false ∧
     (63 : BitVec 64).getLsbD 0 = true ∧ (63 &&& ~~~1#64).toNat < State.reset.time.almanac.toNat + 64) ∧
    ((State.reset.grove 0).samp.live = [] ∧
     (∀ n ∈ [0, 15, 16], ((State.reset.setGrove 0 { samp := sampled n }).grove 0).samp.live = [aSample]) ∧
     (State.reset.setGrove 0 { samp := sampled 0 }).cycle 0 < aSample.issued + 255 ∧
     aSample.issued + 255 ≤ (later 255 (State.reset.setGrove 0 { samp := sampled 0 })).cycle 0 ∧
     (sampled 16).freeEntry = none ∧ (sampled 15).freeEntry = some 15) ∧
    (4 ≤ getBits (9 : BitVec 64) 4 1 ∧ getBits (7 : BitVec 64) 4 1 < 4 ∧ (9 : BitVec 64).getLsbD 0 = true ∧
     (State.reset.grove 0).samp.en = false ∧ ({ sampled 0 with en := true } : Sampler).en = true) := by
  decide +kernel

/-- A schedule object at address 0 with an empty program, and an entry for hamper 0 where `hampers`. -/
def object (hampers : Bool) : List Host.Cell :=
  [(0, 0x48), (1, 0x4C), (2, 0x56), (3, 0x53), (4, 1), (6, 0x24), (7, 0x10), (9, if hampers then 2 else 1), (14, 3), (64, 1), (68, 192)] ++
  (if hampers then [(80, 4), (84, 192), (88, 16), (92, 1)] else [])

/-- That object, with hamper 0 as `f` makes it. -/
def withObject (hampers : Bool) (f : Hamper → Hamper := id) : State := { hampered f State.reset with hbm := object hampers }

/-- A check's failure. -/
def failure {α : Type} : Except (Nat × Nat) α → Option (Nat × Nat)
  | .error f => some f
  | .ok _ => none

/-- What a check answers. -/
def result {α : Type} : Except (Nat × Nat) α → Option α
  | .error _ => none
  | .ok x => some x

theorem witness_LoaderRequests :
    ((State.reset.setFlag MP_MBOX_STAT.BUSY).flag MP_MBOX_STAT.BUSY = true ∧ State.reset.flag MP_MBOX_STAT.BUSY = false) ∧
    (failure (State.reset.loadCheck 0 4096) = some (mrFormat, 0) ∧
      result ((withObject true).loadCheck 0 4096) = some ({ hampers := bytesOf 16 0 }, [], [])) ∧
    failure (State.reset.objCheck 0) = some (mrFormat, 0) ∧
    (let xs := [⟨1, 192, 0, 0⟩, ⟨4, 192, 16, 1⟩]
     let f : Hamper → Hamper := fun h => { h with state := stRunning }
     result ((withObject true).objCheck 0) = some xs ∧ Memory.wf (withObject true).hbm = true ∧
     (∀ e ∈ objHampers ((withObject true).objParts 0 xs).hampers, e.ok = true) ∧
     (withObject true).objQuiet (objHampers ((withObject true).objParts 0 xs).hampers) [] = true ∧
     result (State.entryCheck xs ((withObject true).objParts 0 xs)) = some [] ∧
     result ((withObject true f).objCheck 0) = some xs ∧
     failure (State.entryCheck xs { hampers := bytesOf 2 0xFFFF ++ bytesOf 14 0 }) = some (mrFormat, 0) ∧
     (withObject true f).objQuiet (objHampers ((withObject true f).objParts 0 xs).hampers) [] = false) ∧
    (State.reset.boot.mp = none ∧
     (let s := { State.reset with boot := { State.reset.boot with mp := some { code := 1, hampers := [0] } } }
      s.boot.mp = some { code := 1, hampers := [0] } ∧ (∀ h ∈ [(0 : HamperId)], (s.hamper h).preload = none))) := by
  decide +kernel

/-! ### More witnesses: stream engines, host DMA and HBM -/

/-- The device with `f` applied to its time. -/
def timed (f : Time → Time) (s : State := State.reset) : State := { s with time := f s.time }

/-- A device in state failed, or not. -/
def reportFailed (b : Bool) : State := timed fun t => { t with failed := b }

theorem witness_failed : (reportFailed true).time.failed = true ∧ (reportFailed false).time.failed = false ∧
    (reportFailed true).fld seU.fState = chDisabled := by decide +kernel

/-- A block whose descriptor is the one with ring index 0. -/
def jobBlk (p : BlkPhase) (addr : Nat) : Blk := { aBlk p with addr := addr }

theorem witness_DescriptorFetch :
    (let s := ringed seU [(20, 1)]
     (s.chan seU).jobs.any Job.ending = false ∧ s.burstOk (s.ringAddr seU 0) = true ∧ (∀ j ∈ (s.chan seU).jobs, j.idx ≠ 0) ∧
     (∀ w ∈ s.hbmRow (s.ringAddr seU 0) ++ s.hbmRow (s.ringAddr seU 0 + 32), w.2.2 ≠ .uncorrectable) ∧ BurstEnd.parity 0 ≠ .ok ∧
     (s.chan seU).fetchTries < s.fld (engRetryLimit seU.eng) ∧
     s.fld (engRetryLimit seU.eng) ≤ ((s.setChan seU { fetchTries := 7 }).chan seU).fetchTries) ∧
    (let s := onChan seU { jobs := [aJob] }
     s.startJob (unitOf 0 0) = some aJob) ∧
    (let j : Job := { idx := 0, desc := { op := 1, len := 1 } }
     (onChan hdU { jobs := [j] }).startJob (unitOf 20 0) = some j) := by
  decide +kernel

theorem witness_BurstsAndTranslations :
    (aBlk .reading).data.length < (aBlk .reading).rows ∧
    (let s := onChan seU (busyChan .writing)
     s.jobAt seU 0 = some aJob) ∧
    (let s := onChan seU (busyChan .translating)
     s.jobAt seU 0 = some aJob ∧ aJob.point = none ∧ ¬ 512 ≤ pageIndex (s.chan seU) (aBlk .translating)) ∧
    (let k : Chan := { jobs := [aJob], blks := [jobBlk .translating (512 * 65536)] }
     512 ≤ pageIndex ((onChan seU k).chan seU) (jobBlk .translating (512 * 65536))) := by
  decide +kernel

/-- The descriptor of a TO_HOST transfer. -/
def toHost : Job := { idx := 0, desc := { op := 2, len := 1 } }

/-- A buffer fault in segment 3. -/
def aFault : BufFault := { seg := 3 }

theorem witness_BlocksLeave :
    (let s := onChan seU (busyChan .ready)
     s.jobAt seU 0 = some aJob ∧ s.behindEnd seU (aBlk .ready) = false ∧ Job.reads seU aJob = true ∧ (aBlk .ready).data ≠ [] ∧
     aFault.others = [] ∧ aFault.seg.toNat ∉ (s.engine seU.eng).fenced ∧
     aFault.seg.toNat ∈ ((s.setEngine 0 { s.engine 0 with fenced := [3] }).engine seU.eng).fenced) ∧
    (let s := onChan hdU { jobs := [toHost], blks := [aBlk .ready] }
     (s.chan hdU).blks = [aBlk .ready] ∧ s.jobAt hdU 0 = some toHost ∧ s.behindEnd hdU (aBlk .ready) = false ∧
     Job.reads hdU toHost = true) := by
  decide +kernel

theorem witness_ChannelEventsMore :
    (let j : Job := { idx := 0, desc := { op := 1, dlEn := true } }
     let s := onChan seU { jobs := [j], blks := [aBlk .reading] }
     (s.chan seU).jobs = [j] ∧ j.point = none ∧
     (s.chan seU).blks.find? (fun b => b.job = j.idx && b.phase ≠ .ready && b.done = 0) = some (aBlk .reading)) ∧
    (∀ j ∈ [reading 3 0, reading 3 7], (onChan seU { jobs := [j] }).backJob seU = some j) ∧
    State.reset.burstOk ((reading 3 0).lastWr.getD 0) = true ∧
    (∀ j ∈ [reading 2 0, reading 2 7], (onChan hdU { jobs := [j] }).backJob hdU = some j) ∧
    (let j : Job := { aJob with desc := { op := 1 } }
     let s := onChan hdU { jobs := [j], blks := [aBlk .reading] }
     s.jobAt hdU (aBlk .reading).job = some j ∧ j.desc.op = 1) := by
  decide +kernel

theorem witness_RefreshOpens :
    State.reset.se.selfRefresh = false ∧ (State.reset.stack 0).opened ≠ State.reset.time.ticks + 1 ∧
    ((State.reset.setStack 0 { opened := 1 }).stack 0).opened = State.reset.time.ticks + 1 := by
  decide +kernel

/-! ### More witnesses: time, the scheduler, the pager and Psiud -/

/-- ROLE is follower, and the upstream port's link is in state `st`. -/
def following (st : Nat) : State := (State.reset.setFld ALM_SYNC.ROLE 2).setFld (PSIUD_STAT.STATE 0) st

theorem witness_PodTimeLinks :
    (following psUp).fld ALM_SYNC.ROLE = 2 ∧ (following psUp).time.reqAt ≤ (following psUp).time.ticks ∧
    (following psUp).fld ALM_SYNC.UPSTREAM = 0 ∧ (following psUp).linkPort 0 = some 0 ∧ (following psDown).linkPort 0 = none ∧
    State.reset.fld ALM_SYNC.ROLE ≠ 2 ∧ (timed fun t => { t with reqAt := 1 }).time.ticks < (timed fun t => { t with reqAt := 1 }).time.reqAt := by
  decide +kernel

theorem witness_SchedulerMore :
    (let r : BitVec 512 := admitRecord
     recField r 0 1 = 1 ∧ recField 2 0 1 = 2 ∧ recField 3 0 1 ≠ 1 ∧ recField 3 0 1 ≠ 2 ∧
     (let bad : BitVec 512 := BitVec.ofNat 512 (1 + 16 * 2 ^ 16)
      recField bad 0 1 = 1 ∧ State.reset.admitError bad = some crRefusedRecord)) ∧
    (let s := State.reset
     s.time.almanac.toNat % s.sch.tick = 0 ∧ ({ s with time := { s.time with almanac := 1 } } : State).time.almanac.toNat % s.sch.tick ≠ 0) ∧
    (∀ f ∈ [true, false], let s := sched (fun k => { k with refGone := f, refLive := !f }) scheduling
     s.schState = schRunning ∧ s.sch.ended = false ∧
     (s.sch.refGone = true ∨ (s.sch.refLive = true ∧ (s.hamper s.refHamper).state = stIdle))) ∧
    (let s := timed (fun t => { t with rootGated := true }) scheduling
     s.schState = schRunning ∧ s.time.rootGated = true) ∧
    ((scheduling.setReg (CLK_GATE_GROVE.off 0) 0).gated (groveOfHamper scheduling.refHamper) = true ∧
     (scheduling.sch.refGone = false ∧ scheduling.sch.refLive = false ∧ scheduling.gated (groveOfHamper scheduling.refHamper) = false ∧
      scheduling.time.rootGated = false)) ∧
    ((preempted 1).slotOf 0).byPod = false ∧
    resumable.seqsInOrder (fun q => q.state = .preempted && !q.byPod) = [(0, { state := .preempted })] := by
  decide +kernel

theorem witness_PsiudMore :
    (let q := (linked psQualifying).fld (PSIUD_LINK_CFG.QUAL_MS 0)
     (∀ x ∈ [⟨0, 6⟩, (⟨2, 0⟩ : LaneRun)], 100 * x.errors < 224 * q ∧ x.worst ≤ 6) ∧ ¬ (∀ x ∈ [(⟨0, 7⟩ : LaneRun)], 100 * x.errors < 224 * q ∧ x.worst ≤ 6)) ∧
    (let s := timed (fun t => { t with failed := true }) (linked psDown)
     s.portState 0 = psDown ∧ (s.pod.peer 0).isSome = true ∧ s.time.failed = true ∧ (linked psDown).time.failed = false) ∧
    (let s := (State.reset.setFld (PSIUD_RX_CFG.SIZE 0 1) 2).setFld (PSIUD_RX_CFG.SIZE 0 0) 1
     s.rxState 0 0 = State.rxDisabled ∧ s.ringClash 0 0 (s.fld (PSIUD_RX_CFG.BASE 0 0)) (s.fld (PSIUD_RX_CFG.SIZE 0 0)) = true ∧
     s.ringClash 0 0 2 1 = false) ∧
    (let s := State.reset
     s.ringClash 0 0 (s.fld (PSIUD_RX_CFG.BASE 0 0)) (s.fld (PSIUD_RX_CFG.SIZE 0 0)) = false) ∧
    (let st : RxStep := { step := 1, drainAt := 0, dueAt := 0 }
     let s := (draining (some st)).setFld (PSIUD_RX_ROWS.MSGS 0 0) 1
     st.dueAt < ({ s with time := { s.time with almanac := 1 } } : State).time.almanac ∧ s.time.almanac ≤ st.dueAt) := by
  decide +kernel

/-! ### More witnesses: the host, bring-up, power, mailboxes, snapshots -/

/-- The function is in D3hot. -/
def sleeping : State := { up with cfg := [(0x044, 3)] }

theorem witness_HostMore :
    (sleeping.asleep .host = true ∧ up.asleep .host = false ∧ sleeping.asleep .manager = false ∧ sleeping.inD3 = true ∧ up.inD3 = false) ∧
    (let s := { up.setFlag ALM_STATUS.RUNNING with setNow := [(SVC_STATUS.off, 4)] }
     (s.setInTick SVC_STATUS.off).getLsbD 2 = true ∧ (up.setInTick SVC_STATUS.off).getLsbD 2 = false) ∧
    (State.reset.ptmDue = true ∧ (timed fun t => { t with ptmAt := some (0, 0) }).ptmDue = false) := by
  decide +kernel

/-- PG_SAFE is the last power-good input to come back to a device in LINKS. -/
def relinking : State := { boot bsLinks with boot := { (boot bsLinks).boot with pgs := 30 } }

theorem witness_BringUpMore :
    (let s := relinking
     s.boot.pgs &&& 1 = 0 ∧ s.boot.started = true ∧ s.boot.ready = false ∧ s.fld BOOT_STATE.STATE = bsLinks ∧ s.boot.pgs ||| 1 = 31 ∧
     s.time.failed = false) ∧
    (State.badStrip (boot bsSram).boot.defects [0] = none ∧ State.badStrip (boot bsSram).boot.defects [0, 1] = some 0 ∧
     Rising (boot bsSram).boot.defects ∧ (boot bsSram).fld BOOT_ERR.CODE = 0) ∧
    ((boot bsWaitImage).powered = true ∧ State.reset.powered = false) ∧
    ((resetting bsHbm [0]).powered = true ∧ State.reset.schState ≠ schRunning ∧ scheduling.schState = schRunning ∧
     scheduling.flag FN_REINIT.BUSY = false ∧ scheduling.fld BOOT_STATE.STATE ≠ bsReset) ∧
    (∃ x, (1, x) = ((1 : Nat), 3) ∧ ({ State.reset with boot := { State.reset.boot with reinit := some (1, x) } } : State).boot.reinit = some (1, 3)) := by
  refine ⟨by decide +kernel, ⟨by decide +kernel, by decide +kernel, List.Pairwise.nil, by decide +kernel⟩, by decide +kernel,
    by decide +kernel, 3, rfl, rfl⟩

/-- The level sequencer waits for VR_READY since the tick 0 in state `st`, now at tick 35,000. -/
def awaiting (st : Nat) : State :=
  let s := leveled st 0
  { s with power := { s.power with vselWait := true } }

theorem witness_LevelMovesMore :
    (∀ st ∈ [lvFaster, lvIdle, lvSlower], (awaiting st).power.vselWait = true ∧ (awaiting st).flag PWR_LEVEL.VR_READY = false ∧
      (awaiting st).power.vselAt + 35000 ≤ (awaiting st).time.ticks ∧ (awaiting st).time.rootGated = false ∧
      (awaiting st).fld PWR_LEVEL.STATE = st) ∧
    (let s := ((leveled lvIdle 2).setFld LG_CEIL.CEILING 0).setFlag LG_EVENT.VR_TIMEOUT
     let s := { s with power := { s.power with fasterOff := true } }
     s.decided < s.level ∧ s.power.fasterOff = true ∧ s.flag LG_EVENT.VR_TIMEOUT = true ∧ s.fld PWR_LEVEL.STATE = lvIdle ∧
     s.power.stopDue = none) ∧
    (timed fun t => { t with rootGated := true }).time.rootGated = true := by
  decide +kernel

theorem witness_ClocksMore :
    ((State.reset.setReg (CLK_GATE_GROVE.off 0) 0).gated 0 = true ∧ State.reset.gated 0 = false ∧ State.reset.time.stopped = false) ∧
    (timed fun t => { t with stopped := true }).time.stopped = true ∧
    ((State.reset.setFlag CLK_SRC.XTAL_OK).setFlag CLK_SRC.REF_LOCK).flag CLK_SRC.XTAL_OK = true ∧
    ((State.reset.setFlag CLK_SRC.XTAL_OK).setFlag CLK_SRC.REF_LOCK).flag CLK_SRC.REF_LOCK = true := by
  decide +kernel

/-- The power-good input of the core rails has shown its level `b` in `n` samples. -/
def shown (b : Bool) (n : Nat) : State := { boot bsReady with boot := { (boot bsReady).boot with pgSeen := [(railBit .safe, (b, n))] } }

theorem witness_PowerGoodSamples :
    ((1 : BitVec 32).getLsbD 0 = true ∧ (0 : BitVec 32).getLsbD 0 = false) ∧
    (∀ b ∈ [true, false], smGet (false, 0) (shown b 6).boot.pgSeen (railBit .safe) = (b, 6) ∧
      smGet (false, 0) (shown b 7).boot.pgSeen (railBit .safe) = (b, 7)) ∧ (shown false 7).boot.pgs.getLsbD 0 = true := by
  decide +kernel

/-- The host has asked for level `v` in this tick. -/
def hostAsked (v : BitVec 64) : State :=
  let s := State.reset.setFlag ALM_STATUS.RUNNING
  { s with power := { s.power with hostGo := [⟨0, 3, 0, v⟩] } }

theorem witness_MailboxTick :
    ((hostAsked 2).flag ALM_STATUS.RUNNING = true ∧ ((hostAsked 2).power.hostGo.filter fun g => g.tick = (hostAsked 2).time.ticks) = [⟨0, 3, 0, 2⟩] ∧
     (hostAsked 2).mbFld 1 LG_MBOX_STAT.BUSY ≠ 1) ∧
    (let s := State.reset.setFlag ALM_STATUS.RUNNING
     s.power.hostGo.filter (fun g => g.tick = s.time.ticks) = [] ∧ s.flag ALM_STATUS.RUNNING = true) := by
  decide +kernel

theorem witness_SnapshotTwoSteps :
    (let r : SnapRec := { at_ := 0, addr := 4096, bytes := [1, 2], tail := 1, totals := [], ends := true, starts := true }
     let s := { State.reset with reader := { State.reset.reader with record := some r } }
     s.reader.record = some r ∧ s.snapDue = none ∧ Memory.wf s.hbm = true) ∧
    (let s := { State.reset with reader := { State.reset.reader with due := some 0 } }
     s.reader.record = none ∧ s.snapDue = some 0 ∧ ¬ (s.reader.record.isSome = true ∨
       (s.fld CR_POS.TAIL + 1) % 2 ^ s.fld CR_RING.SIZE_LOG2 = s.fld CR_POS.HEAD)) := by
  decide +kernel

theorem witness_NewsOfThePod :
    (let s := sched (fun k => { k with slots := [(3, { state := .decode, seqId := 1 })] }) ((linked psUp).setFld SCH_CFG.ROLE 1)
     s.portCarries 0 = true ∧ s.schRole ≠ 0 ∧ (s.slotOf 3).state = .decode ∧ ({ ack := 0 } : PFlit).type = ftIdle ∧
     (({ ack := 0 } : PFlit).ack - (s.port 0).base).toNat ≤ (s.port 0).unacked.length) := by
  decide +kernel

/-! ### More witnesses: what the statements say besides -/

/-- A pass group of INT16 on accumulator 2 whose next pass is `n`, and a block of MXFP4 with `n` counted elements. -/
def grouped (n : Nat) : Core := { fed with mx := { pass := some ⟨1, 7, 0, 2, 0, n, 0, 0, false⟩ } }
def blocked (n : Nat) : Core := { fed with mx := { blocks := [(2, ⟨n, 0⟩)] } }

theorem witness_ArrayGroups :
    (∀ n ∈ [1, 3], let f : MxF := ⟨1, 7, 0, 2, 33, 35, BitVec.ofNat 4 n, 0⟩
     Continues f (grouped n) ⟨1, 7, 0, 2, 0, n, 0, 0, false⟩ ∧ Goes (ready (grouped n)) 0 { mx := f }) ∧
    (1 + 1 < mxPasses 7 ∧ mxPasses 7 ≤ 3 + 1 ∧ isMxFmt 7 = false ∧ isMxFmt 0 = true ∧ isMxFmt 5 = false ∧ mxPasses 5 = 1) ∧
    (∀ p ∈ [0, 2], Goes (ready (grouped 1)) 0 { mx := ⟨1, 7, 0, 2, 33, 35, p, 0⟩ } ∧ (grouped 1).mx.pass.isSome = true) ∧
    (∀ n ∈ [16, 31], Goes (ready (blocked n)) 0 { mx := ⟨1, 0, 0, 2, 33, 35, 0, 0⟩ } ∧ ((blocked n).mx.block 2).count = n) ∧
    (Goes (ready (blocked 16)) 0 { mx := ⟨1, 1, 0, 2, 33, 35, 0, 0⟩ } ∧ ((blocked 16).mx.block 2).fmt ≠ 1 ∧
     Goes (ready (blocked 16)) 0 { mx := ⟨1, 5, 0, 2, 33, 35, 0, 0⟩ }) ∧
    (let k := { fed with mx := { busyUntil := 9 } }
     Goes (ready k) 0 { mx := ⟨1, 5, 0, 2, 33, 35, 0, 0⟩ } ∧ 3 < k.mx.busyUntil) := by
  unfold Goes Continues; decide +kernel

theorem witness_GroupGoesOnNot : ∀ g, ¬ Continues ⟨1, 7, 0, 2, 33, 35, 2, 0⟩ (grouped 1) g := by
  rintro g ⟨h, -, -, -, -, -, hn⟩
  cases h; cases hn

theorem witness_BadEnds :
    (¬ EndsOk [1, 2] 8 ∧ ¬ EndsOk [1, 2, 20] 3 ∧ (16 : Nat) ≤ (codeEnd 16).toNat ∧ endIsSource ((0x2000 : BitVec 14).extractLsb' 9 5) = false) ∧
    (∀ op ∈ [2, 3, 5, 6, 7, 8, 9, 10, 11], Goes (ready fed) 0 (slotWord .a ⟨op, 3, 1, 2, 8, 0⟩)) ∧
    Goes (ready fed) 0 (slotWord .a ⟨0x0F, 3, 1, 0, 8, 0⟩) ∧ Goes (ready fed) 0 { vxa := ⟨0x10, 0, 1, 0, 8, 0⟩ } ∧
    Goes (ready fed) 0 { vxa := ⟨4, 0, 1, 2, 3, 20⟩ } ∧ Goes (ready fed) 0 { tile := { op := 1, tile := 2, rest := tileRest 16 true } } ∧
    Goes (ready fed) 0 { mx := { op := 8, acc := 1, opb := 7, pass := 1 } } ∧ Goes (ready fed) 0 { mx := ⟨1, 5, 0, 2, 16, 33, 0, 0⟩ } ∧
    Goes (ready fed) 0 { agu := { op := 1, gen := 1, sel := 0, vsrc := 2, val := 0x2000 } } := by
  unfold EndsOk Goes; decide +kernel

/-- The front end of hamper 0 stands at the last word of loops. -/
def looping (ls : List Loop) : State := hampered (fun h => { h with loops := ls }) pushing

theorem witness_LoopEnds :
    (∀ l ∈ [(⟨0, 2, 0, 5, 0, 0⟩ : Loop), ⟨0, 2, 1, 5, 0, 0⟩], let s := looping [l]
     s.mayPush 0 = true ∧ (s.hamper 0).smad = none ∧ l.depth = (s.hamper 0).calls.length ∧ l.last = (s.hamper 0).pc ∧
     (s.hamper 0).calls.length < 4) ∧
    (let s := looping [⟨0, 1, 0, 5, 0, 0⟩, ⟨1, 3, 1, 4, 0, 0⟩]
     s.mayPush 0 = true ∧ (s.hamper 0).smad = none ∧ (1 : Nat) ≤ 0 + 1 ∧ 1 + 1 < 3) ∧
    (let s := looping [⟨0, 3, 1, 4, 7, 0⟩]
     s.mayPush 0 = true ∧ (s.hamper 0).smad = none ∧ (∀ l ∈ (s.hamper 0).loops, l.last ≠ (s.hamper 0).pc) ∧
     ∃ l ∈ (s.hamper 0).loops, l.k = 0) := by
  decide +kernel

theorem witness_AbortTimeoutNot :
    (let s := hampered (fun h => { h with hold := some ⟨500, 0, 67⟩ }) (aborting 0 false)
     s.plane.abort = some ⟨3, false⟩ ∧ (s.hamper 0).hold = some ⟨500, 0, 67⟩ ∧ (3 : BitVec 64).toNat + 64 ≤ (67 : BitVec 64).toNat) ∧
    holding.releaseDue (groveOfHamper 0) = true := by
  decide +kernel

/-- Core 0 with `k`, and that flit at its north input. -/
def flitAt (f : Flit) (e : BitVec 32) (k : Core) : State :=
  (coreOne { k with net := { k.net with routes := [(3, e)] } }).setMesh { links := [⟨0, 0, 3, f⟩] }

/-- An entry of slot 3 that names the local output, target `n` and contributor `c`. -/
def localEntry (n c : Nat) : BitVec 32 := BitVec.ofNat 32 (0x210 * 2 ^ 22 + n * 2 ^ 22 + c * 2 ^ 17)

theorem witness_FlitsReachTheirCore :
    (∀ n ∈ [2, 8], ∀ c ∈ [0, 1], let e := localEntry n c
     let s := flitAt { valid := 1 } e {}
     routeValid e = true ∧ State.routeOut e 4 = true ∧ routeTgt e = n ∧ routeContrib e = c ∧ s.catching 0 = false ∧
     State.takeFirst (fun x : LinkFlit => x.core = 0 && x.input = 0 && x.due ≤ s.total 0) s.plane.mesh.links = some (⟨0, 0, 3, { valid := 1 }⟩, []) ∧
     (s.core 0).route 0 ((s.sched 0 + 16 - 0 % 16) % 16) = e ∧ smGet [] (s.core 0).net.part n = [] ∧
     ((s.core 0).rqueue 2).entries.length < 8 ∧ (s.core 0).net.inlet.length < 4) ∧
    (let q := ({ potluck := true } : RQueue)
     let s := flitAt { valid := 1 } (localEntry 2 0) { net := { rq := [(2, q)] } }
     (s.core 0).rqueue 2 = q ∧ 0 ≤ q.expm1.toNat ∧ q.expm1.toNat < 1) ∧
    (let s := flitAt { valid := 1 } (localEntry 8 0) { net := { inlet := [{}, {}, {}, {}] } }
     4 ≤ (s.core 0).net.inlet.length ∧ (s.core 0).net.inlet ≠ []) ∧
    (let e : BitVec 32 := 0xB <<< 28
     atRouter e = true ∧ routeValid e = true ∧ (List.range 4).filter (State.routeOut e) = [1, 2] ∧
     ∀ o < 4, State.routeOut e o = true → (State.coreBeside 0 o).map groveOf = some 0) := by
  decide +kernel

theorem witness_DepartureTick :
    (let s := ticking.setFld ALM_DEPART_CTRL.STATE 2
     let s := { s with plane := { s.plane with departTick := some 0 } }
     s.fld ALM_DEPART_CTRL.STATE = 2 ∧ s.plane.launch = false ∧ s.flag ALM_STATUS.RUNNING = true ∧ s.plane.departTick = some s.time.ticks) := by
  decide +kernel

/-- The function may send requests of host memory. -/
def busMaster (s : State) : State := { s with cfg := [(0x004, 6)] }

/-- The host DMA channel's block waits for its completion. -/
def hostReading : State := onChan hdU (busyChan .reading)

theorem witness_HostMemory :
    ((busMaster hostReading).mastering = true ∧ hostReading.mastering = false ∧ hostReading.hostWaits 0 0 = false ∧
     (hostReading.hostReq 0 (.hostRead 0 32 false false)).hostWaits 0 0 = true ∧
     hostReading.noTimeout = false ∧ ({ hostReading with cfg := [(0x078, 16)] } : State).noTimeout = true) ∧
    (let b := { aBlk .full with job := 1 }
     let s := onChan seU { busyChan .full with jobs := [{ aJob with code := 4 }, { aJob with idx := 1 }], blks := [b] }
     (s.chan seU).blks = [b] ∧ s.behindEnd seU b = true ∧ (onChan seU (busyChan .full)).behindEnd seU (aBlk .full) = false) ∧
    (let j : Job := { aJob with point := some (9, 0), ended := 1 }
     let s := onChan seU { jobs := [j] }
     s.job seU = some j ∧ j.ended = s.time.ticks + 1 ∧ (9 : Nat) ≠ s.time.ticks ∧ ({ aJob with point := some (9, 0) } : Job).ended ≠ s.time.ticks + 1) := by
  decide +kernel

theorem witness_RefreshUnder :
    (let s := State.reset.setStack 0 { closes := 40, under := 9 }
     s.time.ticks < (s.stack 0).closes ∧ (s.stack 0).under ≠ (s.stack 0).usedPhase 0 ∧
     ¬ ((State.reset.stack 0).closes > State.reset.time.ticks)) := by
  decide +kernel

/-- A step of the head that waits to be delivered, with one entry. -/
def headCopy : List Byte := bytesOf 8 (2 ^ 32) ++ List.replicate 2360 0

theorem witness_MaskOfACopy :
    (let s := sched (fun k => { k with copies := [(5, headCopy)] }) scheduling
     s.stepMod (2 ^ 32) 5 = none ∧ s.sch.copies.find? (fun c => c.1 % 2 ^ 32 = 5) = some (5, headCopy) ∧
     0 < min 256 (bytesField headCopy 4 4) ∧ entryAt 0 + 64 ≤ headCopy.length ∧ (headEntry headCopy 0).masked = false ∧
     ∀ c ∈ s.sch.copies, c.1 % 2 ^ 32 ≠ 6) ∧
    (let s := (busMaster State.reset).setFlag HIF_CTRL.SQ_EN
     s.flag HIF_CTRL.SQ_EN = true ∧ s.mastering = true ∧ s.pollDue = true ∧ State.reset.mastering = false) := by
  decide +kernel

theorem witness_TrainingInTime :
    (∀ st ∈ [psTraining, psRetraining], let s := linked st { trainBy := 5 }
     s.portState 0 = st ∧ s.time.ticks ≤ (s.port 0).trainBy ∧
     ¬ (timed (fun t => { t with ticks := 6 }) s).time.ticks ≤ (s.port 0).trainBy) := by
  decide +kernel

theorem witness_Bar2AndRings :
    (up.barsOff = false ∧ State.reset.barsOff = true ∧ up.mastering = true ∧ up.reg 0x104400 = 0 ∧ up.se.hostHeld = [] ∧
     (7 : BitVec 4).toNat ≤ (up.setFld (engRetryLimit 0) 7).fld (engRetryLimit 0) ∧
     (up.setFld (engRetryLimit 0) 1).fld (engRetryLimit 0) < (15 : BitVec 4).toNat) ∧
    (let s := busMaster (sched (fun k => { k with cq := [(0, { held := [{ final := true, general := true, bytes := [] }], unsig := 1 })] })
       (State.reset.setFlag (HIF_CQ_BASE.EN 0)))
     s.mastering = true ∧ s.flag (HIF_CQ_BASE.EN 0) = true ∧ (s.cring 0).reread = false ∧
     min (s.cring 0).held.length (s.cqRoom 0) ≠ 0) := by
  decide +kernel

/-- A list of `n` bad frames of a stack. -/
def badFrames (n : Nat) : List (BitVec 21) := (List.range n).map (BitVec.ofNat 21)

theorem witness_TooManyBadFrames : 1024 < (State.stackBad 0 ⟨true, badFrames 1025⟩).length := by decide +kernel

theorem witness_JtagLocked :
    (let s := { boot bsFuse with boot := { (boot bsFuse).boot with jtag := .other 3 } }
     s.bootAt bsFuse = true ∧ s.boot.jtag = .other 3) := by
  decide +kernel

theorem witness_LevelKept :
    (let s := (leveled lvIdle 5).setFld LG_CEIL.CEILING 2
     let s := { s with power := { s.power with stopDue := some 35002 } }
     s.flag LG_STATUS.TRIPPED = false ∧ s.time.rootGated = false ∧ s.decided = s.level ∧ s.fld PWR_LEVEL.STATE = lvIdle ∧
     (s.power.fasterOff && s.flag LG_EVENT.VR_TIMEOUT) = false ∧ s.power.stopDue.isSome = true) ∧
    (let s := { leveled lvSlower 5 with power := { (leveled lvSlower 5).power with stopDue := some 35002 } }
     s.power.stopDue.isSome = true ∧ s.fld PWR_LEVEL.STATE = lvSlower ∧ s.time.rootGated = false) := by
  decide +kernel

theorem witness_ContributorsStay :
    ((heated 2000 2000).warm = true ∧ (heated 0 0).warm = false ∧ (loaded 850 450000).powerHigh = true ∧ State.reset.powerHigh = false) ∧
    (let s := (loaded 850 1).setFld LG_LIMITS.OCP_A 1000
     s.powerHigh = false ∧ s.overCurrent = false) := by
  decide +kernel

theorem witness_SnapshotWaits :
    (let r : SnapRec := { at_ := 0, addr := 4096, bytes := List.replicate 728 0, tail := 1, totals := [], ends := true, starts := true,
                          late := [(0, 656)] }
     let s := { State.reset.setFlag ALM_STATUS.RUNNING with reader := { State.reset.reader with record := some r } }
     s.snapWaits = true ∧ (s.setReg CLK_GATE_FIELD.off 0).snapWaits = false ∧
     ((s.setReg CLK_GATE_FIELD.off 0).settleLate.reader.record).isSome = true) := by
  decide +kernel

theorem witness_LoadWrites :
    (let lib : List LibRecord := [⟨0xFFFF, 0, 1, 8⟩, ⟨3, 5, 1, 48⟩]
     lib = [⟨0xFFFF, 0, 1, 8⟩] ++ ⟨3, 5, 1, 48⟩ :: [] ∧ BitVec.ofNat 8 3 = (3 : GroveId)) ∧
    (objHampers (bytesOf 16 0)).length = 1 ∧ Memory.wf (withObject true).hbm = true := by
  decide +kernel

end Sys2Proof.Tests
end

section
/-! PROOFS. One step, and the state after power-on reset. -/

namespace Sys2Proof.Machine

/-- With a command at the front of the queue a step runs it on the rest. -/
theorem step_cons (c : Instr) (rest : List Instr) (s : State) :
    step { s with pending := c :: rest } = exec c { s with pending := rest } := rfl

/-- With no command waiting the block idles. -/
theorem step_of_pending_nil {s : State} (h : s.pending = []) : step s = .next s := by
  simp only [step, h]

/-- No word of the table puts a command into the queue. -/
theorem withFetchWord_eq (s : State) (nbits w : Nat) : s.withFetchWord nbits w = s := rfl

/-- Settles O1: a step is the command at the front of the queue, run on the rest of it. -/
theorem stepRunsTheFrontCommand : Obligations.StepRunsTheFrontCommand := by
  unfold Obligations.StepRunsTheFrontCommand
  exact ⟨step_cons, fun s => ⟨step_of_pending_nil, fun nbits w => ⟨rfl, withFetchWord_eq s nbits w⟩⟩⟩

namespace State

/-- At reset every core is in the state that its record's defaults give. -/
theorem reset_core (c : CoreId) : State.reset.core c = {} := rfl

/-- At reset every hamper is in the state that its record's defaults give. -/
theorem reset_hamper (h : HamperId) : State.reset.hamper h = {} := rfl

/-- The identity registers of the stream engines hold their stack's number at reset (R448). -/
theorem reset_stack : ∀ n, n < 20 → State.reset.fld (SE_ID.STACK n) = n := by decide +kernel

/-- The watchdog is enabled at reset, with an interval of 2 ^ 20. -/
theorem reset_watchdog : State.reset.fld CP_WD_CFG.LOG2 = 20 ∧ State.reset.flag CP_WD_CFG.EN = true := by decide +kernel

theorem reset_timeout : State.reset.fld SVC_CFG.TIMEOUT = 0x10000 := by decide +kernel

theorem reset_scale : State.reset.fld ALM_SCALE.OWN = 0x10000 := by decide +kernel

/-- At reset no field and no grove is gated. -/
theorem reset_gates : State.reset.reg CLK_GATE_FIELD.off = 15 ∧
    ∀ k, k < 4 → State.reset.reg (CLK_GATE_GROVE.off k) = 0xFFFFFFFFFFFFFFFF := by decide +kernel

theorem reset_not_ready : State.reset.flag HIF_STATUS.READY = false := by decide +kernel

end State

/-- A core whose record holds its defaults: enabled, with whole vectors and masks, EMPTY rows, full credit and no route. -/
theorem core_default : let k : Core := {}
    (k.en = true ∧ k.vl = 32 ∧ k.status = 0 ∧ k.flags = 0) ∧ (∀ m, k.mask m = 0xFFFFFFFF) ∧
    (∀ r, (k.spadRow r).tag = 0 ∧ (k.spadRow r).tagOk = true) ∧
    (∀ n, (k.sendEnd n).credit = 8 ∧ (k.sendEnd n).type = 0) ∧ ∀ i sl, routeValid (k.route i sl) = false :=
  ⟨⟨rfl, rfl, rfl, rfl⟩, fun _ => rfl, fun _ => ⟨rfl, (by decide : SpadRow.tagOk {} = true)⟩, fun _ => ⟨rfl, rfl⟩,
    fun _ _ => (by decide : routeValid 0 = false)⟩

/-- Settles O49: the records' defaults, and the reset values of the registers that it names. -/
theorem resetState : Obligations.ResetState := by
  unfold Obligations.ResetState
  obtain ⟨hlog, hen⟩ := State.reset_watchdog
  obtain ⟨hfield, hgrove⟩ := State.reset_gates
  refine ⟨rfl, rfl, rfl, rfl, rfl, rfl, State.reset_wf, rfl, rfl, State.reset_reg, State.reset_stack, hlog, hen,
    State.reset_timeout, State.reset_scale, hfield, hgrove, State.reset_not_ready, fun c => ?_, fun h => ?_⟩
  · obtain ⟨⟨hen, hvl, hstatus, hflags⟩, hmask, hrow, hsend, hroute⟩ := core_default
    rw [State.reset_core]
    exact ⟨hen, hvl, hstatus, hflags, hmask, hrow, fun n _ => hsend n, hroute⟩
  · rw [State.reset_hamper]
    exact ⟨rfl, rfl, rfl, rfl, fun _ => rfl⟩

end Sys2Proof.Machine
end

section
/-! PROOFS. Writes of BAR0 registers that only store their fields (R10 to R14): what each access type leaves of a field, and
the registers whose write does nothing else. -/

namespace Sys2Proof.Machine

/-! ## One field of a register -/

/-- A field of one bit is that bit. -/
theorem getBits_bit (v : BitVec 64) (i : Nat) : getBits v i i = (v.getLsbD i).toNat := by
  have h : i + 1 - i = 1 := by omega
  rw [getBits, h, BitVec.getLsbD, Nat.testBit_eq_decide_div_mod_eq]
  rcases Nat.mod_two_eq_zero_or_one (v.toNat / 2 ^ i) with h | h <;> simp [h]

/-- Fields of one width whose bits agree hold the same number. -/
theorem getBits_congr {v w : BitVec 64} {hi lo hi' lo' : Nat} (hw : hi + 1 - lo = hi' + 1 - lo')
    (h : ∀ i, i < hi + 1 - lo → v.getLsbD (lo + i) = w.getLsbD (lo' + i)) : getBits v hi lo = getBits w hi' lo' := by
  apply Nat.eq_of_testBit_eq
  intro i
  rw [testBit_getBits, testBit_getBits, ← hw]
  by_cases hi2 : i < hi + 1 - lo
  · rw [h i hi2]
  · simp [hi2]

/-- Storing a field's own number changes nothing outside the field, and nothing in it. -/
theorem getLsbD_putBits_getBits (v w : BitVec 64) {hi lo : Nat} (i : Nat) (hi64 : hi < 64) (hlo : lo ≤ hi) :
    (putBits v hi lo (getBits w hi lo)).getLsbD i = if lo ≤ i ∧ i ≤ hi then w.getLsbD i else v.getLsbD i := by
  rw [getLsbD_putBits _ _ _ hi64 hlo]
  by_cases h : lo ≤ i ∧ i ≤ hi
  · have h1 : i - lo < hi + 1 - lo := by omega
    have h2 : lo + (i - lo) = i := by omega
    simp [h, testBit_getBits, h1, h2]
  · simp [h]

namespace FieldSpec

variable (f : FieldSpec) (a : Agent) (now old v : BitVec 64)

/-- A write leaves every bit outside the field. -/
theorem written_getLsbD_outside (h64 : f.hi < 64) (hlo : f.lo ≤ f.hi) {i : Nat} (hi : i < f.lo ∨ f.hi < i) :
    (f.written a now old v).getLsbD i = old.getLsbD i := by
  have hout : ¬ (f.lo ≤ i ∧ i ≤ f.hi) := by omega
  have store : ∀ b : Bool,
      (if (b && f.legal.ok (getBits v f.hi f.lo)) = true then putBits old f.hi f.lo (getBits v f.hi f.lo) else old).getLsbD i
        = old.getLsbD i := by
    intro b
    split
    · rw [getLsbD_putBits _ _ _ h64 hlo, if_neg hout]
    · rfl
  unfold FieldSpec.written
  dsimp only
  split
  case h_1 => exact store _
  case h_2 => exact store _
  case h_3 => exact store _
  case h_4 =>
    by_cases hi64 : i < 64
    · have hclear : (putBits 0 f.hi f.lo (getBits v f.hi f.lo)).getLsbD i = false := by
        rw [getLsbD_putBits _ _ _ h64 hlo, if_neg hout]
        exact BitVec.getLsbD_zero
      simp only [BitVec.getLsbD_and, BitVec.getLsbD_not, hclear, hi64, decide_true, Bool.false_and, Bool.not_false, Bool.and_true]
    · simp [BitVec.getLsbD_of_ge old i (by omega)]
  case h_5 => rfl
  case h_6 => rfl

/-- A write leaves every field apart from the one written. -/
theorem getBits_written_apart {hi lo : Nat} (h64 : f.hi < 64) (hlo : f.lo ≤ f.hi) (h : f.hi < lo ∨ hi < f.lo) :
    getBits (f.written a now old v) hi lo = getBits old hi lo :=
  getBits_congr rfl fun _ _ => f.written_getLsbD_outside a now old v h64 hlo (by omega)

/-- A field of type RW holds what was written, unless that is a reserved encoding (R10, R13, R14). -/
theorem getBits_written_rw (hacc : f.acc = .rw) (h64 : f.hi < 64) (hlo : f.lo ≤ f.hi) :
    getBits (f.written a now old v) f.hi f.lo =
      if f.legal.ok (getBits v f.hi f.lo) = true then getBits v f.hi f.lo else getBits old f.hi f.lo := by
  simp only [FieldSpec.written, hacc, Bool.true_and]
  split
  · rw [getBits_putBits_self _ _ h64 hlo, Nat.mod_eq_of_lt (getBits_lt _ _ _)]
  · rfl

/-- A bit of a field of type W1C is cleared by a 1, unless hardware has set it in the same cycle (R10, R11). -/
theorem getLsbD_written_w1c (hacc : f.acc = .w1c) (h64 : f.hi < 64) {i : Nat} (hlo : f.lo ≤ i) (hi : i ≤ f.hi) :
    (f.written a now old v).getLsbD i = (old.getLsbD i && (!v.getLsbD i || now.getLsbD i)) := by
  have hi64 : i < 64 := by omega
  simp only [FieldSpec.written, hacc, BitVec.getLsbD_and, BitVec.getLsbD_not, hi64,
    getLsbD_putBits_getBits _ _ _ h64 (by omega : f.lo ≤ f.hi), hlo, hi, and_self, if_true, decide_true, Bool.true_and,
    Bool.not_and, Bool.not_not]

end FieldSpec

/-! ## Writes of 4 bytes (R6) -/

/-- A write of the low half brings bits 31 to 0 and keeps the others. -/
theorem getLsbD_merge_low (old v : BitVec 64) {i : Nat} (hi : i < 64) :
    (Width.low.merge old v).getLsbD i = if i < 32 then v.getLsbD i else old.getLsbD i := by
  simp only [Width.merge, BitVec.getLsbD_append, BitVec.getLsbD_extractLsb', Nat.zero_add]
  split
  · simp [*]
  · simp [show i - 32 < 32 by omega, show 32 + (i - 32) = i by omega]

/-- A write of the high half brings bits 63 to 32 and keeps the others. -/
theorem getLsbD_merge_high (old v : BitVec 64) {i : Nat} (hi : i < 64) :
    (Width.high.merge old v).getLsbD i = if i < 32 then old.getLsbD i else v.getLsbD (i - 32) := by
  simp only [Width.merge, BitVec.getLsbD_append, BitVec.getLsbD_extractLsb', Nat.zero_add]
  split
  · simp [*]
  · simp [show i - 32 < 32 by omega]

namespace State

/-- A one-bit field reads as its bit. -/
theorem flag_bit (s : State) (o i : Nat) : s.flag ⟨o, i, i⟩ = (s.reg o).getLsbD i := by
  simp only [flag, fld, getBits_bit]
  cases (s.reg o).getLsbD i <;> rfl

/-! ## Fields stored by hardware -/

/-- Setting a flag leaves every other register. -/
theorem reg_setFlag_of_ne (s : State) (f : Fld) {r : Nat} (h : r ≠ f.off) : (s.setFlag f).reg r = s.reg r :=
  reg_setFld_of_ne _ f 1 h

/-- A saturating count adds up to the field's largest value. -/
theorem fld_incSat_self (s : State) (f : Fld) (k : Nat) (h : f.hi < 64) (hlo : f.lo ≤ f.hi) :
    (s.incSat f k).fld f = min (2 ^ (f.hi + 1 - f.lo) - 1) (s.fld f + k) := by
  have := Nat.two_pow_pos (f.hi + 1 - f.lo)
  rw [incSat, fld_setFld_self _ _ _ h hlo, satAdd]
  exact Nat.mod_eq_of_lt (by omega)

/-- A saturating count leaves the fields apart from it in its register. -/
theorem fld_incSat_apart (s : State) (f g : Fld) (k : Nat) (hoff : g.off = f.off) (h : f.hi < 64) (hlo : f.lo ≤ f.hi)
    (hd : f.hi < g.lo ∨ g.hi < f.lo) : (s.incSat f k).fld g = s.fld g :=
  fld_setFld_apart s f g _ hoff h hlo hd

/-! ## A write of a register -/

/-- A write of a register stores its fields by their access types. -/
theorem regWrite_of_regAt {off i k : Nat} {r : RegSpec} (h : regAt off regTable = some (r, i, k)) (s : State) (a : Agent)
    (v : BitVec 64) : s.regWrite a off v = s.setReg off (writeFields a (s.setInTick off) (s.reg off) v r.fields) := by
  simp only [regWrite, h]

/-- The state in which the bytes that a host's write brings have been counted (R725). -/
def counted (s : State) (a : Agent) (w : Width) : State := if a = .host then s.addTotal 73 w.size else s

/-- The count of bytes changes the counter reader alone. -/
theorem counted_eq (s : State) (a : Agent) (w : Width) : ∃ r, s.counted a w = { s with reader := r } := by
  unfold counted
  split
  · exact ⟨_, rfl⟩
  · exact ⟨s.reader, rfl⟩

@[simp] theorem counted_out (s : State) (a : Agent) (w : Width) : (s.counted a w).out = s.out := by
  obtain ⟨r, h⟩ := s.counted_eq a w; rw [h]
@[simp] theorem counted_bar0 (s : State) (a : Agent) (w : Width) : (s.counted a w).bar0 = s.bar0 := by
  obtain ⟨r, h⟩ := s.counted_eq a w; rw [h]
@[simp] theorem counted_plane (s : State) (a : Agent) (w : Width) : (s.counted a w).plane = s.plane := by
  obtain ⟨r, h⟩ := s.counted_eq a w; rw [h]
@[simp] theorem counted_hbm (s : State) (a : Agent) (w : Width) : (s.counted a w).hbm = s.hbm := by
  obtain ⟨r, h⟩ := s.counted_eq a w; rw [h]
@[simp] theorem counted_reg (s : State) (a : Agent) (w : Width) (r : Nat) : (s.counted a w).reg r = s.reg r := by
  obtain ⟨r, h⟩ := s.counted_eq a w; rw [h]; rfl
@[simp] theorem counted_flag (s : State) (a : Agent) (w : Width) (f : Fld) : (s.counted a w).flag f = s.flag f := by
  obtain ⟨r, h⟩ := s.counted_eq a w; rw [h]; rfl
@[simp] theorem counted_asleep (s : State) (a b : Agent) (w : Width) : (s.counted a w).asleep b = s.asleep b := by
  obtain ⟨r, h⟩ := s.counted_eq a w; rw [h]; rfl
@[simp] theorem counted_setInTick (s : State) (a : Agent) (w : Width) (o : Nat) :
    (s.counted a w).setInTick o = s.setInTick o := by
  obtain ⟨r, h⟩ := s.counted_eq a w; rw [h]; rfl

theorem counted_sameDevice (s : State) (a : Agent) (w : Width) : Claims.SameDevice s (s.counted a w) := by
  obtain ⟨r, h⟩ := s.counted_eq a w
  rw [h]
  exact ⟨rfl, rfl, rfl, rfl, rfl, rfl, rfl, rfl, rfl, rfl, rfl⟩

/-! ## Requests that are not served -/

/-- An Unsupported Request is recorded in AER's Uncorrectable Error Status and in Device Status. -/
theorem recordUnsupported_recorded (s : State) :
    (s.recordUnsupported.cfgRead 0x104).getLsbD 20 = true ∧ (s.recordUnsupported.cfgRead 0x058).getLsbD 19 = true := by
  constructor <;> simp [cfgRead, recordUnsupported, cfgOr, cfgWord, setCfg, smGet_smSet]

/-- A poisoned TLP received is recorded in AER's Uncorrectable Error Status and in Device Status. -/
theorem recordPoisoned_recorded (s : State) :
    (s.recordPoisoned.cfgRead 0x104).getLsbD 12 = true ∧ (s.recordPoisoned.cfgRead 0x058).getLsbD 17 = true := by
  constructor <;> simp [cfgRead, recordPoisoned, cfgOr, cfgWord, setCfg, smGet_smSet]

/-! ## REGISTER_WRITE -/

/-- A write that the function does not serve is recorded alone. -/
theorem exec_registerWrite_asleep {s : State} {a : Agent} (h : s.asleep a = true) (off : BitVec 26) (w : Width) (v : BitVec 64) :
    exec (.registerWrite a off w v) s = .next (s.counted a w).recordUnsupported := by
  have : execRegisterWrite a off w v s =
    if (s.counted a w).asleep a then .next (s.counted a w).recordUnsupported
    else .next ((s.counted a w).bar0Write a (off.toNat / 8 * 8) w v) := rfl
  exact this.trans (by rw [counted_asleep, h, if_pos rfl])

/-- A write that the function serves reaches BAR0. -/
theorem exec_registerWrite_awake {s : State} {a : Agent} (h : s.asleep a = false) (off : BitVec 26) (w : Width) (v : BitVec 64) :
    exec (.registerWrite a off w v) s = .next ((s.counted a w).bar0Write a (off.toNat / 8 * 8) w v) := by
  have : execRegisterWrite a off w v s =
    if (s.counted a w).asleep a then .next (s.counted a w).recordUnsupported
    else .next ((s.counted a w).bar0Write a (off.toNat / 8 * 8) w v) := rfl
  exact this.trans (by rw [counted_asleep, h]; rfl)

/-- An agent's write is not one of the host's that READY holds back (R590). -/
def Taken (s : State) (a : Agent) (off : Nat) : Prop := a = .host → s.flag HIF_STATUS.READY = true ∨ takenEarly off = true

/-- Before READY a host's write above the bring-up registers is discarded. -/
theorem bar0Write_early {s : State} (hr : s.flag HIF_STATUS.READY = false) {off : Nat} (he : takenEarly off = false) (w : Width)
    (v : BitVec 64) : s.bar0Write .host off w v = s := by
  simp [bar0Write, bar0WriteWith, hr, he]

/-- A place that no block defines takes no write. -/
theorem bar0Write_undefined {off : Nat} (h : bar0Defined off = false) (s : State) (a : Agent) (w : Width) (v : BitVec 64) :
    s.bar0Write a off w v = s := by
  have hp : ¬ (0x1000000 ≤ off ∧ off < 0x3000000) := fun hp => by simp [bar0Defined, hp] at h
  have hw : inImageWindow off = false := by simp only [bar0Defined, Bool.or_eq_false_iff] at h; tauto
  have hp2 : (decide (0x1000000 ≤ off) && decide (off < 0x3000000)) = false := by simpa using hp
  unfold bar0Write bar0WriteWith
  rw [hp2, hw, h]
  simp

/-- The register at `off` has no effect of its own when written: its row of the table is `r`, no block or window has another
way for it, and it neither forces an engine into serial mode nor signals a vector. -/
structure StoresOnly (off : Nat) (r : RegSpec) : Prop where
  place  : ∃ i k, regAt off regTable = some (r, i, k)
  block  : ∀ (s : State) go a v, s.blockWrite go a off v = s.regWrite a off v
  engine : engCfgAt off = none
  signal : ∀ s : State, s.signalAgain off = s
  window : (0x1000000 ≤ off && off < 0x3000000 || inImageWindow off || inBadWindow off || inMsixTable off ||
    off = 0x104400 || (ctrPlace off).isSome) = false
  whole  : (BitVec.ofNat 26 off).toNat / 8 * 8 = off

/-- What a write of a width stands for at such a register: the half left out counts as the fields stored there (R6, R8). -/
theorem StoresOnly.widened {off : Nat} {r : RegSpec} (h : StoresOnly off r) (s : State) (w : Width) (v : BitVec 64) :
    s.widened off w v = w.merge (storedFields (s.reg off) r.fields) v := by
  obtain ⟨i, k, hreg⟩ := h.place
  have hwin := h.window
  simp only [Bool.or_eq_false_iff, Option.isSome_eq_false_iff, Option.isNone_iff_eq_none] at hwin
  obtain ⟨⟨⟨_, hmsix⟩, _⟩, hctr⟩ := hwin
  simp [State.widened, storedAt, hctr, hmsix, hreg]

/-- A write of a register without an effect of its own stores its fields (R10). -/
theorem StoresOnly.bar0Write {off : Nat} {r : RegSpec} (h : StoresOnly off r) {s : State} {a : Agent} (ht : Taken s a off)
    (w : Width) (v : BitVec 64) : s.bar0Write a off w v = s.setReg off
      (writeFields a (s.setInTick off) (s.reg off) (w.merge (storedFields (s.reg off) r.fields) v) r.fields) := by
  obtain ⟨i, k, hreg⟩ := h.place
  have hwin := h.window
  simp only [Bool.or_eq_false_iff] at hwin
  obtain ⟨⟨⟨⟨⟨hplane, himg⟩, hbad⟩, hmsix⟩, hpba⟩, hctr⟩ := hwin
  have hdef : bar0Defined off = true := by simp [bar0Defined, hreg]
  have hready : (decide (a = .host) && !s.flag HIF_STATUS.READY && !takenEarly off) = false := by
    by_cases ha : a = .host
    · rcases ht ha with hr | he
      · simp [hr]
      · simp [he]
    · simp [ha]
  unfold State.bar0Write bar0WriteWith
  rw [hready, hplane, himg, hbad, hdef, hpba, h.block, serialKept, h.engine, h.widened, regWrite_of_regAt hreg]
  simp [h.signal]

/-- REGISTER_WRITE of such a register stores its fields and changes no other register, nor HBM, nor the core plane. -/
theorem StoresOnly.exec {off : Nat} {r : RegSpec} (h : StoresOnly off r) {s : State} {a : Agent} (hs : s.asleep a = false)
    (ht : Taken s a off) (w : Width) (v : BitVec 64) :
    ∃ t, exec (.registerWrite a (BitVec.ofNat 26 off) w v) s = .next t ∧
      t.reg off = writeFields a (s.setInTick off) (s.reg off) (w.merge (storedFields (s.reg off) r.fields) v) r.fields ∧
      (∀ o, o ≠ off → t.reg o = s.reg o) ∧ t.hbm = s.hbm ∧ t.plane = s.plane := by
  have ht' : Taken (s.counted a w) a off := by simpa [Taken] using ht
  refine ⟨_, exec_registerWrite_awake hs _ _ _, ?_⟩
  rw [h.whole, h.bar0Write ht']
  exact ⟨by simp, fun o ho => by simp [reg_setReg_of_ne _ _ ho], by simp, by simp⟩

end State
end Sys2Proof.Machine
end

section
/-! PROOFS. REGISTER_WRITE on the registers that its statement names. -/

namespace Sys2Proof.Machine

open Sys2Proof.Claims

namespace State

/-! ## The rows of the registers -/

/-- The rows of the register table at the registers' offsets. -/
def svcCfgRow : RegSpec := ⟨"SVC_CFG", 0x3000008, 1, 0, 1, 0, [⟨31, 0, .rw, 0x10000, .any⟩]⟩
def bar2BaseRow : RegSpec := ⟨"HIF_BAR2_BASE", 0x100030, 1, 0, 1, 0, [⟨41, 30, .rw, 0, .any⟩]⟩
def bootCfgRow : RegSpec := ⟨"BOOT_CFG", 0x28, 1, 0, 1, 0, [⟨15, 8, .rw, 1, .range 1 255⟩, ⟨1, 0, .rw, 0, .range 0 1⟩]⟩
def svcStatusRow : RegSpec :=
  ⟨"SVC_STATUS", 0x3000010, 1, 0, 1, 0, [⟨2, 2, .w1c, 0, .any⟩, ⟨1, 1, .w1c, 0, .any⟩, ⟨0, 0, .ro, 0, .any⟩]⟩
def serialRow : RegSpec := ⟨"DEV_SERIAL", 0x8, 1, 0, 1, 0, [⟨63, 0, .ro, 0, .any⟩]⟩
def watchdogRow : RegSpec :=
  ⟨"CP_WD_CFG", 0x3000100, 1, 0, 1, 0, [⟨8, 8, .rw, 1, .any⟩, ⟨4, 0, .rw, 0x14, .range 10 30⟩]⟩

theorem storesOnly_svcCfg : StoresOnly SVC_CFG.off svcCfgRow :=
  ⟨⟨0, 0, by decide +kernel⟩, fun _ _ _ _ => rfl, by decide, fun _ => rfl, by decide, by decide⟩
theorem storesOnly_bar2Base : StoresOnly HIF_BAR2_BASE.off bar2BaseRow :=
  ⟨⟨0, 0, by decide +kernel⟩, fun _ _ _ _ => rfl, by decide, fun _ => rfl, by decide, by decide⟩
theorem storesOnly_bootCfg : StoresOnly BOOT_CFG.off bootCfgRow :=
  ⟨⟨0, 0, by decide +kernel⟩, fun _ _ _ _ => rfl, by decide, fun _ => rfl, by decide, by decide⟩
theorem storesOnly_svcStatus : StoresOnly SVC_STATUS.off svcStatusRow :=
  ⟨⟨0, 0, by decide +kernel⟩, fun _ _ _ _ => rfl, by decide, fun _ => rfl, by decide, by decide⟩
theorem storesOnly_serial : StoresOnly DEV_SERIAL.off serialRow :=
  ⟨⟨0, 0, by decide +kernel⟩, fun _ _ _ _ => rfl, by decide, fun _ => rfl, by decide, by decide⟩
theorem storesOnly_watchdog : StoresOnly CP_WD_CFG.off watchdogRow :=
  ⟨⟨0, 0, by decide +kernel⟩, fun _ _ _ _ => rfl, by decide, fun _ => rfl, by decide, by decide⟩

/-! ## What a write leaves of their fields -/

theorem svcCfg_written (a : Agent) (now old v : BitVec 64) :
    getBits (writeFields a now old v svcCfgRow.fields) 31 0 = getBits v 31 0 :=
  (FieldSpec.getBits_written_rw ⟨31, 0, .rw, 0x10000, .any⟩ a now old v rfl (by decide) (by decide)).trans (if_pos rfl)

/-- A write of HIF_BAR2_BASE brings the bits of BASE. -/
theorem bar2Base_written (a : Agent) (now old v : BitVec 64) (i : Nat) :
    (writeFields a now old v bar2BaseRow.fields).getLsbD i = if 30 ≤ i ∧ i ≤ 41 then v.getLsbD i else old.getLsbD i :=
  getLsbD_putBits_getBits old v i (by decide) (by decide)

/-- The fields stored in HIF_BAR2_BASE are the bits of BASE. -/
theorem bar2Base_stored (v : BitVec 64) {i : Nat} (h : 30 ≤ i ∧ i ≤ 41) :
    (storedFields v bar2BaseRow.fields).getLsbD i = v.getLsbD i :=
  (getLsbD_putBits_getBits 0 v i (by decide) (by decide)).trans (if_pos h)

theorem bootCfg_written (a : Agent) (now old v : BitVec 64) :
    let x := writeFields a now old v bootCfgRow.fields
    getBits x 15 8 = (if getBits v 15 8 = 0 then getBits old 15 8 else getBits v 15 8) ∧
    getBits x 1 0 = (if 2 ≤ getBits v 1 0 then getBits old 1 0 else getBits v 1 0) := by
  let retry : FieldSpec := ⟨15, 8, .rw, 1, .range 1 255⟩
  let test : FieldSpec := ⟨1, 0, .rw, 0, .range 0 1⟩
  have hx : writeFields a now old v bootCfgRow.fields = test.written a now (retry.written a now old v) v := rfl
  have hlt : getBits v 15 8 < 256 := getBits_lt v 15 8
  refine ⟨?_, ?_⟩
  · rw [hx, test.getBits_written_apart _ _ _ _ (by decide) (by decide) (by decide),
      retry.getBits_written_rw _ _ _ _ rfl (by decide) (by decide)]
    by_cases h : getBits v 15 8 = 0
    · simp [retry, Legal.ok, h]
    · have : 1 ≤ getBits v 15 8 ∧ getBits v 15 8 ≤ 255 := by omega
      simp [retry, Legal.ok, h, this]
  · rw [hx, test.getBits_written_rw _ _ _ _ rfl (by decide) (by decide),
      retry.getBits_written_apart _ _ _ _ (by decide) (by decide) (by decide)]
    by_cases h : 2 ≤ getBits v 1 0
    · have : ¬ getBits v 1 0 ≤ 1 := by omega
      simp [test, Legal.ok, h, this]
    · have : getBits v 1 0 ≤ 1 := by omega
      simp [test, Legal.ok, h, this]

/-- A write of SVC_STATUS clears REFUSED and TIMEOUT where it holds a 1 and hardware has not set the bit. -/
theorem svcStatus_written (a : Agent) (now old v : BitVec 64) :
    let x := writeFields a now old v svcStatusRow.fields
    x.getLsbD 2 = (old.getLsbD 2 && (!v.getLsbD 2 || now.getLsbD 2)) ∧
    x.getLsbD 1 = (old.getLsbD 1 && (!v.getLsbD 1 || now.getLsbD 1)) := by
  let refused : FieldSpec := ⟨2, 2, .w1c, 0, .any⟩
  let timeout : FieldSpec := ⟨1, 1, .w1c, 0, .any⟩
  have hx : writeFields a now old v svcStatusRow.fields = timeout.written a now (refused.written a now old v) v := rfl
  refine ⟨?_, ?_⟩
  · rw [hx, timeout.written_getLsbD_outside _ _ _ _ (by decide) (by decide) (by decide),
      refused.getLsbD_written_w1c _ _ _ _ rfl (by decide) (by decide) (by decide)]
  · rw [hx, timeout.getLsbD_written_w1c _ _ _ _ rfl (by decide) (by decide) (by decide),
      refused.written_getLsbD_outside _ _ _ _ (by decide) (by decide) (by decide)]

theorem watchdog_written (a : Agent) (now old v : BitVec 64) :
    let x := writeFields a now old v watchdogRow.fields
    x.getLsbD 8 = v.getLsbD 8 ∧
    getBits x 4 0 = (if 10 ≤ getBits v 4 0 ∧ getBits v 4 0 ≤ 30 then getBits v 4 0 else getBits old 4 0) := by
  let en : FieldSpec := ⟨8, 8, .rw, 1, .any⟩
  let log2 : FieldSpec := ⟨4, 0, .rw, 0x14, .range 10 30⟩
  have hx : writeFields a now old v watchdogRow.fields = log2.written a now (en.written a now old v) v := rfl
  refine ⟨?_, ?_⟩
  · rw [hx, log2.written_getLsbD_outside _ _ _ _ (by decide) (by decide) (by decide)]
    exact (getLsbD_putBits_getBits old v 8 (by decide) (by decide)).trans (if_pos (by decide))
  · rw [hx, log2.getBits_written_rw _ _ _ _ rfl (by decide) (by decide),
      en.getBits_written_apart _ _ _ _ (by decide) (by decide) (by decide)]
    simp [log2, Legal.ok]

/-! ## The writes -/

variable {s : State} {a : Agent} (v : BitVec 64)

/-- After READY every agent's write is taken. -/
theorem taken_of_ready (h : a = .host → s.flag HIF_STATUS.READY = true) (off : Nat) : Taken s a off := fun ha => .inl (h ha)

/-- A write of a bring-up register is taken early. -/
theorem taken_of_early {off : Nat} (h : takenEarly off = true) : Taken s a off := fun _ => .inr h

/-- A 4-byte write of HIF_BAR2_BASE's low half keeps the rest of BASE. -/
theorem exec_bar2Base_low (hs : s.asleep a = false) (ht : Taken s a HIF_BAR2_BASE.off) :
    ∃ t, exec (.registerWrite a (BitVec.ofNat 26 HIF_BAR2_BASE.off) .low v) s = .next t ∧
      getBits (t.reg HIF_BAR2_BASE.off) 41 32 = getBits (s.reg HIF_BAR2_BASE.off) 41 32 ∧
      getBits (t.reg HIF_BAR2_BASE.off) 31 30 = getBits v 31 30 ∧ t.hbm = s.hbm := by
  obtain ⟨t, ht, hreg, -, hhbm, -⟩ := storesOnly_bar2Base.exec hs ht .low v
  refine ⟨t, ht, getBits_congr rfl fun i hi => ?_, getBits_congr rfl fun i hi => ?_, hhbm⟩
  · have hin : 30 ≤ 32 + i ∧ 32 + i ≤ 41 := by omega
    rw [hreg, bar2Base_written, if_pos hin, getLsbD_merge_low _ _ (by omega), if_neg (by omega), bar2Base_stored _ hin]
  · rw [hreg, bar2Base_written, if_pos (by omega), getLsbD_merge_low _ _ (by omega), if_pos (by omega)]

/-- A 4-byte write of HIF_BAR2_BASE's high half keeps the rest of BASE. -/
theorem exec_bar2Base_high (hs : s.asleep a = false) (ht : Taken s a HIF_BAR2_BASE.off) :
    ∃ t, exec (.registerWrite a (BitVec.ofNat 26 HIF_BAR2_BASE.off) .high v) s = .next t ∧
      getBits (t.reg HIF_BAR2_BASE.off) 41 32 = getBits v 9 0 ∧
      getBits (t.reg HIF_BAR2_BASE.off) 31 30 = getBits (s.reg HIF_BAR2_BASE.off) 31 30 ∧ t.hbm = s.hbm := by
  obtain ⟨t, ht, hreg, -, hhbm, -⟩ := storesOnly_bar2Base.exec hs ht .high v
  refine ⟨t, ht, getBits_congr rfl fun i hi => ?_, getBits_congr rfl fun i hi => ?_, hhbm⟩
  · rw [hreg, bar2Base_written, if_pos (by omega), getLsbD_merge_high _ _ (by omega), if_neg (by omega),
      show 32 + i - 32 = 0 + i by omega]
  · have hin : 30 ≤ 30 + i ∧ 30 + i ≤ 41 := by omega
    rw [hreg, bar2Base_written, if_pos hin, getLsbD_merge_high _ _ (by omega), if_pos (by omega), bar2Base_stored _ hin]

/-- LG_TRIP takes a write of the lifeguard alone. -/
theorem bar0Write_lgTrip (ha : a ≠ .lifeguard) (w : Width) : s.bar0Write a LG_TRIP.off w v = s := by
  have hkeep : s.signalAgain LG_TRIP.off = s := rfl
  have hblock : ∀ x, s.blockWrite mpGo a LG_TRIP.off x = if a = .lifeguard then (s.lgWriteReg 0x18 x).2 else s := fun _ => rfl
  have hengine : engCfgAt LG_TRIP.off = none := by decide
  have hearly : takenEarly LG_TRIP.off = true := by decide
  have hdef : bar0Defined LG_TRIP.off = true := by decide +kernel
  unfold bar0Write bar0WriteWith
  rw [hblock, if_neg ha, serialKept, hengine, hdef, hearly]
  simp only [hkeep]
  simp [LG_TRIP.off, inImageWindow, inBadWindow]

/-- DEV_SERIAL keeps its value, whether or not the write is served. -/
theorem exec_serial (s : State) (a : Agent) (v : BitVec 64) :
    ∃ t, exec (.registerWrite a (BitVec.ofNat 26 DEV_SERIAL.off) .full v) s = .next t ∧
      t.reg DEV_SERIAL.off = s.reg DEV_SERIAL.off := by
  cases hs : s.asleep a with
  | true => exact ⟨_, exec_registerWrite_asleep hs _ _ _, s.counted_reg a .full DEV_SERIAL.off⟩
  | false =>
    obtain ⟨t, ht, hreg, -⟩ := storesOnly_serial.exec hs (taken_of_early rfl) .full v
    exact ⟨t, ht, hreg⟩

theorem exec_svcCfg (hs : s.asleep a = false) (ht : Taken s a SVC_CFG.off) :
    ∃ t, exec (.registerWrite a (BitVec.ofNat 26 SVC_CFG.off) .full v) s = .next t ∧ t.fld SVC_CFG.TIMEOUT = getBits v 31 0 ∧
      (∀ r, r ≠ SVC_CFG.off → t.reg r = s.reg r) ∧ t.hbm = s.hbm ∧ t.plane = s.plane := by
  obtain ⟨t, ht, hreg, hframe⟩ := storesOnly_svcCfg.exec hs ht .full v
  exact ⟨t, ht, (congrArg (getBits · 31 0) hreg).trans (svcCfg_written _ _ _ _), hframe⟩

theorem exec_bar2Base_full (hs : s.asleep a = false) (ht : Taken s a HIF_BAR2_BASE.off) :
    ∃ t, exec (.registerWrite a (BitVec.ofNat 26 HIF_BAR2_BASE.off) .full v) s = .next t ∧
      t.fld HIF_BAR2_BASE.BASE = getBits v 41 30 ∧
      (∀ r, r ≠ HIF_BAR2_BASE.off → t.reg r = s.reg r) ∧ t.hbm = s.hbm ∧ t.plane = s.plane := by
  obtain ⟨t, ht, hreg, hframe⟩ := storesOnly_bar2Base.exec hs ht .full v
  have hbase : getBits (t.reg HIF_BAR2_BASE.off) 41 30 = getBits v 41 30 := getBits_congr rfl fun i hi => by
    rw [hreg, bar2Base_written, if_pos (by omega)]
    rfl
  exact ⟨t, ht, hbase, hframe⟩

theorem exec_bootCfg (hs : s.asleep a = false) :
    ∃ t, exec (.registerWrite a (BitVec.ofNat 26 BOOT_CFG.off) .full v) s = .next t ∧
      t.fld BOOT_CFG.LINK_RETRY = (if getBits v 15 8 = 0 then s.fld BOOT_CFG.LINK_RETRY else getBits v 15 8) ∧
      t.fld BOOT_CFG.MEMTEST = (if 2 ≤ getBits v 1 0 then s.fld BOOT_CFG.MEMTEST else getBits v 1 0) ∧
      ∀ r, r ≠ BOOT_CFG.off → t.reg r = s.reg r := by
  obtain ⟨t, ht, hreg, hframe, -⟩ := storesOnly_bootCfg.exec hs (taken_of_early rfl) .full v
  obtain ⟨hretry, htest⟩ := bootCfg_written a (s.setInTick BOOT_CFG.off) (s.reg BOOT_CFG.off) v
  exact ⟨t, ht, (congrArg (getBits · 15 8) hreg).trans hretry, (congrArg (getBits · 1 0) hreg).trans htest, hframe⟩

theorem exec_svcStatus (hs : s.asleep a = false) (ht : Taken s a SVC_STATUS.off) :
    ∃ t, exec (.registerWrite a (BitVec.ofNat 26 SVC_STATUS.off) .full v) s = .next t ∧
      t.flag SVC_STATUS.REFUSED =
        (s.flag SVC_STATUS.REFUSED && (!v.getLsbD 2 || (s.setInTick SVC_STATUS.off).getLsbD 2)) ∧
      t.flag SVC_STATUS.TIMEOUT =
        (s.flag SVC_STATUS.TIMEOUT && (!v.getLsbD 1 || (s.setInTick SVC_STATUS.off).getLsbD 1)) := by
  obtain ⟨t, ht, hreg, -⟩ := storesOnly_svcStatus.exec hs ht .full v
  obtain ⟨hrefused, htimeout⟩ := svcStatus_written a (s.setInTick SVC_STATUS.off) (s.reg SVC_STATUS.off) v
  refine ⟨t, ht, ?_⟩
  simp only [SVC_STATUS.REFUSED, SVC_STATUS.TIMEOUT, flag_bit]
  exact ⟨(congrArg (·.getLsbD 2) hreg).trans hrefused, (congrArg (·.getLsbD 1) hreg).trans htimeout⟩

theorem exec_watchdog (hs : s.asleep a = false) (ht : Taken s a CP_WD_CFG.off) :
    ∃ t, exec (.registerWrite a (BitVec.ofNat 26 CP_WD_CFG.off) .full v) s = .next t ∧ t.flag CP_WD_CFG.EN = v.getLsbD 8 ∧
      t.fld CP_WD_CFG.LOG2 =
        (if 10 ≤ getBits v 4 0 ∧ getBits v 4 0 ≤ 30 then getBits v 4 0 else s.fld CP_WD_CFG.LOG2) := by
  obtain ⟨t, ht, hreg, -⟩ := storesOnly_watchdog.exec hs ht .full v
  obtain ⟨hen, hlog⟩ := watchdog_written a (s.setInTick CP_WD_CFG.off) (s.reg CP_WD_CFG.off) v
  exact ⟨t, ht, (flag_bit t _ 8).trans ((congrArg (·.getLsbD 8) hreg).trans hen), (congrArg (getBits · 4 0) hreg).trans hlog⟩

/-- A served write that BAR0 does not take changes what the host's writes have counted alone. -/
theorem exec_registerWrite_discarded {off : BitVec 26} {w : Width} (hs : s.asleep a = false)
    (h : (s.counted a w).bar0Write a (off.toNat / 8 * 8) w v = s.counted a w) :
    ∃ t, exec (.registerWrite a off w v) s = .next t ∧ SameDevice s t ∧ t.out = s.out :=
  ⟨_, (exec_registerWrite_awake hs off w v).trans (congrArg _ h), s.counted_sameDevice a w, s.counted_out a w⟩

end State

/-- The writes of BAR0 that the host, the management processor and the lifeguard make. -/
theorem registerWrites : RegisterWrites := by
  unfold RegisterWrites
  intro a off w v s
  have taken : ∀ o, (a = .host → s.flag HIF_STATUS.READY = true) → State.Taken s a o := fun o h => State.taken_of_ready h o
  refine ⟨fun hs => ?asleep, fun hs ha hr he => ?beforeReady,
    fun hs hd => State.exec_registerWrite_discarded v hs (State.bar0Write_undefined hd _ a w v),
    fun ⟨hs, hr⟩ => State.exec_svcCfg v hs (taken _ hr), fun ⟨hs, hr⟩ => State.exec_bar2Base_full v hs (taken _ hr),
    fun ⟨hs, hr⟩ => State.exec_bar2Base_low v hs (taken _ hr), fun ⟨hs, hr⟩ => State.exec_bar2Base_high v hs (taken _ hr),
    fun hs => State.exec_bootCfg v hs, fun ⟨hs, hr⟩ => ?svcStatus, fun ha hs => ?lgTrip, State.exec_serial s a v,
    fun ⟨hs, hr⟩ => ?watchdog⟩
  case asleep =>
    obtain ⟨haer, hdev⟩ := (s.counted a w).recordUnsupported_recorded
    exact ⟨_, State.exec_registerWrite_asleep hs off w v, s.counted_bar0 a w, s.counted_plane a w, s.counted_hbm a w, haer, hdev,
      s.counted_out a w⟩
  case beforeReady =>
    subst ha
    exact State.exec_registerWrite_discarded v hs (State.bar0Write_early (by rwa [State.counted_flag]) he w v)
  case svcStatus =>
    obtain ⟨t, ht, hrefused, htimeout⟩ := State.exec_svcStatus v hs (taken _ hr)
    refine ⟨t, ht, fun hv => ?_, fun hv => ?_, fun hv => ?_, fun hv => ?_⟩
    · rw [hrefused, hv, Bool.not_true, Bool.false_or]
    · rw [hrefused, hv, Bool.not_false, Bool.true_or, Bool.and_true]
    · rw [htimeout, hv, Bool.not_true, Bool.false_or]
    · rw [htimeout, hv, Bool.not_false, Bool.true_or, Bool.and_true]
  case lgTrip =>
    obtain ⟨t, ht, hsame, -⟩ :=
      State.exec_registerWrite_discarded (off := BitVec.ofNat 26 LG_TRIP.off) v hs (State.bar0Write_lgTrip v ha .full)
    exact ⟨t, ht, hsame⟩
  case watchdog =>
    obtain ⟨t, ht, hen, hlog⟩ := State.exec_watchdog v hs (taken _ hr)
    exact ⟨t, ht, hen, fun h1 h2 => hlog.trans (if_pos ⟨h1, h2⟩), fun h => hlog.trans (if_neg (by omega))⟩

end Sys2Proof.Machine
end

section
/-! PROOFS. What the accesses below change and leave: outputs sent in a row, the configuration space, and HBM's bytes and
marks. -/

namespace Sys2Proof.Machine

open Sys2Proof.Claims

/-! ## Maps and memory -/

/-- A key that has been dropped gives the default. -/
theorem smGet_smDrop_of_dropped {α : Type} (d : α) (p : Nat → Bool) (m : SMap α) {k : Nat} (h : p k = true) :
    smGet d (smDrop p m) k = d := by
  induction m with
  | nil => rfl
  | cons e m ih =>
    obtain ⟨j, w⟩ := e
    by_cases hj : p j = true
    · simpa [smDrop, hj] using ih
    · have hne : k ≠ j := fun e => hj (e ▸ h)
      have hcons : smDrop p ((j, w) :: m) = (j, w) :: smDrop p m := by simp [smDrop, hj]
      rw [hcons, smGet, ih, if_neg hne, ite_self]

/-- One value stored at `n` keys from `b` on. -/
theorem smGet_foldl_smSet {α : Type} (d : α) (m : SMap α) (b n : Nat) (v : α) (k : Nat) :
    smGet d ((List.range n).foldl (fun m w => smSet m (b + w) v) m) k = if b ≤ k ∧ k < b + n then v else smGet d m k := by
  induction n with
  | zero => simp [show ¬ (b ≤ k ∧ k < b) by omega]
  | succ n ih =>
    rw [List.range_succ, List.foldl_append, List.foldl_cons, List.foldl_nil, smGet_smSet, ih]
    by_cases h : k = b + n
    · simp [h]
    · simp only [h, if_false]
      exact if_congr (by omega) rfl rfl

/-- What every address reads as after bytes are written. -/
theorem memRead_memWriteBytes {m : List Host.Cell} (hm : Memory.wf m = true) (a : Nat) (bs : List Byte) (x : Nat) :
    memRead (memWriteBytes m a bs) x = if a ≤ x ∧ x < a + bs.length then (bs[x - a]?).getD 0 else memRead m x := by
  induction bs generalizing m a with
  | nil => simp [memWriteBytes, show ¬ (a ≤ x ∧ x < a) by omega]
  | cons b bs ih =>
    rw [memWriteBytes, ih (wf_memWrite hm a b), memRead_memWrite hm, List.length_cons]
    rcases Nat.lt_trichotomy x a with h | rfl | h
    · simp [show ¬ a + 1 ≤ x by omega, show ¬ a ≤ x by omega, show x ≠ a by omega]
    · simp [show ¬ x + 1 ≤ x by omega]
    · have hidx : x - a = (x - (a + 1)) + 1 := by omega
      rw [hidx, List.getElem?_cons_succ, if_neg (by omega : ¬ x = a)]
      exact if_congr (by omega) rfl rfl

namespace State

/-! ## Outputs -/

/-- What is sent counts its bytes and changes nothing else. -/
theorem emit_sameDevice (s : State) (o : Output) : SameDevice s (s.emit o) :=
  ⟨by simp, by simp, by simp, by simp, by simp, by simp, by simp, by simp, by simp, by simp, by simp⟩

@[simp] theorem emit_reg (s : State) (o : Output) (r : Nat) : (s.emit o).reg r = s.reg r := by simp [reg]
@[simp] theorem emit_fld (s : State) (o : Output) (f : Fld) : (s.emit o).fld f = s.fld f := by simp [fld]
@[simp] theorem emit_flag (s : State) (o : Output) (f : Fld) : (s.emit o).flag f = s.flag f := by simp [flag]

/-- Outputs sent one after another. -/
def emitAll (s : State) (os : List Output) : State := os.foldl emit s

@[simp] theorem emitAll_out (s : State) (os : List Output) : (s.emitAll os).out = s.out ++ os := by
  induction os generalizing s with
  | nil => simp [emitAll]
  | cons o os ih => exact (ih (s.emit o)).trans (by simp)

@[simp] theorem emitAll_bar0 (s : State) (os : List Output) : (s.emitAll os).bar0 = s.bar0 := by
  induction os generalizing s with
  | nil => rfl
  | cons o os ih => exact (ih (s.emit o)).trans (by simp)

@[simp] theorem emitAll_hbm (s : State) (os : List Output) : (s.emitAll os).hbm = s.hbm := by
  induction os generalizing s with
  | nil => rfl
  | cons o os ih => exact (ih (s.emit o)).trans (by simp)

theorem emitAll_units (s : State) (os : List Output) : SameUnits s (s.emitAll os) :=
  foldl_units _ emit_units os s

/-- A fold whose steps send one output each sends them in a row. -/
theorem foldl_eq_emitAll {β : Type} {s : State} {f : State → β → State} {g : β → Output}
    (hf : ∀ (t : State) x, t.bar0 = s.bar0 → f t x = t.emit (g x)) (xs : List β) : xs.foldl f s = s.emitAll (xs.map g) := by
  have from_ : ∀ t : State, t.bar0 = s.bar0 → xs.foldl f t = t.emitAll (xs.map g) := by
    induction xs with
    | nil => exact fun _ _ => rfl
    | cons x xs ih =>
      intro t ht
      rw [List.foldl_cons, hf t x ht, ih _ (by simpa using ht)]
      rfl
  exact from_ s rfl

/-! ## Requests of host memory that wait -/

/-- The state without the requests of host memory that wait. -/
def withoutHeld (s : State) : State := { s with se := { s.se with hostHeld := [] } }

/-- A function that may send requests sends those that wait, in order. -/
theorem hostFlush_mastering {s : State} (h : s.mastering = true) :
    s.hostFlush = s.withoutHeld.emitAll (s.se.hostHeld.map (·.2)) := by
  rw [hostFlush, if_pos h]
  exact foldl_eq_emitAll (s := s.withoutHeld) (fun _ _ _ => rfl) _

/-- A function that may not keeps them. -/
theorem hostFlush_waits {s : State} (h : s.mastering = false) : s.hostFlush = s := by
  rw [hostFlush, h]
  rfl

/-- What the sending of waiting requests leaves. -/
theorem hostFlush_frame (s : State) : s.hostFlush.cfg = s.cfg ∧ s.hostFlush.hbm = s.hbm ∧ s.hostFlush.bar0 = s.bar0 := by
  cases h : s.mastering with
  | true =>
    rw [hostFlush_mastering h]
    exact ⟨(emitAll_units _ _).cfg, emitAll_hbm _ _, emitAll_bar0 _ _⟩
  | false =>
    rw [hostFlush_waits h]
    exact ⟨rfl, rfl, rfl⟩

/-! ## Pending vectors -/

/-- Sending pending vectors leaves the configuration space and the units. -/
theorem msixFlush_units (s : State) : SameUnits s s.msixFlush := by
  refine foldl_units _ (fun s v => ?_) _ s
  split
  · exact (setReg_units s _ _).trans (signal_units _ v)
  · exact .refl s

theorem msixFlush_hbm (s : State) : s.msixFlush.hbm = s.hbm := by
  have : ∀ (vs : List Nat) (s : State),
      (vs.foldl (fun s v => if (s.reg 0x104400).getLsbD v then (s.unpend v).signal v else s) s).hbm = s.hbm := by
    intro vs
    induction vs with
    | nil => exact fun _ => rfl
    | cons v vs ih =>
      intro s
      rw [List.foldl_cons, ih]
      split
      · rw [signal_hbm]
        rfl
      · rfl
  exact this _ s

/-- Without a pending vector nothing is sent. -/
theorem msixFlush_of_none {s : State} (h : s.reg 0x104400 = 0) : s.msixFlush = s := by
  have : ∀ vs : List Nat,
      vs.foldl (fun s v => if (s.reg 0x104400).getLsbD v then (s.unpend v).signal v else s) s = s := by
    intro vs
    induction vs with
    | nil => rfl
    | cons v vs ih =>
      rw [List.foldl_cons, h]
      simpa using ih
  exact this _

end State
end Sys2Proof.Machine
end

section
/-! PROOFS. BAR0_BAD_ACCESS, CONFIG_REQUEST, BAR2_READ and BAR2_WRITE. -/

namespace Sys2Proof.Machine

open Sys2Proof.Claims

namespace State

/-! ## Refused accesses -/

/-- An access of BAR0 that is not aligned is recorded; a read is answered as unsupported (R7). -/
theorem exec_bar0BadAccess (s : State) (off : BitVec 26) (n : Nat) (wr : Bool) :
    exec (.bar0BadAccess off n wr) s =
      .next (if wr then s.recordUnsupported else s.recordUnsupported.emit .unsupported) := rfl

/-! ## Configuration requests -/

theorem exec_configRequest (s : State) (off : BitVec 12) (be : BitVec 4) (w : Option (BitVec 32)) :
    exec (.configRequest off be w) s = .next (s.configRequest (off.toNat / 4 * 4) be w) := rfl

/-- While the link is in reset no configuration request arrives. -/
theorem configRequest_perst {s : State} (h : s.boot.perst = true) (off : Nat) (be : BitVec 4) (w : Option (BitVec 32)) :
    s.configRequest off be w = s := by
  simp [configRequest, h]

/-- Until the fuse load has completed a configuration request is answered by Request Retry Status (R589). -/
theorem configRequest_retry {s : State} (hp : s.boot.perst = false) (hf : s.boot.fusesIn = false) (off : Nat) (be : BitVec 4)
    (w : Option (BitVec 32)) : s.configRequest off be w = s.emit .retryStatus := by
  simp [configRequest, hp, hf]

/-- A configuration read returns the doubleword. -/
theorem configRequest_read {s : State} (hp : s.boot.perst = false) (hf : s.boot.fusesIn = true) (off : Nat) (be : BitVec 4) :
    s.configRequest off be none = s.emit (.readData (bytesOf 4 (s.cfgRead off).toNat) false) := by
  simp [configRequest, hp, hf, cfgServe]

/-- Command after a write of all its bytes: the enables hold what was written, and the error bits that hold a 1 are cleared. -/
def commandWritten (old v : BitVec 32) : BitVec 32 :=
  ((old &&& ~~~0x00000546#32) ||| (v &&& 0x00000546#32)) &&& ~~~(v &&& 0xF9000000#32)

theorem cfgWrite_command (s : State) (v : BitVec 32) :
    s.cfgWrite 0x004 0xF v = s.setCfg 0x004 (commandWritten (s.cfgRead 0x004) v) := by
  have hmask : s.cfgMask 0x004 &&& beMask 0xF = 0x00000546#32 := by
    have hbe : beMask 0xF = 0xFFFFFFFF#32 := by decide
    rw [hbe]
    exact (by decide : 0x00000546#32 &&& 0xFFFFFFFF#32 = 0x00000546#32)
  have hclears : cfgClears 0x004 &&& beMask 0xF &&& v = v &&& 0xF9000000#32 := by
    rw [show cfgClears 0x004 &&& beMask 0xF = 0xF9000000#32 by decide, BitVec.and_comm]
  have hany : ¬ (0x00000546#32 ||| cfgClears 0x004 = 0) := by decide
  unfold cfgWrite
  simp only [hmask, hclears, hany, if_false]
  rfl

/-- The state in which Command has been written. -/
def afterCommand (s : State) (v : BitVec 32) : State :=
  (s.addTotal 73 4).setCfg 0x004 (commandWritten (s.cfgRead 0x004) v)

/-- A write of Command sends pending vectors and waiting requests of host memory, as far as it lets the function send them. -/
theorem configRequest_command {s : State} (hp : s.boot.perst = false) (hf : s.boot.fusesIn = true) (v : BitVec 32) :
    s.configRequest 0x004 0xF (some v) = (s.afterCommand v).msixFlush.hostFlush := by
  have hserve : s.cfgServe 0x004 0xF (some v) = s.afterCommand v := cfgWrite_command _ v
  simp only [configRequest, hp, hf, hserve, Bool.false_eq_true, if_false, Bool.not_true]
  rfl

theorem mastering_congr {s t : State} (h : t.cfg = s.cfg) : t.mastering = s.mastering := by
  unfold mastering inD3 cfgWord
  rw [h]

/-- A configuration doubleword is read from the configuration space, a register and the held image alone. -/
theorem cfgRead_congr {s t : State} (hc : t.cfg = s.cfg) (hb : t.bar0 = s.bar0) (hboot : t.boot = s.boot) {o : Nat} :
    t.cfgRead o = s.cfgRead o := by
  unfold cfgRead reg cfgWord
  rw [hc, hb, hboot]

theorem cfgRead_command_congr {s t : State} (h : t.cfg = s.cfg) : t.cfgRead 0x004 = s.cfgRead 0x004 :=
  congrArg (smGet (cfgDefault 0x004) · 0x004) h

theorem exec_command {s : State} (hp : s.boot.perst = false) (hf : s.boot.fusesIn = true) (v : BitVec 32) :
    ∃ t, exec (.configRequest 0x004 0xF (some v)) s = .next t ∧ t.cfgRead 0x004 = commandWritten (s.cfgRead 0x004) v ∧
      t.hbm = s.hbm ∧ (s.reg 0x104400 = 0 → t.bar0 = s.bar0 ∧
        (s.se.hostHeld = [] → t.out = s.out) ∧
        (t.mastering = true → t.out = s.out ++ s.se.hostHeld.map (·.2) ∧ t.se.hostHeld = []) ∧
        (t.mastering = false → t.out = s.out ∧ t.se.hostHeld = s.se.hostHeld)) := by
  obtain ⟨hcfg, hhbm, hbar0⟩ := (s.afterCommand v).msixFlush.hostFlush_frame
  have hcfg := hcfg.trans (msixFlush_units _).cfg
  refine ⟨_, (exec_configRequest _ _ _ _).trans (congrArg _ (configRequest_command hp hf v)), ?_,
    hhbm.trans (msixFlush_hbm _), fun hnone => ?_⟩
  · rw [cfgRead_command_congr hcfg]
    exact smGet_smSet_self _ _ _ _
  · rw [msixFlush_of_none (s := s.afterCommand v) hnone]
    cases hm : (s.afterCommand v).mastering with
    | true =>
      have hflush := hostFlush_mastering hm
      have hmast : ((s.afterCommand v).hostFlush).mastering = true := (mastering_congr (hostFlush_frame _).1).trans hm
      have hout : (s.afterCommand v).hostFlush.out = s.out ++ s.se.hostHeld.map (·.2) := by rw [hflush, emitAll_out]; rfl
      have hheld : (s.afterCommand v).hostFlush.se.hostHeld = [] := by rw [hflush, (emitAll_units _ _).se]; rfl
      exact ⟨(hostFlush_frame _).2.2, fun h => by rw [hout, h]; simp, fun _ => ⟨hout, hheld⟩, fun h => by simp [hmast] at h⟩
    | false =>
      rw [hostFlush_waits hm]
      exact ⟨rfl, fun _ => rfl, fun h => by simp [hm] at h, fun _ => ⟨rfl, rfl⟩⟩

/-! ## BAR2 -/

theorem exec_bar2Read (s : State) (o : BitVec 41) (n : Nat) (fails : BitVec 4) :
    exec (.bar2Read o n fails) s = .next (s.bar2Read o.toNat n fails.toNat) := rfl

theorem exec_bar2Write (s : State) (o : BitVec 41) (bs : List Byte) (bad : Bool) :
    exec (.bar2Write o bs bad) s = .next (s.bar2Write o.toNat bs bad) := rfl

/-- The function takes no access of BAR2: before READY, in D3hot, and without Memory Space Enable. -/
def bar2Off (s : State) : Bool := !s.flag HIF_STATUS.READY || s.barsOff

theorem bar2Off_of {s : State} (h : s.flag HIF_STATUS.READY = false ∨ s.barsOff = true) : s.bar2Off = true := by
  rcases h with h | h <;> simp [bar2Off, h]

theorem bar2Off_not {s : State} (hr : s.flag HIF_STATUS.READY = true) (hb : s.barsOff = false) : s.bar2Off = false := by
  simp [bar2Off, hr, hb]

theorem bar2Read_off {s : State} (h : s.bar2Off = true) (o n fails : Nat) : s.bar2Read o n fails = s.emit .unsupported := by
  rw [bar2Off] at h
  simp only [bar2Read, h, if_true]

/-- A read past the last stack is unsupported (R595). -/
theorem bar2Read_past {s : State} (h : s.bar2Off = false) {o n : Nat} (hp : hbmEnd < s.bar2Addr o + n) (fails : Nat) :
    s.bar2Read o n fails = (s.setFlag HIF_STATUS.BAR2_RANGE).emit .unsupported := by
  rw [bar2Off] at h
  simp only [bar2Read, h, hp, if_true, Bool.false_eq_true, if_false]

/-- Counting the bytes of a read leaves the registers. -/
theorem countRead_fld (s : State) (a n : Nat) (f : Fld) : (s.countRead a n).fld f = s.fld f := by
  simp only [fld, reg, countRead_bar0]

/-- Where no word is uncorrectable, a read takes the words' decoded bytes. -/
theorem hbmTaken_of_correctable {s : State} {a n : Nat}
    (h : ∀ w ∈ s.hbmWords a (wordSpan a n), w.2.2 ≠ .uncorrectable) :
    (((s.hbmWords a (wordSpan a n)).flatMap fun w => bytesOf 8 w.1.toNat).drop (a % 8)).take n = s.hbmTaken a n := by
  have hw : ∀ w ∈ s.hbmWords a (wordSpan a n), bytesOf 8 w.1.toNat =
      bytesOf 8 (if w.2.2 = .uncorrectable then (Config.freeBits s.free).extractLsb' 0 64 else w.1).toNat :=
    fun w hw => by rw [if_neg (h w hw)]
  rw [hbmTaken, List.flatMap_congr hw]

/-- The state in which a read of `n` bytes at `a` has been answered by `o` after `fails` failed attempts. -/
def readServed (s : State) (a n fails : Nat) (ws : List (BitVec 64 × Bool × EccKind)) (o : Output) : State :=
  (((s.countRead a n).countErr HBM_ERR.RETRIES a fails).countFixed a ws).emit o

/-- The state in which such a read has been answered by `o` after the last of `limit` retries has failed. -/
def readExhausted (s : State) (a n limit : Nat) (o : Output) : State :=
  (((s.countRead a n).countErr HBM_ERR.RETRIES a limit).countErr HBM_ERR.EXHAUSTED a 1).emit o

/-- A read whose words are clean, within the retry limit, returns the stored bytes and counts the failed attempts. -/
theorem bar2Read_clean {s : State} (h : s.bar2Off = false) {o n fails : Nat} (hp : s.bar2Addr o + n ≤ hbmEnd)
    (hf : fails ≤ s.fld (engRetryLimit (s.bar2Addr o / 2 ^ 37)))
    (hc : ∀ w < wordSpan (s.bar2Addr o) n, s.hbmWordMeta (s.bar2Addr o - s.bar2Addr o % 8 + 8 * w) = {}) :
    s.bar2Read o n fails = s.readServed (s.bar2Addr o) n fails (s.hbmWords (s.bar2Addr o) (wordSpan (s.bar2Addr o) n))
      (.readData (memBytes s.hbm (s.bar2Addr o) n) false) := by
  have hwords := hbmWords_clean s (s.bar2Addr o) _ hc
  have hkind : ∀ w ∈ s.hbmWords (s.bar2Addr o) (wordSpan (s.bar2Addr o) n), w.2.1 = false ∧ w.2.2 = .clean := by
    intro w hw
    rw [hwords] at hw
    obtain ⟨i, -, rfl⟩ := List.mem_map.1 hw
    exact ⟨rfl, rfl⟩
  have hbytes := hbmTaken_of_correctable fun w hw => by rw [(hkind w hw).2]; decide
  rw [hbmTaken_clean s _ n hc] at hbytes
  have hbad : (s.hbmWords (s.bar2Addr o) (wordSpan (s.bar2Addr o) n)).any (fun w => decide (w.2.2 = .uncorrectable)) = false := by
    rw [List.any_eq_false]
    intro w hw
    simp [(hkind w hw).2]
  have hmark : (s.hbmWords (s.bar2Addr o) (wordSpan (s.bar2Addr o) n)).any (fun w => w.2.1) = false := by
    rw [List.any_eq_false]
    intro w hw
    simp [(hkind w hw).1]
  rw [bar2Off] at h
  have hnot : decide (s.fld (engRetryLimit (s.bar2Addr o / 2 ^ 37)) < fails) = false := by simpa using hf
  unfold bar2Read readServed
  simp only [h, countRead_fld, hnot, hbad, hbytes, hmark, Bool.or_false, Bool.false_eq_true, if_false,
    show ¬ hbmEnd < s.bar2Addr o + n by omega]

/-- A read that still fails after the last allowed retry returns poison. -/
theorem bar2Read_exhausted {s : State} (h : s.bar2Off = false) {o n fails : Nat} (hp : s.bar2Addr o + n ≤ hbmEnd)
    (hf : s.fld (engRetryLimit (s.bar2Addr o / 2 ^ 37)) < fails) :
    ∃ x, s.bar2Read o n fails =
      s.readExhausted (s.bar2Addr o) n (s.fld (engRetryLimit (s.bar2Addr o / 2 ^ 37))) (.readData x true) := by
  rw [bar2Off] at h
  unfold bar2Read
  simp only [h, countRead_fld, hf, decide_true, Bool.true_or, Bool.false_eq_true, if_true, if_false,
    show ¬ hbmEnd < s.bar2Addr o + n by omega]
  exact ⟨_, rfl⟩

/-! ### Counts of errors change the registers alone -/

@[simp] theorem countErr_out (s : State) (f : Nat → Fld) (a k : Nat) : (s.countErr f a k).out = s.out := rfl
@[simp] theorem countErr_hbm (s : State) (f : Nat → Fld) (a k : Nat) : (s.countErr f a k).hbm = s.hbm := rfl
@[simp] theorem countErr_hbmMeta (s : State) (f : Nat → Fld) (a k : Nat) : (s.countErr f a k).hbmMeta = s.hbmMeta := rfl
@[simp] theorem countErr_plane (s : State) (f : Nat → Fld) (a k : Nat) : (s.countErr f a k).plane = s.plane := rfl

/-- A count of retries saturates, and leaves EXHAUSTED. -/
theorem fld_countErr_retries (s : State) (a k : Nat) :
    let t := s.countErr HBM_ERR.RETRIES a k
    t.fld (HBM_ERR.RETRIES (a / 2 ^ 37)) = min (2 ^ 16 - 1) (s.fld (HBM_ERR.RETRIES (a / 2 ^ 37)) + k) ∧
    t.fld (HBM_ERR.EXHAUSTED (a / 2 ^ 37)) = s.fld (HBM_ERR.EXHAUSTED (a / 2 ^ 37)) :=
  ⟨fld_incSat_self s _ k (show 31 < 64 by decide) (show 16 ≤ 31 by decide),
    fld_incSat_apart s _ _ k rfl (show 31 < 64 by decide) (show 16 ≤ 31 by decide) (.inr (show 15 < 16 by decide))⟩

/-- A count of exhausted reads saturates, and leaves RETRIES. -/
theorem fld_countErr_exhausted (s : State) (a k : Nat) :
    let t := s.countErr HBM_ERR.EXHAUSTED a k
    t.fld (HBM_ERR.EXHAUSTED (a / 2 ^ 37)) = min (2 ^ 16 - 1) (s.fld (HBM_ERR.EXHAUSTED (a / 2 ^ 37)) + k) ∧
    t.fld (HBM_ERR.RETRIES (a / 2 ^ 37)) = s.fld (HBM_ERR.RETRIES (a / 2 ^ 37)) :=
  ⟨fld_incSat_self s _ k (show 15 < 64 by decide) (show 0 ≤ 15 by decide),
    fld_incSat_apart s _ _ k rfl (show 15 < 64 by decide) (show 0 ≤ 15 by decide) (.inl (show 15 < 16 by decide))⟩

/-- A count of corrected words leaves RETRIES and EXHAUSTED. -/
theorem fld_countFixed (s : State) (a : Nat) (ws : List (BitVec 64 × Bool × EccKind)) :
    let t := s.countFixed a ws
    t.fld (HBM_ERR.RETRIES (a / 2 ^ 37)) = s.fld (HBM_ERR.RETRIES (a / 2 ^ 37)) ∧
    t.fld (HBM_ERR.EXHAUSTED (a / 2 ^ 37)) = s.fld (HBM_ERR.EXHAUSTED (a / 2 ^ 37)) :=
  ⟨fld_incSat_apart s _ _ _ rfl (show 63 < 64 by decide) (show 32 ≤ 63 by decide) (.inr (show 31 < 32 by decide)),
    fld_incSat_apart s _ _ _ rfl (show 63 < 64 by decide) (show 32 ≤ 63 by decide) (.inr (show 15 < 32 by decide))⟩

theorem readServed_frame (s : State) (a n fails : Nat) (ws : List (BitVec 64 × Bool × EccKind)) (o : Output) :
    let t := s.readServed a n fails ws o
    t.out = s.out ++ [o] ∧
    t.fld (HBM_ERR.RETRIES (a / 2 ^ 37)) = min (2 ^ 16 - 1) (s.fld (HBM_ERR.RETRIES (a / 2 ^ 37)) + fails) ∧
    t.fld (HBM_ERR.EXHAUSTED (a / 2 ^ 37)) = s.fld (HBM_ERR.EXHAUSTED (a / 2 ^ 37)) ∧
    t.hbm = s.hbm ∧ t.hbmMeta = s.hbmMeta ∧ t.plane = s.plane := by
  obtain ⟨hretries, hexhausted⟩ := fld_countErr_retries (s.countRead a n) a fails
  obtain ⟨hretries2, hexhausted2⟩ := fld_countFixed ((s.countRead a n).countErr HBM_ERR.RETRIES a fails) a ws
  unfold readServed
  refine ⟨by simp [countFixed], ?_, ?_, by simp [countFixed], by simp [countFixed], by simp [countFixed]⟩
  · rw [emit_fld, hretries2, hretries, countRead_fld]
  · rw [emit_fld, hexhausted2, hexhausted, countRead_fld]

theorem readExhausted_frame (s : State) (a n limit : Nat) (o : Output) :
    let t := s.readExhausted a n limit o
    t.out = s.out ++ [o] ∧
    t.fld (HBM_ERR.RETRIES (a / 2 ^ 37)) = min (2 ^ 16 - 1) (s.fld (HBM_ERR.RETRIES (a / 2 ^ 37)) + limit) ∧
    t.fld (HBM_ERR.EXHAUSTED (a / 2 ^ 37)) = min (2 ^ 16 - 1) (s.fld (HBM_ERR.EXHAUSTED (a / 2 ^ 37)) + 1) ∧
    t.hbm = s.hbm ∧ t.plane = s.plane := by
  obtain ⟨hretries, hexhausted⟩ := fld_countErr_retries (s.countRead a n) a limit
  obtain ⟨hexhausted2, hretries2⟩ := fld_countErr_exhausted ((s.countRead a n).countErr HBM_ERR.RETRIES a limit) a 1
  unfold readExhausted
  refine ⟨by simp, ?_, ?_, by simp, by simp⟩
  · rw [emit_fld, hretries2, hretries, countRead_fld]
  · rw [emit_fld, hexhausted2, hexhausted, countRead_fld]

/-- The words of a read, by their number from its address on. -/
theorem hbmWordMeta_of_span {s : State} {a n : Nat}
    (hc : ∀ k, a / 8 ≤ k → k < (a + n + 7) / 8 → s.hbmWordMeta (8 * k) = {}) :
    ∀ w < wordSpan a n, s.hbmWordMeta (a - a % 8 + 8 * w) = {} := by
  intro w hw
  have hspan : w < (a % 8 + n + 7) / 8 := hw
  rw [show a - a % 8 + 8 * w = 8 * (a / 8 + w) by omega]
  exact hc _ (by omega) (by omega)

/-- A write that BAR2 does not take is recorded. -/
theorem bar2Write_off {s : State} (h : s.bar2Off = true) (o : Nat) (bs : List Byte) (bad : Bool) :
    s.bar2Write o bs bad = (s.addTotal 73 bs.length).recordUnsupported :=
  if_pos h

/-- A write past the last stack is recorded (R595). -/
theorem bar2Write_past {s : State} (h : s.bar2Off = false) {o : Nat} {bs : List Byte} (hp : hbmEnd < s.bar2Addr o + bs.length)
    (bad : Bool) :
    s.bar2Write o bs bad = ((s.addTotal 73 bs.length).setFlag HIF_STATUS.BAR2_RANGE).recordUnsupported :=
  (if_neg (Bool.eq_false_iff.1 h)).trans (if_pos hp)

/-- HBM as a write of `bs` at address `a` leaves it, with the marks of a poisoned TLP. -/
def bar2Stored (s : State) (a : Nat) (bs : List Byte) : Bool → State
  | false => s.hbmStore a bs
  | true =>
    let t := (s.hbmStore a bs).recordPoisoned
    { t with hbmMeta :=
        (List.range ((a % 8 + bs.length + 7) / 8)).foldl (fun m w => smSet m (a / 8 + w) { mark := true }) t.hbmMeta }

theorem bar2Write_stored {s : State} (h : s.bar2Off = false) {o : Nat} {bs : List Byte} (hp : s.bar2Addr o + bs.length ≤ hbmEnd)
    (bad : Bool) : s.bar2Write o bs bad = (s.addTotal 73 bs.length).bar2Stored (s.bar2Addr o) bs bad := by
  refine (if_neg (Bool.eq_false_iff.1 h)).trans ((if_neg (Nat.not_lt.2 hp)).trans ?_)
  cases bad <;> rfl

/-- The words that a write carries are marked where it is poisoned, with check bits that suit them (R596). -/
theorem bar2Stored_meta (s : State) (a : Nat) (bs : List Byte) (bad : Bool) {k : Nat} (h1 : a / 8 ≤ k)
    (h2 : k < (a + bs.length + 7) / 8) :
    ((s.bar2Stored a bs bad).hbmWordMeta (8 * k)).mark = bad ∧ ((s.bar2Stored a bs bad).hbmWordMeta (8 * k)).err = 0 := by
  have hk : 8 * k / 8 = k := by omega
  cases bad with
  | false =>
    have hdrop : (s.bar2Stored a bs false).hbmWordMeta (8 * k) = {} := by
      rw [hbmWordMeta, hk]
      exact smGet_smDrop_of_dropped _ (fun k => a / 8 ≤ k && k < (a + bs.length + 7) / 8) _ (by simp [h1, h2])
    rw [hdrop]
    exact ⟨rfl, rfl⟩
  | true =>
    have hmark : (s.bar2Stored a bs true).hbmWordMeta (8 * k) = { mark := true } := by
      rw [hbmWordMeta, hk]
      exact (smGet_foldl_smSet _ _ _ _ _ _).trans (if_pos (by omega))
    rw [hmark]
    exact ⟨rfl, rfl⟩

/-- What a write of BAR2 leaves, and that poison is recorded. -/
theorem bar2Stored_frame (s : State) (a : Nat) (bs : List Byte) (bad : Bool) :
    let t := s.bar2Stored a bs bad
    t.hbm = memWriteBytes s.hbm a bs ∧
    (bad = true → (t.cfgRead 0x104).getLsbD 12 = true ∧ (t.cfgRead 0x058).getLsbD 17 = true) ∧
    t.bar0 = s.bar0 ∧ t.plane = s.plane ∧ t.out = s.out := by
  cases bad with
  | false => exact ⟨rfl, fun h => absurd h (by decide), rfl, rfl, rfl⟩
  | true =>
    have hcfg : ∀ o, (s.bar2Stored a bs true).cfgRead o = (s.hbmStore a bs).recordPoisoned.cfgRead o :=
      fun _ => cfgRead_congr rfl rfl rfl
    refine ⟨rfl, fun _ => ?_, rfl, rfl, rfl⟩
    rw [hcfg, hcfg]
    exact (s.hbmStore a bs).recordPoisoned_recorded

theorem exec_bar2Write_stored {s : State} (h : s.bar2Off = false) {o : BitVec 41} {bs : List Byte}
    (hp : s.bar2Addr o.toNat + bs.length ≤ hbmEnd) (hm : Memory.wf s.hbm = true) (bad : Bool) :
    ∃ t, exec (.bar2Write o bs bad) s = .next t ∧
      (∀ x, memRead t.hbm x = if s.bar2Addr o.toNat ≤ x ∧ x < s.bar2Addr o.toNat + bs.length
        then (bs[x - s.bar2Addr o.toNat]?).getD 0 else memRead s.hbm x) ∧
      (∀ k, s.bar2Addr o.toNat / 8 ≤ k → k < (s.bar2Addr o.toNat + bs.length + 7) / 8 →
        (t.hbmWordMeta (8 * k)).mark = bad ∧ (t.hbmWordMeta (8 * k)).err = 0) ∧
      (bad = true → (t.cfgRead 0x104).getLsbD 12 = true ∧ (t.cfgRead 0x058).getLsbD 17 = true) ∧
      t.bar0 = s.bar0 ∧ t.plane = s.plane ∧ t.out = s.out := by
  obtain ⟨hhbm, hrest⟩ := (s.addTotal 73 bs.length).bar2Stored_frame (s.bar2Addr o.toNat) bs bad
  refine ⟨_, (exec_bar2Write s o bs bad).trans (congrArg _ (bar2Write_stored h hp bad)), fun x => ?_,
    fun k h1 h2 => bar2Stored_meta _ _ bs bad h1 h2, hrest⟩
  rw [hhbm]
  exact memRead_memWriteBytes hm _ bs x

end State

/-- The accesses of the configuration space and of BAR2, and the refused ones of BAR0. -/
theorem windowAccesses : WindowAccesses := by
  unfold WindowAccesses
  intro off o2 co be w n wr bad fails bs s
  refine ⟨?badAccess, fun hp => ?inReset, fun hp hf => ?retry, fun hp hf => ?read,
    fun v hp hf => State.exec_command hp hf v, fun hoff => ⟨?readOff, ?writeOff⟩, fun hr hb hlt => ?readPast,
    fun hr hb hlt => ?writePast, fun hr hb hp hc hf => ?readClean, fun hr hb hp hf => ?readExhausted,
    fun hr hb hp hm => State.exec_bar2Write_stored (State.bar2Off_not hr hb) hp hm bad⟩
  case badAccess =>
    refine ⟨_, State.exec_bar0BadAccess s off n wr, ?_⟩
    cases wr with
    | true => exact ⟨s.recordUnsupported_recorded, (List.append_nil _).symm, rfl, rfl, rfl⟩
    | false => exact ⟨s.recordUnsupported_recorded, rfl, rfl, rfl, rfl⟩
  case inReset => rw [State.exec_configRequest, State.configRequest_perst hp]
  case retry =>
    exact ⟨_, (State.exec_configRequest s co be w).trans (congrArg _ (State.configRequest_retry hp hf _ be w)),
      s.emit_out _, s.emit_sameDevice _⟩
  case read =>
    exact ⟨_, (State.exec_configRequest s co be none).trans (congrArg _ (State.configRequest_read hp hf _ be)),
      s.emit_out _, s.emit_sameDevice _⟩
  case readOff =>
    exact ⟨_, (State.exec_bar2Read s o2 n fails).trans (congrArg _ (State.bar2Read_off (State.bar2Off_of hoff) _ n _)),
      s.emit_out _, s.emit_sameDevice _⟩
  case writeOff =>
    exact ⟨_, (State.exec_bar2Write s o2 bs bad).trans (congrArg _ (State.bar2Write_off (State.bar2Off_of hoff) _ bs bad)),
      State.recordUnsupported_recorded _, rfl, rfl, rfl, rfl⟩
  case readPast =>
    refine ⟨_, (State.exec_bar2Read s o2 n fails).trans
      (congrArg _ (State.bar2Read_past (State.bar2Off_not hr hb) hlt _)), State.emit_out _ _, ?_, State.emit_hbm _ _⟩
    rw [State.emit_flag]
    exact State.flag_setFlag_self s _ (by decide) (by decide)
  case writePast =>
    exact ⟨_, (State.exec_bar2Write s o2 bs bad).trans (congrArg _ (State.bar2Write_past (State.bar2Off_not hr hb) hlt bad)),
      State.recordUnsupported_recorded _, State.flag_setFlag_self (s.addTotal 73 bs.length) HIF_STATUS.BAR2_RANGE
        (by decide) (by decide), rfl, rfl⟩

  case readClean =>
    exact ⟨_, (State.exec_bar2Read s o2 n fails).trans (congrArg _
      (State.bar2Read_clean (State.bar2Off_not hr hb) hp hf (State.hbmWordMeta_of_span hc))), State.readServed_frame s _ n _ _ _⟩
  case readExhausted =>
    obtain ⟨x, hread⟩ := State.bar2Read_exhausted (State.bar2Off_not hr hb) hp hf
    exact ⟨_, x, (State.exec_bar2Read s o2 n fails).trans (congrArg _ hread), State.readExhausted_frame s _ n _ _⟩

end Sys2Proof.Machine
end

section
/-! PROOFS. CQ_WRITE, CQ_MOD_TIMER, RING_BASE_WRITE and PTM_DIALOG, and the host's accesses as a whole. -/

namespace Sys2Proof.Machine

open Sys2Proof.Claims

namespace State

/-! ## Completion rings -/

@[simp] theorem cring_setCring_self (s : State) (n : Nat) (k : CRing) : (s.setCring n k).cring n = k :=
  smGet_smSet_self _ _ _ _

theorem cring_congr {s t : State} (h : t.sch = s.sch) (n : Nat) : t.cring n = s.cring n :=
  congrArg (fun k : Sched => smGet ({} : CRing) k.cq n) h

theorem cqBase_congr {s t : State} (h : t.bar0 = s.bar0) (n : Nat) : t.cqBase n = s.cqBase n := by
  simp only [cqBase, fld, reg, h]

/-- A signal sends its message, or leaves what has been sent. -/
theorem signal_out_cases (s : State) (v : Nat) : ∃ x, (s.signal v).out = s.out ++ x ∧ (x = [] ∨ x = [.msix v]) := by
  unfold signal
  dsimp only
  split
  · exact ⟨[.msix v], by simp, .inr rfl⟩
  · exact ⟨[], by simp, .inl rfl⟩

/-- What the signal of a ring's vector does: the ring's count restarts, and at most the message is sent. -/
theorem cqSignal_frame (s : State) (n : Nat) :
    (s.cqSignal n).cring n = { s.cring n with unsig := 0, final := false } ∧
    (∃ x, (s.cqSignal n).out = s.out ++ x ∧ (x = [] ∨ x = [.msix n])) ∧
    (s.cqSignal n).hbm = s.hbm ∧ (s.cqSignal n).plane = s.plane := by
  have hunits := signal_units (s.setCring n { s.cring n with unsig := 0, final := false }) n
  exact ⟨(cring_congr hunits.sch n).trans (cring_setCring_self s n _), signal_out_cases _ n, signal_hbm _ n, hunits.plane⟩

/-- Record `i` of those that ring `n` holds, written to its place in the ring at `base`. -/
def cqRecord (s : State) (n base i : Nat) : Output :=
  .hostWrite (base + 64 + 32 * (((s.cring n).tail + i) % s.cqSize n)) ((((s.cring n).held[i]?).map (·.bytes)).getD [])
    false false false

/-- TAIL after `m` records, written to the header at `base`. -/
def cqTail (s : State) (n base m : Nat) : Output :=
  .hostWrite (base + 32) (bytesOf 4 (((s.cring n).tail + m) % s.cqSize n)) false false false

/-- The outputs of a write of `m` records to ring `n`: the records in their places, then TAIL. -/
def cqOutputs (s : State) (n m : Nat) : List Output :=
  (List.range m).map (s.cqRecord n (s.cqBase n)) ++ [s.cqTail n (s.cqBase n) m]

/-- The state in which these outputs have been sent, as the model forms them: each from the state before it. -/
def cqSent (s : State) (n m : Nat) : State :=
  let t := (List.range m).foldl (fun t i => t.emit (s.cqRecord n (t.cqBase n) i)) s
  t.emit (s.cqTail n (t.cqBase n) m)

theorem cqSent_eq_emitAll (s : State) (n m : Nat) : s.cqSent n m = s.emitAll (s.cqOutputs n m) := by
  have hrecords : (List.range m).foldl (fun t i => t.emit (s.cqRecord n (t.cqBase n) i)) s =
      s.emitAll ((List.range m).map (s.cqRecord n (s.cqBase n))) :=
    foldl_eq_emitAll (fun t x ht => by rw [cqBase_congr ht]) _
  rw [cqSent, hrecords, cqBase_congr (emitAll_bar0 _ _)]
  simp only [emitAll, cqOutputs, List.foldl_append, List.foldl_cons, List.foldl_nil]

/-- The ring as a write of `m` records in tick `now` leaves it, before its vector is signalled. -/
def cqWritten (s : State) (n m now : Nat) : CRing :=
  let k := s.cring n
  { k with
    held := k.held.drop m, tail := (k.tail + m) % s.cqSize n, unsig := k.unsig + m
    oldest := if k.unsig = 0 then now else k.oldest
    final := k.final || (k.held.take m).any (·.final) }

/-- The state in which `m` records have been written to ring `n` and its vector has not been signalled. -/
def cqPosted (s : State) (n m : Nat) : State :=
  (s.cqSent n m).setCring n (s.cqWritten n m (s.cqSent n m).time.ticks)

/-- What a write of a completion ring does (R602, R606, R607). -/
theorem cqWrite_eq (s : State) (n : Nat) :
    s.cqWrite n =
      let m := min (s.cring n).held.length (s.cqRoom n)
      if !s.flag (HIF_CQ_BASE.EN n) || !s.mastering || (s.cring n).reread || m = 0 then s
      else if (s.cqPosted n m).cqDue n then (s.cqPosted n m).cqSignal n else s.cqPosted n m := rfl

/-- A disabled ring, a function that may send no request, a HEAD to be read again, or nothing to write: nothing is written. -/
theorem cqWrite_idle {s : State} {n : Nat}
    (h : s.flag (HIF_CQ_BASE.EN n) = false ∨ s.mastering = false ∨ (s.cring n).reread = true ∨
      min (s.cring n).held.length (s.cqRoom n) = 0) : s.cqWrite n = s := by
  rw [cqWrite_eq]
  refine if_pos ?_
  rcases h with h | h | h | h <;> simp [h]

theorem cqWrite_posted {s : State} {n : Nat} (hen : s.flag (HIF_CQ_BASE.EN n) = true) (hm : s.mastering = true)
    (hr : (s.cring n).reread = false) (h0 : min (s.cring n).held.length (s.cqRoom n) ≠ 0) :
    s.cqWrite n =
      let t := s.cqPosted n (min (s.cring n).held.length (s.cqRoom n))
      if t.cqDue n then t.cqSignal n else t := by
  rw [cqWrite_eq]
  exact if_neg (by simp [hen, hm, hr, h0])

theorem cqPosted_frame (s : State) (n m : Nat) :
    let t := s.cqPosted n m
    t.out = s.out ++ s.cqOutputs n m ∧ (∃ now, t.cring n = s.cqWritten n m now) ∧ t.hbm = s.hbm ∧ t.plane = s.plane := by
  unfold cqPosted
  rw [cqSent_eq_emitAll]
  exact ⟨emitAll_out _ _, ⟨_, cring_setCring_self _ _ _⟩, emitAll_hbm _ _, (emitAll_units _ _).plane⟩

theorem exec_cqWrite_eq (n : BitVec 4) (s : State) : exec (.cqWrite n) s = .next (s.cqWrite n.toNat) := rfl

theorem exec_cqWrite {s : State} {n : BitVec 4} (hen : s.flag (HIF_CQ_BASE.EN n.toNat) = true) (hm : s.mastering = true)
    (hr : (s.cring n.toNat).reread = false) (h0 : min (s.cring n.toNat).held.length (s.cqRoom n.toNat) ≠ 0) :
    let m := min (s.cring n.toNat).held.length (s.cqRoom n.toNat)
    ∃ (t : State) (x : List Output), exec (.cqWrite n) s = .next t ∧
      t.out = s.out ++ s.cqOutputs n.toNat m ++ x ∧ (x = [] ∨ x = [.msix n.toNat]) ∧
      (t.cring n.toNat).held = (s.cring n.toNat).held.drop m ∧
      (t.cring n.toNat).tail = ((s.cring n.toNat).tail + m) % s.cqSize n.toNat ∧
      (t.cring n.toNat).head = (s.cring n.toNat).head ∧ t.hbm = s.hbm ∧ t.plane = s.plane := by
  intro m
  obtain ⟨hout, ⟨now, hring⟩, hhbm, hplane⟩ := s.cqPosted_frame n.toNat m
  rw [exec_cqWrite_eq, cqWrite_posted hen hm hr h0]
  by_cases hdue : (s.cqPosted n.toNat m).cqDue n.toNat = true
  · obtain ⟨hring2, ⟨x, hout2, hx⟩, hhbm2, hplane2⟩ := (s.cqPosted n.toNat m).cqSignal_frame n.toNat
    refine ⟨_, x, congrArg _ (if_pos hdue), by rw [hout2, hout], hx, ?_, ?_, ?_, hhbm2.trans hhbm, hplane2.trans hplane⟩ <;>
    rw [hring2, hring] <;> rfl
  · refine ⟨_, [], congrArg _ (if_neg hdue), by rw [hout, List.append_nil], .inl rfl, ?_, ?_, ?_, hhbm, hplane⟩ <;>
    rw [hring] <;> rfl

theorem exec_cqModTimer_due {s : State} {n : BitVec 4} (h0 : (s.cring n.toNat).unsig ≠ 0)
    (ht : (s.cring n.toNat).oldest + s.fld (HIF_CQ_MOD.TIME n.toNat) ≤ s.time.ticks) :
    exec (.cqModTimer n) s = .next (s.cqSignal n.toNat) := if_pos ⟨h0, ht⟩

theorem exec_cqModTimer_early {s : State} {n : BitVec 4}
    (h : (s.cring n.toNat).unsig = 0 ∨ s.time.ticks < (s.cring n.toNat).oldest + s.fld (HIF_CQ_MOD.TIME n.toNat)) :
    exec (.cqModTimer n) s = .next s := if_neg (by omega)

/-! ## Ring bases -/

theorem exec_ringBaseWrite_sq (v : BitVec 64) (s : State) : exec (.ringBaseWrite none v) s = .next (s.sqBaseWrite v) := rfl

theorem exec_ringBaseWrite_cq (n : BitVec 4) (v : BitVec 64) (s : State) :
    exec (.ringBaseWrite (some n) v) s = .next (s.cqBaseWrite n.toNat v) := rfl

/-- A field that takes a number of its own width holds it. -/
theorem fld_setFld_getBits (s : State) (f : Fld) (v : BitVec 64) (h : f.hi < 64) (hlo : f.lo ≤ f.hi) :
    (s.setFld f (getBits v f.hi f.lo)).fld f = getBits v f.hi f.lo :=
  (fld_setFld_self s f _ h hlo).trans (Nat.mod_eq_of_lt (getBits_lt v f.hi f.lo))

/-- A write of HIF_SQ_BASE while the submission ring is enabled is refused (R621). -/
theorem sqBaseWrite_refused {s : State} (h : s.flag HIF_CTRL.SQ_EN = true) (v : BitVec 64) :
    s.sqBaseWrite v = s.setFlag HIF_STATUS.CFG_REFUSED := if_pos h

/-- The registers as a taken write of HIF_SQ_BASE leaves them (R623). -/
theorem sqBaseWrite_taken {s : State} (h : s.flag HIF_CTRL.SQ_EN = false) (v : BitVec 64) :
    let t := s.sqBaseWrite v
    t.fld HIF_SQ_BASE.BASE = getBits v 63 12 ∧
    t.fld HIF_SQ_BASE.SIZE_LOG2 = (if 4 ≤ getBits v 3 0 then getBits v 3 0 else s.fld HIF_SQ_BASE.SIZE_LOG2) ∧
    t.plane = s.plane := by
  let b := s.setFld HIF_SQ_BASE.BASE (getBits v 63 12)
  have hwrite : s.sqBaseWrite v = if 4 ≤ getBits v 3 0 then b.setFld HIF_SQ_BASE.SIZE_LOG2 (getBits v 3 0) else b :=
    if_neg (Bool.eq_false_iff.1 h)
  have hbase : b.fld HIF_SQ_BASE.BASE = getBits v 63 12 :=
    fld_setFld_getBits s HIF_SQ_BASE.BASE v (by decide) (by decide)
  have hsize : b.fld HIF_SQ_BASE.SIZE_LOG2 = s.fld HIF_SQ_BASE.SIZE_LOG2 :=
    fld_setFld_apart s _ _ _ rfl (by decide) (by decide) (.inr (by decide))
  rw [hwrite]
  by_cases hv : 4 ≤ getBits v 3 0
  · simp only [if_pos hv]
    have hkept := fld_setFld_apart b HIF_SQ_BASE.SIZE_LOG2 HIF_SQ_BASE.BASE (getBits v 3 0) rfl (by decide) (by decide)
      (.inl (by decide))
    exact ⟨hkept.trans hbase, fld_setFld_getBits b HIF_SQ_BASE.SIZE_LOG2 v (by decide) (by decide), rfl⟩
  · simp only [if_neg hv]
    exact ⟨hbase, hsize, rfl⟩

/-- SIZE_LOG2 of a completion ring as a write of its base leaves it: a reserved encoding keeps the old one. -/
def cqSizeWritten (s : State) (n : Nat) (v : BitVec 64) : Nat :=
  if 4 ≤ getBits v 3 0 then getBits v 3 0 else s.fld (HIF_CQ_BASE.SIZE_LOG2 n)

theorem cqSizeWritten_lt (s : State) (n : Nat) (v : BitVec 64) : s.cqSizeWritten n v < 2 ^ 4 := by
  unfold cqSizeWritten
  split
  · exact getBits_lt v 3 0
  · exact getBits_lt _ 3 0

/-- A write of HIF_CQ_n_BASE that leaves an enabled ring enabled and moves or resizes it. -/
def CqTurned (s : State) (n : Nat) (v : BitVec 64) : Prop :=
  s.flag (HIF_CQ_BASE.EN n) = true ∧ v.getLsbD 4 = true ∧
  (s.fld (HIF_CQ_BASE.BASE n) ≠ getBits v 63 12 ∨
    (4 ≤ getBits v 3 0 ∧ s.fld (HIF_CQ_BASE.SIZE_LOG2 n) ≠ getBits v 3 0))

theorem cqSize_moves_iff (s : State) (n : Nat) (v : BitVec 64) :
    (4 ≤ getBits v 3 0 ∧ s.fld (HIF_CQ_BASE.SIZE_LOG2 n) ≠ getBits v 3 0) ↔
      s.fld (HIF_CQ_BASE.SIZE_LOG2 n) ≠ s.cqSizeWritten n v := by
  unfold cqSizeWritten
  split <;> simp [*]

/-- What a write of HIF_CQ_n_BASE does (R604, R606, R621, R623). -/
theorem cqBaseWrite_eq (s : State) (n : Nat) (v : BitVec 64) :
    s.cqBaseWrite n v =
      if s.flag (HIF_CQ_BASE.EN n) && v.getLsbD 4 && decide (s.fld (HIF_CQ_BASE.BASE n) ≠ getBits v 63 12 ∨
          s.fld (HIF_CQ_BASE.SIZE_LOG2 n) ≠ s.cqSizeWritten n v) then s.setFlag HIF_STATUS.CFG_REFUSED
      else ((s.setFld (HIF_CQ_BASE.BASE n) (getBits v 63 12)).setFld (HIF_CQ_BASE.SIZE_LOG2 n)
        (s.cqSizeWritten n v)).setFld (HIF_CQ_BASE.EN n) (getBits v 4 4) := rfl

/-- A write that moves an enabled ring is refused (R621). -/
theorem cqBaseWrite_refused {s : State} {n : Nat} {v : BitVec 64} (h : CqTurned s n v) :
    s.cqBaseWrite n v = s.setFlag HIF_STATUS.CFG_REFUSED := by
  obtain ⟨hen, hv, hmoves⟩ := h
  rw [cqSize_moves_iff] at hmoves
  rw [cqBaseWrite_eq, hen, hv, decide_eq_true hmoves]
  rfl

theorem cqBaseWrite_stored {s : State} {n : Nat} {v : BitVec 64} (h : ¬ CqTurned s n v) :
    s.cqBaseWrite n v = ((s.setFld (HIF_CQ_BASE.BASE n) (getBits v 63 12)).setFld (HIF_CQ_BASE.SIZE_LOG2 n)
      (s.cqSizeWritten n v)).setFld (HIF_CQ_BASE.EN n) (getBits v 4 4) := by
  unfold CqTurned at h
  rw [cqSize_moves_iff] at h
  rw [cqBaseWrite_eq]
  refine if_neg fun hif => h ?_
  simpa only [Bool.and_eq_true, decide_eq_true_eq, and_assoc] using hif

/-- The fields of HIF_CQ_n_BASE lie apart, so that each holds what is stored in it. -/
theorem cqBaseWrite_taken {s : State} {n : Nat} {v : BitVec 64} (h : ¬ CqTurned s n v) :
    let t := s.cqBaseWrite n v
    t.fld (HIF_CQ_BASE.BASE n) = getBits v 63 12 ∧ t.flag (HIF_CQ_BASE.EN n) = v.getLsbD 4 ∧
    t.fld (HIF_CQ_BASE.SIZE_LOG2 n) = s.cqSizeWritten n v := by
  rw [cqBaseWrite_stored h]
  let b := s.setFld (HIF_CQ_BASE.BASE n) (getBits v 63 12)
  let z := b.setFld (HIF_CQ_BASE.SIZE_LOG2 n) (s.cqSizeWritten n v)
  let t := z.setFld (HIF_CQ_BASE.EN n) (getBits v 4 4)
  have h3 : 3 < 64 := by decide
  have h4 : 4 < 64 := by decide
  have hbase : b.fld (HIF_CQ_BASE.BASE n) = getBits v 63 12 :=
    fld_setFld_getBits s (HIF_CQ_BASE.BASE n) v (show 63 < 64 by decide) (show 12 ≤ 63 by decide)
  have hbaseSize : z.fld (HIF_CQ_BASE.BASE n) = b.fld (HIF_CQ_BASE.BASE n) :=
    fld_setFld_apart b (HIF_CQ_BASE.SIZE_LOG2 n) (HIF_CQ_BASE.BASE n) _ rfl h3 (Nat.zero_le 3) (.inl (show 3 < 12 by decide))
  have hbaseEn : t.fld (HIF_CQ_BASE.BASE n) = z.fld (HIF_CQ_BASE.BASE n) :=
    fld_setFld_apart z (HIF_CQ_BASE.EN n) (HIF_CQ_BASE.BASE n) _ rfl h4 (Nat.le_refl 4) (.inl (show 4 < 12 by decide))
  have hsize : z.fld (HIF_CQ_BASE.SIZE_LOG2 n) = s.cqSizeWritten n v :=
    (fld_setFld_self b _ _ h3 (Nat.zero_le 3)).trans (Nat.mod_eq_of_lt (s.cqSizeWritten_lt n v))
  have hsizeEn : t.fld (HIF_CQ_BASE.SIZE_LOG2 n) = z.fld (HIF_CQ_BASE.SIZE_LOG2 n) :=
    fld_setFld_apart z (HIF_CQ_BASE.EN n) (HIF_CQ_BASE.SIZE_LOG2 n) _ rfl h4 (Nat.le_refl 4) (.inr (show 3 < 4 by decide))
  have hen : t.fld (HIF_CQ_BASE.EN n) = (v.getLsbD 4).toNat :=
    (fld_setFld_getBits z (HIF_CQ_BASE.EN n) v h4 (Nat.le_refl 4)).trans (getBits_bit v 4)
  refine ⟨hbaseEn.trans (hbaseSize.trans hbase), ?_, hsizeEn.trans hsize⟩
  rw [flag, hen]
  cases v.getLsbD 4 <;> rfl

/-- A refused write sets CFG_REFUSED. -/
theorem flag_cfgRefused (s : State) : (s.setFlag HIF_STATUS.CFG_REFUSED).flag HIF_STATUS.CFG_REFUSED = true :=
  flag_setFlag_self s _ (by decide) (by decide)

/-! ## PTM -/

theorem exec_ptmDialog (v : BitVec 64) (s : State) : exec (.ptmDialog v) s = .next (s.ptmDone v) := rfl

/-- The state after a completed PTM dialog (R610). -/
def ptmLatched (s : State) (master : BitVec 64) : State :=
  let t := ((s.setReg ALM_PTM.off s.time.almanac).setReg HIF_PTM_MASTER.off master).incWrap HIF_PTM_CNT.COUNT 1
  { t with time := { t.time with ptmAt := some (s.time.almanac, s.time.ticks) } }

theorem ptmDone_eq (s : State) (master : BitVec 64) :
    s.ptmDone master = if !(s.cfgRead 0x170).getLsbD 0 || !s.ptmDue then s else s.ptmLatched master := rfl

theorem ptmLatched_frame (s : State) (master : BitVec 64) :
    let t := s.ptmLatched master
    t.reg ALM_PTM.off = s.time.almanac ∧ t.time.ptmAt = some (s.time.almanac, s.time.ticks) ∧
    t.reg HIF_PTM_MASTER.off = master ∧ t.fld HIF_PTM_CNT.COUNT = (s.fld HIF_PTM_CNT.COUNT + 1) % 2 ^ 32 ∧
    t.plane = s.plane ∧ t.hbm = s.hbm := by
  let a := s.setReg ALM_PTM.off s.time.almanac
  let m := a.setReg HIF_PTM_MASTER.off master
  have hreg : ∀ r, (s.ptmLatched master).reg r = (m.incWrap HIF_PTM_CNT.COUNT 1).reg r := fun _ => rfl
  have hcount : m.fld HIF_PTM_CNT.COUNT = s.fld HIF_PTM_CNT.COUNT := by
    have : m.reg HIF_PTM_CNT.off = s.reg HIF_PTM_CNT.off :=
      (reg_setReg_of_ne a master (by decide)).trans (reg_setReg_of_ne s _ (by decide))
    exact congrArg (getBits · 31 0) this
  refine ⟨?_, rfl, ?_, ?_, rfl, rfl⟩
  · rw [hreg]
    exact (reg_setFld_of_ne m _ _ (by decide)).trans ((reg_setReg_of_ne a master (by decide)).trans (reg_setReg_self s _ _))
  · rw [hreg]
    exact (reg_setFld_of_ne m _ _ (by decide)).trans (reg_setReg_self a _ _)
  · exact (fld_setFld_self m HIF_PTM_CNT.COUNT _ (by decide) (by decide)).trans (by rw [hcount]; rfl)

end State

/-- The completion rings, their base registers, and the PTM dialogs. -/
theorem ringsAndPtm : RingsAndPtm := by
  unfold RingsAndPtm
  intro n v s
  refine ⟨fun hen hm hr h0 => ?write, fun h => ?noWrite, fun h0 ht => ?timer, fun h => State.exec_cqModTimer_early h,
    fun h => ?sqRefused, fun h => ⟨_, State.exec_ringBaseWrite_sq v s, State.sqBaseWrite_taken h v⟩,
    ⟨fun h => ?cqRefused, fun h => ⟨_, State.exec_ringBaseWrite_cq n v s, State.cqBaseWrite_taken h⟩⟩,
    fun hc hd => ?dialog, fun h => ?noDialog⟩
  case write =>
    obtain ⟨t, x, hexec, hout, hrest⟩ := State.exec_cqWrite hen hm hr h0
    exact ⟨t, x, hexec, hout.trans (by rw [State.cqOutputs, ← List.append_assoc]; rfl), hrest⟩
  case noWrite => rw [State.exec_cqWrite_eq, State.cqWrite_idle h]
  case timer =>
    obtain ⟨hring, -, hhbm, -⟩ := s.cqSignal_frame n.toNat
    refine ⟨_, State.exec_cqModTimer_due h0 ht, ?_, ?_, ?_, hhbm⟩ <;> rw [hring]
  case sqRefused =>
    rw [State.exec_ringBaseWrite_sq, State.sqBaseWrite_refused h]
    exact ⟨_, rfl, s.flag_cfgRefused, State.reg_setFlag_of_ne s _ (by decide), rfl⟩
  case cqRefused =>
    rw [State.exec_ringBaseWrite_cq, State.cqBaseWrite_refused h]
    refine ⟨_, rfl, s.flag_cfgRefused, State.reg_setFlag_of_ne s _ ?_⟩
    simp only [HIF_CQ_BASE.off, HIF_STATUS.CFG_REFUSED, HIF_STATUS.off]
    omega
  case dialog =>
    rw [State.exec_ptmDialog, State.ptmDone_eq, if_neg (by simp [hc, hd])]
    exact ⟨_, rfl, s.ptmLatched_frame v⟩
  case noDialog =>
    rw [State.exec_ptmDialog, State.ptmDone_eq, if_pos]
    rcases h with h | h
    · rw [h]
      rfl
    · rw [h, Bool.not_false, Bool.or_true]

/-- Settles O52: the writes of registers, the accesses of the windows, and the rings with PTM, each by its own lemmas. -/
theorem hostAccesses : Obligations.HostAccesses := by
  unfold Obligations.HostAccesses
  exact ⟨registerWrites, windowAccesses, ringsAndPtm⟩

end Sys2Proof.Machine
end

section
/-! PROOFS. What interrupts, fault entries, messages and force-stops leave of time, power, bring-up and the hampers. -/

namespace Sys2Proof.Machine

/-! ## Fields of registers -/

namespace State

/-- Fields and flags are those of the registers. -/
theorem reg_congr {s t : State} (h : t.bar0 = s.bar0) (r : Nat) : t.reg r = s.reg r := by rw [reg, reg, h]
theorem fld_congr {s t : State} {f : Fld} (h : t.reg f.off = s.reg f.off) : t.fld f = s.fld f := by rw [fld, fld, h]
theorem flag_congr {s t : State} {f : Fld} (h : t.reg f.off = s.reg f.off) : t.flag f = s.flag f := by rw [flag, flag, fld_congr h]

/-- A field holds a number below its width's bound. -/
theorem fld_lt (s : State) (f : Fld) : s.fld f < 2 ^ (f.hi + 1 - f.lo) := getBits_lt _ _ _

theorem flag_eq_true {s : State} {f : Fld} : s.flag f = true ↔ s.fld f ≠ 0 := by simp [flag]

/-! ## A frame -/

/-- The registers of time, clocks, power and the lifeguard, and those of bring-up's and the host interface's state. -/
def controlReg (r : Nat) : Bool :=
  r == BOOT_STATE.off || r == HIF_STATUS.off || r == HIF_POD_REFUSED.off || (0x1000 ≤ r && r < 0x1100) ||
  (0xC00000 ≤ r && r < 0xE00000)

theorem controlReg_eq_false {r : Nat} (hboot : r ≠ BOOT_STATE.off) (hif : r < 0x100000 ∨ 0x101000 ≤ r) (htime : r < 0x1000 ∨ 0x1100 ≤ r)
    (hpower : r < 0xC00000 ∨ 0xE00000 ≤ r) : controlReg r = false := by
  have hstatus : r ≠ HIF_STATUS.off := by simp only [HIF_STATUS.off]; omega
  have hrefused : r ≠ HIF_POD_REFUSED.off := by simp only [HIF_POD_REFUSED.off]; omega
  simp only [controlReg, Bool.or_eq_false_iff, beq_eq_false_iff_ne, Bool.and_eq_false_iff, decide_eq_false_iff_not]
  omega

/-- Time, power, bring-up, the hampers, and the registers of the first three are the same. -/
structure KeepsControl (s t : State) : Prop where
  time : t.time = s.time
  power : t.power = s.power
  boot : t.boot = s.boot
  dflt : t.plane.hamperDflt = s.plane.hamperDflt
  hampers : t.plane.hampers = s.plane.hampers
  launch : t.plane.launch = s.plane.launch
  regs : ∀ r, controlReg r = true → t.reg r = s.reg r

namespace KeepsControl

variable {s t u : State}

theorem refl (s : State) : KeepsControl s s := ⟨rfl, rfl, rfl, rfl, rfl, rfl, fun _ _ => rfl⟩

theorem trans (h : KeepsControl s t) (g : KeepsControl t u) : KeepsControl s u :=
  ⟨g.time.trans h.time, g.power.trans h.power, g.boot.trans h.boot, g.dflt.trans h.dflt, g.hampers.trans h.hampers,
    g.launch.trans h.launch, fun r hr => (g.regs r hr).trans (h.regs r hr)⟩

/-- A fold keeps what each of its steps keeps. -/
theorem foldl {β : Type} {f : State → β → State} {xs : List β} (hf : ∀ s, ∀ b ∈ xs, KeepsControl s (f s b)) (s : State) :
    KeepsControl s (xs.foldl f s) := by
  induction xs generalizing s with
  | nil => exact refl s
  | cons x xs ih =>
    exact (hf s x (List.mem_cons_self ..)).trans (ih (fun s b hb => hf s b (List.mem_cons_of_mem _ hb)) _)

/-- An operation that leaves the units and the registers named. -/
theorem of_units (h : SameUnits s t) (hr : ∀ r, controlReg r = true → t.reg r = s.reg r) : KeepsControl s t :=
  ⟨h.time, h.power, h.boot, by rw [h.plane], by rw [h.plane], by rw [h.plane], hr⟩

/-- A change of other units alone. -/
theorem of_bar0 (htime : t.time = s.time) (hpower : t.power = s.power) (hboot : t.boot = s.boot)
    (hdflt : t.plane.hamperDflt = s.plane.hamperDflt) (hhampers : t.plane.hampers = s.plane.hampers)
    (hlaunch : t.plane.launch = s.plane.launch) (hbar0 : t.bar0 = s.bar0) : KeepsControl s t :=
  ⟨htime, hpower, hboot, hdflt, hhampers, hlaunch, fun r _ => reg_congr hbar0 r⟩

theorem fld (h : KeepsControl s t) {f : Fld} (hf : controlReg f.off = true) : t.fld f = s.fld f := fld_congr (h.regs _ hf)
theorem flag (h : KeepsControl s t) {f : Fld} (hf : controlReg f.off = true) : t.flag f = s.flag f := flag_congr (h.regs _ hf)

theorem hamper (h : KeepsControl s t) (k : HamperId) : t.hamper k = s.hamper k := by
  rw [State.hamper, State.hamper, h.dflt, h.hampers]

theorem anyHamper (h : KeepsControl s t) (p : Hamper → Bool) : t.anyHamper p = s.anyHamper p := by
  rw [State.anyHamper, State.anyHamper, h.dflt, h.hampers]

end KeepsControl

/-- A register that is none of time, power or bring-up may change. -/
theorem setReg_keepsControl (s : State) {off : Nat} (h : controlReg off = false) (v : BitVec 64) : KeepsControl s (s.setReg off v) :=
  .of_units (setReg_units s off v) fun r hr => reg_setReg_of_ne s v (by rintro rfl; simp [h] at hr)

theorem setFld_keepsControl (s : State) {f : Fld} (h : controlReg f.off = false) (n : Nat) : KeepsControl s (s.setFld f n) :=
  setReg_keepsControl s h _

theorem noteSet_keepsControl (s : State) (off : Nat) (bits : BitVec 64) : KeepsControl s (s.noteSet off bits) :=
  .of_bar0 rfl rfl rfl rfl rfl rfl rfl

theorem setFlag_keepsControl (s : State) {f : Fld} (h : controlReg f.off = false) : KeepsControl s (s.setFlag f) :=
  (noteSet_keepsControl s f.off _).trans (setFld_keepsControl _ h 1)

theorem setCore_keepsControl (s : State) (c : CoreId) (k : Core) : KeepsControl s (s.setCore c k) :=
  .of_bar0 rfl rfl rfl rfl rfl rfl rfl

theorem setGrove_keepsControl (s : State) (g : GroveId) (k : Grove) : KeepsControl s (s.setGrove g k) :=
  .of_bar0 rfl rfl rfl rfl rfl rfl rfl

/-! ## Interrupts and fault entries -/

theorem irqEvt_keepsControl (s : State) (k : Nat) : KeepsControl s (s.irqEvt k) :=
  .of_units (irqEvt_units s k) fun r hr =>
    irqEvt_reg s k (by rintro rfl; revert hr; decide) (by rintro rfl; revert hr; decide)

/-- The registers that a fault entry may write. -/
def faultReg (r : Nat) : Bool := (0x2000 ≤ r && r < 0x2060) || r == HIF_IRQ_EVT.off || r == 0x104400

/-- A fold leaves a register that each of its steps leaves. -/
theorem foldl_reg {β : Type} {f : State → β → State} {xs : List β} {r : Nat} (hf : ∀ s, ∀ b ∈ xs, (f s b).reg r = s.reg r)
    (s : State) : (xs.foldl f s).reg r = s.reg r := by
  induction xs generalizing s with
  | nil => rfl
  | cons x xs ih =>
    rw [List.foldl_cons, ih (fun s b hb => hf s b (List.mem_cons_of_mem _ hb)), hf s x (List.mem_cons_self ..)]

theorem copyEntry_reg (s : State) {off : Nat → Nat} {r : Nat} (h : ∀ w < 4, r ≠ off w) (bs : List Byte) :
    (s.copyEntry off bs).reg r = s.reg r :=
  foldl_reg (fun s w hw => reg_setReg_of_ne s _ (h w (List.mem_range.1 hw))) s

theorem faultRing_reg (s : State) (bs : List Byte) {r : Nat} (hstat : r ≠ FAULT_STAT.off) (hpos : r ≠ FAULT_POS.off) :
    (s.faultRing bs).reg r = s.reg r := by
  unfold faultRing
  dsimp only
  split
  · split
    · exact reg_setFld_of_ne _ _ _ hstat
    · exact reg_setFld_of_ne _ _ _ hpos
  · rfl

theorem faultEntry_reg (s : State) (cls src index code detail : Nat) {r : Nat} (h : faultReg r = false) :
    (s.faultEntry cls src index code detail).reg r = s.reg r := by
  simp only [faultReg, Bool.or_eq_false_iff, beq_eq_false_iff_ne, Bool.and_eq_false_iff, decide_eq_false_iff_not] at h
  obtain ⟨⟨hfault, hevt⟩, hmsix⟩ := h
  have hstat : r ≠ FAULT_STAT.off := by simp only [FAULT_STAT.off]; omega
  have hpos : r ≠ FAULT_POS.off := by simp only [FAULT_POS.off]; omega
  have hlast : ∀ w < 4, r ≠ FAULT_LAST.off w := fun w hw => by simp only [FAULT_LAST.off]; omega
  have hfatal : ∀ w < 4, r ≠ FAULT_FATAL.off w := fun w hw => by simp only [FAULT_FATAL.off]; omega
  have hring : ∀ (u : State) (bs cs : List Byte),
      (((u.faultRing bs).incWrap FAULT_STAT.SEQ 1).copyEntry FAULT_LAST.off cs).reg r = u.reg r := fun u bs cs => by
    rw [copyEntry_reg _ hlast, incWrap, reg_setFld_of_ne _ _ _ hstat, faultRing_reg _ _ hstat hpos]
  unfold faultEntry
  dsimp only
  rw [signal_reg _ _ hmsix, reg_setFlag_of_ne _ _ hevt]
  split
  · rw [reg_setFlag_of_ne _ _ hstat, copyEntry_reg _ hfatal, hring]
  · exact hring _ _ _

theorem faultReg_of_controlReg {r : Nat} (h : controlReg r = true) : faultReg r = false := by
  have hcases : r = BOOT_STATE.off ∨ r = HIF_STATUS.off ∨ r = HIF_POD_REFUSED.off ∨ (0x1000 ≤ r ∧ r < 0x1100) ∨
      (0xC00000 ≤ r ∧ r < 0xE00000) := by
    simpa [controlReg, or_assoc] using h
  simp only [faultReg, Bool.or_eq_false_iff, beq_eq_false_iff_ne, Bool.and_eq_false_iff, decide_eq_false_iff_not,
    HIF_IRQ_EVT.off]
  simp only [BOOT_STATE.off, HIF_STATUS.off, HIF_POD_REFUSED.off] at hcases
  omega

theorem faultEntry_keepsControl (s : State) (cls src index code detail : Nat) :
    KeepsControl s (s.faultEntry cls src index code detail) :=
  .of_units (faultEntry_units s cls src index code detail) fun _ hr => faultEntry_reg s _ _ _ _ _ (faultReg_of_controlReg hr)

/-! ## Abort requests -/

/-- A request for an abort leaves every register but CP_ABORT_AT. -/
theorem abortRequest_keepsControl (s : State) (a : BitVec 64) (force : Bool) : KeepsControl s (s.abortRequest a force) := by
  unfold abortRequest
  split
  · exact .refl s
  · split
    · split
      · exact .of_bar0 rfl rfl rfl rfl rfl rfl rfl
      · exact .refl s
    · exact (setReg_keepsControl s (by decide) a).trans (.of_bar0 rfl rfl rfl rfl rfl rfl rfl)

theorem stepFatal_keepsControl (s : State) (src index code detail : Nat) :
    KeepsControl s (s.stepFatal src index code detail) :=
  (faultEntry_keepsControl s _ _ _ _ _).trans (abortRequest_keepsControl _ _ _)

/-- A forced request leaves a pending one with force-stop, where a hamper runs. -/
theorem abortRequest_force {s : State} (h : s.anyHamper Hamper.runs = true) (a : BitVec 64) :
    ∃ r, (s.abortRequest a true).plane.abort = some r ∧ r.force = true := by
  rw [abortRequest, h]
  cases hr : s.plane.abort with
  | none => exact ⟨⟨a, true⟩, rfl, rfl⟩
  | some r => exact ⟨{ r with force := true }, rfl, rfl⟩

/-! ## Messages to the pod -/

theorem sendOnPort_keepsControl (s : State) (p : Nat) (m : SvcMsg) : KeepsControl s (s.sendOnPort p m) :=
  .of_bar0 rfl rfl rfl rfl rfl rfl rfl

theorem sendOr_keepsControl (s : State) (w : Option Nat) (p : Nat) (m : SvcMsg) : KeepsControl s (s.sendOr w p m) := by
  cases w with
  | none => exact (setFld_keepsControl s (by decide) _).trans (faultEntry_keepsControl _ _ _ _ _ _)
  | some q => exact sendOnPort_keepsControl s q m

theorem sendLink_keepsControl (s : State) (p type : Nat) (arg : BitVec 64) (bs : List Byte) :
    KeepsControl s (s.sendLink p type arg bs) := sendOr_keepsControl s _ _ _

theorem sendTo_keepsControl (s : State) (dst type : Nat) (arg : BitVec 64) (bs : List Byte) :
    KeepsControl s (s.sendTo dst type arg bs) := sendOr_keepsControl s _ _ _

theorem sendAll_keepsControl (s : State) (type : Nat) (arg : BitVec 64) (bs : List Byte) :
    KeepsControl s (s.sendAll type arg bs) := by
  unfold sendAll
  split
  · exact .refl s
  · exact .foldl (fun s d _ => sendTo_keepsControl s d _ _ _) s

theorem sendScale_keepsControl (s : State) (d : Nat) : KeepsControl s (s.sendScale d) :=
  .foldl (fun s p _ => sendLink_keepsControl s p _ _ _) s

/-! ## All hampers at once -/

theorem smGet_map {α β : Type} (f : α → β) (d : α) (m : SMap α) (k : Nat) :
    smGet (f d) (m.map fun e => (e.1, f e.2)) k = f (smGet d m k) := by
  induction m with
  | nil => rfl
  | cons e m ih =>
    simp only [List.map_cons, smGet, ih]
    split
    · rfl
    · split <;> rfl

/-- A change of every hamper is one of each. -/
@[simp] theorem hamper_mapHampers (s : State) (f : Hamper → Hamper) (h : HamperId) :
    (s.mapHampers f).hamper h = f (s.hamper h) := smGet_map f _ _ _

end State
end Sys2Proof.Machine
end

section
/-! PROOFS. Requests for an abort, and what a hamper does on one. -/

namespace Sys2Proof.Machine

namespace State

/-- The end of a request leaves a hamper as it was but for the note that it has acted. -/
theorem hamper_abortSettle (s : State) (h : HamperId) : ∃ a, s.abortSettle.hamper h = { s.hamper h with acted := a } := by
  unfold abortSettle
  split
  · exact ⟨(s.hamper h).acted, rfl⟩
  · split
    · exact ⟨(s.hamper h).acted, rfl⟩
    · refine ⟨false, ?_⟩
      rw [(irqEvt_keepsControl _ _).hamper, (faultEntry_keepsControl _ _ _ _ _ _).hamper, hamper_mapHampers]
      rfl

/-- `k'` is the hamper `k` after its stop or vectored action on a request (R199). -/
structure ActedOn (k : Hamper) (force : Bool) (k' : Hamper) : Prop where
  hold : k'.hold = none
  iq : k'.iq = []
  loops : k'.loops = []
  fault : k'.fault = k.fault ||| BitVec.ofNat 64 (2 ^ sfAbortTaken)
  holdBase : k'.holdBase = k.holdBase
  holdPos : k'.holdPos = k.holdPos
  stop : (force || !k.abortCfg.getLsbD 25) = true → k'.state = stStopped ∧ k'.calls = []
  vector : (force || !k.abortCfg.getLsbD 25) = false → k'.state = stAbort ∧ k'.calls = [k.abortCfg.extractLsb' 32 25] ∧
    k'.pc = BitVec.ofNat 25 (2 ^ 24 + getBits k.abortCfg 12 0)

/-- The action writes the hamper, and then the request may be settled. -/
theorem abortAct_eq (s : State) (h : HamperId) (force : Bool) :
    ∃ k', s.abortAct h force = (s.setHamper h k').abortSettle ∧ ActedOn (s.hamper h) force k' := by
  refine ⟨_, rfl, ?_⟩
  cases hstop : force || !(s.hamper h).abortCfg.getLsbD 25 with
  | true =>
    rw [if_pos (by exact hstop)]
    exact ⟨rfl, rfl, rfl, rfl, rfl, rfl, fun _ => ⟨rfl, rfl⟩, fun h => nomatch hstop.symm.trans h⟩
  | false =>
    rw [if_neg (by exact Bool.eq_false_iff.1 hstop)]
    exact ⟨rfl, rfl, rfl, rfl, rfl, rfl, fun h => (nomatch hstop.symm.trans h), fun _ => ⟨rfl, rfl, rfl⟩⟩

theorem hamper_abortAct (s : State) (h : HamperId) (force : Bool) :
    ActedOn (s.hamper h) force ((s.abortAct h force).hamper h) := by
  obtain ⟨k', hact, hk'⟩ := abortAct_eq s h force
  obtain ⟨a, ha⟩ := hamper_abortSettle (s.setHamper h k') h
  rw [hact, ha, setHamper_hamper_self]
  obtain ⟨hhold, hiq, hloops, hfault, hbase, hpos, hstop, hvec⟩ := hk'
  exact ⟨hhold, hiq, hloops, hfault, hbase, hpos, hstop, hvec⟩

/-- Without a running hamper there is no request (R196). -/
theorem abortRequest_of_not_runs {s : State} (h : s.anyHamper Hamper.runs = false) (a : BitVec 64) (force : Bool) :
    s.abortRequest a force = s := by
  simp [abortRequest, h]

/-- The first request is kept with its instant. -/
theorem abortRequest_first {s : State} (h : s.anyHamper Hamper.runs = true) (hn : s.plane.abort = none) (a : BitVec 64)
    (force : Bool) : s.abortRequest a force =
      { s.setReg CP_ABORT_AT.off a with plane := { s.plane with abort := some ⟨a, force⟩ } } := by
  simp [abortRequest, h, hn]

/-- A later one only adds force-stop. -/
theorem abortRequest_later {s : State} (h : s.anyHamper Hamper.runs = true) {r : AbortReq} (hr : s.plane.abort = some r)
    (a : BitVec 64) (force : Bool) :
    (s.abortRequest a force).plane.abort = some { r with force := r.force || force } := by
  rw [abortRequest, h, hr]
  cases force
  · simpa using hr
  · simp

/-- The instant of a request: the one named, unless it has passed. -/
theorem exec_cpAbortReq (useAt force : Bool) (s : State) :
    let named := s.reg CP_ABORT_AT.off
    exec (.cpAbortReq useAt force) s = .next (s.abortRequest
      (if useAt && !(named < s.time.almanac) then named else s.time.almanac) force) := by
  intro named
  have : exec (.cpAbortReq useAt force) s =
      .next (s.abortRequest (if useAt then (if named < s.time.almanac then s.time.almanac else named) else s.time.almanac) force) :=
    rfl
  rw [this]
  cases useAt
  · rfl
  · by_cases hn : named < s.time.almanac <;> simp [hn]

/-- A hamper acts at A + 64 on a request where it waited at a hold by then, and its grove cannot release. -/
theorem exec_abortAtHoldTimeout {s : State} {h : HamperId} {r : AbortReq} {w : HoldWait} (hr : s.plane.abort = some r)
    (hw : (s.hamper h).hold = some w) : exec (.abortAtHoldTimeout h) s =
      if (s.hamper h).owes && w.alm.toNat < r.at_.toNat + 64 && r.at_.toNat + 64 ≤ s.time.almanac.toNat &&
          !s.releaseDue (groveOfHamper h) then .next (s.abortAct h r.force) else .next s := by
  show execAbortAtHoldTimeout h s = _
  rw [execAbortAtHoldTimeout, hr, hw]

/-- A hamper whose grove can release does so, and acts on no request. -/
theorem exec_abortAtHoldTimeout_of_releaseDue {s : State} {h : HamperId} (hrel : s.releaseDue (groveOfHamper h) = true) :
    exec (.abortAtHoldTimeout h) s = .next s := by
  show execAbortAtHoldTimeout h s = _
  unfold execAbortAtHoldTimeout
  split
  · rw [hrel, Bool.not_true, Bool.and_false]
    rfl
  · rfl

end State

open State in
/-- Settles O24: the three cases of a request, and of a hamper at a hold the one in which it acts and those in which it does not. -/
theorem abortRequests : Obligations.AbortRequests := by
  unfold Obligations.AbortRequests
  intro useAt force h s at_ a
  have hreq := exec_cpAbortReq useAt force s
  refine ⟨fun hruns hnone => ?first, fun r hruns hr => ?later, fun hruns => ?noRun, fun r w hr hw howes halm hnow hrel => ?acts,
    fun r w hr hw halm => ?late, exec_abortAtHoldTimeout_of_releaseDue⟩
  case first =>
    refine ⟨_, hreq, ?_⟩
    rw [abortRequest_first hruns hnone]
    exact ⟨rfl, reg_setReg_self s _ _, rfl, rfl⟩
  case later => exact ⟨_, hreq, abortRequest_later hruns hr _ _⟩
  case noRun => rw [hreq, abortRequest_of_not_runs hruns]
  case acts =>
    refine ⟨s.abortAct h r.force, ?_, ?_⟩
    · rw [exec_abortAtHoldTimeout hr hw, howes, decide_eq_true halm, decide_eq_true hnow, hrel]
      rfl
    · have hact := hamper_abortAct s h r.force
      refine ⟨hact.hold, hact.iq, hact.loops, ?_, fun hs => hact.stop ?_, fun hf hcfg => hact.vector ?_⟩
      · rw [hact.fault]
        simp [sfAbortTaken]
      · rcases hs with hs | hs
        · rw [hs, Bool.true_or]
        · rw [hs, Bool.not_false, Bool.or_true]
      · rw [hf, hcfg]
        rfl
  case late =>
    rw [exec_abortAtHoldTimeout hr hw, decide_eq_false (Nat.not_lt.2 halm), Bool.and_false]
    rfl

end Sys2Proof.Machine
end

section
/-! PROOFS. Holds: what a hamper reads at one, and what it does. -/

namespace Sys2Proof.Machine

namespace State

/-! ## What a hold reads -/

/-- Time, registers, the pending request, the hampers and the groves' cycles are the same. -/
structure KeepsHolds (s t : State) : Prop where
  time : t.time = s.time
  bar0 : t.bar0 = s.bar0
  abort : t.plane.abort = s.plane.abort
  dflt : t.plane.hamperDflt = s.plane.hamperDflt
  hampers : t.plane.hampers = s.plane.hampers
  clock : ∀ g, (t.grove g).cycle = (s.grove g).cycle ∧ (t.grove g).gatedAt = (s.grove g).gatedAt

namespace KeepsHolds

variable {s t u : State}

theorem refl (s : State) : KeepsHolds s s := ⟨rfl, rfl, rfl, rfl, rfl, fun _ => ⟨rfl, rfl⟩⟩

theorem trans (h : KeepsHolds s t) (g : KeepsHolds t u) : KeepsHolds s u :=
  ⟨g.time.trans h.time, g.bar0.trans h.bar0, g.abort.trans h.abort, g.dflt.trans h.dflt, g.hampers.trans h.hampers,
    fun k => ⟨(g.clock k).1.trans (h.clock k).1, (g.clock k).2.trans (h.clock k).2⟩⟩

theorem of_meshOnly (h : MeshOnly s t) : KeepsHolds s t := by rw [h.eq]; exact ⟨rfl, rfl, rfl, rfl, rfl, fun _ => ⟨rfl, rfl⟩⟩

theorem hamper (h : KeepsHolds s t) (k : HamperId) : t.hamper k = s.hamper k := by
  rw [State.hamper, State.hamper, h.dflt, h.hampers]

end KeepsHolds

/-- A grove's cycle goes by its gates, the count of periods and what it has lost or stretched. -/
theorem cycle_congr {s t : State} (htime : t.time = s.time) (g : GroveId)
    (hgate : t.gated g = s.gated g) (hclock : (t.grove g).cycle = (s.grove g).cycle ∧ (t.grove g).gatedAt = (s.grove g).gatedAt) :
    t.cycle g = s.cycle g := by
  rw [cycle, cycle, periodOf, periodOf, hgate, htime, hclock.1, hclock.2]

theorem gated_congr {s t : State} (g : GroveId) (hfield : t.reg CLK_GATE_FIELD.off = s.reg CLK_GATE_FIELD.off)
    (hgrove : t.reg (CLK_GATE_GROVE.off (g.toNat / 64)) = s.reg (CLK_GATE_GROVE.off (g.toNat / 64))) :
    t.gated g = s.gated g := by
  rw [gated, gated, hfield, hgrove]

theorem KeepsHolds.periodOf {s t : State} (h : KeepsHolds s t) (g : GroveId) : t.periodOf g = s.periodOf g := by
  rw [State.periodOf, State.periodOf, gated_congr g (reg_congr h.bar0 _) (reg_congr h.bar0 _), h.time, (h.clock g).2]

theorem KeepsHolds.cycle {s t : State} (h : KeepsHolds s t) (g : GroveId) : t.cycle g = s.cycle g :=
  cycle_congr h.time g (gated_congr g (reg_congr h.bar0 _) (reg_congr h.bar0 _)) (h.clock g)

/-- A write of a register that gates no clock leaves the groves' cycles. -/
theorem setReg_cycle (s : State) {off : Nat} (h : off < 0xC00000) (v : BitVec 64) (g : GroveId) : (s.setReg off v).cycle g = s.cycle g := by
  have hfield : CLK_GATE_FIELD.off ≠ off := by simp only [CLK_GATE_FIELD.off]; omega
  have hgrove : CLK_GATE_GROVE.off (g.toNat / 64) ≠ off := by simp only [CLK_GATE_GROVE.off]; omega
  exact cycle_congr (s := s) (t := s.setReg off v) rfl g
    (gated_congr g (reg_setReg_of_ne s v hfield) (reg_setReg_of_ne s v hgrove)) ⟨rfl, rfl⟩

theorem setFlag_cycle (s : State) {f : Fld} (h : f.off < 0xC00000) (g : GroveId) : (s.setFlag f).cycle g = s.cycle g :=
  setReg_cycle (s.noteSet f.off _) h _ g

theorem KeepsHolds.scaleField {s t : State} (h : KeepsHolds s t) : t.scaleField = s.scaleField :=
  fld_congr (reg_congr h.bar0 _)

/-- A change of a grove that leaves what its cycle goes by. -/
theorem setGrove_keepsHolds (s : State) (g : GroveId) {k : Grove} (hcycle : k.cycle = (s.grove g).cycle)
    (hgated : k.gatedAt = (s.grove g).gatedAt) : KeepsHolds s (s.setGrove g k) := by
  refine ⟨rfl, rfl, rfl, rfl, rfl, fun g' => ?_⟩
  rw [grove_setGrove]
  split
  · next h => exact ⟨by rw [hcycle, h], by rw [hgated, h]⟩
  · exact ⟨rfl, rfl⟩

theorem bumpG_keepsHolds (s : State) (g : GroveId) (e n : Nat) : KeepsHolds s (s.bumpG g e n) := by
  unfold bumpG
  split
  · exact .refl s
  · exact setGrove_keepsHolds s g rfl rfl

theorem setSamp_keepsHolds (s : State) (g : GroveId) (p : Sampler) : KeepsHolds s (s.setSamp g p) :=
  setGrove_keepsHolds s g rfl rfl

theorem setCore_keepsHolds (s : State) (c : CoreId) (k : Core) : KeepsHolds s (s.setCore c k) :=
  ⟨rfl, rfl, rfl, rfl, rfl, fun _ => ⟨rfl, rfl⟩⟩

theorem free_keepsHolds (s : State) (n : Nat) : KeepsHolds s { s with free := n } :=
  ⟨rfl, rfl, rfl, rfl, rfl, fun _ => ⟨rfl, rfl⟩⟩

/-! ## The issue of a word that names no end -/

/-- A word without an audit point. -/
theorem audit_keepsHolds (s : State) (h : HamperId) {f : CheckF} (hf : f.audit = 0) : KeepsHolds s (s.audit h f) := by
  rw [audit, if_pos hf]
  exact .refl s

theorem issueLane_keepsHolds (w : Cw) (aset : BitVec 16) (bad conflict : Bool) (s : State) (c : CoreId) :
    KeepsHolds s (issueLane w aset bad conflict s c) := by
  unfold issueLane
  exact (setCore_keepsHolds s c _).trans (.of_meshOnly (wordsBack_meshOnly _ _ _))

/-- A word that no core finds a bad end in leaves what a hold reads. -/
theorem issueLanes_keepsHolds (s : State) (h : HamperId) (w : Cw) (aset : BitVec 16) (hw : ∀ k : Core, k.uses w = []) :
    KeepsHolds s (s.issueLanes h w aset) := by
  have hbad : ((s.enabledLanes h).any fun c => badFields ((s.core c).uses w) != []) = false := by
    simp [hw, badFields]
  have hfold : ∀ (b : Bool) (cs : List CoreId) (u : State), KeepsHolds u (cs.foldl (issueLane w aset false b) u) := by
    intro b cs
    induction cs with
    | nil => exact .refl
    | cons c cs ih => exact fun u => (issueLane_keepsHolds w aset false b u c).trans (ih _)
  unfold issueLanes
  dsimp only
  rw [hbad, if_neg Bool.false_ne_true]
  split
  · exact (hfold _ _ s).trans (free_keepsHolds _ _)
  · exact hfold _ _ s

theorem sampleWord_keepsHolds (s old : State) (h : HamperId) (q : QWord) (w : Cw) (took : List Nat) :
    KeepsHolds s (s.sampleWord old h q w took) := by
  unfold sampleWord
  dsimp only
  split
  · exact .refl s
  · split
    · exact setSamp_keepsHolds s _ _
    · exact (setSamp_keepsHolds s _ _).trans (bumpG_keepsHolds _ _ _ _)

/-- The hamper of a word on its way to issue: its runs of refused cycles end. -/
def issuing (k : Hamper) (now : Nat) : Hamper :=
  { k with refused := 0, stalls := 0, wdFired := false, stepOne := false, lastIssue := now + 1 }

/-- A word without a field that pops or pushes names no end. -/
theorem uses_seq (k : Core) (f : SeqF) : k.uses { seq := f } = [] := rfl

@[simp] theorem issuing_state (k : Hamper) (now : Nat) : (issuing k now).state = k.state := rfl

/-- A word with a SEQ field alone: the field acts in a state in which a hold reads what stood before the word, and the hamper
differs only in its record of issue. -/
theorem issueGo_seq (s : State) (h : HamperId) (q : QWord) (f : SeqF) :
    ∃ u, s.issueGo h q { seq := f } false = u.seqAtIssue h f q.scalar ((s.hamper h).state = stStopped) ∧
      KeepsHolds (s.setHamper h (issuing (s.hamper h) (s.cycle (groveOfHamper h)))) u := by
  unfold issueGo
  refine ⟨_, rfl, ?_⟩
  refine .trans ?_ (sampleWord_keepsHolds _ _ _ _ _ _)
  refine .trans ?_ (audit_keepsHolds _ h rfl)
  exact (issueLanes_keepsHolds _ h _ _ (fun k => uses_seq k f)).trans (bumpG_keepsHolds _ _ _ _)

end State
end Sys2Proof.Machine
end

section
/-! PROOFS. Holds: the target, the position, and the wait. -/

namespace Sys2Proof.Machine

namespace State

/-! ## What settling leaves of the hampers -/

theorem spadEvent_keepsControl (s : State) (g : GroveId) : KeepsControl s (s.spadEvent g) := by
  have hg : g.toNat < 256 := g.isLt
  have hmap : controlReg (groveBit SPAD_EVT_MAP.off g).off = false := by
    apply controlReg_eq_false <;> simp only [groveBit, SPAD_EVT_MAP.off, BOOT_STATE.off] <;> omega
  unfold spadEvent
  dsimp only
  split
  · exact .refl s
  · exact (setFlag_keepsControl s hmap).trans (faultEntry_keepsControl _ _ _ _ _ _)

theorem spadEventIf_keepsControl (s : State) (g : GroveId) (e : Bool) : KeepsControl s (s.spadEventIf g e) := by
  cases e
  · exact .refl s
  · exact spadEvent_keepsControl s g

theorem settleCredit_keepsControl (s : State) (c : CoreId) (n : Nat) : KeepsControl s (s.settleCredit c n) := by
  unfold settleCredit
  dsimp only
  split
  · exact .refl s
  · exact .of_bar0 rfl rfl rfl rfl rfl rfl rfl

theorem KeepsControl.of_meshOnly {s t : State} (h : MeshOnly s t) : KeepsControl s t := by
  rw [h.eq]
  exact .of_bar0 rfl rfl rfl rfl rfl rfl rfl

/-- What has come due in a core changes no hamper. -/
theorem settleLane_keepsControl (s : State) (c : CoreId) : KeepsControl s (s.settleLane c) := by
  unfold settleLane
  refine .trans ?_ (.foldl (fun u n _ => settleCredit_keepsControl u c n) _)
  refine .trans ?_ (.of_meshOnly (wordsBack_meshOnly _ _ _))
  exact (setCore_keepsControl _ _ _).trans (spadEventIf_keepsControl _ _ _)

theorem settled_keepsControl (s : State) (h : HamperId) : KeepsControl s (Claims.settled s h) :=
  .foldl (fun u c _ => settleLane_keepsControl u c) s

/-! ## Faults of a hamper -/

/-- A hamper fault sets its flag; the entry and the request for an abort leave the hampers. -/
theorem hamperFault_keepsControl (s : State) (h : HamperId) (b : Nat) :
    KeepsControl (s.setHamper h ((s.hamper h).setFault (s.cycle (groveOfHamper h)) b)) (s.hamperFault h b) := by
  unfold hamperFault
  dsimp only
  refine .trans ?_ (abortRequest_keepsControl _ _ _)
  split
  · exact faultEntry_keepsControl _ _ _ _ _ _
  · exact .refl _

theorem hamper_hamperFault (s : State) (h : HamperId) (b : Nat) :
    (s.hamperFault h b).hamper h = (s.hamper h).setFault (s.cycle (groveOfHamper h)) b := by
  rw [(hamperFault_keepsControl s h b).hamper, setHamper_hamper_self]

theorem hamper_hamperFaultIf (s : State) (h : HamperId) (b : Nat) (e : Bool) :
    (s.hamperFaultIf h b e).hamper h = if e then (s.hamper h).setFault (s.cycle (groveOfHamper h)) b else s.hamper h := by
  cases e
  · rfl
  · exact hamper_hamperFault s h b

theorem hamperFaultIf_time (s : State) (h : HamperId) (b : Nat) (e : Bool) : (s.hamperFaultIf h b e).time = s.time := by
  cases e
  · rfl
  · exact (hamperFault_keepsControl s h b).time

theorem hamperFaultIf_scaleField (s : State) (h : HamperId) (b : Nat) (e : Bool) :
    (s.hamperFaultIf h b e).scaleField = s.scaleField := by
  cases e
  · rfl
  · exact (hamperFault_keepsControl s h b).fld (by decide)

theorem setFault_fault_bit (k : Hamper) (cyc b : Nat) (hb : b < 64) : (k.setFault cyc b).fault.getLsbD b = true := by
  have hbit : (BitVec.ofNat 64 (2 ^ b)).getLsbD b = true := by
    rw [BitVec.getLsbD_ofNat, Nat.testBit_two_pow_self, decide_eq_true hb, Bool.true_and]
  rw [Hamper.setFault, Hamper.noteSet, BitVec.getLsbD_or, hbit, Bool.or_true]

/-! ## A hold -/

/-- HOLD_BASE after a hold by distance `d` (R44). -/
def holdTarget (s : State) (k : Hamper) (d : Nat) : BitVec 64 :=
  k.holdBase + (s.time.podDefer - k.podSeen) + BitVec.ofNat 64 (scaledBy s.scaleField d)

theorem overrun_cycle (s : State) (h : HamperId) (late : Nat) (target : BitVec 64) (g : GroveId) :
    (s.overrun h late target).cycle g = s.cycle g := by
  have hg : (groveOfHamper h).toNat < 256 := (groveOfHamper h).isLt
  unfold overrun
  dsimp only
  refine .trans (setFlag_cycle _ ?_ g) (KeepsHolds.cycle ?_ g)
  · simp only [groveBit, ALM_OVR_MAP.off]
    omega
  · exact setGrove_keepsHolds s _ rfl rfl

/-! The parts of a hold, in their order: the bad end of the step, the move, the overrun, and the wait or the abort's action. -/

def holdBadEnd (s : State) (h : HamperId) : State :=
  (s.setHamper h { s.hamper h with badEnd := false }).hamperFaultIf h sfBadEnd (s.hamper h).badEnd

def holdMove (s : State) (h : HamperId) (r : Nat × BitVec 64 × Bool) (target : BitVec 64) : State :=
  (s.setHamper h { s.hamper h with holdBase := target, holdPos := r.2.1, podSeen := s.time.podDefer }).hamperFaultIf h sfHoldOrder r.2.2

def holdOverrun (s : State) (h : HamperId) (target : BitVec 64) : State :=
  if target < s.time.almanac then
    (s.overrun h (s.time.almanac.toNat - target.toNat) target).bumpG (groveOfHamper h) 0x10 1
  else s

def holdWait (s : State) (h : HamperId) (step : Bool) (target now : BitVec 64) : State :=
  if step then s
  else s.setHamper h { s.hamper h with
    hold := some ⟨target, s.cycle (groveOfHamper h), now⟩
    state := if (s.hamper h).state = stRunning then stHolding else (s.hamper h).state }

def holdEnd (s : State) (h : HamperId) (step : Bool) (target now : BitVec 64) : State :=
  match s.plane.abort with
  | some q => if (s.hamper h).owes && q.at_.toNat + 64 ≤ target.toNat then s.abortAct h q.force else s.holdWait h step target now
  | none => s.holdWait h step target now

theorem holdBadEnd_hamper (s : State) (h : HamperId) :
    let k := s.hamper h
    let k' := (s.holdBadEnd h).hamper h
    k'.holdBase = k.holdBase ∧ k'.holdPos = k.holdPos ∧ k'.podSeen = k.podSeen ∧ k'.state = k.state ∧ k'.iq = k.iq := by
  rw [holdBadEnd, hamper_hamperFaultIf, setHamper_hamper_self]
  split <;> exact ⟨rfl, rfl, rfl, rfl, rfl⟩

/-- The bad end of the step changes nothing that the target goes by. -/
theorem holdTarget_holdBadEnd (s : State) (h : HamperId) (d : Nat) :
    holdTarget (s.holdBadEnd h) ((s.holdBadEnd h).hamper h) d = holdTarget s (s.hamper h) d := by
  obtain ⟨hbase, -, hseen, -, -⟩ := holdBadEnd_hamper s h
  rw [holdTarget, holdTarget, hbase, hseen, holdBadEnd, hamperFaultIf_time, hamperFaultIf_scaleField]
  rfl

theorem holdMove_hamper (s : State) (h : HamperId) (r : Nat × BitVec 64 × Bool) (target : BitVec 64) :
    let k := s.hamper h
    let k' := (s.holdMove h r target).hamper h
    k'.holdBase = target ∧ k'.holdPos = r.2.1 ∧ (r.2.2 = true → k'.fault.getLsbD sfHoldOrder = true) ∧
    k'.state = k.state ∧ k'.iq = k.iq := by
  intro k k'
  have hk : k' = if r.2.2 then Hamper.setFault _ _ sfHoldOrder else _ := hamper_hamperFaultIf _ h sfHoldOrder r.2.2
  rw [setHamper_hamper_self] at hk
  rw [hk]
  cases r.2.2
  · exact ⟨rfl, rfl, nofun, rfl, rfl⟩
  · exact ⟨rfl, rfl, fun _ => setFault_fault_bit _ _ _ (by decide), rfl, rfl⟩

theorem hamper_holdOverrun (s : State) (h : HamperId) (target : BitVec 64) : (s.holdOverrun h target).hamper h = s.hamper h := by
  unfold holdOverrun
  split
  · rfl
  · rfl

theorem holdOverrun_abort (s : State) (h : HamperId) (target : BitVec 64) :
    (s.holdOverrun h target).plane.abort = s.plane.abort := by
  unfold holdOverrun
  split
  · rfl
  · rfl

theorem holdOverrun_cycle (s : State) (h : HamperId) (target : BitVec 64) (g : GroveId) :
    (s.holdOverrun h target).cycle g = s.cycle g := by
  unfold holdOverrun
  split
  · exact ((bumpG_keepsHolds _ _ _ _).cycle g).trans (overrun_cycle s h _ target g)
  · rfl

theorem holdWait_hamper (s : State) (h : HamperId) (step : Bool) (target now : BitVec 64) :
    let k := s.hamper h
    let k' := (s.holdWait h step target now).hamper h
    k'.holdBase = k.holdBase ∧ k'.holdPos = k.holdPos ∧ k'.fault = k.fault ∧
    (step = false → k'.hold = some ⟨target, s.cycle (groveOfHamper h), now⟩ ∧
      k'.state = (if k.state = stRunning then stHolding else k.state) ∧ k'.iq = k.iq) := by
  cases step
  · rw [holdWait, if_neg Bool.false_ne_true, setHamper_hamper_self]
    exact ⟨rfl, rfl, rfl, fun _ => ⟨rfl, rfl, rfl⟩⟩
  · exact ⟨rfl, rfl, rfl, nofun⟩

/-- Whether it waits or acts, the hamper keeps its target, its position, and its faults. -/
theorem holdEnd_hamper (s : State) (h : HamperId) (step : Bool) (target now : BitVec 64) :
    let k := s.hamper h
    let k' := (s.holdEnd h step target now).hamper h
    k'.holdBase = k.holdBase ∧ k'.holdPos = k.holdPos ∧ (k.fault.getLsbD sfHoldOrder = true → k'.fault.getLsbD sfHoldOrder = true) := by
  obtain ⟨hbase, hpos, hfault, -⟩ := holdWait_hamper s h step target now
  unfold holdEnd
  split
  · next q _ =>
    split
    · have hact := hamper_abortAct s h q.force
      refine ⟨hact.holdBase, hact.holdPos, fun hk => ?_⟩
      rw [hact.fault, BitVec.getLsbD_or, hk, Bool.true_or]
    · exact ⟨hbase, hpos, fun hk => hfault ▸ hk⟩
  · exact ⟨hbase, hpos, fun hk => hfault ▸ hk⟩

/-- The state of a hold once it has moved. -/
def held (s : State) (h : HamperId) (r : Nat × BitVec 64 × Bool) : State :=
  (s.holdBadEnd h).holdMove h r (holdTarget s (s.hamper h) r.1)

theorem held_time (s : State) (h : HamperId) (r : Nat × BitVec 64 × Bool) : (s.held h r).time = s.time :=
  (hamperFaultIf_time _ h _ _).trans (hamperFaultIf_time _ h _ _)

theorem holdEnd_some {s : State} {q : AbortReq} (hq : s.plane.abort = some q) (h : HamperId) (step : Bool) (target now : BitVec 64) :
    s.holdEnd h step target now =
      if (s.hamper h).owes && q.at_.toNat + 64 ≤ target.toNat then s.abortAct h q.force else s.holdWait h step target now := by
  rw [holdEnd, hq]

theorem holdEnd_none {s : State} (hq : s.plane.abort = none) (h : HamperId) (step : Bool) (target now : BitVec 64) :
    s.holdEnd h step target now = s.holdWait h step target now := by
  rw [holdEnd, hq]

-- A conversion of `doHold` to its parts at once would have the kernel evaluate the state in which the request is looked up.
theorem doHold_parts (s : State) (h : HamperId) (rel step : Bool) (t : BitVec 32) : s.doHold h rel step t =
    let s1 := s.holdBadEnd h
    let r := holdStep rel (s1.hamper h).holdPos t
    let target := holdTarget s1 (s1.hamper h) r.1
    let s2 := s1.holdMove h r target
    (s2.holdOverrun h target).holdEnd h step target s2.time.almanac := by
  rw [doHold.eq_1]
  split
  · next q hq => exact (holdEnd_some hq h step _ _).symm
  · next hq => exact (holdEnd_none hq h step _ _).symm

/-- A hold is its parts. -/
theorem doHold_eq (s : State) (h : HamperId) (rel step : Bool) (t : BitVec 32) :
    let r := holdStep rel (s.hamper h).holdPos t
    let target := holdTarget s (s.hamper h) r.1
    s.doHold h rel step t = ((s.held h r).holdOverrun h target).holdEnd h step target s.time.almanac := by
  intro r target
  rw [doHold_parts]
  dsimp only
  rw [(holdBadEnd_hamper s h).2.1, holdTarget_holdBadEnd, ← held_time s h r]
  rfl

/-- The target, the position and the order fault of a hold. -/
theorem doHold_moves (s : State) (h : HamperId) (rel step : Bool) (t : BitVec 32) :
    let r := holdStep rel (s.hamper h).holdPos t
    let k' := (s.doHold h rel step t).hamper h
    k'.holdBase = holdTarget s (s.hamper h) r.1 ∧ k'.holdPos = r.2.1 ∧ (r.2.2 = true → k'.fault.getLsbD sfHoldOrder = true) := by
  rw [doHold_eq]
  generalize holdStep rel (s.hamper h).holdPos t = r
  obtain ⟨hbase, hpos, hfault⟩ := holdEnd_hamper ((s.held h r).holdOverrun h (holdTarget s (s.hamper h) r.1)) h step
    (holdTarget s (s.hamper h) r.1) s.time.almanac
  rw [hamper_holdOverrun] at hbase hpos hfault
  obtain ⟨mbase, mpos, mfault, -, -⟩ := holdMove_hamper (s.holdBadEnd h) h r (holdTarget s (s.hamper h) r.1)
  exact ⟨hbase.trans mbase, hpos.trans mpos, fun hr => hfault (mfault hr)⟩

/-- A move in order, with no bad end in its step and no request pending, ends in a wait. -/
theorem holdEnd_waits (s : State) (h : HamperId) (r : Nat × BitVec 64 × Bool) (horder : r.2.2 = false)
    (hbad : (s.hamper h).badEnd = false) (habort : s.plane.abort = none) :
    let target := holdTarget s (s.hamper h) r.1
    let k' := (((s.held h r).holdOverrun h target).holdEnd h false target s.time.almanac).hamper h
    k'.hold = some ⟨target, s.cycle (groveOfHamper h), s.time.almanac⟩ ∧
    k'.state = (if (s.hamper h).state = stRunning then stHolding else (s.hamper h).state) ∧ k'.iq = (s.hamper h).iq := by
  have hheld : s.held h r = (s.setHamper h { s.hamper h with badEnd := false }).setHamper h
      { (s.setHamper h { s.hamper h with badEnd := false }).hamper h with
        holdBase := holdTarget s (s.hamper h) r.1, holdPos := r.2.1, podSeen := s.time.podDefer } := by
    rw [held, holdMove, holdBadEnd, hbad, horder]
    rfl
  have hk : (s.held h r).hamper h = { s.hamper h with
      badEnd := false, holdBase := holdTarget s (s.hamper h) r.1, holdPos := r.2.1, podSeen := s.time.podDefer } := by
    rw [hheld, setHamper_hamper_self, setHamper_hamper_self]
  have hnone : ((s.held h r).holdOverrun h (holdTarget s (s.hamper h) r.1)).plane.abort = none := by
    rw [holdOverrun_abort, hheld]
    exact habort
  have hcycle : ((s.held h r).holdOverrun h (holdTarget s (s.hamper h) r.1)).cycle (groveOfHamper h) = s.cycle (groveOfHamper h) := by
    rw [holdOverrun_cycle, hheld]
    rfl
  obtain ⟨-, -, -, hwait⟩ := holdWait_hamper ((s.held h r).holdOverrun h (holdTarget s (s.hamper h) r.1)) h false
    (holdTarget s (s.hamper h) r.1) s.time.almanac
  obtain ⟨hhold, hstate, hiq⟩ := hwait rfl
  rw [← holdEnd_none hnone, hcycle] at hhold
  rw [← holdEnd_none hnone, hamper_holdOverrun, hk] at hstate hiq
  exact ⟨hhold, hstate, hiq⟩

/-- A hold in order, with no bad end in its step and no request pending, waits for its grove. -/
theorem doHold_waits (s : State) (h : HamperId) (rel : Bool) (t : BitVec 32) :
    let k := s.hamper h
    let r := holdStep rel k.holdPos t
    let k' := (s.doHold h rel false t).hamper h
    r.2.2 = false → k.badEnd = false → s.plane.abort = none →
    k'.hold = some ⟨holdTarget s k r.1, s.cycle (groveOfHamper h), s.time.almanac⟩ ∧
    k'.state = (if k.state = stRunning then stHolding else k.state) ∧ k'.iq = k.iq := by
  rw [doHold_eq]
  exact holdEnd_waits s h _

/-! ## The issue of a hold -/

/-- What the step of a hold is: by an offset or a distance, and whether the offset is below the position. -/
theorem holdStep_eq (rel : Bool) (pos : BitVec 64) (t : BitVec 32) :
    let low := !rel && t.toNat < pos.toNat
    holdStep rel pos t = (if rel then t.toNat else t.toNat - pos.toNat,
      if rel then pos + t.zeroExtend 64 else if low then pos else t.zeroExtend 64, low) := by
  cases rel
  · by_cases h : t.toNat < pos.toNat
    · simp [holdStep, h, Nat.sub_eq_zero_of_le h.le]
    · simp [holdStep, h]
  · rfl

/-- What a hold leaves in state `t` of the hamper of state `s` (R44 to R49). -/
def HoldDone (h : HamperId) (rel : Bool) (off : BitVec 32) (s t : State) : Prop :=
  let k := s.hamper h
  let k' := t.hamper h
  let low := !rel && off.toNat < k.holdPos.toNat
  let target := holdTarget s k (if rel then off.toNat else off.toNat - k.holdPos.toNat)
  k'.holdBase = target ∧
  k'.holdPos = (if rel then k.holdPos + off.zeroExtend 64 else if low then k.holdPos else off.zeroExtend 64) ∧
  (low = true → k'.fault.getLsbD 1 = true) ∧
  (low = false → k.badEnd = false → s.plane.abort = none → k.state ≠ stStopped →
    k'.hold = some ⟨target, s.cycle (groveOfHamper h), s.time.almanac⟩ ∧
    k'.state = (if k.state = stRunning then stHolding else k.state) ∧ k'.iq = k.iq)

theorem doHold_holdDone (s : State) (h : HamperId) (rel : Bool) (off : BitVec 32) :
    HoldDone h rel off s (s.doHold h rel ((s.hamper h).state = stStopped) off) := by
  obtain ⟨hbase, hpos, hfault⟩ := doHold_moves s h rel ((s.hamper h).state = stStopped) off
  rw [holdStep_eq] at hbase hpos hfault
  refine ⟨hbase, hpos, hfault, fun hlow hbad habort hstate => ?_⟩
  have hwaits := doHold_waits s h rel off
  dsimp only at hwaits
  rw [holdStep_eq] at hwaits
  rw [decide_eq_false hstate]
  exact hwaits hlow hbad habort

/-- What a hold leaves does not depend on the hamper's record of issue. -/
theorem HoldDone.of_keepsHolds {s u t : State} {h : HamperId} {rel : Bool} {off : BitVec 32} {now : Nat}
    (hu : KeepsHolds (s.setHamper h (issuing (s.hamper h) now)) u) (ht : HoldDone h rel off u t) :
    HoldDone h rel off s t := by
  have hk : u.hamper h = issuing (s.hamper h) now := by rw [hu.hamper, setHamper_hamper_self]
  have hcycle : u.cycle (groveOfHamper h) = s.cycle (groveOfHamper h) := hu.cycle _
  have hscale : u.scaleField = s.scaleField := hu.scaleField
  unfold HoldDone holdTarget at ht
  rw [hk, hcycle, hscale, hu.time, hu.abort] at ht
  exact ht

/-- A word that can issue does so in the settled state, with the scalar that its SEQ field names. -/
theorem issueField_goes {s : State} {h : HamperId} {w : Cw} (hg : Claims.Goes s h w) :
    ∃ q : QWord, q.scalar = smGet 0 (s.hamper h).scalars (w.seq.arg.extractLsb' 14 4).toNat ∧
      s.issueField h w = (Claims.settled s h).issueGo h q w false := by
  obtain ⟨hmay, hres, href⟩ := hg
  have hfield : s.issueField h w =
      let r := s.checkWord h w (Claims.asetOf s h w)
      let q : QWord :=
        { scalar := smGet 0 (s.hamper h).scalars (r.2.seq.arg.extractLsb' 14 4).toNat
          aset := Claims.asetOf s h w, pc := (s.hamper h).pc, alm := s.time.almanac, tick := s.time.ticks }
      r.1.tryWord h q r.2 false := if_pos hmay
  rw [hfield, checkWord_ok s h w _ hres]
  exact ⟨_, rfl, tryWord_issues _ _ _ _ _ href⟩

/-- A word with a SEQ field alone that can issue acts in a state in which a hold reads what it reads in the settled one. -/
theorem issueField_seq {s : State} {h : HamperId} {f : SeqF} (hg : Claims.Goes s h { seq := f }) :
    ∃ u, s.issueField h { seq := f } = u.seqAtIssue h f
        (smGet 0 ((Claims.settled s h).hamper h).scalars (f.arg.extractLsb' 14 4).toNat)
        (((Claims.settled s h).hamper h).state = stStopped) ∧
      KeepsHolds ((Claims.settled s h).setHamper h
        (issuing ((Claims.settled s h).hamper h) ((Claims.settled s h).cycle (groveOfHamper h)))) u := by
  obtain ⟨q, hq, hgo⟩ := issueField_goes hg
  rw [hgo, (settled_keepsControl s h).hamper, ← hq, ← (settled_keepsControl s h).hamper]
  exact issueGo_seq _ h q f

/-- The holds of a word's SEQ field (R174). -/
theorem seqAtIssue_hold (u : State) (h : HamperId) (f : SeqF) (sv : BitVec 32) (step : Bool) :
    (f.op.toNat = 0x20 → seqAtIssue u h f sv step = u.doHold h false step (f.arg.zeroExtend 32)) ∧
    (f.op.toNat = 0x21 → seqAtIssue u h f sv step = u.doHold h false step sv) ∧
    (f.op.toNat = 0x22 → seqAtIssue u h f sv step = u.doHold h true step (f.arg.zeroExtend 32)) ∧
    (f.op.toNat = 0x23 → seqAtIssue u h f sv step = u.doHold h true step sv) := by
  refine ⟨fun hop => ?_, fun hop => ?_, fun hop => ?_, fun hop => ?_⟩
  all_goals simp only [seqAtIssue, hop]

/-- A command that issues a hold computes its target and waits. -/
theorem issuesTo_hold {i : Instr} {h : HamperId} {f : SeqF} {rel : Bool} {off : BitVec 32 → BitVec 32} {n : BitVec 4}
    (hn : f.arg.extractLsb' 14 4 = n) (hexec : ∀ s, exec i s = .next (s.issueField h { seq := f }))
    (hact : ∀ u sv step, seqAtIssue u h f sv step = u.doHold h rel step (off sv)) :
    Claims.IssuesTo i h { seq := f } fun s t =>
      HoldDone h rel (off (smGet 0 (s.hamper h).scalars n.toNat)) s t := by
  intro s hg
  obtain ⟨u, hu, hkeeps⟩ := issueField_seq hg
  refine ⟨_, hexec s, .of_keepsHolds hkeeps ?_⟩
  have hstate : (u.hamper h).state = ((Claims.settled s h).hamper h).state := by
    rw [hkeeps.hamper, setHamper_hamper_self, issuing_state]
  rw [hu, hact, ← hstate, hn]
  exact doHold_holdDone u h rel _

end State

open State in
/-- Settles O15: the word issues from a state in which a hold reads what it read in the settled one; there it moves and waits. -/
theorem holdComputesItsTarget : Obligations.HoldComputesItsTarget := by
  unfold Obligations.HoldComputesItsTarget
  intro h t18 a
  have harg : (a ++ 0#14 : BitVec 18).extractLsb' 14 4 = a := by
    simpa using BitVec.extractLsb'_append_eq_left (a := a) (b := 0#14)
  refine ⟨?atImm, ?atReg, ?relImm, ?relReg⟩
  case atImm =>
    exact issuesTo_hold (off := fun _ => t18.zeroExtend 32) rfl (fun _ => rfl) fun u sv step => (seqAtIssue_hold u h _ sv step).1 rfl
  case atReg => exact issuesTo_hold (off := id) harg (fun _ => rfl) fun u sv step => (seqAtIssue_hold u h _ sv step).2.1 rfl
  case relImm =>
    exact issuesTo_hold (off := fun _ => t18.zeroExtend 32) rfl (fun _ => rfl) fun u sv step => (seqAtIssue_hold u h _ sv step).2.2.1 rfl
  case relReg => exact issuesTo_hold (off := id) harg (fun _ => rfl) fun u sv step => (seqAtIssue_hold u h _ sv step).2.2.2 rfl

end Sys2Proof.Machine
end

section
/-! PROOFS. Leaps, releases and catch-up holds of groves, and the clear of an overrun record. -/

namespace Sys2Proof.Machine

namespace State

/-! ## Changes of the hampers alone -/

/-- Every field but `plane`, and every part of `plane` but the hampers that are not as the default, is the same. -/
structure HampersOnly (s t : State) : Prop where
  eq : t = { s with plane := { s.plane with hampers := t.plane.hampers } }

namespace HampersOnly

variable {s t u : State}

theorem refl (s : State) : HampersOnly s s := ⟨rfl⟩

theorem trans (h : HampersOnly s t) (g : HampersOnly t u) : HampersOnly s u := ⟨by rw [g.eq, h.eq]⟩

theorem grove (h : HampersOnly s t) (g : GroveId) : t.grove g = s.grove g := by rw [h.eq]; rfl
theorem time (h : HampersOnly s t) : t.time = s.time := by rw [h.eq]
theorem cores (h : HampersOnly s t) : t.plane.cores = s.plane.cores := by rw [h.eq]
theorem periodOf (h : HampersOnly s t) (g : GroveId) : t.periodOf g = s.periodOf g := by rw [h.eq]; rfl

end HampersOnly

theorem setHamper_hampersOnly (s : State) (h : HamperId) (k : Hamper) : HampersOnly s (s.setHamper h k) := ⟨rfl⟩

/-- A step for each hamper of a list that gives it `f` of what it holds, where `f` settles at once, gives every hamper of the
list `f` of what it held, and leaves everything else. -/
theorem foldl_hampers {step : State → HamperId → State} {f : Hamper → Hamper} (hf : ∀ k, f (f k) = f k)
    (hstep : ∀ s h, HampersOnly s (step s h) ∧ ∀ x, (step s h).hamper x = if x = h then f (s.hamper x) else s.hamper x)
    (hs : List HamperId) (s : State) :
    HampersOnly s (hs.foldl step s) ∧ ∀ x, (hs.foldl step s).hamper x = if x ∈ hs then f (s.hamper x) else s.hamper x := by
  induction hs generalizing s with
  | nil => exact ⟨.refl s, fun x => by simp⟩
  | cons h hs ih =>
    obtain ⟨honly, hx⟩ := hstep s h
    obtain ⟨ihonly, ihx⟩ := ih (step s h)
    refine ⟨honly.trans ihonly, fun x => ?_⟩
    rw [List.foldl_cons, ihx, hx]
    by_cases he : x = h
    · simp [he, hf]
    · simp [he]

/-- Such a step, where it writes the hamper only if `c` holds of it and `f` is idle otherwise. -/
theorem setHamper_if {f : Hamper → Hamper} {c : Hamper → Bool} (hf : ∀ k, c k = false → f k = k) (s : State) (h : HamperId) :
    let t := if c (s.hamper h) then s.setHamper h (f (s.hamper h)) else s
    HampersOnly s t ∧ ∀ x, t.hamper x = if x = h then f (s.hamper x) else s.hamper x := by
  dsimp only
  cases hc : c (s.hamper h) with
  | true =>
    refine ⟨setHamper_hampersOnly s h _, fun x => ?_⟩
    rw [if_pos rfl, hamper_setHamper]
    split
    · next hx => rw [hx]
    · rfl
  | false =>
    refine ⟨.refl s, fun x => ?_⟩
    rw [if_neg Bool.false_ne_true]
    split
    · next hx => rw [hx, hf _ hc]
    · rfl

/-! ## Leaps -/

/-- The cycle that a leap begins in period `first` is the same in the period after. -/
theorem cycle_of_leap {k : Grove} {first c : Nat} {ls : List (Nat × Nat)} (hk : k.leaps = (first, c) :: ls)
    (hls : ∀ l ∈ ls, l.1 ≠ first) : k.cycle (first + 1) = k.cycle first := by
  have hcount : (ls.filter fun l => l.1 < first + 1) = ls.filter fun l => l.1 < first :=
    List.filter_congr fun l hl => decide_eq_decide.2 (by have := hls l hl; omega)
  have hhead : ((first, c) :: ls).filter (fun l => l.1 < first + 1) = (first, c) :: ls.filter fun l => l.1 < first + 1 := by
    simp
  have hnot : ((first, c) :: ls).filter (fun l => l.1 < first) = ls.filter fun l => l.1 < first := by simp
  rw [Grove.cycle, Grove.cycle, hk, hhead, hnot, hcount, List.length_cons]
  omega

/-- A grove's next cycle becomes a leap. -/
theorem leapNext_of_free {k : Grove} {p : Nat} :
    let first := if k.inFirst p then p + 2 else p + 1
    (k.leaps.any fun l => l.1 = first) = false →
    (Grove.leapNext k p).cycle (first + 1) = (Grove.leapNext k p).cycle first ∧
    (Grove.leapNext k p).leapCount = k.leapCount + 1 ∧ (Grove.leapNext k p).timeFlags = k.timeFlags := by
  intro first hfree
  have hnext : Grove.leapNext k p = { k with
      leaps := (first, k.cycle p + 1) :: k.leaps.filter fun l => k.cycle p + 1 < l.2 + 1024
      lostLeaps := k.lostLeaps + (k.leaps.filter fun l => l.2 + 1024 ≤ k.cycle p + 1).length, leapCount := k.leapCount + 1 } :=
    if_neg (by rw [hfree]; exact Bool.false_ne_true)
  rw [hnext]
  refine ⟨cycle_of_leap rfl fun l hl => ?_, rfl, rfl⟩
  simpa using List.any_eq_false.1 hfree l (List.mem_of_mem_filter hl)

/-! ## Contributors of the lifeguard -/

theorem lgEvent_units (s : State) (b : Nat) : SameUnits s (s.lgEvent b) := by
  unfold lgEvent
  dsimp only
  split
  · exact .refl s
  · exact (setFlag_units s _).trans (irqEvt_units _ 3)

/-- An event of the lifeguard writes LG_EVENT and the interrupt's registers, which are none of the others'. -/
theorem lgEvent_reg (s : State) (b : Nat) {r : Nat} (hr : controlReg r = true) (hne : r ≠ LG_EVENT.off) :
    (s.lgEvent b).reg r = s.reg r := by
  unfold lgEvent
  dsimp only
  split
  · rfl
  · rw [(irqEvt_keepsControl _ 3).regs r hr, reg_setFlag_of_ne _ _ hne]

/-- The event's bit is set. -/
theorem lgEvent_flag (s : State) {b : Nat} (h : b < 64) : (s.lgEvent b).flag ⟨LG_EVENT.off, b, b⟩ = true := by
  unfold lgEvent
  dsimp only
  split
  · next hset => exact hset
  · rw [(irqEvt_keepsControl _ 3).flag (f := ⟨LG_EVENT.off, b, b⟩) (by decide : controlReg LG_EVENT.off = true)]
    exact flag_setFlag_self s _ h le_rfl

theorem raise_units (s : State) (f : Fld) (k ev : Nat) : SameUnits s (s.raise f k ev) :=
  (setFld_units s f _).trans (lgEvent_units _ ev)

/-- A contributor rises by `k`, at most to 7. -/
theorem raise_fld (s : State) {f : Fld} (k ev : Nat) (hr : controlReg f.off = true) (hne : f.off ≠ LG_EVENT.off)
    (hlo : f.lo ≤ f.hi) (hhi : f.hi < 64) (hw : 7 < 2 ^ (f.hi + 1 - f.lo)) :
    (s.raise f k ev).fld f = min 7 (s.fld f + k) := by
  rw [raise, fld_congr (lgEvent_reg _ ev hr hne), fld_setFld_self s f _ hhi hlo, Nat.mod_eq_of_lt (by omega)]

theorem raiseNeighbour_eq (s : State) (ev : Nat) :
    SameUnits (s.raise LG_STATUS.NEIGHBOUR 1 ev) ((s.raise LG_STATUS.NEIGHBOUR 1 ev).setFlag ALM_STATUS.LEAP_BUDGET) ∧
    s.raiseNeighbour ev = ((s.raise LG_STATUS.NEIGHBOUR 1 ev).setFlag ALM_STATUS.LEAP_BUDGET).setPower
      { s.power with neighbourAt := s.time.ticks } := by
  refine ⟨setFlag_units _ _, ?_⟩
  have h := (raise_units s LG_STATUS.NEIGHBOUR 1 ev).trans (setFlag_units _ ALM_STATUS.LEAP_BUDGET)
  rw [raiseNeighbour, h.power, h.time]

/-- A rise of the neighbour contributor leaves time and the core plane, and flags the budget. -/
theorem raiseNeighbour_spec (s : State) (ev : Nat) :
    let t := s.raiseNeighbour ev
    t.time = s.time ∧ t.plane = s.plane ∧ t.flag ALM_STATUS.LEAP_BUDGET = true ∧
    t.fld LG_STATUS.NEIGHBOUR = min 7 (s.fld LG_STATUS.NEIGHBOUR + 1) ∧
    t.power = { s.power with neighbourAt := s.time.ticks } := by
  intro t
  obtain ⟨hflag, heq⟩ := raiseNeighbour_eq s ev
  have h := (raise_units s LG_STATUS.NEIGHBOUR 1 ev).trans hflag
  have ht : t = _ := heq
  rw [ht]
  refine ⟨h.time, h.plane, flag_setFlag_self _ _ (by decide) (by decide), ?_, rfl⟩
  exact (fld_congr (reg_setFlag_of_ne _ _ (by decide))).trans
    (raise_fld s 1 ev (by decide) (by decide) (by decide) (by decide) (by decide))

/-- The leaps of a grove exceed the budget of R42 at cycle `c`. -/
def overBudget (k : Grove) (c : Nat) : Bool := 2 < leapsWithin k.leaps 64 c || 16 < leapsWithin k.leaps 1024 c

/-- A leap on a running clock: the grove's record, and over the budget the flag and the contributor. -/
theorem leap_eq {g : GroveId} {s : State} (hclock : s.clockOn g = true)
    (hcount : (Grove.leapNext (s.grove g) (s.periodOf g)).leapCount = (s.grove g).leapCount + 1) :
    let n := Grove.leapNext (s.grove g) (s.periodOf g)
    s.leap g =
      if overBudget n ((s.grove g).cycle (s.periodOf g) + 1) then
        (s.setGrove g ({ n with timeFlags := n.timeFlags ||| 1 }.noteSet (s.cycle g) 0x020 1)).raiseNeighbour leLeap
      else s.setGrove g n := by
  intro n
  have hne : n.leapCount ≠ (s.grove g).leapCount := by
    rw [hcount]
    bv_omega
  have hleap : s.leap g =
      let excess := decide (n.leapCount ≠ (s.grove g).leapCount) && overBudget n ((s.grove g).cycle (s.periodOf g) + 1)
      let u := s.setGrove g (if excess then { n with timeFlags := n.timeFlags ||| 1 }.noteSet (s.cycle g) 0x020 1 else n)
      if excess then u.raiseNeighbour leLeap else u := by
    rw [leap, hclock]
    rfl
  rw [hleap, decide_eq_true hne, Bool.true_and]
  cases overBudget n ((s.grove g).cycle (s.periodOf g) + 1)
  · rfl
  · rfl

/-- A leap where none is pending for that period. -/
theorem leap_spec (g : GroveId) (s : State) (hclock : s.clockOn g = true) :
    let k := s.grove g
    let p := s.periodOf g
    let first := if k.inFirst p then p + 2 else p + 1
    (k.leaps.any fun l => l.1 = first) = false →
    let t := s.leap g
    (t.grove g).cycle (first + 1) = (t.grove g).cycle first ∧
    (t.grove g).leapCount = k.leapCount + 1 ∧ t.time = s.time ∧ t.plane.hampers = s.plane.hampers ∧
    (overBudget (t.grove g) (k.cycle p + 1) = true →
      t.flag ALM_STATUS.LEAP_BUDGET = true ∧ (t.grove g).timeFlags = k.timeFlags ||| 1 ∧
      t.fld LG_STATUS.NEIGHBOUR = min 7 (s.fld LG_STATUS.NEIGHBOUR + 1)) ∧
    ∀ h, h ≠ g → t.grove h = s.grove h := by
  intro k p first hfree t
  obtain ⟨hcycle, hcount, hflags⟩ := leapNext_of_free hfree
  have ht : t = _ := leap_eq hclock hcount
  have hother : ∀ (n : Grove) (h : GroveId), h ≠ g → (s.setGrove g n).grove h = s.grove h := fun n h hne => by
    rw [grove_setGrove, if_neg hne]
  cases hover : overBudget (Grove.leapNext k p) (k.cycle p + 1) with
  | false =>
    rw [if_neg (by exact Bool.eq_false_iff.1 hover)] at ht
    have hg : t.grove g = Grove.leapNext k p := by rw [ht, setGrove_grove_self]
    rw [hg, hover, ht]
    exact ⟨hcycle, hcount, rfl, rfl, nofun, hother _⟩
  | true =>
    rw [if_pos (by exact hover)] at ht
    obtain ⟨htime, hplane, hbudget, hneighbour, -⟩ := raiseNeighbour_spec (s.setGrove g
      ({ Grove.leapNext k p with timeFlags := (Grove.leapNext k p).timeFlags ||| 1 }.noteSet (s.cycle g) 0x020 1)) leLeap
    rw [← ht] at htime hplane hbudget hneighbour
    have hg : ∀ h, t.grove h = (s.setGrove g _).grove h := fun h => by rw [grove, hplane]; rfl
    have hself := hg g
    rw [setGrove_grove_self] at hself
    refine ⟨?_, ?_, htime, ?_, fun _ => ⟨hbudget, ?_, hneighbour⟩, fun h hne => (hg h).trans (hother _ h hne)⟩
    · rw [hself]
      exact hcycle
    · rw [hself]
      exact hcount
    · rw [hplane]
      rfl
    · rw [hself, ← hflags]
      rfl

/-! ## Releases -/

/-- What a release makes of a hamper. -/
def released (k : Hamper) : Hamper :=
  if k.hold.isSome then { k with hold := none, state := if k.state = stHolding then stRunning else k.state } else k

theorem released_spec (k : Hamper) :
    (released k).hold = none ∧ (released k).iq = k.iq ∧ (released k).pc = k.pc ∧
    (released k).state = if k.hold.isSome ∧ k.state = stHolding then stRunning else k.state := by
  unfold released
  cases hk : k.hold with
  | none => exact ⟨hk, rfl, rfl, by simp⟩
  | some w => exact ⟨rfl, rfl, rfl, by simp⟩

/-- The grove with a release in cycle `c`. -/
def releasedIn (k : Grove) (c : Nat) : Grove :=
  { k with relCycle := c, allCatches := k.allCatches + k.catches, catches := 0, interval := k.interval + 1 }

theorem release_spec (s : State) (g : GroveId) :
    HampersOnly (s.setGrove g (releasedIn (s.grove g) (s.cycle g))) (s.release g) ∧
    ∀ h, (s.release g).hamper h = if h ∈ groveHampers g then released (s.hamper h) else s.hamper h := by
  unfold release
  refine foldl_hampers (f := released) (fun k => ?_) (fun u h => ?_) _ _
  · cases hk : k.hold.isSome with
    | true => simp [released, hk]
    | false => simp [released, hk]
  · have hwrite := setHamper_if (f := released) (c := fun k => k.hold.isSome) (fun k hk => by simp [released, hk]) u h
    have hstep : (if (u.hamper h).hold.isSome then u.setHamper h (released (u.hamper h)) else u) =
        if (u.hamper h).hold.isSome then
          u.setHamper h { u.hamper h with hold := none, state := if (u.hamper h).state = stHolding then stRunning else (u.hamper h).state }
        else u := by
      split
      · next hk => rw [released, if_pos hk]
      · rfl
    rw [← hstep]
    exact hwrite

theorem releasedIn_cycle (k : Grove) (c p : Nat) : (releasedIn k c).cycle p = k.cycle p := rfl

/-- A release restarts the count of schedule cycles with the current cycle. -/
theorem release_time (s : State) (g : GroveId) : (s.release g).sched g = 0 ∧ (s.release g).cycle g = s.cycle g := by
  have honly := (release_spec s g).1
  have hperiod : (s.release g).periodOf g = s.periodOf g := by
    rw [honly.periodOf]
    exact KeepsHolds.periodOf (setGrove_keepsHolds s g (k := releasedIn (s.grove g) (s.cycle g)) rfl rfl) g
  rw [sched, cycle, hperiod, honly.grove, setGrove_grove_self]
  refine ⟨?_, rfl⟩
  rw [Grove.sched, releasedIn_cycle, releasedIn]
  simp [cycle]

/-! ## Catch-up holds -/

/-- What a catch-up hold makes of a hamper. -/
def runEnded (k : Hamper) : Hamper := { k with refused := 0, wdFired := false }

theorem endRuns_spec (s : State) (g : GroveId) :
    HampersOnly s (s.endRuns g) ∧
    ∀ h, (s.endRuns g).hamper h = if h ∈ groveHampers g then runEnded (s.hamper h) else s.hamper h := by
  unfold endRuns
  refine foldl_hampers (f := runEnded) (fun _ => rfl) (fun u h => ?_) _ s
  have hwrite := setHamper_if (f := runEnded) (c := fun k => !(k.refused = 0 && !k.wdFired)) (fun k hk => ?_) u h
  · have hstep : (if !((u.hamper h).refused = 0 && !(u.hamper h).wdFired) then u.setHamper h (runEnded (u.hamper h)) else u) =
        if (u.hamper h).refused = 0 && !(u.hamper h).wdFired then u else u.setHamper h (runEnded (u.hamper h)) := by
      cases (decide ((u.hamper h).refused = 0) && !(u.hamper h).wdFired)
      · rfl
      · rfl
    dsimp only at hwrite
    rw [hstep] at hwrite
    exact hwrite
  · have hidle : k.refused = 0 ∧ k.wdFired = false := by simpa using hk
    rw [runEnded, ← hidle.1, ← hidle.2]

/-- The grove with a catch-up hold in cycle `c`. -/
def caughtIn (k : Grove) (c : Nat) : Grove :=
  { k with lastCatch := c + 1, catches := k.catches + 1, catchCount := k.catchCount + 1 }

theorem caughtIn_cycle (k : Grove) (c : Nat) : (caughtIn k c).cycle = k.cycle := rfl
theorem caughtIn_gatedAt (k : Grove) (c : Nat) : (caughtIn k c).gatedAt = k.gatedAt := rfl

theorem catchUp_eq (s : State) (g : GroveId) : s.catchUp g = (s.endRuns g).setGrove g (caughtIn (s.grove g) (s.cycle g)) := rfl

/-- A catch-up hold leaves time, and the hampers but for their runs of refused cycles. -/
theorem catchUp_spec (s : State) (g : GroveId) :
    let t := s.catchUp g
    t.grove g = caughtIn (s.grove g) (s.cycle g) ∧ t.periodOf g = s.periodOf g ∧ t.time = s.time ∧
    ∀ h, t.hamper h = if h ∈ groveHampers g then runEnded (s.hamper h) else s.hamper h := by
  dsimp only
  rw [catchUp_eq]
  obtain ⟨honly, hhamper⟩ := endRuns_spec s g
  have hclock : KeepsHolds (s.endRuns g) ((s.endRuns g).setGrove g (caughtIn (s.grove g) (s.cycle g))) :=
    setGrove_keepsHolds _ g (by rw [honly.grove, caughtIn_cycle]) (by rw [honly.grove, caughtIn_gatedAt])
  exact ⟨setGrove_grove_self _ _ _, (hclock.periodOf g).trans (honly.periodOf g), hclock.time.trans honly.time,
    fun h => (hclock.hamper h).trans (hhamper h)⟩

/-- A catch-up hold counts in no schedule. -/
theorem caughtIn_sched (k : Grove) (p : Nat) (h : k.inCatch p = false) : (caughtIn k (k.cycle p)).sched p = k.sched p := by
  have hlast : k.lastCatch ≠ k.cycle p + 1 := by simpa [Grove.inCatch] using h
  have hcycle : (caughtIn k (k.cycle p)).cycle p = k.cycle p := rfl
  rw [Grove.sched, Grove.sched, hcycle, Grove.catchesBefore, Grove.catchesBefore, if_neg hlast]
  simp [caughtIn]

/-! ## The clear of an overrun record -/

/-- The service mesh's write of GROVE_OVR.CLEAR in a grove with a clock. -/
theorem svcAccess_clearOvr {s : State} {g : GroveId} (hgate : s.gated g = false) :
    s.svcAccess .manager (.grove g 0x10) true 1 false = s.setGrove g (s.grove g).clearOvr := by
  have hwrite : s.svcWriteReg (.grove g 0x10) (Width.full.merge (s.svcKept (.grove g 0x10)) 1) =
      some (s.setGrove g (s.grove g).clearOvr) := by
    show s.groveWrite g 0x10 1 = _
    simp [groveWrite]
  unfold svcAccess svcAccessW
  simp only [svcGrove, hgate, svcSpad, svcSettle, hwrite, libTurned, svcReply, if_true]
  rfl

end State

open State in
/-- Settles O32: each event by what it does to the grove, to the hampers and to the rest. -/
theorem groveCycles : Obligations.GroveCycles := by
  unfold Obligations.GroveCycles
  intro g s k p first
  refine ⟨fun hclock hfree => ?leap, fun hclock => ?noLeap, fun hdue => ?release, fun hdue => ?noRelease,
    fun hclock hdue hcatch hrel hidle => ?catchUp, fun hgate => ?clear⟩
  case leap =>
    refine ⟨s.leap g, rfl, ?_⟩
    obtain ⟨hcycle, hcount, htime, hhampers, hover, hother⟩ := leap_spec g s hclock hfree
    refine ⟨hcycle, hcount, htime, hhampers, fun h => hover ?_, hother⟩
    simpa [overBudget] using h
  case noLeap =>
    show Host.Outcome.next (s.leap g) = _
    rw [leap, hclock]
    rfl
  case release =>
    refine ⟨s.release g, if_pos hdue, (release_time s g).1, (release_time s g).2, fun h hh => ?_, fun h hh => ?_, ?_, ?_⟩
    · rw [(release_spec s g).2 h, if_pos hh]
      exact released_spec _
    · rw [(release_spec s g).2 h, if_neg hh]
    · rw [(release_spec s g).1.time]
      rfl
    · rw [(release_spec s g).1.cores]
      rfl
  case noRelease => exact if_neg (by rw [hdue]; exact Bool.false_ne_true)
  case catchUp =>
    have hexec : exec (.catchUpHold g) s = .next (s.catchUp g) :=
      if_pos (by rw [hclock, hdue, hcatch, hrel, hidle]; rfl)
    obtain ⟨hgrove, hperiod, htime, hhamper⟩ := catchUp_spec s g
    refine ⟨_, hexec, ?_, ?_, ?_, ?_, htime, fun h hh => ?_, fun h hh => ?_⟩
    · rw [catching, hgrove, hperiod, Grove.inCatch]
      exact decide_eq_true rfl
    · rw [sched, hgrove, hperiod]
      exact caughtIn_sched _ _ hcatch
    · rw [cycle, hgrove, hperiod]
      rfl
    · rw [hgrove]
      rfl
    · rw [hhamper, if_pos hh]
      rfl
    · rw [hhamper, if_neg hh]
  case clear =>
    refine ⟨_, congrArg Host.Outcome.next (svcAccess_clearOvr hgate), ?_, rfl, rfl, rfl, fun h hne => ?_⟩
    · rw [setGrove_grove_self]
      rfl
    · rw [grove_setGrove, if_neg hne]

end Sys2Proof.Machine
end

section
/-! PROOFS. Departure counts: armed, refused, cancelled and reached. -/

namespace Sys2Proof.Machine

namespace State

/-! ## The state of a departure -/

theorem setDepart_units (s : State) (st : Nat) : SameUnits s (s.setDepart st) := by
  unfold setDepart
  split
  · exact .refl s
  · exact (setFld_units s _ _).trans (irqEvt_units _ 2)

theorem setDepart_state (s : State) {st : Nat} (h : st < 8) : (s.setDepart st).fld ALM_DEPART_CTRL.STATE = st := by
  unfold setDepart
  split
  · next hs => exact hs
  · rw [(irqEvt_keepsControl _ 2).fld (by decide), fld_setFld_self _ _ _ (by decide) (by decide)]
    exact Nat.mod_eq_of_lt h

theorem setDepart_reg (s : State) (st : Nat) {r : Nat} (hr : controlReg r = true) (hne : r ≠ ALM_DEPART_CTRL.off) :
    (s.setDepart st).reg r = s.reg r := by
  unfold setDepart
  split
  · rfl
  · rw [(irqEvt_keepsControl _ 2).regs r hr, reg_setFld_of_ne _ _ _ hne]

/-- A refusal of ARM or of a write flags it, and leaves the state, the count and the units. -/
theorem armRefused_spec (s : State) :
    let t := s.armRefused
    SameUnits s t ∧ t.flag ALM_DEPART_CTRL.ARM_REFUSED = true ∧
    t.fld ALM_DEPART_CTRL.STATE = s.fld ALM_DEPART_CTRL.STATE ∧ t.reg ALM_DEPART.off = s.reg ALM_DEPART.off :=
  ⟨setFlag_units s _, flag_setFlag_self _ _ (by decide) (by decide),
    fld_setFld_apart _ _ _ _ rfl (by decide) (by decide) (by decide), reg_setFlag_of_ne _ _ (by decide)⟩

/-- Whether a device is aligned goes by its role, its Almanac's status, and its offset. -/
theorem locked_congr {s t : State} (htime : t.time = s.time) (hsync : t.reg ALM_SYNC.off = s.reg ALM_SYNC.off)
    (hstatus : t.reg ALM_STATUS.off = s.reg ALM_STATUS.off) : t.locked = s.locked := by
  rw [locked, locked, follows, follows, running, running, fld_congr (f := ALM_SYNC.ROLE) hsync,
    flag_congr (f := ALM_STATUS.RUNNING) hstatus, htime]

/-! ## Arming -/

/-- What arming makes of a hamper. -/
def armed (k : Hamper) : Hamper := if k.loaded && k.quiet then { clearFront k with state := stArmed } else k

theorem noteRef_keepsControl (s : State) : KeepsControl s s.noteRef := by
  unfold noteRef
  split
  · exact .of_bar0 rfl rfl rfl rfl rfl rfl rfl
  · exact .refl s

/-- What the arming of a count does, from `s` on. -/
structure Arms (s t : State) : Prop where
  state : t.fld ALM_DEPART_CTRL.STATE = 1
  launch : t.plane.launch = true
  time : t.time = s.time
  hamper : ∀ h, t.hamper h = armed (s.hamper h)

/-- An aligned device arms a count that lies 64 ticks or more ahead (R83). -/
theorem acceptDepart_arms {s : State} {count : BitVec 64} (hlock : s.locked = true)
    (hlead : s.time.almanac.toNat + 64 ≤ count.toNat) :
    Arms s (s.acceptDepart count) ∧ (s.acceptDepart count).reg ALM_DEPART.off = s.reg ALM_DEPART.off := by
  have haccept : s.acceptDepart count = (s.armHampers.setLaunch true).setDepart 1 := by
    rw [acceptDepart, hlock, Bool.not_true, if_neg Bool.false_ne_true, if_neg (Nat.not_lt.2 hlead)]
  have hunits := setDepart_units (s.armHampers.setLaunch true) 1
  have hnote : KeepsControl (s.mapHampers armed) s.armHampers := noteRef_keepsControl (s.mapHampers armed)
  rw [haccept]
  refine ⟨⟨setDepart_state _ (by decide), by rw [hunits.plane]; rfl, hunits.time.trans hnote.time, fun h => ?_⟩,
    (setDepart_reg _ _ (by decide) (by decide)).trans (hnote.regs _ (by decide))⟩
  rw [hamper, hunits.plane]
  exact (hnote.hamper h).trans (hamper_mapHampers s armed h)

theorem Arms.of_keepsControl {s u t : State} (hu : KeepsControl s u) (h : Arms u t) : Arms s t :=
  ⟨h.state, h.launch, h.time.trans hu.time, fun k => by rw [h.hamper, hu.hamper]⟩

theorem reportDepart_keepsControl {s : State} (hhead : s.isHead = false) (st : Nat) : KeepsControl s (s.reportDepart st) := by
  have hrole : s.fld ALM_SYNC.ROLE ≠ 1 := by simpa [isHead] using hhead
  unfold reportDepart
  split
  · next h => exact absurd h hrole
  · exact sendTo_keepsControl s _ _ _ _
  · exact .refl s

/-- A count that a device other than the head cannot take is missed or refused (R83). -/
theorem acceptDepart_turned {s : State} {count : BitVec 64} (hhead : s.isHead = false)
    (hturn : s.locked = false ∨ count.toNat < s.time.almanac.toNat + 64) :
    let t := s.acceptDepart count
    t.fld ALM_DEPART_CTRL.STATE = (if s.locked = false then 4 else 3) ∧ t.plane.hampers = s.plane.hampers := by
  have hreport : ∀ st < 8,
      (((s.setLaunch false).setDepart st).reportDepart st).fld ALM_DEPART_CTRL.STATE = st ∧
      (((s.setLaunch false).setDepart st).reportDepart st).plane.hampers = s.plane.hampers := by
    intro st hst
    have hh : ((s.setLaunch false).setDepart st).isHead = false := by
      rw [isHead, fld_congr (setDepart_reg _ _ (by decide) (by decide))]
      exact hhead
    have hkeeps := reportDepart_keepsControl hh st
    refine ⟨(hkeeps.fld (by decide)).trans (setDepart_state _ hst), ?_⟩
    rw [hkeeps.hampers, (setDepart_units _ _).plane]
    rfl
  intro t
  have ht : t = if s.locked = false then ((s.setLaunch false).setDepart 4).reportDepart 4
      else ((s.setLaunch false).setDepart 3).reportDepart 3 := by
    show s.acceptDepart count = _
    unfold acceptDepart
    cases hlock : s.locked with
    | false => rfl
    | true =>
      have hlead : count.toNat < s.time.almanac.toNat + 64 := hturn.resolve_left (by rw [hlock]; exact Bool.noConfusion)
      rw [if_pos hlead]
      rfl
  rw [ht]
  split
  · exact hreport 4 (by decide)
  · exact hreport 3 (by decide)

/-! ## Cancelling -/

/-- What disarming makes of a hamper. -/
def disarmed (k : Hamper) : Hamper := if k.state = stArmed then { k with state := stIdle } else k

/-- A count that is armed and not yet reached is cancelled, and on the head its peers hear of it (R88, R89). -/
theorem cancelDepart_ahead {s : State} (hstate : s.fld ALM_DEPART_CTRL.STATE = 1)
    (hahead : s.time.almanac < s.reg ALM_DEPART.off) :
    let t := s.cancelDepart
    t.fld ALM_DEPART_CTRL.STATE = 0 ∧ t.time = s.time ∧ ∀ h, t.hamper h = disarmed (s.hamper h) := by
  have harmed : s.departArmed = true := by simp [departArmed, hstate]
  have hdue : s.departDue = false := by
    rw [departDue, harmed, Bool.true_and]
    exact decide_eq_false (BitVec.not_le.2 hahead)
  have hdisarm : s.disarm = (s.disarmHampers.setLaunch false).setDepart 0 := by
    rw [disarm, harmed, hdue]
    rfl
  have hkeeps : KeepsControl s.disarm s.cancelDepart := by
    unfold cancelDepart
    dsimp only
    split
    · exact sendAll_keepsControl _ _ _ _
    · exact .refl _
  have hunits := setDepart_units (s.disarmHampers.setLaunch false) 0
  intro t
  refine ⟨(hkeeps.fld (by decide)).trans ?_, hkeeps.time.trans ?_, fun h => (hkeeps.hamper h).trans ?_⟩
  · rw [hdisarm]
    exact setDepart_state _ (by decide)
  · rw [hdisarm]
    exact hunits.time
  · rw [hdisarm, hamper, hunits.plane]
    exact hamper_mapHampers s disarmed h

/-- On the tick of a departure it is too late to cancel. -/
theorem cancelDepart_late {s : State} (hstate : s.fld ALM_DEPART_CTRL.STATE = 2) (hlaunch : s.plane.launch = false)
    (hrun : s.flag ALM_STATUS.RUNNING = true) (htick : s.plane.departTick = some s.time.ticks) : s.cancelDepart = s := by
  have harmed : s.departArmed = false := by simp [departArmed, hstate, hlaunch]
  have hnow : s.departedNow = true := by simp [departedNow, running, hrun, htick]
  rw [cancelDepart, disarm, harmed, hnow, Bool.not_true, Bool.and_false]
  rfl

/-! ## The departure -/

/-- What a departure at `count` makes of a hamper; `seen` and `at_` are what it notes of deferrals and of its period. -/
def departed (count seen : BitVec 64) (at_ : Nat × Bool) (k : Hamper) : Hamper :=
  if k.state = stArmed then
    { k with state := stRunning, holdBase := count, holdPos := 0, acted := false, podSeen := seen, departAt := some at_ }
  else k

theorem refDepart_keepsControl (s : State) (count : BitVec 64) : KeepsControl s (s.refDepart count) := by
  unfold refDepart
  split
  · exact .refl s
  · exact .of_bar0 rfl rfl rfl rfl rfl rfl rfl

theorem beginGrove_keepsControl (s : State) (g : GroveId) : KeepsControl s (s.beginGrove g) := by
  unfold beginGrove
  split
  · exact .refl s
  · exact setGrove_keepsControl s g _

/-- The state with hampers that depart at `count`. -/
def setOff (s : State) (count : BitVec 64) : State :=
  let t := s.mapHampers (departed count s.time.podDefer (s.time.periods, decide (count ≤ s.time.periodAlm)))
  { t with plane := { t.plane with departTick := some t.time.ticks } }.setLaunch false

/-- A departure notes its count and restarts the groves that come to run; then the hampers set off. -/
theorem depart_eq (s : State) : ∃ u, KeepsControl s u ∧ s.depart = (u.setOff (s.reg ALM_DEPART.off)).setDepart 2 := by
  refine ⟨_, ?_, rfl⟩
  refine (refDepart_keepsControl s (s.reg ALM_DEPART.off)).trans ?_
  split
  · exact .foldl (fun u g _ => beginGrove_keepsControl u g) _
  · exact .refl _

/-- The departure (R82). -/
theorem depart_spec (s : State) :
    let count := s.reg ALM_DEPART.off
    let t := s.depart
    t.fld ALM_DEPART_CTRL.STATE = 2 ∧ t.plane.launch = false ∧ t.time = s.time ∧
    ∀ h, t.hamper h = departed count s.time.podDefer (s.time.periods, decide (count ≤ s.time.periodAlm)) (s.hamper h) := by
  intro count t
  obtain ⟨u, hu, hdepart⟩ := depart_eq s
  have ht : t = _ := hdepart
  have hunits := setDepart_units (u.setOff count) 2
  rw [ht]
  refine ⟨setDepart_state _ (by decide), by rw [hunits.plane]; rfl, hunits.time.trans hu.time, fun h => ?_⟩
  rw [hamper, hunits.plane, ← hu.hamper, ← hu.time]
  exact hamper_mapHampers u (departed count u.time.podDefer (u.time.periods, decide (count ≤ u.time.periodAlm))) h

/-! ## A device that has missed or refused -/

/-- A bit of a register that is set is or-ed into the register. -/
theorem reg_setFlag_bit (s : State) (off : Nat) {b : Nat} (h : b < 64) :
    (s.setFlag ⟨off, b, b⟩).reg off = s.reg off ||| BitVec.ofNat 64 (2 ^ b) := by
  have hput : (s.setFlag ⟨off, b, b⟩).reg off = putBits (s.reg off) b b 1 := reg_setReg_self _ _ _
  rw [hput]
  refine BitVec.eq_of_getLsbD_eq fun i hi => ?_
  rw [getLsbD_putBits _ 1 i h le_rfl, BitVec.getLsbD_or, BitVec.getLsbD_ofNat, Nat.testBit_two_pow]
  by_cases hb : b = i
  · subst hb
    simp [h]
  · rw [if_neg (by omega)]
    simp [hb]

/-- A field of a whole register is the register's number. -/
theorem fld_whole (s : State) (off : Nat) : s.fld ⟨off, 63, 0⟩ = (s.reg off).toNat := by
  have := (s.reg off).isLt
  simp [fld, getBits]
  omega

/-- The head notes the device, and stops what runs (R85, R198). -/
theorem departFailed_spec (s : State) {dev : Nat} (hdev : dev < 64) :
    let t := s.departFailed dev
    t.fld ALM_DEPART_CTRL.STATE = 4 ∧ t.fld HIF_POD_REFUSED.DEV = s.fld HIF_POD_REFUSED.DEV ||| 2 ^ dev ∧
    t.plane.hampers = s.plane.hampers ∧ t.plane.launch = s.plane.launch ∧
    (s.anyHamper Hamper.runs = true → ∃ r, t.plane.abort = some r ∧ r.force = true) := by
  let u := (s.setFlag ⟨HIF_POD_REFUSED.off, dev, dev⟩).irqEvt 2
  have hu : SameUnits s (u.setDepart 4) := ((setFlag_units s _).trans (irqEvt_units _ 2)).trans (setDepart_units _ 4)
  have hstep := stepFatal_keepsControl (u.setDepart 4) 2 0 0x0005 ((u.setDepart 4).fld HIF_POD_REFUSED.DEV)
  have hfail : s.departFailed dev = (u.setDepart 4).stepFatal 2 0 0x0005 ((u.setDepart 4).fld HIF_POD_REFUSED.DEV) := rfl
  have hrefused : (u.setDepart 4).reg HIF_POD_REFUSED.off = s.reg HIF_POD_REFUSED.off ||| BitVec.ofNat 64 (2 ^ dev) := by
    rw [setDepart_reg _ _ (by decide) (by decide), (irqEvt_keepsControl _ 2).regs _ (by decide), reg_setFlag_bit _ _ hdev]
  have hpow : 2 ^ dev < 2 ^ 64 := Nat.pow_lt_pow_right (by decide) hdev
  dsimp only
  rw [hfail]
  refine ⟨(hstep.fld (by decide)).trans (setDepart_state _ (by decide)), (hstep.fld (by decide)).trans ?_,
    hstep.hampers.trans (by rw [hu.plane]), hstep.launch.trans (by rw [hu.plane]), fun hruns => ?_⟩
  · have hwhole : ∀ x : State, x.fld HIF_POD_REFUSED.DEV = (x.reg HIF_POD_REFUSED.off).toNat := fun x => fld_whole x _
    rw [hwhole, hwhole, hrefused, BitVec.toNat_or, BitVec.toNat_ofNat, Nat.mod_eq_of_lt hpow]
  · refine abortRequest_force ?_ _
    rw [(faultEntry_keepsControl _ _ _ _ _ _).anyHamper, anyHamper, hu.plane]
    exact hruns

end State

open State in
/-- Settles O33: a write, an arming, a cancel, a departure, a message and a report, each accepted or turned away. -/
theorem departures : Obligations.Departures := by
  unfold Obligations.Departures
  intro v dev st s state count arms departs
  have harms : ∀ {t : State}, Arms s t → arms t := fun h => by
    refine ⟨h.state, h.launch, h.time, fun k hl hq => ?_, fun k hk => ?_⟩
    · rw [h.hamper, armed, hl, hq]
      rfl
    · rw [h.hamper, armed, if_neg (by simpa using hk)]
  obtain ⟨hunits, hrefused, hstate, hcount⟩ := armRefused_spec s
  refine ⟨fun hs => ?write, fun hs => ?writeRefused, fun hs => ?armRefused, fun hs hlock hlead => ?arm,
    fun hs hhead hturn => ?armTurned, fun hs hahead => ?cancel, fun hs hlaunch hrun htick => ?cancelLate,
    fun hs hdue => ?departure, fun hs => ?noDeparture, fun hv hs hlock hlead => ?message, fun hv hs hlaunch => ?idleCancel,
    fun hhead hst => ?report, fun hhead => ?noReport⟩
  case write => exact ⟨s.setReg ALM_DEPART.off v, congrArg Host.Outcome.next (if_neg hs), reg_setReg_self _ _ _, rfl, rfl⟩
  case writeRefused => exact ⟨s.armRefused, congrArg Host.Outcome.next (if_pos hs), hcount, hrefused, hstate.trans hs, hunits.plane⟩
  case armRefused => exact ⟨s.armRefused, congrArg Host.Outcome.next (if_pos hs), hrefused, hstate.trans hs, hunits.plane⟩
  case arm =>
    have hkeeps : KeepsControl s (if s.isHead then s.sendAll stDepart count [] else s) := by
      split
      · exact sendAll_keepsControl _ _ _ _
      · exact .refl s
    refine ⟨_, congrArg Host.Outcome.next (if_neg hs), harms (.of_keepsControl hkeeps (acceptDepart_arms ?_ ?_).1)⟩
    · rw [locked_congr hkeeps.time (hkeeps.regs _ (by decide)) (hkeeps.regs _ (by decide)), hlock]
    · rw [hkeeps.time]
      exact hlead
  case armTurned =>
    have hexec : exec (.arm false) s = .next (s.acceptDepart count) := by
      refine congrArg Host.Outcome.next ((if_neg hs).trans ?_)
      rw [hhead]
      rfl
    exact ⟨_, hexec, acceptDepart_turned hhead hturn⟩
  case cancel =>
    obtain ⟨hst, htime, hh⟩ := cancelDepart_ahead hs hahead
    refine ⟨s.cancelDepart, rfl, hst, htime, fun h => ?_⟩
    rw [hh, disarmed]
    split
    · rfl
    · rfl
  case cancelLate => exact congrArg Host.Outcome.next (cancelDepart_late hs hlaunch hrun htick)
  case departure =>
    have hexec : exec .departure s = .next s.depart := if_pos (by simpa [departDue, departArmed] using ⟨hs, hdue⟩)
    obtain ⟨hst, hlaunch, htime, hh⟩ := depart_spec s
    refine ⟨_, hexec, hst, hlaunch, htime, fun h harmed => ?_, fun h hidle => ?_⟩
    · rw [hh, departed, if_pos harmed]
      exact ⟨rfl, rfl, rfl, rfl⟩
    · rw [hh, departed, if_neg hidle]
  case noDeparture => exact if_neg (by simpa [departDue, departArmed] using hs)
  case message =>
    have hexec : exec (.depart v) s = .next ((s.setReg ALM_DEPART.off v).acceptDepart v) :=
      congrArg Host.Outcome.next ((if_neg hv).trans (if_neg hs))
    have hlocked : (s.setReg ALM_DEPART.off v).locked = true := by
      rw [locked_congr (s := s) (setReg_time s _ _) (reg_setReg_of_ne s v (by decide)) (reg_setReg_of_ne s v (by decide)), hlock]
    obtain ⟨⟨hst, hlaunch, htime, hh⟩, hcount⟩ := acceptDepart_arms hlocked hlead
    exact ⟨_, hexec, hcount.trans (reg_setReg_self _ _ _), harms ⟨hst, hlaunch, htime, hh⟩⟩
  case idleCancel =>
    have hexec : exec (.depart v) s = .next s.disarm := congrArg Host.Outcome.next (if_pos hv)
    have hidle : s.departArmed = false := by simpa [departArmed, hlaunch] using hs
    rw [hexec, disarm, hidle]
    rfl
  case report =>
    have hexec : exec (.departState dev st) s = .next (s.departFailed dev.toNat) := by
      refine congrArg Host.Outcome.next (if_pos ?_)
      rw [hhead]
      rcases hst with rfl | rfl
      · rfl
      · rfl
    exact ⟨_, hexec, departFailed_spec s dev.isLt⟩
  case noReport =>
    refine congrArg Host.Outcome.next (if_neg ?_)
    rw [hhead]
    exact Bool.false_ne_true

end Sys2Proof.Machine
end

section
/-! PROOFS. Ticks of the Almanac, and what the units do on one. -/

namespace Sys2Proof.Machine

namespace State

/-! ## What the units leave of the clock and the hampers -/

/-- Time and the hampers are the same. -/
structure KeepsClock (s t : State) : Prop where
  time : t.time = s.time
  hampers : t.plane.hampers = s.plane.hampers

namespace KeepsClock

variable {s t u : State}

theorem refl (s : State) : KeepsClock s s := ⟨rfl, rfl⟩

theorem trans (h : KeepsClock s t) (g : KeepsClock t u) : KeepsClock s u := ⟨g.time.trans h.time, g.hampers.trans h.hampers⟩

theorem foldl {β : Type} {f : State → β → State} (hf : ∀ s b, KeepsClock s (f s b)) (xs : List β) (s : State) :
    KeepsClock s (xs.foldl f s) := by
  induction xs generalizing s with
  | nil => exact refl s
  | cons x xs ih => exact (hf s x).trans (ih _)

theorem of_units (h : SameUnits s t) : KeepsClock s t := ⟨h.time, by rw [h.plane]⟩

theorem of_control (h : KeepsControl s t) : KeepsClock s t := ⟨h.time, h.hampers⟩

end KeepsClock

/-! ### Counters -/

theorem setPmc_keepsControl (s : State) (u : CtrGroup) (p : Pmc) : KeepsControl s (s.setPmc u p) := by
  cases u <;> exact .of_bar0 rfl rfl rfl rfl rfl rfl rfl

theorem countTick_keepsControl (s : State) : KeepsControl s s.countTick :=
  .foldl (fun u g _ => setPmc_keepsControl u g _) s

theorem patchLate_keepsControl (s : State) (g : Nat) (p : Pmc) : KeepsControl s (s.patchLate g p) := by
  unfold patchLate
  split
  · exact .refl s
  · split
    · exact .refl s
    · exact .of_bar0 rfl rfl rfl rfl rfl rfl rfl

theorem countCycle_keepsControl (s : State) (g : GroveId) (second : Bool) : KeepsControl s (s.countCycle g second) := by
  unfold countCycle
  split
  · exact setPmc_keepsControl s _ _
  · exact .refl s

/-- A period of the level's clock begins: records and groups count the one that ends. -/
theorem beginPeriod_eq (s : State) : ∃ u, KeepsControl s u ∧
    s.beginPeriod = { u with time := { s.time with periods := s.time.periods + 1, periodAlm := s.time.almanac } } := by
  have hfolds : ∃ u, KeepsControl s u ∧
      s.beginPeriod = { u with time := { u.time with periods := s.time.periods + 1, periodAlm := u.time.almanac } } :=
    ⟨_, (KeepsControl.foldl (fun u _ _ => patchLate_keepsControl u _ _) s).trans
      (.foldl (fun u _ _ => countCycle_keepsControl u _ _) _), rfl⟩
  obtain ⟨u, hu, hbegin⟩ := hfolds
  exact ⟨u, hu, by rw [hbegin, hu.time]⟩

/-! ### Status writes of channels -/

theorem setChan_keepsClock (s : State) (u : SeUnit) (k : Chan) : KeepsClock s (s.setChan u k) := ⟨rfl, rfl⟩
theorem setCore_keepsClock (s : State) (c : CoreId) (k : Core) : KeepsClock s (s.setCore c k) := ⟨rfl, rfl⟩
theorem setFld_keepsClock (s : State) (f : Fld) (n : Nat) : KeepsClock s (s.setFld f n) := ⟨rfl, rfl⟩

theorem bumpE_keepsClock (s : State) (e ev n : Nat) : KeepsClock s (s.bumpE e ev n) := by
  unfold bumpE
  dsimp only
  split
  · exact .refl s
  · exact ⟨rfl, rfl⟩

theorem noteBurst_keepsClock (s : State) (a : Nat) : KeepsClock s (s.noteBurst a) := by
  unfold noteBurst
  dsimp only
  split
  · exact .refl s
  · exact ⟨rfl, rfl⟩

theorem engineWrote_keepsClock (s : State) (u : SeUnit) (a n : Nat) : KeepsClock s (s.engineWrote u a n) := by
  unfold engineWrote
  dsimp only
  split
  · exact noteBurst_keepsClock s a
  · exact (noteBurst_keepsClock s a).trans (bumpE_keepsClock _ _ _ _)

theorem notices_keepsClock (s : State) (u : SeUnit) (i : Nat) (d : Desc) (code n : Nat) :
    KeepsClock s (s.notices u i d code n) := by
  have hcount : KeepsClock s (if u.isHdma then s else s.bumpE u.eng 8 n) := by
    split
    · exact .refl s
    · exact bumpE_keepsClock s _ _ _
  unfold notices
  dsimp only
  split
  · exact hcount
  · exact hcount.trans ⟨rfl, rfl⟩

theorem haltDrop_keepsClock (s : State) (u : SeUnit) (code : Nat) : KeepsClock s (s.haltDrop u code) := by
  unfold haltDrop
  exact (KeepsClock.foldl (fun _ _ => notices_keepsClock _ _ _ _ _ _) _ s).trans ⟨rfl, rfl⟩

theorem chanIrq_keepsClock (s : State) (u : SeUnit) : KeepsClock s (s.chanIrq u) := by
  unfold chanIrq
  split
  · exact .of_units (irqReg_units s _ _ _)
  · split
    · exact .of_units (setFlag_units s _)
    · exact .of_units ((setFlag_units s _).trans (signal_units _ _))

theorem chanFault_keepsClock (s : State) (u : SeUnit) (code detail : Nat) : KeepsClock s (s.chanFault u code detail) := by
  unfold chanFault
  split
  · exact .of_control (faultEntry_keepsControl s _ _ _ _ _)
  · exact .of_control (faultEntry_keepsControl s _ _ _ _ _)

theorem KeepsClock.ite {s t u : State} {c : Prop} [Decidable c] (ht : KeepsClock s t) (hu : KeepsClock s u) :
    KeepsClock s (if c then t else u) := by
  split
  · exact ht
  · exact hu

theorem writeStatus_keepsClock (s : State) (u : SeUnit) (j : Job) (alm : BitVec 64) : KeepsClock s (s.writeStatus u j alm) := by
  unfold writeStatus
  dsimp only
  have hwrite : ∀ (a : Nat) (bs : List Byte) (n code : Nat), KeepsClock s
      (((((s.hbmStore a bs).engineWrote u a 16).setFld u.fDone n).setFld u.fLastCode code).bumpE u.eng 7 1) := fun a bs n code =>
    ((KeepsClock.of_units (hbmStore_units s a bs)).trans (engineWrote_keepsClock _ u a 16)).trans
      (((setFld_keepsClock _ _ _).trans (setFld_keepsClock _ _ _)).trans (bumpE_keepsClock _ _ _ _))
  have hjobs : ∀ t : State, KeepsClock s t → ∀ (c : Bool) (code : Nat),
      KeepsClock s (if c then t.haltDrop u code else t.setChan u { t.chan u with jobs := (t.chan u).jobs.tail }) :=
    fun t ht c code => .ite (ht.trans (haltDrop_keepsClock t u code)) (ht.trans (setChan_keepsClock t u _))
  have hfault : ∀ t : State, KeepsClock s t → ∀ (c : Prop) [Decidable c] (code detail : Nat),
      KeepsClock s (if c then t.chanFault u code detail else t) :=
    fun t ht c _ code detail => .ite (ht.trans (chanFault_keepsClock t u _ _)) ht
  exact .ite ((hfault _ (hjobs _ (hwrite _ _ _ _) _ _) _ _ _).trans (chanIrq_keepsClock _ u))
    (hfault _ (hjobs _ (hwrite _ _ _ _) _ _) _ _ _)

theorem statusDue_keepsClock (s : State) (u : SeUnit) : KeepsClock s (s.statusDue u) := by
  unfold statusDue
  split
  · exact .refl s
  · split
    · exact .refl s
    · exact .ite (writeStatus_keepsClock s u _ _) (.refl s)

theorem statusTick_keepsClock (s : State) : KeepsClock s s.statusTick :=
  .foldl (fun _ _ => statusDue_keepsClock _ _) _ s

/-! ### Waiting service accesses -/

theorem svcReply_keepsClock (s : State) (who : SvcFrom) (write bad : Bool) (v : BitVec 64) (mark : Bool) :
    KeepsClock s (s.svcReply who write bad v mark) := by
  unfold svcReply
  split
  · exact .ite (.refl s) (.of_units (emit_units s _))
  · exact .refl s
  · split
    · exact .refl s
    · exact ⟨rfl, rfl⟩

theorem svcReadRow_keepsClock (s : State) (c : CoreId) (row : BitVec 16) : KeepsClock s (s.svcReadRow c row).1 := by
  unfold svcReadRow
  dsimp only
  exact (setCore_keepsClock s c _).trans (.of_control (spadEventIf_keepsControl _ _ _))

theorem svcTry_keepsClock (s : State) (a : SvcAccess) : KeepsClock s (s.svcTry a).1 := by
  have hsettle : KeepsClock s (s.settleLane a.core) := .of_control (settleLane_keepsControl s a.core)
  unfold svcTry
  generalize s.settleLane a.core = u at hsettle ⊢
  dsimp only
  split
  · exact hsettle
  · split
    · exact hsettle.trans (svcReadRow_keepsClock _ _ _)
    · exact (hsettle.trans (svcReadRow_keepsClock _ _ _)).trans (svcReply_keepsClock _ _ _ _ _ _)

theorem svcMerge_keepsClock (s : State) (a : SvcAccess) : KeepsClock s (s.svcMerge a).1 := by
  have hsettle : KeepsClock s (s.settleLane a.core) := .of_control (settleLane_keepsControl s a.core)
  unfold svcMerge
  generalize s.settleLane a.core = u at hsettle ⊢
  dsimp only
  split
  · exact hsettle
  · split
    · exact hsettle
    · split
      · exact hsettle
      · exact hsettle.trans ((setCore_keepsClock _ _ _).trans (svcReply_keepsClock _ _ _ _ _ _))

theorem svcServe_keepsClock (s : State) : KeepsClock s s.svcServe := by
  have hfold : ∀ (xs : List SvcAccess) (a : State × List SvcAccess), KeepsClock a.1 (xs.foldl (fun (a : State × List SvcAccess) x =>
      let y := if x.merge.isSome then a.1.svcMerge x else a.1.svcTry x
      (y.1, match y.2 with | none => a.2 | some z => a.2 ++ [z])) a).1 := by
    intro xs
    induction xs with
    | nil => exact fun a => .refl a.1
    | cons x xs ih =>
      intro a
      refine .trans ?_ (ih _)
      dsimp only
      split
      · exact svcMerge_keepsClock a.1 x
      · exact svcTry_keepsClock a.1 x
  exact (hfold s.plane.svc (s, [])).trans ⟨rfl, rfl⟩

end State
end Sys2Proof.Machine
end

section
/-! PROOFS. The Almanac's ticks, and the loss and return of its reference. -/

namespace Sys2Proof.Machine

namespace State

/-! ## One edge -/

/-- An edge while the Almanac counts: the groups count, time moves on, and then the level's clock and the units follow. -/
theorem tick_eq {s : State} (hrun : s.flag ALM_STATUS.RUNNING = true) :
    ∃ u : State, u.time = Time.tick s.time s.slewing ∧ u.power = s.power ∧ (∀ r, controlReg r = true → u.reg r = s.reg r) ∧
      u.plane.hampers = s.plane.hampers ∧
      s.tick = u.stopIfDue.clockTick.statusTick.svcServe := by
  have hcount := countTick_keepsControl { s with setNow := [] }
  have hslew : ({ s with setNow := [] } : State).countTick.slewing = s.slewing := by
    rw [slewing, slewing, follows, follows, hcount.fld (f := ALM_SYNC.ROLE) (by decide), hcount.time]
    rfl
  refine ⟨{ ({ s with setNow := [] } : State).countTick with
    time := Time.tick ({ s with setNow := [] } : State).countTick.time ({ s with setNow := [] } : State).countTick.slewing },
    ?_, hcount.power, hcount.regs, hcount.hampers, ?_⟩
  · rw [hcount.time, hslew]
  · have hrunning : ({ s with setNow := [] } : State).running = true := hrun
    rw [tick]
    dsimp only
    rw [hrunning]
    rfl

/-- A stop of the level's clock that is due leaves the Almanac, the clock's phase and the hampers. -/
theorem stopIfDue_spec (s : State) :
    ∃ b, s.stopIfDue.time = { s.time with stopped := b } ∧ (s.time.stopped = true → b = true) ∧
      s.stopIfDue.plane = s.plane ∧ (s.power.stopDue = none → s.stopIfDue = s) := by
  unfold stopIfDue
  split
  · exact ⟨s.time.stopped, rfl, id, rfl, fun _ => rfl⟩
  · next t hdue =>
    split
    · exact ⟨s.time.stopped, rfl, id, rfl, fun _ => rfl⟩
    · exact ⟨true, rfl, fun _ => rfl, rfl, fun h => nomatch h.symm.trans hdue⟩

/-- A stopped or gated clock stands still. -/
theorem clockTick_held {s : State} (h : (s.time.stopped || s.time.rootGated) = true) : s.clockTick = s := if_pos h

/-- A running clock moves on by the level's step, and begins a period with every 24. -/
theorem clockTick_runs {s : State} (hstop : s.time.stopped = false) (hroot : s.time.rootGated = false) :
    let n := s.time.phase + levelStep s.level
    s.clockTick.time = (if n < 24 then { s.time with phase := n }
      else { s.time with phase := n - 24, periods := s.time.periods + 1, periodAlm := s.time.almanac }) ∧
    s.clockTick.plane.hampers = s.plane.hampers := by
  intro n
  have hclock : s.clockTick = if n < 24 then { s with time := { s.time with phase := n } }
      else ({ s with time := { s.time with phase := n - 24 } } : State).beginPeriod := by
    rw [clockTick, hstop, hroot]
    rfl
  rw [hclock]
  split
  · exact ⟨rfl, rfl⟩
  · obtain ⟨u, hu, hbegin⟩ := beginPeriod_eq { s with time := { s.time with phase := n - 24 } }
    rw [hbegin]
    exact ⟨rfl, hu.hampers⟩

/-- Whatever the clock does, the Almanac's own record and the hampers stay. -/
theorem clockTick_almanac (s : State) :
    s.clockTick.time.almanac = s.time.almanac ∧ s.clockTick.time.ticks = s.time.ticks ∧
    s.clockTick.time.slewLeft = s.time.slewLeft ∧ s.clockTick.plane.hampers = s.plane.hampers := by
  cases hheld : s.time.stopped || s.time.rootGated with
  | true => rw [clockTick_held hheld]; exact ⟨rfl, rfl, rfl, rfl⟩
  | false =>
    obtain ⟨hstop, hroot⟩ := Bool.or_eq_false_iff.1 hheld
    obtain ⟨htime, hhampers⟩ := clockTick_runs hstop hroot
    rw [htime]
    refine ⟨?_, ?_, ?_, hhampers⟩
    · split <;> rfl
    · split <;> rfl
    · split <;> rfl

/-- An edge while the Almanac counts: its own record, the hampers, and the level's clock. -/
theorem tick_spec {s : State} (hrun : s.flag ALM_STATUS.RUNNING = true) :
    let t := s.tick
    let a := Time.tick s.time s.slewing
    t.time.almanac = a.almanac ∧ t.time.ticks = a.ticks ∧ t.time.slewLeft = a.slewLeft ∧
    t.plane.hampers = s.plane.hampers ∧
    ((s.time.stopped || s.time.rootGated) = true → t.time.periods = s.time.periods ∧ t.time.phase = s.time.phase) ∧
    (s.time.stopped = false → s.time.rootGated = false → s.power.stopDue = none →
      let n := s.time.phase + levelStep (s.fld PWR_LEVEL.LEVEL)
      t.time.periods = s.time.periods + (if n < 24 then 0 else 1) ∧ t.time.phase = (if n < 24 then n else n - 24)) := by
  intro t a
  obtain ⟨u, htime, hpower, hregs, hhampers, htick⟩ := tick_eq hrun
  obtain ⟨b, hstop, hb, hplane, hidle⟩ := stopIfDue_spec u
  obtain ⟨halm, hticks, hslew, hclock⟩ := clockTick_almanac u.stopIfDue
  have hkeeps : KeepsClock u.stopIfDue.clockTick t := by
    show KeepsClock _ s.tick
    rw [htick]
    exact (statusTick_keepsClock _).trans (svcServe_keepsClock _)
  rw [hkeeps.time, hkeeps.hampers]
  refine ⟨?_, ?_, ?_, ?_, fun hheld => ?_, fun hs hr hd => ?_⟩
  · rw [halm, hstop, htime]
  · rw [hticks, hstop, htime]
  · rw [hslew, hstop, htime]
  · rw [hclock, hplane, hhampers]
  · have hu : (u.stopIfDue.time.stopped || u.stopIfDue.time.rootGated) = true := by
      rw [hstop, htime]
      rw [htime] at hb
      rcases Bool.or_eq_true_iff.1 hheld with h | h
      · rw [hb h, Bool.true_or]
      · rw [Bool.or_eq_true_iff]
        exact Or.inr h
    rw [clockTick_held hu, hstop, htime]
    exact ⟨rfl, rfl⟩
  · have hu : u.stopIfDue = u := hidle (by rw [hpower, hd])
    have hlevel : u.level = s.fld PWR_LEVEL.LEVEL := fld_congr (hregs _ (by decide))
    obtain ⟨hruns, -⟩ := clockTick_runs (s := u) (by rw [htime]; exact hs) (by rw [htime]; exact hr)
    have hphase : (Time.tick s.time s.slewing).phase = s.time.phase := rfl
    have hperiods : (Time.tick s.time s.slewing).periods = s.time.periods := rfl
    rw [hu, hruns, hlevel, htime, hphase]
    by_cases hn : s.time.phase + levelStep (s.fld PWR_LEVEL.LEVEL) < 24
    · simp [hn, hperiods]
    · simp [hn, hperiods]

/-- What an edge does to the Almanac (R75). -/
theorem timeTick_idle {x : Time} {slews : Bool} (h : (slews && !x.slewUsed) = false) :
    (Time.tick x slews).almanac = x.almanac + 1 ∧ (Time.tick x slews).slewLeft = x.slewLeft := by
  simp [Time.tick, h]

theorem timeTick_holds {x : Time} {slews : Bool} (h : (slews && !x.slewUsed) = true) (hleft : 0 < x.slewLeft) :
    (Time.tick x slews).almanac = x.almanac ∧ (Time.tick x slews).slewLeft = x.slewLeft - 16 := by
  simp [Time.tick, h, hleft]

theorem timeTick_doubles {x : Time} {slews : Bool} (h : (slews && !x.slewUsed) = true) (hleft : x.slewLeft < 0) :
    (Time.tick x slews).almanac = x.almanac + 2 ∧ (Time.tick x slews).slewLeft = x.slewLeft + 16 := by
  simp [Time.tick, h, Int.not_lt.2 hleft.le]

theorem timeTick_ticks (x : Time) (slews : Bool) : (Time.tick x slews).ticks = x.ticks + 1 := rfl

/-! ## The reference -/

/-- A flag apart from a field that is stored in its register. -/
theorem flag_setFld_apart (s : State) (f g : Fld) (n : Nat) (hoff : g.off = f.off) (h : f.hi < 64) (hlo : f.lo ≤ f.hi)
    (hd : f.hi < g.lo ∨ g.hi < f.lo) : (s.setFld f n).flag g = s.flag g := by
  rw [flag, flag, fld_setFld_apart s f g n hoff h hlo hd]

/-- A flag that is stored as a bit. -/
theorem flag_setFld_self (s : State) {f : Fld} (b : Bool) (h : f.hi < 64) (hlo : f.lo ≤ f.hi) :
    (s.setFld f b.toNat).flag f = b := by
  have h2 : 1 < 2 ^ (f.hi + 1 - f.lo) := Nat.one_lt_two_pow (by omega)
  rw [flag, fld_setFld_self s f _ h hlo]
  cases b
  · simp
  · simp [Nat.mod_eq_of_lt h2]

/-- The live source as CLK_SRC reports it: crystal and loop alike (R708). -/
theorem setRef_spec (s : State) (up : Bool) :
    let t := s.setRef up
    t.flag CLK_SRC.XTAL_OK = up ∧ t.flag CLK_SRC.REF_LOCK = up ∧ SameUnits s t ∧
    ∀ r, r ≠ CLK_SRC.off → t.reg r = s.reg r := by
  intro t
  refine ⟨?_, flag_setFld_self _ up (by decide) (by decide), (setFld_units s _ _).trans (setFld_units _ _ _), fun r hr => ?_⟩
  · exact (flag_setFld_apart _ CLK_SRC.REF_LOCK CLK_SRC.XTAL_OK _ rfl (by decide) (by decide) (by decide)).trans
      (flag_setFld_self s up (by decide) (by decide))
  · show ((s.setFld CLK_SRC.XTAL_OK up.toNat).setFld CLK_SRC.REF_LOCK up.toNat).reg r = _
    rw [reg_setFld_of_ne _ _ _ hr, reg_setFld_of_ne _ _ _ hr]

end State

open State in
theorem almanacTicks : Claims.AlmanacTicks := by
  unfold Claims.AlmanacTicks
  intro s act
  refine ⟨fun hrun => ?held, fun hrun => ?tick, ?lost, fun hlost => ?back, fun hlost => ?noReturn⟩
  case held =>
    have hrunning : ({ s with setNow := [] } : State).running = false := hrun
    show Host.Outcome.next s.tick = _
    rw [tick]
    dsimp only
    rw [hrunning]
    rfl
  case tick =>
    obtain ⟨halm, hticks, hslew, hhampers, hheld, hmoves⟩ := tick_spec hrun
    refine ⟨s.tick, rfl, hticks.trans (timeTick_ticks _ _), fun ha => ?_, fun ha hleft => ?_, fun ha hleft => ?_, hheld, hmoves,
      hhampers⟩
    · rw [halm, hslew]
      exact timeTick_idle ha
    · rw [halm, hslew]
      exact timeTick_holds ha hleft
    · rw [halm, hslew]
      exact timeTick_doubles ha hleft
  case lost =>
    obtain ⟨hxtal, hlock, hunits, hregs⟩ := setRef_spec s.refLost false
    refine ⟨s.refLost.setRef false, rfl, ?_, ?_, hxtal, hlock, hunits.time, hunits.plane⟩
    · rw [flag_congr (hregs _ (by decide)), refLost,
        flag_setFld_apart _ ALM_STATUS.RUNNING ALM_STATUS.REF_LOST 0 rfl (by decide) (by decide) (by decide)]
      exact flag_setFlag_self s _ (by decide) (by decide)
    · rw [flag_congr (hregs _ (by decide)), refLost]
      exact flag_setFld_self _ false (by decide) (by decide)
  case back =>
    let u := (s.setFld ALM_STATUS.REF_LOST 0).setFld ALM_STATUS.RUNNING s.time.started.toNat
    obtain ⟨hxtal, hlock, hunits, hregs⟩ := setRef_spec u s.time.started
    refine ⟨u.setRef s.time.started, if_pos hlost, ?_, ?_, hxtal, hlock, hunits.time, hunits.plane⟩
    · rw [flag_congr (hregs _ (by decide)),
        flag_setFld_apart _ ALM_STATUS.RUNNING ALM_STATUS.REF_LOST _ rfl (by decide) (by decide) (by decide)]
      exact flag_setFld_self s false (by decide) (by decide)
    · rw [flag_congr (hregs _ (by decide))]
      exact flag_setFld_self _ _ (by decide) (by decide)
  case noReturn =>
    refine if_neg ?_
    rw [hlost]
    exact Bool.false_ne_true

end Sys2Proof.Machine
end

section
/-! PROOFS. Pod time: scales, and the exchange of time with the head. -/

namespace Sys2Proof.Machine

/-- The largest of a start value and the values of a list. -/
theorem foldl_max_spec {α : Type} (f : α → Nat) (xs : List α) (n : Nat) :
    let m := xs.foldl (fun m x => max m (f x)) n
    n ≤ m ∧ (∀ x ∈ xs, f x ≤ m) ∧ (m = n ∨ ∃ x ∈ xs, f x = m) := by
  induction xs generalizing n with
  | nil => exact ⟨le_rfl, fun _ hx => (nomatch hx), Or.inl rfl⟩
  | cons y ys ih =>
    obtain ⟨hn, hall, hattained⟩ := ih (max n (f y))
    refine ⟨(le_max_left n (f y)).trans hn, fun x hx => ?_, ?_⟩
    · rcases List.mem_cons.1 hx with rfl | hx
      · exact (le_max_right n (f x)).trans hn
      · exact hall x hx
    · rcases hattained with hm | ⟨x, hx, hm⟩
      · rcases le_total n (f y) with h | h
        · exact Or.inr ⟨y, List.mem_cons_self .., ((hm.trans (max_eq_right h)).symm)⟩
        · exact Or.inl (hm.trans (max_eq_left h))
      · exact Or.inr ⟨x, List.mem_cons_of_mem _ hx, hm⟩

namespace State

/-! ## Scales -/

/-- The largest scale of the pod, at least 1. -/
def podScale (s : State) : Nat := s.time.podScales.foldl (fun m e => max m e.2.toNat) 0x10000

theorem podScale_lt (s : State) : s.podScale < 2 ^ 20 := by
  obtain ⟨-, -, hattained⟩ := foldl_max_spec (fun e : Nat × BitVec 20 => e.2.toNat) s.time.podScales 0x10000
  rcases hattained with hm | ⟨e, -, hm⟩
  · rw [podScale, hm]
    decide
  · rw [podScale, ← hm]
    exact e.2.isLt

/-- ALM_SCALE reports the pod's scale, and the larger of it and the device's own. -/
theorem settleScale_spec (s : State) :
    let t := s.settleScale
    t.fld ALM_SCALE.POD = s.podScale ∧ t.fld ALM_SCALE.OWN = s.fld ALM_SCALE.OWN ∧
    t.fld ALM_SCALE.EFFECTIVE = max s.podScale (s.fld ALM_SCALE.OWN) ∧ SameUnits s t := by
  intro t
  let u := s.setFld ALM_SCALE.POD s.podScale
  have ht : t = u.setFld ALM_SCALE.EFFECTIVE (max s.podScale (u.fld ALM_SCALE.OWN)) := rfl
  have hown : u.fld ALM_SCALE.OWN = s.fld ALM_SCALE.OWN :=
    fld_setFld_apart s ALM_SCALE.POD ALM_SCALE.OWN _ rfl (by decide) (by decide) (by decide)
  have hlt : max s.podScale (s.fld ALM_SCALE.OWN) < 2 ^ 20 := max_lt (podScale_lt s) (fld_lt s ALM_SCALE.OWN)
  rw [ht, hown]
  refine ⟨?_, ?_, ?_, (setFld_units s _ _).trans (setFld_units _ _ _)⟩
  · rw [fld_setFld_apart _ ALM_SCALE.EFFECTIVE ALM_SCALE.POD _ rfl (by decide) (by decide) (by decide),
      fld_setFld_self _ _ _ (by decide) (by decide)]
    exact Nat.mod_eq_of_lt (podScale_lt s)
  · rw [fld_setFld_apart _ ALM_SCALE.EFFECTIVE ALM_SCALE.OWN _ rfl (by decide) (by decide) (by decide), hown]
  · rw [fld_setFld_self _ _ _ (by decide) (by decide)]
    exact Nat.mod_eq_of_lt hlt

/-! ## Exchanges of time -/

/-- A message that a link can carry joins the port's queue. -/
theorem sendOr_some (s : State) (q p : Nat) (m : SvcMsg) :
    ((s.sendOr (some q) p m).port q).svcOut = (s.port q).svcOut ++ [m] ∧ (s.sendOr (some q) p m).time = s.time ∧
    ∀ r, r ≠ q → (s.sendOr (some q) p m).port r = s.port r := by
  show ((s.setPort q { s.port q with svcOut := (s.port q).svcOut ++ [m] }).port q).svcOut = _ ∧ _ ∧ _
  refine ⟨?_, rfl, fun r hr => ?_⟩
  · rw [port_setPort, if_pos rfl]
  · exact (port_setPort s q r _).trans (if_neg hr)

/-- One that no path carries is discarded and counted (R569). -/
theorem sendOr_none (s : State) (p : Nat) (m : SvcMsg) :
    (s.sendOr none p m).ports = s.ports ∧ (s.sendOr none p m).time = s.time ∧
    (s.sendOr none p m).fld PSIUD_SVC_STAT.DROPPED =
      min (2 ^ (PSIUD_SVC_STAT.DROPPED.hi + 1 - PSIUD_SVC_STAT.DROPPED.lo) - 1) (s.fld PSIUD_SVC_STAT.DROPPED + 1) := by
  have hunits := faultEntry_units (s.incSat PSIUD_SVC_STAT.DROPPED 1) classContained 5 p 0x0024 (svcWord m)
  have hreg : (s.sendOr none p m).reg PSIUD_SVC_STAT.DROPPED.off = (s.incSat PSIUD_SVC_STAT.DROPPED 1).reg PSIUD_SVC_STAT.DROPPED.off :=
    faultEntry_reg _ _ _ _ _ _ (by decide)
  exact ⟨hunits.ports, hunits.time, (fld_congr hreg).trans (fld_incSat_self s _ 1 (by decide) (by decide))⟩

/-- The message of a follower's request for time. -/
def timeReq (s : State) (link : Nat) : SvcMsg :=
  { type := BitVec.ofNat 8 stTimeReq, src := BitVec.ofNat 8 s.pod.dev
    dst := BitVec.ofNat 8 ((s.pod.peer link).map (·.1) |>.getD (s.fld (PSIUD_STAT.PEER_DEV link))), arg := 0, payload := [] }

theorem timeReq_src (s : State) (link : Nat) : (s.timeReq link).src.toNat = s.pod.dev := by
  have hdev : s.pod.dev < 2 ^ 6 := fld_lt s PSIUD_POD.DEV
  exact Nat.mod_eq_of_lt (by omega)

/-- The message that answers a request (R571). -/
def timeAnswer (s : State) (m : TimeMsg) : SvcMsg :=
  let off : BitVec 64 := if s.isHead then 0 else BitVec.ofInt 64 (BitVec.ofNat 32 (s.fld ALM_OFFSET.OFFSET)).toInt
  { type := BitVec.ofNat 8 stTimeResp, src := BitVec.ofNat 8 s.pod.dev
    dst := BitVec.ofNat 8 (s.fld (PSIUD_STAT.PEER_DEV m.port.toNat)), arg := m.t2
    payload := bytesOf 8 0 ++ bytesOf 8 off.toNat }

/-- A follower's request that is due notes the next one and goes over the link of UPSTREAM. -/
theorem timeReqDue_due {s : State} (hrole : s.fld ALM_SYNC.ROLE = 2) (hdue : s.time.reqAt ≤ s.time.ticks) :
    let up := s.fld ALM_SYNC.UPSTREAM
    let link := if s.pod.isTwin up then up - 8 else up
    s.timeReqDue = ({ s with time := { s.time with reqAt := s.time.ticks + timePeriod } } : State).sendOr (s.linkPort link) link
      (s.timeReq link) := by
  have hnot : ¬ (s.fld ALM_SYNC.ROLE ≠ 2 ∨ s.time.ticks < s.time.reqAt) := by omega
  exact if_neg (by simpa using hnot)

theorem timeReqDue_idle {s : State} (h : s.fld ALM_SYNC.ROLE ≠ 2 ∨ s.time.ticks < s.time.reqAt) : s.timeReqDue = s :=
  if_pos (by simpa using h)

/-- An offset is reported, and the follower steps by it or slews (R75, R76). -/
theorem takeOffset_spec (s : State) (off : Int) :
    let t := s.takeOffset off
    t.time.measured = true ∧ t.fld ALM_OFFSET.OFFSET = (off % 2 ^ 32).toNat ∧
    ((1024 < off.natAbs ∧ s.scheduled = false) → t.flag ALM_STATUS.STEPPED = true ∧
      t.time.almanac = s.time.almanac - BitVec.ofInt 64 ((off + 8) / 16) ∧ t.time.slewLeft = off - 16 * ((off + 8) / 16)) ∧
    (¬ (1024 < off.natAbs ∧ s.scheduled = false) → t.time.almanac = s.time.almanac ∧ t.time.slewLeft = off) ∧
    t.plane = s.plane ∧ t.time.ticks = s.time.ticks := by
  intro t
  let u : State := { s.setFld ALM_OFFSET.OFFSET (lowBits 32 off) with time := { s.time with measured := true } }
  have hsched : u.scheduled = s.scheduled := by
    have hstate : u.fld ALM_DEPART_CTRL.STATE = s.fld ALM_DEPART_CTRL.STATE :=
      fld_setFld_of_ne s ALM_OFFSET.OFFSET ALM_DEPART_CTRL.STATE _ (by decide)
    rw [scheduled, scheduled, hstate]
    rfl
  have hoff : u.fld ALM_OFFSET.OFFSET = (off % 2 ^ 32).toNat := by
    have hlt : (off % 2 ^ 32).toNat < 2 ^ 32 := by omega
    exact (fld_setFld_self s ALM_OFFSET.OFFSET _ (by decide) (by decide)).trans (Nat.mod_eq_of_lt hlt)
  have ht : t = if 1024 < off.natAbs && !u.scheduled then
        ({ u with
          time := { u.time with
            almanac := u.time.almanac - BitVec.ofInt 64 ((off + 8) / 16), slewLeft := off - 16 * ((off + 8) / 16)
            stepAt := some u.time.ticks }
          reader := { u.reader with stepped := true } } : State).setFlag ALM_STATUS.STEPPED
      else { u with time := { u.time with slewLeft := off } } := rfl
  by_cases hstep : 1024 < off.natAbs ∧ s.scheduled = false
  · rw [if_pos (by simpa [hsched] using hstep)] at ht
    rw [ht]
    refine ⟨rfl, ?_, fun _ => ⟨flag_setFlag_self _ _ (by decide) (by decide), rfl, rfl⟩, fun h => absurd hstep h, rfl, rfl⟩
    exact (fld_congr (reg_setFlag_of_ne _ _ (by decide))).trans hoff
  · rw [if_neg (by simpa [hsched] using hstep)] at ht
    rw [ht]
    exact ⟨rfl, hoff, fun h => absurd h hstep, fun _ => ⟨rfl, rfl⟩, rfl, rfl⟩

end State

open State in
theorem podTime : Claims.PodTime := by
  unfold Claims.PodTime
  intro dev own dfr m s up link
  refine ⟨?scale, fun w hrole hdue hlink => ?sent, fun hrole hdue hlink => ?dropped, fun h => ?early, ?answer, fun hrole => ?offset,
    fun hrole => ?noFollower⟩
  case scale =>
    let u : State := { s with time := { s.time with
      podScales := smSet s.time.podScales dev.toNat own, podDefer := s.time.podDefer + dfr.zeroExtend 64 } }
    obtain ⟨hpod, hown, heff, hunits⟩ := settleScale_spec u
    obtain ⟨hleast, hall, hattained⟩ := foldl_max_spec (fun e : Nat × BitVec 20 => e.2.toNat) u.time.podScales 0x10000
    refine ⟨u.settleScale, rfl, ?_, fun d hd => ?_, ?_, ?_, ?_, ?_, hown, ?_, ?_, hunits.plane⟩
    · rw [hunits.time]
      exact smGet_smSet_self _ _ _ _
    · rw [hunits.time]
      exact smGet_smSet_of_ne _ _ _ hd
    · rw [hunits.time]
    · rw [hpod]
      exact hleast
    · rw [hpod, hunits.time]
      exact hall
    · rw [hpod, hunits.time]
      exact hattained
    · rw [heff, hpod]
      rfl
    · rw [hunits.time]
  case sent =>
    have hexec : exec (.timeReq none) s = .next s.timeReqDue := rfl
    rw [timeReqDue_due hrole hdue, hlink] at hexec
    obtain ⟨hout, htime, hother⟩ := sendOr_some ({ s with time := { s.time with reqAt := s.time.ticks + timePeriod } } : State) w link
      (s.timeReq link)
    refine ⟨_, s.timeReq link, hexec, hout, rfl, timeReq_src s link, ?_, ?_, hother⟩
    · rw [htime]
      rfl
    · rw [htime]
  case dropped =>
    have hexec : exec (.timeReq none) s = .next s.timeReqDue := rfl
    rw [timeReqDue_due hrole hdue, hlink] at hexec
    obtain ⟨hports, htime, hdrop⟩ := sendOr_none ({ s with time := { s.time with reqAt := s.time.ticks + timePeriod } } : State) link
      (s.timeReq link)
    exact ⟨_, hexec, hports, by rw [htime]; rfl, hdrop⟩
  case early => exact congrArg Host.Outcome.next (timeReqDue_idle h)
  case answer =>
    obtain ⟨hout, htime, -⟩ := sendOr_some s m.port.toNat m.port.toNat (s.timeAnswer m)
    exact ⟨_, s.timeAnswer m, rfl, hout, rfl, rfl, htime⟩
  case offset =>
    have hexec : exec (.timeResp m) s = .next (s.tookFree.takeOffset (s.timeOffset m / 2 + m.off.toInt)) :=
      congrArg Host.Outcome.next (if_neg (by simpa using hrole))
    have hfree : ((s.freeNat 1 : Nat) : Int) = 0 ∨ ((s.freeNat 1 : Nat) : Int) = 1 := by
      have : s.freeNat 1 < 2 := Nat.mod_lt _ (by decide)
      omega
    exact ⟨_, (s.freeNat 1 : Nat), hexec, hfree, takeOffset_spec s.tookFree _⟩
  case noFollower => exact congrArg Host.Outcome.next (if_pos hrole)

/-- Settles O34: the edges of the reference, and the messages of pod time. -/
theorem almanacAndPodTime : Obligations.AlmanacAndPodTime := by
  unfold Obligations.AlmanacAndPodTime
  exact ⟨almanacTicks, podTime⟩

end Sys2Proof.Machine
end

section
/-! PROOFS. The level sequencer: requests, restarts, and the regulator's readiness. -/

namespace Sys2Proof.Machine

namespace State

/-! ## What the sequencer leaves -/

/-- Time, the core plane, HBM, bring-up, the engines and every register but PWR_LEVEL are the same. -/
structure LevelFrame (s t : State) : Prop where
  time : t.time = s.time
  plane : t.plane = s.plane
  hbm : t.hbm = s.hbm
  boot : t.boot = s.boot
  se : t.se = s.se
  regs : ∀ r, r ≠ PWR_LEVEL.off → t.reg r = s.reg r

namespace LevelFrame

variable {s t u : State}

theorem refl (s : State) : LevelFrame s s := ⟨rfl, rfl, rfl, rfl, rfl, fun _ _ => rfl⟩

theorem trans (h : LevelFrame s t) (g : LevelFrame t u) : LevelFrame s u :=
  ⟨g.time.trans h.time, g.plane.trans h.plane, g.hbm.trans h.hbm, g.boot.trans h.boot, g.se.trans h.se,
    fun r hr => (g.regs r hr).trans (h.regs r hr)⟩

theorem ite {c : Prop} [Decidable c] (ht : LevelFrame s t) (hu : LevelFrame s u) : LevelFrame s (if c then t else u) := by
  split
  · exact ht
  · exact hu

theorem fld (h : LevelFrame s t) {f : Fld} (hf : f.off ≠ PWR_LEVEL.off) : t.fld f = s.fld f := fld_congr (h.regs _ hf)
theorem flag (h : LevelFrame s t) {f : Fld} (hf : f.off ≠ PWR_LEVEL.off) : t.flag f = s.flag f := flag_congr (h.regs _ hf)

end LevelFrame

theorem setPower_levelFrame (s : State) (p : Power) : LevelFrame s (s.setPower p) := ⟨rfl, rfl, rfl, rfl, rfl, fun _ _ => rfl⟩

theorem setFld_levelFrame (s : State) {f : Fld} (h : f.off = PWR_LEVEL.off) (n : Nat) : LevelFrame s (s.setFld f n) :=
  ⟨rfl, rfl, rfl, rfl, rfl, fun r hr => reg_setFld_of_ne s f n (by rw [h]; exact hr)⟩

/-! ## Fields of PWR_LEVEL -/

theorem setState_self (s : State) {n : Nat} (h : n < 8) : (s.setFld PWR_LEVEL.STATE n).fld PWR_LEVEL.STATE = n :=
  (fld_setFld_self _ _ _ (by decide) (by decide)).trans (Nat.mod_eq_of_lt h)

theorem setState_vsel (s : State) (n : Nat) : (s.setFld PWR_LEVEL.STATE n).fld PWR_LEVEL.VSEL = s.fld PWR_LEVEL.VSEL :=
  fld_setFld_apart _ _ _ _ rfl (by decide) (by decide) (by decide)

theorem setState_level (s : State) (n : Nat) : (s.setFld PWR_LEVEL.STATE n).level = s.level :=
  fld_setFld_apart _ PWR_LEVEL.STATE PWR_LEVEL.LEVEL _ rfl (by decide) (by decide) (by decide)

/-- The level in force is one of eight. -/
theorem level_lt (s : State) : s.level < 8 := fld_lt s PWR_LEVEL.LEVEL

theorem setState_lastStop (s : State) (n : Nat) :
    (s.setFld PWR_LEVEL.STATE n).fld PWR_LEVEL.LAST_STOP = s.fld PWR_LEVEL.LAST_STOP :=
  fld_setFld_apart _ _ _ _ rfl (by decide) (by decide) (by decide)

/-- A change of VSEL leaves the fields of PWR_LEVEL but its code and VR_READY. -/
theorem setVsel_fld (s : State) (v : Nat) {f : Fld} (hoff : f.off = PWR_LEVEL.off)
    (hvsel : PWR_LEVEL.VSEL.hi < f.lo ∨ f.hi < PWR_LEVEL.VSEL.lo)
    (hready : PWR_LEVEL.VR_READY.hi < f.lo ∨ f.hi < PWR_LEVEL.VR_READY.lo) : (s.setVsel v).fld f = s.fld f := by
  unfold setVsel
  split
  · rfl
  · exact (fld_setFld_apart _ PWR_LEVEL.VR_READY f _ hoff (by decide) (by decide) hready).trans
      (fld_setFld_apart _ PWR_LEVEL.VSEL f _ hoff (by decide) (by decide) hvsel)

theorem setVsel_vsel (s : State) {v : Nat} (h : v < 8) : (s.setVsel v).fld PWR_LEVEL.VSEL = v := by
  unfold setVsel
  split
  · next hv => exact hv
  · exact (fld_setFld_apart _ PWR_LEVEL.VR_READY PWR_LEVEL.VSEL _ rfl (by decide) (by decide) (by decide)).trans
      ((fld_setFld_self _ _ _ (by decide) (by decide)).trans (Nat.mod_eq_of_lt h))

theorem setVsel_state (s : State) (v : Nat) : (s.setVsel v).fld PWR_LEVEL.STATE = s.fld PWR_LEVEL.STATE :=
  setVsel_fld s v rfl (by decide) (by decide)

theorem setVsel_level (s : State) (v : Nat) : (s.setVsel v).level = s.level :=
  setVsel_fld s v (f := PWR_LEVEL.LEVEL) rfl (by decide) (by decide)

/-- Of the sequencer's records only those of the wait for VR_READY change. -/
theorem setVsel_power (s : State) (v : Nat) :
    ∃ at_ sample wait, (s.setVsel v).power = { s.power with vselAt := at_, readySample := sample, vselWait := wait } := by
  unfold setVsel
  split
  · exact ⟨_, _, _, rfl⟩
  · exact ⟨_, _, _, rfl⟩

/-! ## Moves -/

theorem setVsel_levelFrame (s : State) (v : Nat) : LevelFrame s (s.setVsel v) := by
  unfold setVsel
  exact .ite (.refl s) (((setFld_levelFrame s rfl v).trans (setFld_levelFrame _ rfl 0)).trans (setPower_levelFrame _ _))

theorem moveFaster_levelFrame (s : State) (t : Nat) : LevelFrame s (s.moveFaster t) :=
  ((setPower_levelFrame s _).trans (setVsel_levelFrame _ t)).trans (setFld_levelFrame _ rfl _)

theorem moveSlower_levelFrame (s : State) (t : Nat) : LevelFrame s (s.moveSlower t) := setPower_levelFrame s _

/-- Whatever a request does, it is the sequencer's. -/
theorem levelRequest_levelFrame (s : State) (t : Nat) : LevelFrame s (s.levelRequest t) := by
  unfold levelRequest
  dsimp only
  refine .ite (.refl s) (.ite (setPower_levelFrame s _) (.ite (.ite (setPower_levelFrame s _) (.ite (.refl s)
    (.ite (moveFaster_levelFrame s t) ?_))) (.ite ?_ (.ite (.ite (setPower_levelFrame s _) (moveSlower_levelFrame s t))
    (.ite (setPower_levelFrame s _) (moveFaster_levelFrame s t))))))
  · have hidle : LevelFrame s ((s.setFld PWR_LEVEL.STATE lvIdle).setPower { s.power with target := s.level }) :=
      (setFld_levelFrame s rfl _).trans (setPower_levelFrame _ _)
    exact .ite (hidle.trans (setVsel_levelFrame _ _)) (hidle.trans (moveSlower_levelFrame _ t))
  · exact (setPower_levelFrame s _).trans (setVsel_levelFrame _ _)

/-- A faster move begins (R693). -/
theorem moveFaster_spec (s : State) {t : Nat} (h : t < 8) :
    (s.moveFaster t).power.target = t ∧ (s.moveFaster t).fld PWR_LEVEL.VSEL = t ∧ (s.moveFaster t).fld PWR_LEVEL.STATE = lvFaster ∧
    (s.moveFaster t).level = s.level := by
  obtain ⟨a, b, c, hpower⟩ := setVsel_power (s.setPower { s.power with target := t, queued := none, stopDue := none }) t
  refine ⟨?_, (setState_vsel _ _).trans (setVsel_vsel _ h), setState_self _ (by decide),
    (setState_level _ _).trans (setVsel_level _ t)⟩
  exact congrArg Power.target hpower

/-! ## Requests -/

section
variable {s : State} {t : Nat} (htrip : s.flag LG_STATUS.TRIPPED = false) (hroot : s.time.rootGated = false)
include htrip hroot

/-- The sequencer is idle or waits for VR_READY of a slower move. -/
theorem levelRequest_settled (hst : s.fld PWR_LEVEL.STATE = lvIdle ∨ s.fld PWR_LEVEL.STATE = lvSlower) :
    s.levelRequest t =
      if t = s.level then (s.setPower { s.power with target := s.level, queued := none, stopDue := none }).setVsel s.level
      else if s.level < t then (if s.power.stopDue.isSome then s.setPower { s.power with target := t } else s.moveSlower t)
      else if s.fld PWR_LEVEL.STATE = lvSlower then s.setPower { s.power with target := s.level, queued := some t, stopDue := none }
      else s.moveFaster t := by
  have hstop : s.fld PWR_LEVEL.STATE ≠ lvStopped := by rcases hst with h | h <;> rw [h] <;> decide
  have hfaster : s.fld PWR_LEVEL.STATE ≠ lvFaster := by rcases hst with h | h <;> rw [h] <;> decide
  unfold levelRequest
  dsimp only
  rw [htrip, hroot, Bool.or_false, if_neg Bool.false_ne_true, if_neg hstop, if_neg hfaster]
  simp only [decide_eq_true_eq]

end

/-! ## Decisions -/

theorem decided_lt (s : State) : s.decided < 8 := by
  have hceil := fld_lt s LG_CEIL.CEILING
  have hreq := fld_lt s LG_CEIL.REQ
  have htherm := fld_lt s LG_STATUS.THERMAL
  have hpow := fld_lt s LG_STATUS.POWER
  have halert := fld_lt s LG_STATUS.ALERT
  have hnear := fld_lt s LG_STATUS.NEIGHBOUR
  simp only [LG_CEIL.CEILING, LG_CEIL.REQ, LG_STATUS.THERMAL, LG_STATUS.POWER, LG_STATUS.ALERT, LG_STATUS.NEIGHBOUR] at *
  simp only [decided, List.foldl, LG_CEIL.CEILING, LG_CEIL.REQ, LG_STATUS.THERMAL, LG_STATUS.POWER, LG_STATUS.ALERT, LG_STATUS.NEIGHBOUR]
  omega

/-- The state in which a decision is requested: LG_STATUS reports it. -/
def reported (s : State) : State := s.setFld LG_STATUS.LEVEL s.decided

theorem reported_spec (s : State) :
    (reported s).fld LG_STATUS.LEVEL = s.decided ∧ (reported s).flag LG_STATUS.TRIPPED = s.flag LG_STATUS.TRIPPED ∧
    ∀ r, r ≠ LG_STATUS.off → (reported s).reg r = s.reg r :=
  ⟨(fld_setFld_self _ _ _ (by decide) (by decide)).trans (Nat.mod_eq_of_lt (decided_lt s)),
    flag_setFld_apart _ LG_STATUS.LEVEL LG_STATUS.TRIPPED _ rfl (by decide) (by decide) (by decide), fun _ hr => reg_setFld_of_ne _ _ _ hr⟩

/-- A decision for a faster level than the sequencer's goal waits for the clear of a timeout's event; any other is requested. -/
theorem exec_levelDecision (s : State) :
    exec .levelDecision s = if s.power.fasterOff && s.flag LG_EVENT.VR_TIMEOUT && s.decided < (reported s).levelGoal then .next (reported s)
      else .next ((reported s).levelRequest s.decided) := by
  have hevent : (reported s).flag LG_EVENT.VR_TIMEOUT = s.flag LG_EVENT.VR_TIMEOUT := flag_congr ((reported_spec s).2.2 _ (by decide))
  rw [← hevent]
  rfl

/-! ## Restarts -/

theorem levelScale_lt (l : Nat) : levelScale l < 2 ^ 20 := by
  unfold levelScale levelStep
  split <;> decide

theorem settleScale_reg (s : State) {r : Nat} (h : r ≠ ALM_SCALE.off) : s.settleScale.reg r = s.reg r := by
  unfold settleScale
  dsimp only
  rw [reg_setFld_of_ne _ _ _ h, reg_setFld_of_ne _ _ _ h]

/-- The deferral of a stop of `d` ticks and the scale of the new level, with what the pod hears of them (R71, R72). -/
def resume (s : State) (d own : Nat) : State := ((s.defer d).setFld ALM_SCALE.OWN own).settleScale.sendScale d

theorem resume_spec (s : State) (d : Nat) {own : Nat} (hown : own < 2 ^ 20) :
    let t := s.resume d own
    t.time = s.time ∧ t.power = s.power ∧ t.reg PWR_LEVEL.off = s.reg PWR_LEVEL.off ∧ t.fld ALM_SCALE.OWN = own ∧
    ∀ h, (t.hamper h).holdBase = (s.hamper h).holdBase + BitVec.ofNat 64 d := by
  intro t
  have hsend : KeepsControl _ t := sendScale_keepsControl ((s.defer d).setFld ALM_SCALE.OWN own).settleScale d
  obtain ⟨-, hscale, -, hunits⟩ := settleScale_spec ((s.defer d).setFld ALM_SCALE.OWN own)
  refine ⟨hsend.time.trans hunits.time, hsend.power.trans hunits.power, ?_, ?_, fun h => ?_⟩
  · rw [hsend.regs _ (by decide), settleScale_reg _ (by decide), reg_setFld_of_ne _ _ _ (by decide)]
    rfl
  · rw [hsend.fld (by decide), hscale]
    exact (fld_setFld_self _ _ _ (by decide) (by decide)).trans (Nat.mod_eq_of_lt hown)
  · have hdefer : (((s.defer d).setFld ALM_SCALE.OWN own).settleScale).hamper h = (s.defer d).hamper h := by
      rw [hamper, hunits.plane]
      rfl
    rw [hsend.hamper, hdefer, defer, hamper_mapHampers]

/-- The level's clock goes on. -/
def clockOnAgain (s : State) : State := ({ s with time := { s.time with stopped := false, phase := 0 } } : State).beginPeriod

theorem clockOnAgain_spec (s : State) :
    let t := s.clockOnAgain
    t.reg PWR_LEVEL.off = s.reg PWR_LEVEL.off ∧ t.time.stopped = false ∧ t.time.periods = s.time.periods + 1 ∧
    t.power = s.power ∧ ∀ h, t.hamper h = s.hamper h := by
  obtain ⟨u, hu, hbegin⟩ := beginPeriod_eq { s with time := { s.time with stopped := false, phase := 0 } }
  dsimp only
  rw [clockOnAgain, hbegin]
  exact ⟨hu.regs _ (by decide), rfl, rfl, hu.power, hu.hamper⟩

/-- A level and the length of a stop are reported. -/
def reportStop (s : State) (m d : Nat) : State := (s.setFld PWR_LEVEL.LEVEL m).setFld PWR_LEVEL.LAST_STOP d

theorem reportStop_spec (s : State) {m : Nat} (d : Nat) (hm : m < 8) :
    (s.reportStop m d).level = m ∧ (s.reportStop m d).fld PWR_LEVEL.LAST_STOP = d % 2 ^ 32 :=
  ⟨(fld_setFld_apart _ PWR_LEVEL.LAST_STOP PWR_LEVEL.LEVEL _ rfl (by decide) (by decide) (by decide)).trans
      ((fld_setFld_self _ _ _ (by decide) (by decide)).trans (Nat.mod_eq_of_lt hm)),
    fld_setFld_self _ _ _ (by decide) (by decide)⟩

/-- The state in which the groves go on at the target, before VSEL and the sequencer follow. -/
def resumed (s : State) : State :=
  let d := s.time.ticks - s.power.stopAt
  ((s.reportStop s.power.target d).clockOnAgain).resume d (levelScale s.power.target)

/-- The groves go on: the level and the length of the stop, the scale, the deferral, and the period that begins. -/
theorem resumed_spec {s : State} (htarget : s.power.target < 8) :
    let d := s.time.ticks - s.power.stopAt
    let t := s.resumed
    t.level = s.power.target ∧ t.fld PWR_LEVEL.LAST_STOP = d % 2 ^ 32 ∧ t.fld ALM_SCALE.OWN = levelScale s.power.target ∧
    t.time.stopped = false ∧ t.time.periods = s.time.periods + 1 ∧ t.power = s.power ∧
    ∀ h, (t.hamper h).holdBase = (s.hamper h).holdBase + BitVec.ofNat 64 d := by
  intro d t
  obtain ⟨hlevel, hstop⟩ := reportStop_spec s d htarget
  obtain ⟨creg, crun, cperiods, cpower, champer⟩ := clockOnAgain_spec (s.reportStop s.power.target d)
  obtain ⟨rtime, rpower, rreg, rown, rbase⟩ := resume_spec (s.reportStop s.power.target d).clockOnAgain d (levelScale_lt s.power.target)
  refine ⟨(fld_congr (rreg.trans creg)).trans hlevel, (fld_congr (rreg.trans creg)).trans hstop, rown,
    (congrArg Time.stopped rtime).trans crun, (congrArg Time.periods rtime).trans cperiods, rpower.trans cpower,
    fun h => (rbase h).trans ?_⟩
  rw [champer]
  rfl

/-- The sequencer at the end of a stop: VSEL follows a slower move, and a faster one is over. -/
def settledMove (s : State) : State :=
  if s.level < s.power.target then (s.resumed.setVsel s.power.target).setFld PWR_LEVEL.STATE lvSlower
  else s.resumed.setFld PWR_LEVEL.STATE lvIdle

theorem restart_eq (s : State) : s.restart =
    match s.power.want with
    | none => s.settledMove
    | some n => (s.settledMove.setPower { s.settledMove.power with want := none }).levelRequest n := rfl

/-- A restart with no request kept. -/
theorem settledMove_spec {s : State} (htarget : s.power.target < 8) :
    let d := s.time.ticks - s.power.stopAt
    let t := s.settledMove
    t.level = s.power.target ∧ t.fld PWR_LEVEL.STATE = (if s.level < s.power.target then lvSlower else lvIdle) ∧
    (s.level < s.power.target → t.fld PWR_LEVEL.VSEL = s.power.target) ∧
    t.fld PWR_LEVEL.LAST_STOP = d % 2 ^ 32 ∧ t.fld ALM_SCALE.OWN = levelScale s.power.target ∧
    t.time.stopped = false ∧ t.time.periods = s.time.periods + 1 ∧
    ∀ h, (t.hamper h).holdBase = (s.hamper h).holdBase + BitVec.ofNat 64 d := by
  obtain ⟨hlevel, hstop, hown, hrun, hperiods, -, hbase⟩ := resumed_spec htarget
  dsimp only
  unfold settledMove
  by_cases hslower : s.level < s.power.target
  · have hframe := (setVsel_levelFrame s.resumed s.power.target).trans
      (setFld_levelFrame (s.resumed.setVsel s.power.target) (f := PWR_LEVEL.STATE) rfl lvSlower)
    rw [if_pos hslower, if_pos hslower]
    refine ⟨(setState_level _ _).trans ((setVsel_level _ _).trans hlevel), setState_self _ (by decide),
      fun _ => (setState_vsel _ _).trans (setVsel_vsel _ htarget),
      (setState_lastStop _ _).trans ((setVsel_fld _ _ rfl (by decide) (by decide)).trans hstop),
      (hframe.fld (by decide)).trans hown, (congrArg Time.stopped hframe.time).trans hrun,
      (congrArg Time.periods hframe.time).trans hperiods, fun h => ?_⟩
    rw [hamper, hframe.plane]
    exact hbase h
  · have hframe := setFld_levelFrame s.resumed (f := PWR_LEVEL.STATE) rfl lvIdle
    rw [if_neg hslower, if_neg hslower]
    exact ⟨(setState_level _ _).trans hlevel, setState_self _ (by decide), fun h => absurd h hslower,
      (setState_lastStop _ _).trans hstop, (hframe.fld (by decide)).trans hown, hrun, hperiods, hbase⟩

/-! ## VR_READY -/

/-- The state with VR_READY accepted. -/
def readied (s : State) : State := (s.setFld PWR_LEVEL.VR_READY 1).setPower { s.power with vselWait := false }

theorem readied_flag (s : State) : s.readied.flag PWR_LEVEL.VR_READY = true :=
  flag_setFld_self s true (by decide) (by decide)

theorem readied_fld (s : State) {f : Fld} (hoff : f.off = PWR_LEVEL.off)
    (h : PWR_LEVEL.VR_READY.hi < f.lo ∨ f.hi < PWR_LEVEL.VR_READY.lo) : s.readied.fld f = s.fld f :=
  fld_setFld_apart _ PWR_LEVEL.VR_READY f _ hoff (by decide) (by decide) h

theorem setState_ready (s : State) (n : Nat) : (s.setFld PWR_LEVEL.STATE n).flag PWR_LEVEL.VR_READY = s.flag PWR_LEVEL.VR_READY :=
  flag_setFld_apart _ _ _ _ rfl (by decide) (by decide) (by decide)

theorem vrReady_eq (s : State) : s.vrReady =
    if s.time.rootGated then s.readied
    else if s.fld PWR_LEVEL.STATE = lvFaster then
      (if s.power.stopDue.isSome then s.readied
       else s.readied.setPower { s.readied.power with stopDue := some (s.time.ticks + stopLag) })
    else if s.fld PWR_LEVEL.STATE = lvSlower then
      if s.power.stopDue.isSome then s.readied.setFld PWR_LEVEL.STATE lvIdle
      else
        match s.power.queued with
        | none => s.readied.setFld PWR_LEVEL.STATE lvIdle
        | some t => ((s.readied.setFld PWR_LEVEL.STATE lvIdle).setPower { s.readied.power with queued := none }).levelRequest t
    else s.readied := by
  have hst : s.readied.fld PWR_LEVEL.STATE = s.fld PWR_LEVEL.STATE := readied_fld s rfl (by decide)
  rw [← hst]
  rfl

/-! ## Timeouts of VR_READY -/

/-- VR_READY has not risen in 50 µs of a wait. -/
def readyLate (s : State) : Prop :=
  s.power.vselWait = true ∧ s.flag PWR_LEVEL.VR_READY = false ∧ s.power.vselAt + 35000 ≤ s.time.ticks ∧ s.time.rootGated = false

/-- The wait ends with its event. -/
def waitEnded (s : State) : State :=
  (s.lgEvent leTimeout).setPower { s.power with
    vselWait := false, fasterOff := s.fld PWR_LEVEL.STATE = lvFaster || (s.power.fasterOff && s.flag LG_EVENT.VR_TIMEOUT) }

theorem vrTimeout_early {s : State} (h : ¬ s.readyLate) : s.vrTimeout = s := by
  refine if_pos ?_
  simp only [readyLate, not_and_or, Bool.not_eq_true, Bool.not_eq_false, Nat.not_le] at h
  simp only [Bool.or_eq_true, Bool.not_eq_true', decide_eq_true_eq, or_assoc]
  exact h

theorem vrTimeout_late {s : State} (h : s.readyLate) : s.vrTimeout =
    if s.fld PWR_LEVEL.STATE = lvFaster then
      let t := (s.waitEnded.setVsel s.level).setFld PWR_LEVEL.STATE lvIdle
      t.setPower { t.power with target := s.level }
    else s.waitEnded := by
  obtain ⟨hwait, hready, hat, hroot⟩ := h
  have hlate : (!s.power.vselWait || s.flag PWR_LEVEL.VR_READY || decide (s.time.ticks < s.power.vselAt + 35000) ||
      s.time.rootGated) = false := by
    rw [hwait, hready, hroot, decide_eq_false (Nat.not_lt.2 hat)]
    rfl
  unfold vrTimeout
  dsimp only
  rw [hlate]
  rfl

theorem waitEnded_reg (s : State) : s.waitEnded.reg PWR_LEVEL.off = s.reg PWR_LEVEL.off :=
  lgEvent_reg s leTimeout (by decide) (by decide)

theorem waitEnded_flag (s : State) : s.waitEnded.flag LG_EVENT.VR_TIMEOUT = true := lgEvent_flag s (by decide : leTimeout < 64)

end State

open State in
theorem levelMoves : Claims.LevelMoves := by
  unfold Claims.LevelMoves
  intro s p st f d free_ late
  obtain ⟨hreport, htripped, hregs⟩ := reported_spec s
  have hstate : (reported s).fld PWR_LEVEL.STATE = st := fld_congr (hregs _ (by decide))
  have hlevel : (reported s).level = f := fld_congr (hregs _ (by decide))
  have hstep := exec_levelDecision s
  have hgoal : st = lvIdle → p.stopDue = none → (reported s).levelGoal = f := by
    intro hst hstop
    have hidle : (reported s).fld PWR_LEVEL.STATE = lvIdle := hstate.trans hst
    rw [levelGoal, hidle, show (reported s).power.stopDue = none from hstop]
    exact hlevel
  have hpwr : (reported s).reg PWR_LEVEL.off = s.reg PWR_LEVEL.off := hregs _ (by decide)
  -- A decision that is not held back is requested; the sequencer is settled.
  have hrequest : free_ → (st = lvIdle ∨ st = lvSlower) →
      (p.fasterOff && s.flag LG_EVENT.VR_TIMEOUT && decide (d < (reported s).levelGoal)) = false →
      exec .levelDecision s = .next (
        if d = f then ((reported s).setPower { p with target := f, queued := none, stopDue := none }).setVsel f
        else if f < d then (if p.stopDue.isSome then (reported s).setPower { p with target := d } else (reported s).moveSlower d)
        else if st = lvSlower then (reported s).setPower { p with target := f, queued := some d, stopDue := none }
        else (reported s).moveFaster d) := by
    intro hfree hst hgo
    have hreq := levelRequest_settled (s := reported s) (t := d) (htripped.trans hfree.1) hfree.2 (by rw [hstate]; exact hst)
    rw [hstate, hlevel] at hreq
    rw [hstep, hgo]
    exact congrArg Host.Outcome.next hreq
  refine ⟨?report, fun hfree hst hd hstop => ?slower, fun hfree hst hd hstop hoff => ?faster, fun hfree hst hd hstop hoff hevent => ?off,
    fun hstop hst hroot => ?readyFaster, fun hstop hst hqueued hroot => ?readySlower, fun hfree hst hd hoff => ?same,
    fun hstop hroot hst => ?readyStopping, fun hroot => ?readyGated, fun hst hroot htarget hwant => ?restart, fun hst => ?noRestart,
    fun hlate hst => ?timeoutFaster, fun hlate hst => ?timeoutOther, fun hlate => ?noTimeout⟩
  case report =>
    rw [hstep]
    split
    · exact ⟨_, rfl, hreport, rfl, rfl⟩
    · have hframe := levelRequest_levelFrame (reported s) d
      exact ⟨_, rfl, (hframe.fld (by decide)).trans hreport, hframe.plane, hframe.hbm⟩
  case slower =>
    have hexec := hrequest hfree (Or.inl hst) (by rw [hgoal hst hstop, decide_eq_false (by omega), Bool.and_false])
    rw [if_neg (by omega), if_pos hd, hstop] at hexec
    exact ⟨_, hexec, rfl, rfl, hpwr⟩
  case faster =>
    have hexec := hrequest hfree (Or.inl hst) (by rw [hoff, Bool.false_and])
    rw [if_neg (by omega), if_neg (by omega), if_neg (by rw [hst]; decide)] at hexec
    obtain ⟨htarget, hvsel, hfaster, hlev⟩ := moveFaster_spec (reported s) (decided_lt s)
    exact ⟨_, hexec, htarget, hvsel, hfaster, hlev.trans hlevel⟩
  case off =>
    rw [hgoal hst hstop, hoff, hevent, decide_eq_true hd] at hstep
    exact ⟨_, hstep, rfl, hpwr⟩
  case readyFaster =>
    have hexec : exec .vrReady s = .next s.vrReady := rfl
    rw [vrReady_eq, hroot, if_neg Bool.false_ne_true, if_pos hst, show s.power.stopDue = none from hstop] at hexec
    exact ⟨_, hexec, readied_flag s, rfl, (readied_fld s rfl (by decide)).trans hst, rfl⟩
  case readySlower =>
    have hexec : exec .vrReady s = .next s.vrReady := rfl
    rw [vrReady_eq, hroot, if_neg Bool.false_ne_true, if_neg (by rw [show s.fld PWR_LEVEL.STATE = lvSlower from hst]; decide),
      if_pos hst, show s.power.stopDue = none from hstop, show s.power.queued = none from hqueued] at hexec
    exact ⟨_, hexec, (setState_ready _ _).trans (readied_flag s), setState_self _ (by decide), rfl, rfl⟩
  case same =>
    have hexec := hrequest hfree hst (by rw [hoff, Bool.false_and])
    rw [if_pos hd] at hexec
    obtain ⟨a, b, c, hpower⟩ := setVsel_power ((reported s).setPower { p with target := f, queued := none, stopDue := none }) f
    refine ⟨_, hexec, ?_, ?_, ?_, setVsel_vsel _ (level_lt s), (setVsel_state _ _).trans hstate, (setVsel_level _ _).trans hlevel⟩
    · rw [hpower]
      rfl
    · rw [hpower]
      rfl
    · rw [hpower]
      rfl
  case readyStopping =>
    have hexec : exec .vrReady s = .next s.vrReady := rfl
    have hdue : s.power.stopDue.isSome = true := hstop
    rw [vrReady_eq, hroot, if_neg Bool.false_ne_true] at hexec
    rcases hst with hst | hst
    · rw [if_pos hst, if_pos hdue] at hexec
      refine ⟨_, hexec, readied_flag s, rfl, (readied_fld s rfl (by decide)).trans ?_, rfl⟩
      rw [if_neg (by rw [hst]; decide)]
    · rw [if_neg (by rw [show s.fld PWR_LEVEL.STATE = lvSlower from hst]; decide), if_pos hst, if_pos hdue] at hexec
      refine ⟨_, hexec, (setState_ready _ _).trans (readied_flag s), rfl, (setState_self _ (by decide)).trans ?_, rfl⟩
      rw [if_pos hst]
  case readyGated =>
    have hexec : exec .vrReady s = .next s.vrReady := rfl
    rw [vrReady_eq, if_pos hroot] at hexec
    exact ⟨_, hexec, readied_flag s, readied_fld s rfl (by decide), readied_fld s rfl (by decide),
      readied_fld s (f := PWR_LEVEL.LEVEL) rfl (by decide)⟩
  case restart =>
    have hexec : exec .groveRestart s = .next s.restart := if_pos (by simpa using ⟨hst, hroot⟩)
    obtain ⟨rlevel, rstate, rvsel, rstop, rown, rrun, rperiods, rbase⟩ := settledMove_spec htarget
    rw [restart_eq, show s.power.want = none from hwant] at hexec
    exact ⟨_, hexec, rlevel, rstate, rvsel, rstop, rown, rrun, rperiods, rbase⟩
  case noRestart => exact if_neg (by simpa [Classical.or_iff_not_imp_left] using hst)
  case timeoutFaster =>
    have hexec : exec .vrTimeout s = .next s.vrTimeout := rfl
    rw [vrTimeout_late hlate, if_pos hst] at hexec
    obtain ⟨a, b, c, hpower⟩ := setVsel_power s.waitEnded s.level
    have hframe := (setVsel_levelFrame s.waitEnded s.level).trans (setFld_levelFrame _ (f := PWR_LEVEL.STATE) rfl lvIdle)
    refine ⟨_, hexec, (hframe.flag (by decide)).trans (waitEnded_flag s), (setState_vsel _ _).trans (setVsel_vsel _ (level_lt s)),
      setState_self _ (by decide), ?_, rfl, ?_⟩
    · exact ((setState_level _ _).trans (setVsel_level _ _)).trans (fld_congr (waitEnded_reg s))
    · refine (congrArg Power.fasterOff hpower).trans ?_
      exact Bool.or_eq_true_iff.2 (Or.inl (decide_eq_true hst))
  case timeoutOther =>
    have hexec : exec .vrTimeout s = .next s.vrTimeout := rfl
    rw [vrTimeout_late hlate, if_neg hst] at hexec
    refine ⟨_, hexec, waitEnded_flag s, fld_congr (waitEnded_reg s), fld_congr (waitEnded_reg s), fld_congr (waitEnded_reg s), ?_⟩
    show ({ s.power with vselWait := false, fasterOff := _ } : Power) = _
    rw [decide_eq_false hst, Bool.false_or]
  case noTimeout => exact congrArg Host.Outcome.next (vrTimeout_early hlate)

end Sys2Proof.Machine
end

section
/-! PROOFS. Device-fatal faults, trips, clock failures and clock gates. -/

namespace Sys2Proof.Machine

namespace State

/-! ## Channels and ports that a fatal fault disables -/

theorem unit_control (u : SeUnit) {o : Nat} (h : o < 0x40) : controlReg (u.base + o) = false := by
  have hbase : 0x101000 ≤ u.base ∧ u.base + 0x40 ≤ 0xC00000 := by
    cases u with
    | se n c =>
      have hn := n.isLt
      have hc := c.isLt
      simp only [SeUnit.base, SE_CH_CFG.off]
      omega
    | hdma c =>
      have hc := c.isLt
      simp only [SeUnit.base, HDMA_CH_CFG.off]
      omega
  apply controlReg_eq_false
  · simp only [BOOT_STATE.off]
    omega
  · omega
  · omega
  · omega

theorem hbmPut_keepsControl (s : State) (a : Nat) (bs : List Byte) : KeepsControl s (s.hbmPut a bs) :=
  .of_bar0 rfl rfl rfl rfl rfl rfl rfl

theorem tookFree_keepsControl (s : State) : KeepsControl s s.tookFree := .of_bar0 rfl rfl rfl rfl rfl rfl rfl

theorem hbmFree_keepsControl (s : State) (a n : Nat) : KeepsControl s (s.hbmFree a n) := by
  induction n generalizing s a with
  | zero => exact .refl s
  | succ n ih =>
    rw [hbmFree]
    exact ((hbmPut_keepsControl s a _).trans (tookFree_keepsControl _)).trans (ih _ _)

theorem KeepsControl.ite {s t u : State} {c : Prop} [Decidable c] (ht : KeepsControl s t) (hu : KeepsControl s u) :
    KeepsControl s (if c then t else u) := by
  split
  · exact ht
  · exact hu

theorem setChan_keepsControl (s : State) (u : SeUnit) (k : Chan) : KeepsControl s (s.setChan u k) :=
  .of_bar0 rfl rfl rfl rfl rfl rfl rfl

theorem setEngine_keepsControl (s : State) (e : Nat) (k : Engine) : KeepsControl s (s.setEngine e k) :=
  .of_bar0 rfl rfl rfl rfl rfl rfl rfl

/-- A field of a channel's own registers. -/
theorem setUnitFld_keepsControl (s : State) (u : SeUnit) {f : Fld} (o : Nat) (hoff : f.off = u.base + o) (ho : o < 0x40) (n : Nat) :
    KeepsControl s (s.setFld f n) := setFld_keepsControl s (by rw [hoff]; exact unit_control u ho) n

/-- DISABLE of a channel. -/
theorem chDisable_keepsControl (s : State) (u : SeUnit) : KeepsControl s (s.chDisable u) := by
  have hheld : KeepsControl s
      (if u.isHdma then { s with se := { s.se with hostHeld := s.se.hostHeld.filter fun x => x.1 ≠ u.ch } } else s) :=
    .ite (.of_bar0 rfl rfl rfl rfl rfl rfl rfl) (.refl s)
  have hfree : ∀ (t : State) (f : Fld) (o n : Nat), f.off = u.base + o → o < 0x40 → KeepsControl t ((t.setFld f n).tookFree) :=
    fun t f o n hoff ho => (setUnitFld_keepsControl t u o hoff ho n).trans (tookFree_keepsControl _)
  unfold chDisable
  dsimp only
  refine .trans ?_ (.foldl (fun t b _ => .ite (hbmFree_keepsControl t _ _) (.refl t)) _)
  have hchan := (hheld.trans (setChan_keepsControl _ u {})).trans
    ((setUnitFld_keepsControl _ u (f := u.fState) 0x28 rfl (by decide) chDisabled).trans
      (setUnitFld_keepsControl _ u (f := u.fHeld) 0x28 rfl (by decide) 0))
  have hserial : ∀ t, KeepsControl s t → KeepsControl s (if (t.engine u.eng).serial = some u.ch then
      t.setEngine u.eng { t.engine u.eng with serial := none } else t) := fun t ht =>
    .ite (ht.trans (setEngine_keepsControl t _ _)) ht
  have hhead : ∀ t, KeepsControl s t → KeepsControl s ((t.setFld u.fHead (t.freeNat 16)).tookFree) := fun t ht =>
    ht.trans (hfree t u.fHead 0x18 _ rfl (by decide))
  have hdone : ∀ t, KeepsControl s t → KeepsControl s ((t.setFld u.fDone (t.freeNat 16)).tookFree) := fun t ht =>
    ht.trans (hfree t u.fDone 0x18 _ rfl (by decide))
  have hcredit : ∀ t, KeepsControl s t → KeepsControl s (if u.isHdma then t else (t.setFld u.fCredit (t.freeNat 4)).tookFree) :=
    fun t ht => .ite ht (ht.trans (hfree t u.fCredit 0x28 _ rfl (by decide)))
  have hbefore := hcredit _ (hdone _ (hhead _ (hserial _ hchan)))
  split
  · exact hbefore
  · exact hbefore.trans ((hbmPut_keepsControl _ _ _).trans (tookFree_keepsControl _))

theorem psiud_control {o : Nat} (h : 0x800000 ≤ o) (h2 : o < 0xC00000) : controlReg o = false := by
  apply controlReg_eq_false
  · simp only [BOOT_STATE.off]
    omega
  · omega
  · omega
  · omega

theorem setPort_keepsControl (s : State) (p : Nat) (k : Port) : KeepsControl s (s.setPort p k) :=
  .of_bar0 rfl rfl rfl rfl rfl rfl rfl

theorem txDisable_keepsControl (s : State) {p c : Nat} (hp : p < 16) (hc : c < 64) : KeepsControl s (s.txDisable p c) := by
  refine (setPort_keepsControl s p _).trans (setFld_keepsControl _ (psiud_control ?_ ?_) _)
  · simp only [PSIUD_TX_STAT.STATE, PSIUD_TX_STAT.off]
    omega
  · simp only [PSIUD_TX_STAT.STATE, PSIUD_TX_STAT.off]
    omega

theorem rxDisable_keepsControl (s : State) {p c : Nat} (hp : p < 16) (hc : c < 64) : KeepsControl s (s.rxDisable p c) := by
  refine ((setPort_keepsControl s p _).trans (setFld_keepsControl _ (psiud_control ?_ ?_) _)).trans (setPort_keepsControl _ p _)
  · simp only [PSIUD_RX_STAT.STATE, PSIUD_RX_STAT.off]
    omega
  · simp only [PSIUD_RX_STAT.STATE, PSIUD_RX_STAT.off]
    omega

theorem disablePort_keepsControl (s : State) {p : Nat} (hp : p < 16) : KeepsControl s (s.disablePort p) := by
  refine .foldl (fun t c hc => ?_) s
  have hc := List.mem_range.1 hc
  have htx : KeepsControl t (if t.txState p c = txDisabled then t else t.txDisable p c) :=
    .ite (.refl t) (txDisable_keepsControl t hp hc)
  exact .ite htx (htx.trans (rxDisable_keepsControl _ hp hc))

theorem disableAll_keepsControl (s : State) : KeepsControl s s.disableAll :=
  (KeepsControl.foldl (fun t u _ => chDisable_keepsControl t u) s).trans
    (.foldl (fun t _ hp => disablePort_keepsControl t (List.mem_range.1 (List.mem_of_mem_filter hp))) _)

theorem setPortState_keepsControl (s : State) {p : Nat} (hp : p < 16) (st : Nat) : KeepsControl s (s.setPortState p st) := by
  refine .ite (.refl s) ((setFld_keepsControl s (psiud_control ?_ ?_) _).trans (irqEvt_keepsControl _ _))
  · simp only [PSIUD_STAT.STATE, PSIUD_STAT.off]
    omega
  · simp only [PSIUD_STAT.STATE, PSIUD_STAT.off]
    omega

theorem down_keepsControl (s : State) {p : Nat} (hp : p < 16) : KeepsControl s (s.down p) :=
  (setPort_keepsControl s p _).trans (setPortState_keepsControl _ hp psDown)

/-! ## Device-fatal faults -/

/-- What a device-fatal fault leaves: all of time but the mark of FAILED, power, bring-up's record, and the registers but
BOOT_STATE and HIF_STATUS. -/
structure FatalFrame (s t : State) : Prop where
  time : t.time = s.time ∨ t.time = { s.time with failed := true }
  power : t.power = s.power
  boot : t.boot = s.boot
  regs : ∀ r, controlReg r = true → r ≠ BOOT_STATE.off → r ≠ HIF_STATUS.off → t.reg r = s.reg r

/-- FAILED: everything idle, and the state. -/
theorem enterFailed_spec (s : State) :
    FatalFrame s s.enterFailed ∧ s.enterFailed.fld BOOT_STATE.STATE = bsFailed ∧
    s.enterFailed.flag HIF_STATUS.READY = s.flag HIF_STATUS.READY := by
  have hfold : ∃ u, KeepsControl s u ∧ s.enterFailed =
      ({ u with time := { u.time with failed := true } } : State).setFld BOOT_STATE.STATE bsFailed :=
    ⟨_, (disableAll_keepsControl s).trans (.foldl (fun t p hp => .ite (.refl t) (down_keepsControl t (List.mem_range.1 hp))) _), rfl⟩
  obtain ⟨u, hu, hfailed⟩ := hfold
  rw [hfailed]
  refine ⟨⟨Or.inr (by rw [← hu.time]; rfl), hu.power, hu.boot, fun r hr hb _ => ?_⟩, ?_, ?_⟩
  · exact (reg_setFld_of_ne _ _ _ hb).trans (hu.regs r hr)
  · exact fld_setFld_self _ _ _ (by decide) (by decide)
  · exact (flag_congr (reg_setFld_of_ne _ _ _ (by decide))).trans (hu.flag (by decide))

/-- A device-fatal fault clears READY and ends in FATAL, or in FAILED where bring-up had not passed RESET or had failed (R657, R663). -/
theorem deviceFatal_spec (s : State) (src index code detail : Nat) :
    let t := s.deviceFatal src index code detail
    FatalFrame s t ∧ t.flag HIF_STATUS.READY = false ∧
    t.fld BOOT_STATE.STATE =
      if s.fld BOOT_STATE.STATE = bsReset ∨ s.fld BOOT_STATE.STATE = bsFailed then bsFailed else bsFatal := by
  intro t
  obtain ⟨u, hu, ht⟩ : ∃ u, KeepsControl s u ∧ t =
      let v := u.setFld HIF_STATUS.READY 0
      if v.fld BOOT_STATE.STATE = bsReset || v.fld BOOT_STATE.STATE = bsFailed then v.enterFailed
      else v.setFld BOOT_STATE.STATE bsFatal :=
    ⟨_, ((faultEntry_keepsControl s classDevice src index code detail).trans (abortRequest_keepsControl _ s.time.almanac true)).trans
      (disableAll_keepsControl _), rfl⟩
  let v := u.setFld HIF_STATUS.READY 0
  have hready : v.flag HIF_STATUS.READY = false := flag_setFld_self u false (by decide) (by decide)
  have hstate : v.fld BOOT_STATE.STATE = s.fld BOOT_STATE.STATE :=
    (fld_setFld_of_ne _ _ _ _ (by decide)).trans (hu.fld (by decide))
  have hregs : ∀ r, controlReg r = true → r ≠ HIF_STATUS.off → v.reg r = s.reg r := fun r hr hh =>
    (reg_setFld_of_ne _ _ _ hh).trans (hu.regs r hr)
  have ht : t = if v.fld BOOT_STATE.STATE = bsReset || v.fld BOOT_STATE.STATE = bsFailed then v.enterFailed
      else v.setFld BOOT_STATE.STATE bsFatal := ht
  rw [hstate] at ht
  by_cases hfail : s.fld BOOT_STATE.STATE = bsReset ∨ s.fld BOOT_STATE.STATE = bsFailed
  · obtain ⟨⟨ftime, fpower, fboot, fregs⟩, fstate, fready⟩ := enterFailed_spec v
    rw [if_pos (by simpa using hfail)] at ht
    rw [ht, if_pos hfail]
    have htime : v.time = s.time := hu.time
    rw [htime] at ftime
    exact ⟨⟨ftime, fpower.trans hu.power, fboot.trans hu.boot, fun r hr hb hh =>
      (fregs r hr hb hh).trans (hregs r hr hh)⟩, fready.trans hready, fstate⟩
  · rw [if_neg (by simpa using hfail)] at ht
    rw [ht, if_neg hfail]
    refine ⟨⟨Or.inl hu.time, hu.power, hu.boot, fun r hr hb hh => (reg_setFld_of_ne _ _ _ hb).trans (hregs r hr hh)⟩,
      (flag_congr (reg_setFld_of_ne _ _ _ (by decide))).trans hready, fld_setFld_self _ _ _ (by decide) (by decide)⟩

end State
end Sys2Proof.Machine
end

section
/-! PROOFS. Clock failures and clock gates. -/

namespace Sys2Proof.Machine

namespace State

/-! ## The failed source -/

/-- CLK_SRC after a failure of a source (R708). -/
theorem sourceDown_units (s : State) (c : ClockSource) :
    SameUnits s (s.sourceDown c) ∧ ∀ r, r ≠ CLK_SRC.off → (s.sourceDown c).reg r = s.reg r := by
  cases c with
  | crystal => exact ⟨(setRef_spec s false).2.2.1, (setRef_spec s false).2.2.2⟩
  | refLoop => exact ⟨setFld_units s _ _, fun r hr => reg_setFld_of_ne _ _ _ hr⟩
  | iosc => exact ⟨setFld_units s _ _, fun r hr => reg_setFld_of_ne _ _ _ hr⟩
  | grove g =>
    exact ⟨(setFlag_units s _).trans (setFld_units _ _ _), fun r hr =>
      (reg_setFld_of_ne _ _ _ hr).trans (reg_setFlag_of_ne _ _ hr)⟩

/-- The sequencer's move is given up: VSEL carries level 7, and the root is gated (R682). -/
def rootGatedAt (s : State) : State :=
  let t := (s.setVsel 7).setFld PWR_LEVEL.STATE lvIdle
  let t := t.setPower { t.power with target := t.level, stopDue := none, want := none, queued := none }
  { t with time := { t.time with rootGated := true } }

theorem rootGatedAt_spec (s : State) :
    let t := s.rootGatedAt
    t.time = { s.time with rootGated := true } ∧ t.fld PWR_LEVEL.STATE = lvIdle ∧ t.fld PWR_LEVEL.VSEL = 7 ∧
    (t.power.stopDue = none ∧ t.power.want = none ∧ t.power.queued = none) ∧
    ∀ r, r ≠ PWR_LEVEL.off → t.reg r = s.reg r := by
  have hframe := (setVsel_levelFrame s 7).trans (setFld_levelFrame _ (f := PWR_LEVEL.STATE) rfl lvIdle)
  have htime : ((s.setVsel 7).setFld PWR_LEVEL.STATE lvIdle).time = s.time := hframe.time
  refine ⟨?_, setState_self _ (by decide), (setState_vsel _ _).trans (setVsel_vsel s (by decide)), ⟨rfl, rfl, rfl⟩, hframe.regs⟩
  rw [← htime]
  rfl

/-! ## The loss of the reference -/

/-- A fold leaves HBM where each of its steps does. -/
theorem foldl_hbm {β : Type} {f : State → β → State} (hf : ∀ s b, (f s b).hbm = s.hbm) (xs : List β) (s : State) :
    (xs.foldl f s).hbm = s.hbm := by
  induction xs generalizing s with
  | nil => rfl
  | cons x xs ih => exact (ih _).trans (hf s x)

theorem setPortState_hbm (s : State) (p st : Nat) : (s.setPortState p st).hbm = s.hbm := by
  unfold setPortState
  split
  · rfl
  · exact irqEvt_hbm _ _

/-- The Almanac holds once its reference is lost. -/
theorem refLost_spec (s : State) :
    s.refLost.flag ALM_STATUS.RUNNING = false ∧ s.refLost.flag ALM_STATUS.REF_LOST = true ∧ SameUnits s s.refLost ∧
    ∀ r, r ≠ ALM_STATUS.off → s.refLost.reg r = s.reg r := by
  refine ⟨flag_setFld_self _ false (by decide) (by decide), ?_, (setFlag_units s _).trans (setFld_units _ _ _), fun r hr =>
    (reg_setFld_of_ne _ _ _ hr).trans (reg_setFlag_of_ne _ _ hr)⟩
  exact (flag_setFld_apart _ ALM_STATUS.RUNNING ALM_STATUS.REF_LOST 0 rfl (by decide) (by decide) (by decide)).trans
    (flag_setFlag_self s _ (by decide) (by decide))

/-- A port that is not down fails. -/
def darkenPort (s : State) (p : Nat) : State := if s.portState p = psDown then s else s.setPortState p psFailed

theorem darkenPort_keepsControl (s : State) {p : Nat} (hp : p < 16) : KeepsControl s (s.darkenPort p) :=
  .ite (.refl s) (setPortState_keepsControl s hp psFailed)

theorem darkenPort_hbm (s : State) (p : Nat) : (s.darkenPort p).hbm = s.hbm := by
  unfold darkenPort
  split
  · rfl
  · exact setPortState_hbm s p psFailed

/-- What the loss of the reference does besides: the Almanac holds, and HBM loses its content. -/
theorem refGone_spec (s : State) :
    let t := s.refGone
    t.hbm = [] ∧ t.flag ALM_STATUS.RUNNING = false ∧ t.flag ALM_STATUS.REF_LOST = true ∧ t.time = s.time ∧ t.power = s.power ∧
    ∀ r, controlReg r = true → r ≠ ALM_STATUS.off → t.reg r = s.reg r := by
  obtain ⟨hrun, hlost, hunits, hregs⟩ := refLost_spec s
  have hgone : s.refGone = (List.range 16).foldl darkenPort { s.refLost with hbm := [], hbmMeta := [] } := rfl
  have hkeeps : KeepsControl { s.refLost with hbm := [], hbmMeta := [] } s.refGone := by
    rw [hgone]
    exact .foldl (fun t p hp => darkenPort_keepsControl t (List.mem_range.1 hp)) _
  have hhbm : s.refGone.hbm = [] := by
    rw [hgone]
    exact foldl_hbm darkenPort_hbm _ _
  exact ⟨hhbm, (hkeeps.flag (by decide)).trans hrun, (hkeeps.flag (by decide)).trans hlost, hkeeps.time.trans hunits.time,
    hkeeps.power.trans hunits.power, fun r hr hs => (hkeeps.regs r hr).trans (hregs r hs)⟩

/-! ## Clock failures -/

/-- The failure of a source as a device-fatal fault (R682). -/
def sourceFatal (s : State) (c : ClockSource) : State :=
  ((s.sourceDown c).rootGatedAt).deviceFatal 0x0A 0 0x0041 (sourceCode c)

def ClockSource.isRef : ClockSource → Bool
  | .crystal => true
  | .refLoop => true
  | _ => false

/-- What follows for the memory and the optics. -/
def sourceLost (s : State) (c : ClockSource) : State :=
  let d := s.sourceFatal c
  if ClockSource.isRef c then d.refGone else if d.refFailed then d else { d with se := { d.se with selfRefresh := true } }

/-- With no source left, the trip line is asserted (R684). -/
theorem clockFailure_eq (s : State) (c : ClockSource) : s.clockFailure c =
    if (s.sourceLost c).refFailed && !(s.sourceLost c).flag CLK_SRC.IOSC_OK then
      (s.sourceLost c).setPower { (s.sourceLost c).power with thermTrip := true }
    else s.sourceLost c := by
  cases c <;> rfl

/-- The state in which a failed source leaves the device: time, power and the control registers. -/
structure SourceFailed (s : State) (c : ClockSource) (t : State) : Prop where
  gated : t.time.rootGated = true
  idle : t.fld PWR_LEVEL.STATE = lvIdle
  vsel : t.fld PWR_LEVEL.VSEL = 7
  power : t.power.stopDue = none ∧ t.power.want = none ∧ t.power.queued = none
  ready : t.flag HIF_STATUS.READY = false
  boot : t.fld BOOT_STATE.STATE =
    if s.fld BOOT_STATE.STATE = bsReset ∨ s.fld BOOT_STATE.STATE = bsFailed then bsFailed else bsFatal
  source : t.reg CLK_SRC.off = (s.sourceDown c).reg CLK_SRC.off

theorem sourceFatal_failed (s : State) (c : ClockSource) : SourceFailed s c (s.sourceFatal c) := by
  obtain ⟨hunits, hregs⟩ := sourceDown_units s c
  obtain ⟨gtime, gidle, gvsel, gpower, gregs⟩ := rootGatedAt_spec (s.sourceDown c)
  obtain ⟨hframe, hready, hboot⟩ := deviceFatal_spec (s.sourceDown c).rootGatedAt 0x0A 0 0x0041 (sourceCode c)
  have hlevel : (s.sourceFatal c).reg PWR_LEVEL.off = (s.sourceDown c).rootGatedAt.reg PWR_LEVEL.off :=
    hframe.regs _ (by decide) (by decide) (by decide)
  have hstate : (s.sourceDown c).rootGatedAt.fld BOOT_STATE.STATE = s.fld BOOT_STATE.STATE :=
    fld_congr ((gregs _ (by decide)).trans (hregs _ (by decide)))
  rw [hstate] at hboot
  refine ⟨?_, (fld_congr hlevel).trans gidle, (fld_congr hlevel).trans gvsel, ?_, hready, hboot,
    (hframe.regs _ (by decide) (by decide) (by decide)).trans (gregs _ (by decide))⟩
  · rw [sourceFatal]
    rcases hframe.time with h | h
    · rw [h, gtime]
    · rw [h, gtime]
  · rw [sourceFatal, hframe.power]
    exact gpower

theorem SourceFailed.of_keeps {s t u : State} {c : ClockSource} (h : SourceFailed s c t) (htime : u.time = t.time)
    (hpower : u.power.stopDue = t.power.stopDue ∧ u.power.want = t.power.want ∧ u.power.queued = t.power.queued)
    (hregs : ∀ r, controlReg r = true → r ≠ ALM_STATUS.off → u.reg r = t.reg r) : SourceFailed s c u := by
  obtain ⟨hgated, hidle, hvsel, ⟨hs, hw, hq⟩, hready, hboot, hsource⟩ := h
  obtain ⟨ps, pw, pq⟩ := hpower
  exact ⟨by rw [htime]; exact hgated, (fld_congr (hregs _ (by decide) (by decide))).trans hidle,
    (fld_congr (hregs _ (by decide) (by decide))).trans hvsel, ⟨ps.trans hs, pw.trans hw, pq.trans hq⟩,
    (flag_congr (hregs _ (by decide) (by decide))).trans hready, (fld_congr (hregs _ (by decide) (by decide))).trans hboot,
    (hregs _ (by decide) (by decide)).trans hsource⟩

theorem sourceLost_failed (s : State) (c : ClockSource) : SourceFailed s c (s.sourceLost c) := by
  have h := sourceFatal_failed s c
  unfold sourceLost
  dsimp only
  split
  · obtain ⟨-, -, -, htime, hpower, hregs⟩ := refGone_spec (s.sourceFatal c)
    exact h.of_keeps htime (by rw [hpower]; exact ⟨rfl, rfl, rfl⟩) hregs
  · split
    · exact h
    · exact h.of_keeps rfl ⟨rfl, rfl, rfl⟩ (fun _ _ _ => rfl)

theorem clockFailure_failed (s : State) (c : ClockSource) : SourceFailed s c (s.clockFailure c) := by
  rw [clockFailure_eq]
  split
  · exact (sourceLost_failed s c).of_keeps rfl ⟨rfl, rfl, rfl⟩ (fun _ _ _ => rfl)
  · exact sourceLost_failed s c

/-- The trip line is all that may follow on what a failed source leaves of memory, engines and registers. -/
theorem clockFailure_keeps (s : State) (c : ClockSource) :
    (s.clockFailure c).hbm = (s.sourceLost c).hbm ∧ (s.clockFailure c).se = (s.sourceLost c).se ∧
    (s.clockFailure c).bar0 = (s.sourceLost c).bar0 := by
  rw [clockFailure_eq]
  split
  · exact ⟨rfl, rfl, rfl⟩
  · exact ⟨rfl, rfl, rfl⟩

theorem sourceDown_lock (s : State) {c : ClockSource} (h : ClockSource.isRef c = true) :
    (s.sourceDown c).flag CLK_SRC.REF_LOCK = false := by
  cases c with
  | crystal => exact (setRef_spec s false).2.1
  | refLoop => exact flag_setFld_self s false (by decide) (by decide)
  | iosc => exact nomatch h
  | grove g => exact nomatch h

/-- The reference's sources leave the flag of the internal oscillator, and the others the flags of the reference. -/
theorem sourceDown_iosc (s : State) {c : ClockSource} (h : ClockSource.isRef c = true) :
    (s.sourceDown c).flag CLK_SRC.IOSC_OK = s.flag CLK_SRC.IOSC_OK := by
  have hlock : ∀ u : State, (u.setFld CLK_SRC.REF_LOCK 0).flag CLK_SRC.IOSC_OK = u.flag CLK_SRC.IOSC_OK := fun u =>
    flag_setFld_apart u CLK_SRC.REF_LOCK CLK_SRC.IOSC_OK 0 rfl (by decide) (by decide) (by decide)
  cases c with
  | crystal => exact (hlock _).trans (flag_setFld_apart s CLK_SRC.XTAL_OK CLK_SRC.IOSC_OK 0 rfl (by decide) (by decide) (by decide))
  | refLoop => exact hlock s
  | iosc => exact nomatch h
  | grove g => exact nomatch h

theorem sourceDown_ref (s : State) {c : ClockSource} (h : ClockSource.isRef c = false) {f : Fld} (hoff : f.off = CLK_SRC.off)
    (hf : f.hi < 2) : (s.sourceDown c).flag f = s.flag f := by
  cases c with
  | crystal => exact nomatch h
  | refLoop => exact nomatch h
  | iosc => exact flag_setFld_apart s CLK_SRC.IOSC_OK f 0 hoff (by decide) (by decide) (Or.inr hf)
  | grove g =>
    exact (flag_setFld_apart _ CLK_SRC.FAILED_GROVE f _ hoff (by decide) (by decide) (Or.inr (lt_trans hf (by decide)))).trans
      (flag_setFld_apart _ CLK_SRC.GROVE_OSC_FAIL f 1 hoff (by decide) (by decide) (Or.inr (lt_trans hf (by decide))))

/-- A grove's oscillator that fails is named. -/
theorem sourceDown_grove (s : State) (g : GroveId) :
    (s.sourceDown (.grove g)).flag CLK_SRC.GROVE_OSC_FAIL = true ∧ (s.sourceDown (.grove g)).fld CLK_SRC.FAILED_GROVE = g.toNat := by
  have hg : g.toNat < 2 ^ 8 := g.isLt
  refine ⟨?_, (fld_setFld_self _ CLK_SRC.FAILED_GROVE _ (by decide) (by decide)).trans (Nat.mod_eq_of_lt hg)⟩
  exact (flag_setFld_apart _ CLK_SRC.FAILED_GROVE CLK_SRC.GROVE_OSC_FAIL _ rfl (by decide) (by decide) (by decide)).trans
    (flag_setFlag_self s _ (by decide) (by decide))

/-- A failure of the crystal or of the reference loop takes HBM's content and the Almanac's count. -/
theorem clockFailure_ref {s : State} {c : ClockSource} (h : ClockSource.isRef c = true) :
    (s.clockFailure c).hbm = [] ∧ (s.clockFailure c).flag ALM_STATUS.RUNNING = false ∧
    (s.clockFailure c).flag ALM_STATUS.REF_LOST = true := by
  obtain ⟨hhbm, -, hbar0⟩ := clockFailure_keeps s c
  obtain ⟨ghbm, grun, glost, -⟩ := refGone_spec (s.sourceFatal c)
  have hlost : s.sourceLost c = (s.sourceFatal c).refGone := if_pos h
  rw [hlost] at hhbm hbar0
  exact ⟨hhbm.trans ghbm, (flag_congr (reg_congr hbar0 _)).trans grun, (flag_congr (reg_congr hbar0 _)).trans glost⟩

/-- With the reference alive, HBM goes on by itself (R683). -/
theorem clockFailure_selfRefresh {s : State} {c : ClockSource} (h : ClockSource.isRef c = false)
    (hxtal : (s.sourceDown c).flag CLK_SRC.XTAL_OK = true) (hlock : (s.sourceDown c).flag CLK_SRC.REF_LOCK = true) :
    (s.clockFailure c).se.selfRefresh = true := by
  have hsource := (sourceFatal_failed s c).source
  have hfailed : (s.sourceFatal c).refFailed = false := by
    rw [refFailed, flag_congr (f := CLK_SRC.XTAL_OK) hsource, flag_congr (f := CLK_SRC.REF_LOCK) hsource, hxtal, hlock]
    rfl
  have hlost : s.sourceLost c = { s.sourceFatal c with se := { (s.sourceFatal c).se with selfRefresh := true } } := by
    rw [sourceLost, h, hfailed]
    rfl
  rw [(clockFailure_keeps s c).2.1, hlost]

/-- With neither the reference nor the internal oscillator left, the trip line is asserted (R684). -/
theorem clockFailure_trips {s : State} {c : ClockSource}
    (href : (s.sourceDown c).flag CLK_SRC.XTAL_OK = false ∨ (s.sourceDown c).flag CLK_SRC.REF_LOCK = false)
    (hiosc : (s.sourceDown c).flag CLK_SRC.IOSC_OK = false) : (s.clockFailure c).power.thermTrip = true := by
  have hsource := (sourceLost_failed s c).source
  have hfailed : ((s.sourceLost c).refFailed && !(s.sourceLost c).flag CLK_SRC.IOSC_OK) = true := by
    rw [refFailed, flag_congr (f := CLK_SRC.XTAL_OK) hsource, flag_congr (f := CLK_SRC.REF_LOCK) hsource,
      flag_congr (f := CLK_SRC.IOSC_OK) hsource, hiosc]
    rcases href with h | h
    · rw [h]
      rfl
    · rw [h, Bool.not_false, Bool.or_true]
      rfl
  rw [clockFailure_eq, if_pos hfailed]
  rfl

/-! ## Gates -/

/-- A refused write of a gate register keeps the first refusal (R685). -/
theorem gateRefused_spec (s : State) (i r : Nat) :
    let t := ((s.setFlag CLK_GATE_STAT.REFUSED).setFld CLK_GATE_STAT.REASON r).setFld CLK_GATE_STAT.INDEX i
    t.flag CLK_GATE_STAT.REFUSED = true ∧ t.fld CLK_GATE_STAT.REASON = r % 4 ∧ t.fld CLK_GATE_STAT.INDEX = i % 256 ∧
    SameUnits s t ∧ ∀ o, o ≠ CLK_GATE_STAT.off → t.reg o = s.reg o := by
  refine ⟨?_, ?_, fld_setFld_self _ _ _ (by decide) (by decide), ((setFlag_units s _).trans (setFld_units _ _ _)).trans (setFld_units _ _ _),
    fun o ho => ((reg_setFld_of_ne _ _ _ ho).trans (reg_setFld_of_ne _ _ _ ho)).trans (reg_setFlag_of_ne _ _ ho)⟩
  · exact ((flag_setFld_apart _ CLK_GATE_STAT.INDEX CLK_GATE_STAT.REFUSED _ rfl (by decide) (by decide) (by decide)).trans
      (flag_setFld_apart _ CLK_GATE_STAT.REASON CLK_GATE_STAT.REFUSED _ rfl (by decide) (by decide) (by decide))).trans
      (flag_setFlag_self s _ (by decide) (by decide))
  · exact (fld_setFld_apart _ CLK_GATE_STAT.INDEX CLK_GATE_STAT.REASON _ rfl (by decide) (by decide) (by decide)).trans
      (fld_setFld_self _ _ _ (by decide) (by decide))

/-- The core plane's groves and time are the same. -/
structure KeepsGroves (s t : State) : Prop where
  groves : t.plane.groves = s.plane.groves
  time : t.time = s.time

theorem KeepsGroves.of_units {s t : State} (h : SameUnits s t) : KeepsGroves s t := ⟨by rw [h.plane], h.time⟩

theorem svcRefuse_keepsGroves (s : State) (who : SvcFrom) (write : Bool) : KeepsGroves s (s.svcRefuse who write) := by
  have hflag : SameUnits s (s.setFlag SVC_STATUS.REFUSED) := setFlag_units s _
  unfold svcRefuse
  generalize s.setFlag SVC_STATUS.REFUSED = u at hflag ⊢
  unfold svcReply
  split
  · split
    · exact .of_units hflag
    · exact .of_units (hflag.trans (emit_units u _))
  · exact .of_units hflag
  · split
    · exact .of_units hflag
    · exact ⟨by rw [← hflag.plane]; rfl, hflag.time⟩

/-- Refusing the accesses that wait leaves the groves. -/
theorem svcDrop_keepsGroves (s : State) (p : GroveId → Bool) : KeepsGroves s (s.svcDrop p) := by
  have hfold : ∀ (xs : List SvcAccess) (u : State), KeepsGroves u (xs.foldl (fun s a => s.svcRefuse a.who a.write) u) := by
    intro xs
    induction xs with
    | nil => exact fun u => ⟨rfl, rfl⟩
    | cons x xs ih =>
      intro u
      have hx := svcRefuse_keepsGroves u x.who x.write
      exact ⟨(ih _).groves.trans hx.groves, (ih _).time.trans hx.time⟩
  exact ⟨(hfold _ _).groves, (hfold _ _).time⟩

theorem KeepsGroves.grove {s t : State} (h : KeepsGroves s t) (g : GroveId) : t.grove g = s.grove g := by
  rw [State.grove, State.grove, h.groves]

/-- A gate that goes off notes the period in its grove; any gate leaves time and the other groves' notes. -/
theorem setGate_spec (s : State) (g : GroveId) (on : Bool) :
    (s.setGate g on).time = s.time ∧ (on = false → ((s.setGate g on).grove g).gatedAt = s.time.periods) ∧
    ∀ h, h ≠ g → (s.setGate g on).grove h = s.grove h := by
  cases on with
  | true => exact ⟨rfl, nofun, fun h hne => (grove_setGrove _ _ _ _).trans (if_neg hne)⟩
  | false =>
    have hdrop := svcDrop_keepsGroves (s.setGrove g { s.grove g with gatedAt := s.time.periods }) fun x => x = g
    have hgate : s.setGate g false = (s.setGrove g { s.grove g with gatedAt := s.time.periods }).svcDrop fun x => x = g := rfl
    rw [hgate]
    refine ⟨hdrop.time, fun _ => ?_, fun h hne => (hdrop.grove h).trans ((grove_setGrove _ _ _ _).trans (if_neg hne))⟩
    rw [hdrop.grove, setGrove_grove_self]

/-- One bit of a write of CLK_GATE_GROVEk. -/
def gateBit (k : Nat) (was v : BitVec 64) (s : State) (b : Nat) : State :=
  if was.getLsbD b = v.getLsbD b then s else s.setGate (BitVec.ofNat 8 (64 * k + b)) (v.getLsbD b)

/-- Of a write of CLK_GATE_GROVEk, the bits' gates one by one: a grove that goes off notes the period. -/
theorem gateBits_gatedAt {k g : Nat} {was v : BitVec 64} (hg : g < 64) (hwas : was.getLsbD g = true)
    (hv : v.getLsbD g = false) (bs : List Nat) (hbs : ∀ b ∈ bs, b < 64) (s : State) (p : Nat) (hp : s.time.periods = p)
    (h : g ∈ bs ∨ (s.grove (BitVec.ofNat 8 (64 * k + g))).gatedAt = p) :
    ((bs.foldl (gateBit k was v) s).grove (BitVec.ofNat 8 (64 * k + g))).gatedAt = p := by
  induction bs generalizing s with
  | nil => exact h.resolve_left List.not_mem_nil
  | cons b bs ih =>
    have hb : b < 64 := hbs b (List.mem_cons_self ..)
    obtain ⟨htime, hoff, hother⟩ := setGate_spec s (BitVec.ofNat 8 (64 * k + b)) (v.getLsbD b)
    have hperiods : (gateBit k was v s b).time.periods = p := by
      unfold gateBit
      split
      · exact hp
      · rw [htime, hp]
    refine ih (fun x hx => hbs x (List.mem_cons_of_mem _ hx)) _ hperiods ?_
    by_cases heq : g = b
    · right
      rw [gateBit, ← heq, hwas, hv, if_neg (by decide)]
      rw [← heq, hv] at hoff
      rw [hoff rfl, hp]
    · have hne : BitVec.ofNat 8 (64 * k + g) ≠ BitVec.ofNat 8 (64 * k + b) := by
        intro h
        have := congrArg BitVec.toNat h
        simp only [BitVec.toNat_ofNat] at this
        omega
      refine h.imp (fun hmem => (List.mem_cons.1 hmem).resolve_left heq) fun hat => ?_
      unfold gateBit
      split
      · exact hat
      · rw [hother _ hne, hat]

/-- A write of a gate register that nothing refuses. -/
theorem gateWrite_grove {s : State} {k : Nat} {v : BitVec 64} (h : s.groveRefusals k v = []) :
    s.gateWrite (some k) v =
      ((List.range 64).foldl (gateBit k (s.reg (CLK_GATE_GROVE.off k)) v) s).setReg (CLK_GATE_GROVE.off k) v := by
  rw [gateWrite]
  dsimp only
  rw [h]
  rfl

end State

open State in
theorem clocksAndGates : Claims.ClocksAndGates := by
  unfold Claims.ClocksAndGates
  intro c k v s st watched
  refine ⟨fun hw => ?unwatched, fun hw => ?fails, fun i r rest hbad => ?fieldRefused, fun hok => ?field,
    fun i r rest hbad => ?groveRefused, fun hok => ?grove⟩
  case unwatched =>
    cases c with
    | grove g =>
      refine if_pos ?_
      by_contra hrun
      refine hw fun g' hg' => ?_
      cases hg'
      simpa [and_assoc] using hrun
    | crystal => exact absurd (fun g hg => nomatch hg) hw
    | refLoop => exact absurd (fun g hg => nomatch hg) hw
    | iosc => exact absurd (fun g hg => nomatch hg) hw
  case fails =>
    have hexec : exec (.clockFailure c) s = .next (s.clockFailure c) := by
      cases c with
      | grove g =>
        obtain ⟨hgated, hroot, hstop⟩ := hw g rfl
        refine if_neg ?_
        rw [hgated, hroot, hstop]
        exact Bool.false_ne_true
      | crystal => rfl
      | refLoop => rfl
      | iosc => rfl
    obtain ⟨hgated, hidle, hvsel, ⟨hstop, hwant, hqueued⟩, hready, hboot, hsource⟩ := clockFailure_failed s c
    refine ⟨_, hexec, hgated, hidle, hstop, hwant, hqueued, hvsel, hready, hboot, fun hc hl hxtal hlock => ?selfRefresh,
      fun hc => ?crystalLost, fun hc => ?refLoopLost, fun hc => ?ioscLost, fun g hc => ?groveSource, fun hc hiosc => ?trips⟩
    case selfRefresh =>
      have href : ClockSource.isRef c = false := by
        cases c with
        | crystal => exact absurd rfl hc
        | refLoop => exact absurd rfl hl
        | iosc => rfl
        | grove g => rfl
      exact clockFailure_selfRefresh href ((sourceDown_ref s href rfl (by decide)).trans hxtal)
        ((sourceDown_ref s href rfl (by decide)).trans hlock)
    case crystalLost =>
      subst hc
      exact ⟨(flag_congr hsource).trans (setRef_spec s false).1, (flag_congr hsource).trans (setRef_spec s false).2.1,
        clockFailure_ref rfl⟩
    case refLoopLost =>
      subst hc
      exact ⟨(flag_congr hsource).trans (sourceDown_lock s rfl), clockFailure_ref rfl⟩
    case ioscLost =>
      subst hc
      exact (flag_congr hsource).trans (flag_setFld_self s false (by decide) (by decide))
    case groveSource =>
      subst hc
      exact ⟨(flag_congr hsource).trans (sourceDown_grove s g).1, (fld_congr hsource).trans (sourceDown_grove s g).2⟩
    case trips =>
      have href : ClockSource.isRef c = true := by
        rcases hc with rfl | rfl
        · rfl
        · rfl
      exact clockFailure_trips (Or.inr (sourceDown_lock s href)) ((sourceDown_iosc s href).trans hiosc)
  case fieldRefused =>
    have hexec : exec (.clkGateWrite none v) s =
        .next (((s.setFlag CLK_GATE_STAT.REFUSED).setFld CLK_GATE_STAT.REASON r).setFld CLK_GATE_STAT.INDEX i) := by
      show Host.Outcome.next (s.gateWrite none v) = _
      rw [gateWrite, hbad]
    obtain ⟨hrefused, hreason, hindex, hunits, hregs⟩ := gateRefused_spec s i r
    exact ⟨_, hexec, hrefused, hreason, hindex, hregs _ (by decide), hunits.plane⟩
  case field =>
    have hexec : exec (.clkGateWrite none v) s = .next (s.setReg CLK_GATE_FIELD.off (BitVec.ofNat 64 (getBits v 3 0))) := by
      show Host.Outcome.next (s.gateWrite none v) = _
      rw [gateWrite, hok]
    exact ⟨_, hexec, reg_setReg_self _ _ _, rfl⟩
  case groveRefused =>
    have hexec : exec (.clkGateWrite (some k) v) s =
        .next (((s.setFlag CLK_GATE_STAT.REFUSED).setFld CLK_GATE_STAT.REASON r).setFld CLK_GATE_STAT.INDEX i) := by
      show Host.Outcome.next (s.gateWrite (some k.toNat) v) = _
      rw [gateWrite, hbad]
    obtain ⟨hrefused, hreason, hindex, hunits, hregs⟩ := gateRefused_spec s i r
    refine ⟨_, hexec, hrefused, hreason, hindex, hregs _ ?_, hunits.plane⟩
    have := k.isLt
    simp only [CLK_GATE_GROVE.off, CLK_GATE_STAT.off]
    omega
  case grove =>
    refine ⟨_, congrArg Host.Outcome.next (gateWrite_grove hok), reg_setReg_self _ _ _, fun g hg hwas hv => ?_⟩
    exact gateBits_gatedAt hg hwas hv _ (fun b hb => List.mem_range.1 hb) s _ rfl (Or.inl (List.mem_range.2 hg))

end Sys2Proof.Machine
end

section
/-! PROOFS. The lifeguard's contributors and inputs. -/

namespace Sys2Proof.Machine

namespace State

/-! ## What the readings depend on -/

/-- The sensors, the thresholds and the limits are the same. -/
structure SameInputs (s t : State) : Prop where
  temps : t.power.temps = s.power.temps
  volts : t.power.volts = s.power.volts
  amps : t.power.amps = s.power.amps
  trips : t.reg LG_TRIP.off = s.reg LG_TRIP.off
  limits : t.reg LG_LIMITS.off = s.reg LG_LIMITS.off

namespace SameInputs

variable {s t u : State}

theorem refl (s : State) : SameInputs s s := ⟨rfl, rfl, rfl, rfl, rfl⟩

theorem trans (h : SameInputs s t) (g : SameInputs t u) : SameInputs s u :=
  ⟨g.temps.trans h.temps, g.volts.trans h.volts, g.amps.trans h.amps, g.trips.trans h.trips, g.limits.trans h.limits⟩

theorem limitOf (h : SameInputs s t) {f : Fld} (hf : f.off = LG_TRIP.off) : t.limitOf f = s.limitOf f := by
  have hreg : t.reg f.off = s.reg f.off := by
    rw [hf]
    exact h.trips
  rw [State.limitOf, State.limitOf, fld_congr hreg]

theorem threshold (h : SameInputs s t) (n : Nat) : t.threshold n = s.threshold n := by
  refine h.limitOf ?_
  split
  · rfl
  · rfl

theorem reading (h : SameInputs s t) (n : Nat) : t.reading n = s.reading n := by
  have htemp : t.temp = s.temp := by
    funext k
    rw [temp, temp, h.temps]
  have hhot : t.hottestOf (fieldOfGrove (BitVec.ofNat 8 n)) = s.hottestOf (fieldOfGrove (BitVec.ofNat 8 n)) := by
    rw [hottestOf, hottestOf, h.temps, htemp]
  have hthreshold : t.limitOf (if n < 261 then LG_TRIP.THROTTLE_C else LG_TRIP.HBM_C) =
      s.limitOf (if n < 261 then LG_TRIP.THROTTLE_C else LG_TRIP.HBM_C) := h.threshold n
  rw [State.reading, State.reading, h.temps, hhot, hthreshold, htemp]

theorem readings (h : SameInputs s t) : t.readings = s.readings := by
  rw [State.readings, State.readings, h.temps, funext h.reading]

theorem warm (h : SameInputs s t) : t.warm = s.warm := by
  rw [State.warm, State.warm, h.readings, funext h.threshold, h.limitOf rfl]

theorem tempsApart (h : SameInputs s t) : t.tempsApart = s.tempsApart := by
  rw [State.tempsApart, State.tempsApart, h.readings]

theorem volt (h : SameInputs s t) (f : Nat) : t.volt f = s.volt f := by rw [State.volt, State.volt, h.volts]
theorem amp (h : SameInputs s t) (f : Nat) : t.amp f = s.amp f := by rw [State.amp, State.amp, h.amps]

theorem railsApart (h : SameInputs s t) : t.railsApart = s.railsApart := by
  rw [State.railsApart, State.railsApart, funext h.volt]

theorem power64 (h : SameInputs s t) : t.power64 = s.power64 := by
  rw [State.power64, State.power64, funext h.volt, funext h.amp]

theorem powerLimit (h : SameInputs s t) : t.powerLimit = s.powerLimit := by
  rw [State.powerLimit, State.powerLimit, fld_congr h.limits]

theorem overCurrent (h : SameInputs s t) : t.overCurrent = s.overCurrent := by
  rw [State.overCurrent, State.overCurrent, funext h.amp, fld_congr (f := LG_LIMITS.OCP_A) h.limits]

theorem powerHigh (h : SameInputs s t) : t.powerHigh = s.powerHigh := by
  rw [State.powerHigh, State.powerHigh, h.power64, h.powerLimit, h.overCurrent]

end SameInputs

/-! ## Changes of LG_STATUS and LG_EVENT -/

/-- Of time, clocks, power and the lifeguard, only LG_STATUS and LG_EVENT may differ. -/
structure StatusOnly (s t : State) : Prop where
  units : SameUnits s t
  regs : ∀ r, controlReg r = true → r ≠ LG_STATUS.off → r ≠ LG_EVENT.off → t.reg r = s.reg r

theorem StatusOnly.refl (s : State) : StatusOnly s s := ⟨.refl s, fun _ _ _ _ => rfl⟩

theorem StatusOnly.trans {s t u : State} (h : StatusOnly s t) (g : StatusOnly t u) : StatusOnly s u :=
  ⟨h.units.trans g.units, fun r hr hs he => (g.regs r hr hs he).trans (h.regs r hr hs he)⟩

theorem StatusOnly.inputs {s t : State} (h : StatusOnly s t) : SameInputs s t :=
  ⟨by rw [h.units.power], by rw [h.units.power], by rw [h.units.power], h.regs _ (by decide) (by decide) (by decide),
    h.regs _ (by decide) (by decide) (by decide)⟩

theorem lgEvent_statusOnly (s : State) (b : Nat) : StatusOnly s (s.lgEvent b) :=
  ⟨lgEvent_units s b, fun _ hr _ he => lgEvent_reg s b hr he⟩

theorem setStatus_statusOnly (s : State) {f : Fld} (h : f.off = LG_STATUS.off) (n : Nat) : StatusOnly s (s.setFld f n) :=
  ⟨setFld_units s f n, fun r _ hs _ => reg_setFld_of_ne s f n (by rw [h]; exact hs)⟩

theorem raise_statusOnly (s : State) {f : Fld} (h : f.off = LG_STATUS.off) (k ev : Nat) : StatusOnly s (s.raise f k ev) :=
  (setStatus_statusOnly s h _).trans (lgEvent_statusOnly _ ev)

/-- An event leaves the contributors. -/
theorem lgEvent_status (s : State) (b : Nat) {f : Fld} (h : f.off = LG_STATUS.off) : (s.lgEvent b).fld f = s.fld f :=
  fld_congr (by rw [h]; exact lgEvent_reg s b (by decide) (by decide))

/-- An event leaves the other events set. -/
theorem lgEvent_keepsEvent (s : State) (b : Nat) {c : Nat} (hb : b < 64) (hc : c < 64) (h : s.flag ⟨LG_EVENT.off, c, c⟩ = true) :
    (s.lgEvent b).flag ⟨LG_EVENT.off, c, c⟩ = true := by
  by_cases heq : c = b
  · subst heq
    exact lgEvent_flag s hc
  · unfold lgEvent
    dsimp only
    split
    · exact h
    · rw [(irqEvt_keepsControl _ 3).flag (f := ⟨LG_EVENT.off, c, c⟩) (by decide : controlReg LG_EVENT.off = true)]
      refine (flag_setFld_apart _ ⟨LG_EVENT.off, b, b⟩ ⟨LG_EVENT.off, c, c⟩ 1 rfl hb le_rfl ?_).trans h
      exact lt_or_gt_of_ne (Ne.symm heq)

/-- A field of LG_STATUS apart from the one that is stored. -/
theorem setStatus_apart (s : State) {f g : Fld} (n : Nat) (hf : f.off = LG_STATUS.off) (hg : g.off = LG_STATUS.off) (hhi : f.hi < 64)
    (hlo : f.lo ≤ f.hi) (hd : f.hi < g.lo ∨ g.hi < f.lo) : (s.setFld f n).fld g = s.fld g :=
  fld_setFld_apart s f g n (hg.trans hf.symm) hhi hlo hd

/-- A rise leaves the other contributors. -/
theorem raise_apart (s : State) {f g : Fld} (k ev : Nat) (hf : f.off = LG_STATUS.off) (hg : g.off = LG_STATUS.off) (hhi : f.hi < 64)
    (hlo : f.lo ≤ f.hi) (hd : f.hi < g.lo ∨ g.hi < f.lo) : (s.raise f k ev).fld g = s.fld g :=
  (lgEvent_status _ ev hg).trans (setStatus_apart s _ hf hg hhi hlo hd)

/-- A rise of the neighbour contributor changes besides the status, its event and ALM_STATUS no register, and keeps events. -/
theorem raiseNeighbour_inputs (s : State) (ev : Nat) :
    SameInputs s (s.raiseNeighbour ev) ∧
    (∀ f : Fld, f.off = LG_STATUS.off → (6 < f.lo ∨ f.hi < 4) → (s.raiseNeighbour ev).fld f = s.fld f) ∧
    ∀ c, ev < 64 → c < 64 → (c = ev ∨ s.flag ⟨LG_EVENT.off, c, c⟩ = true) →
      (s.raiseNeighbour ev).flag ⟨LG_EVENT.off, c, c⟩ = true := by
  obtain ⟨-, heq⟩ := raiseNeighbour_eq s ev
  have hreg : ∀ r, r ≠ ALM_STATUS.off → (s.raiseNeighbour ev).reg r = (s.raise LG_STATUS.NEIGHBOUR 1 ev).reg r := fun r hr => by
    rw [heq]
    exact reg_setFlag_of_ne _ _ hr
  have hpower := (raiseNeighbour_spec s ev).2.2.2.2
  have hraise := raise_statusOnly s (f := LG_STATUS.NEIGHBOUR) rfl 1 ev
  refine ⟨⟨by rw [hpower], by rw [hpower], by rw [hpower], (hreg _ (by decide)).trans hraise.inputs.trips,
    (hreg _ (by decide)).trans hraise.inputs.limits⟩, fun f hf hd => ?_, fun c hev hc h => ?_⟩
  · rw [fld_congr (hreg f.off (by rw [hf]; decide))]
    exact raise_apart s 1 ev rfl hf (by decide) (by decide) hd
  · rw [flag_congr (f := ⟨LG_EVENT.off, c, c⟩) (hreg LG_EVENT.off (by decide)), raise]
    rcases h with rfl | h
    · exact lgEvent_flag _ hc
    · refine lgEvent_keepsEvent _ ev hev hc ?_
      rw [flag, fld_setFld_of_ne _ _ _ _ (by decide : LG_EVENT.off ≠ LG_STATUS.off)]
      exact h

/-! ## The notes of the ticks -/

theorem noteWarm_eq (s : State) :
    s.noteWarm = s.setPower { s.power with thermalAt := if s.warm = true then s.time.ticks else s.power.thermalAt } := by
  unfold noteWarm
  split
  · rfl
  · rfl

theorem noteHigh_eq (s : State) :
    s.noteHigh = s.setPower { s.power with powerAt := if s.powerHigh = true then s.time.ticks else s.power.powerAt } := by
  unfold noteHigh
  split
  · rfl
  · rfl

theorem noteWarm_inputs (s : State) : SameInputs s s.noteWarm := by
  rw [noteWarm_eq]
  exact ⟨rfl, rfl, rfl, rfl, rfl⟩

theorem noteHigh_inputs (s : State) : SameInputs s s.noteHigh := by
  rw [noteHigh_eq]
  exact ⟨rfl, rfl, rfl, rfl, rfl⟩

/-- The state with the ticks of what holds noted. -/
theorem noted_eq (s : State) : s.noteWarm.noteHigh = s.setPower { s.power with
    thermalAt := if s.warm = true then s.time.ticks else s.power.thermalAt
    powerAt := if s.powerHigh = true then s.time.ticks else s.power.powerAt } := by
  rw [noteHigh_eq, (noteWarm_inputs s).powerHigh, noteWarm_eq]
  rfl

/-! ## Temperatures -/

/-- Some reading is at its threshold or above. -/
def isHot (s : State) : Bool := s.readings.any fun r => s.threshold r.1 ≤ r.2

/-- The thermal contributor rises, and the tick is noted (R698, R700). -/
def warmed (s : State) : State := if s.isHot then (s.raise LG_STATUS.THERMAL 1 leThermal).noteWarm else s

theorem thermalEval_eq (s : State) :
    s.thermalEval = if s.warmed.tempsApart then s.warmed.raiseNeighbour leNeighbour else s.warmed := rfl

/-- The evaluation leaves the readings, the core plane and the neighbour contributor. -/
theorem warmed_spec (s : State) :
    SameInputs s s.warmed ∧ s.warmed.plane = s.plane ∧ s.warmed.fld LG_STATUS.NEIGHBOUR = s.fld LG_STATUS.NEIGHBOUR := by
  have hraise := raise_statusOnly s (f := LG_STATUS.THERMAL) rfl 1 leThermal
  unfold warmed
  split
  · refine ⟨hraise.inputs.trans (noteWarm_inputs _), ?_, ?_⟩
    · rw [noteWarm_eq]
      exact hraise.units.plane
    · rw [noteWarm_eq]
      exact raise_apart s 1 _ rfl rfl (by decide) (by decide) (by decide)
  · exact ⟨.refl s, rfl, rfl⟩

/-- With a reading at its threshold, the contributor rises, and the event is set; the tick is noted. -/
theorem warmed_hot {s : State} (h : s.isHot = true) :
    s.warmed.fld LG_STATUS.THERMAL = min 7 (s.fld LG_STATUS.THERMAL + 1) ∧ s.warmed.flag LG_EVENT.THERMAL = true ∧
    (s.warm = true → s.warmed.power.thermalAt = s.time.ticks) := by
  have hraise := raise_statusOnly s (f := LG_STATUS.THERMAL) rfl 1 leThermal
  rw [warmed, if_pos h, noteWarm_eq]
  refine ⟨raise_fld s 1 leThermal (by decide) (by decide) (by decide) (by decide) (by decide),
    lgEvent_flag _ (by decide : leThermal < 64), fun hwarm => ?_⟩
  rw [hraise.inputs.warm, hwarm, if_pos rfl, hraise.units.time]
  rfl

/-- Without groves apart, only the contributor is evaluated. -/
theorem thermalEval_calm {s : State} (hapart : s.tempsApart = false) : s.thermalEval = s.warmed := by
  rw [thermalEval_eq, (warmed_spec s).1.tempsApart, hapart]
  rfl

/-! ## Decay -/

/-- One contributor falls, or nothing changes. -/
def fall (s : State) (f : Fld) (now since : Nat) (p : Power) : State :=
  if since + decayTicks ≤ now && s.flag f then (s.setFld f (s.fld f - 1)).setPower p else s

theorem fall_falls {s : State} {f : Fld} {now since : Nat} (p : Power) (hf : f.hi < 64) (hlo : f.lo ≤ f.hi)
    (hdue : since + 70000 ≤ now) (hne : s.fld f ≠ 0) :
    (s.fall f now since p).fld f = s.fld f - 1 ∧ (s.fall f now since p).plane = s.plane := by
  have hcond : (decide (since + decayTicks ≤ now) && s.flag f) = true := by
    simp only [Bool.and_eq_true, decide_eq_true_eq]
    exact ⟨hdue, flag_eq_true.2 hne⟩
  rw [fall, if_pos hcond]
  refine ⟨(fld_setFld_self s f _ hf hlo).trans (Nat.mod_eq_of_lt ?_), rfl⟩
  have := fld_lt s f
  omega

theorem fall_stays {s : State} {f : Fld} {now since : Nat} (p : Power) (h : now < since + 70000 ∨ s.fld f = 0) :
    s.fall f now since p = s := by
  refine if_neg ?_
  simp only [Bool.and_eq_true, decide_eq_true_eq, flag_eq_true]
  rintro ⟨hdue, hne⟩
  rcases h with h | h
  · exact absurd hdue (Nat.not_le.2 h)
  · exact hne h

/-- What the decay of a contributor keeps where it does not fall. -/
theorem noted_spec (s : State) :
    s.noteWarm.noteHigh.bar0 = s.bar0 ∧ s.noteWarm.noteHigh.plane = s.plane ∧
    s.noteWarm.noteHigh.power.thermalAt = (if s.warm = true then s.time.ticks else s.power.thermalAt) ∧
    s.noteWarm.noteHigh.power.powerAt = (if s.powerHigh = true then s.time.ticks else s.power.powerAt) ∧
    (s.warm = false → s.powerHigh = false → s.noteWarm.noteHigh = s) := by
  rw [noted_eq]
  refine ⟨rfl, rfl, rfl, rfl, fun hwarm hhigh => ?_⟩
  rw [hwarm, hhigh]
  rfl

theorem noted_fld (s : State) (f : Fld) : s.noteWarm.noteHigh.fld f = s.fld f := fld_congr (reg_congr (noted_spec s).1 _)

/-- A contributor that its condition keeps up, that has not been without it for 100 µs or that stands at 0 does not fall (R700). -/
theorem decay_spec {s : State} {c : Contributor} {f : Fld} {since : Nat} {up : Bool} {p : Power}
    (h : s.decay c = s.noteWarm.noteHigh.fall f s.time.ticks (if up = true then s.time.ticks else since) p)
    (hf : f.hi < 64) (hlo : f.lo ≤ f.hi) :
    (up = false → since + 70000 ≤ s.time.ticks → s.fld f ≠ 0 →
      (s.decay c).fld f = s.fld f - 1 ∧ (s.decay c).plane = s.plane) ∧
    ((up = true ∨ s.time.ticks < since + 70000 ∨ s.fld f = 0) → s.decay c = s.noteWarm.noteHigh) := by
  rw [h]
  refine ⟨fun hup hdue hne => ?_, fun hkept => fall_stays p ?_⟩
  · rw [hup, if_neg Bool.false_ne_true]
    have hfalls := fall_falls (s := s.noteWarm.noteHigh) p hf hlo hdue (by rw [noted_fld]; exact hne)
    rw [noted_fld, (noted_spec s).2.1] at hfalls
    exact hfalls
  · rw [noted_fld]
    cases up with
    | true =>
      left
      rw [if_pos rfl]
      omega
    | false => exact hkept.resolve_left Bool.false_ne_true

theorem decay_alert (s : State) : s.decay .alert =
    if s.power.alertAt + 70000 ≤ s.time.ticks ∧ s.flag LG_STATUS.ALERT_PIN = false then s.noteWarm.noteHigh.setFld LG_STATUS.ALERT 0
    else s.noteWarm.noteHigh := by
  have hpin : s.noteWarm.noteHigh.flag LG_STATUS.ALERT_PIN = s.flag LG_STATUS.ALERT_PIN := flag_congr (reg_congr (noted_spec s).1 _)
  have hat : s.noteWarm.noteHigh.power.alertAt = s.power.alertAt := by
    rw [noted_eq]
    rfl
  rw [← hpin, ← hat]
  refine if_congr (Bool.and_eq_true_iff.trans (and_congr decide_eq_true_iff ?_)) rfl rfl
  rw [Bool.not_eq_true']

/-! ## Power -/

/-- An over-current takes the power contributor to at least 4; what follows from it otherwise is nothing (R700). -/
theorem overEval_spec (s : State) :
    StatusOnly s s.overEval ∧ s.overEval.fld LG_STATUS.NEIGHBOUR = s.fld LG_STATUS.NEIGHBOUR ∧
    (s.overCurrent = true → 4 ≤ s.overEval.fld LG_STATUS.POWER ∧ s.overEval.flag LG_EVENT.OVERCURRENT = true) ∧
    (s.overCurrent = false → s.overEval = s) := by
  unfold overEval
  by_cases hover : s.overCurrent = true
  · rw [hover]
    rw [if_neg (show ¬ (!true) = true from Bool.false_ne_true)]
    by_cases hlow : s.fld LG_STATUS.POWER < 4
    · rw [if_pos hlow]
      refine ⟨((setStatus_statusOnly s rfl 4).trans (lgEvent_statusOnly _ _)).trans (lgEvent_statusOnly _ _), ?_, fun _ => ⟨?_, ?_⟩, nofun⟩
      · exact ((lgEvent_status _ _ rfl).trans (lgEvent_status _ _ rfl)).trans
          (setStatus_apart s 4 rfl rfl (by decide) (by decide) (by decide))
      · rw [lgEvent_status _ _ rfl, lgEvent_status _ _ rfl, fld_setFld_self _ _ _ (by decide) (by decide)]
        decide
      · exact lgEvent_flag _ (by decide : leOver < 64)
    · rw [if_neg hlow]
      refine ⟨lgEvent_statusOnly s _, lgEvent_status _ _ rfl, fun _ => ⟨?_, lgEvent_flag _ (by decide : leOver < 64)⟩, nofun⟩
      rw [lgEvent_status _ _ rfl]
      exact Nat.not_lt.1 hlow
  · rw [Bool.not_eq_true] at hover
    rw [hover]
    exact ⟨.refl s, rfl, nofun, fun _ => rfl⟩

/-- What follows from a rail sample leaves the samples and the neighbour contributor. -/
theorem settlePower_spec (s : State) :
    SameInputs s s.settlePower ∧ s.settlePower.fld LG_STATUS.NEIGHBOUR = s.fld LG_STATUS.NEIGHBOUR := by
  obtain ⟨hover, hneighbour, -⟩ := overEval_spec s.noteHigh
  refine ⟨(noteHigh_inputs s).trans hover.inputs, hneighbour.trans ?_⟩
  rw [noteHigh_eq]
  rfl

/-- The power exceeds POWER_W. -/
def exceeds (s : State) : Bool := match s.power64 with | some p => decide (s.powerLimit < p) | none => false

theorem powerLimit_nonneg (s : State) : 0 ≤ s.powerLimit := by
  unfold powerLimit
  omega

theorem powerHigh_of_exceeds {s : State} (h : s.exceeds = true) : s.powerHigh = true := by
  have hlimit := powerLimit_nonneg s
  unfold exceeds at h
  unfold powerHigh
  cases hp : s.power64 with
  | none => simp [hp] at h
  | some p =>
    simp only [hp, decide_eq_true_eq] at h
    simp only [Bool.or_eq_true, decide_eq_true_eq]
    left
    omega

/-- The power contributor's rise on an excess of power. -/
def strained (s : State) : State := if s.exceeds then s.raise LG_STATUS.POWER 1 lePower else s

theorem powerEval_eq (s : State) : s.powerEval =
    if s.strained.noteHigh.overEval.railsApart then s.strained.noteHigh.overEval.raiseNeighbour leNeighbour
    else s.strained.noteHigh.overEval := rfl

/-- The contributor's rise leaves the inputs. -/
theorem strained_statusOnly (s : State) : StatusOnly s s.strained := by
  unfold strained
  split
  · exact raise_statusOnly s rfl 1 lePower
  · exact .refl s

theorem strained_inputs (s : State) : SameInputs s s.strained.noteHigh :=
  (strained_statusOnly s).inputs.trans (noteHigh_inputs _)

/-- Without an over-current, only the contributor and the tick of the power are evaluated. -/
theorem powerEval_normal {s : State} (hover : s.overCurrent = false) (hapart : s.railsApart = false) :
    s.powerEval = s.strained.noteHigh := by
  have hsame := strained_inputs s
  rw [powerEval_eq, (overEval_spec _).2.2.2 (hsame.overCurrent.trans hover), hsame.railsApart, hapart]
  rfl

/-! ## Trips -/

/-- The trip is marked, the trip line asserted and the root gated. -/
def tripping (s : State) : State :=
  let t := ((s.setFlag LG_STATUS.TRIPPED).setVsel 7).setFld PWR_LEVEL.STATE lvIdle
  let t := t.setPower { t.power with thermTrip := true, stopDue := none, want := none, queued := none }
  { t with time := { t.time with rootGated := true } }

theorem trip_eq (s : State) (cause : Nat) :
    s.trip cause = if s.flag LG_STATUS.TRIPPED then s else s.tripping.deviceFatal 8 0 0x0040 cause := rfl

theorem tripping_spec (s : State) :
    s.tripping.boot = s.boot ∧ s.tripping.power.temps = s.power.temps ∧ s.tripping.power.thermTrip = true ∧
    s.tripping.time.rootGated = true ∧ s.tripping.flag LG_STATUS.TRIPPED = true := by
  have hlevel := (setVsel_levelFrame (s.setFlag LG_STATUS.TRIPPED) 7).trans (setFld_levelFrame _ (f := PWR_LEVEL.STATE) rfl lvIdle)
  obtain ⟨at_, sample, wait, hpower⟩ := setVsel_power (s.setFlag LG_STATUS.TRIPPED) 7
  refine ⟨hlevel.boot, ?_, rfl, rfl, (hlevel.flag (by decide)).trans (flag_setFlag_self s _ (by decide) (by decide))⟩
  show ((s.setFlag LG_STATUS.TRIPPED).setVsel 7).power.temps = s.power.temps
  rw [hpower]
  rfl

/-- A trip leaves bring-up's record and the sensors, and shows in LG_STATUS, on the trip line and in the root gate (R701). -/
theorem trip_spec (s : State) (cause : Nat) :
    (s.trip cause).boot = s.boot ∧ (s.trip cause).power.temps = s.power.temps ∧
    (s.flag LG_STATUS.TRIPPED = false → (s.trip cause).flag LG_STATUS.TRIPPED = true ∧ (s.trip cause).power.thermTrip = true ∧
      (s.trip cause).time.rootGated = true) := by
  obtain ⟨tboot, ttemps, tthermal, ttime, tflag⟩ := tripping_spec s
  obtain ⟨ftime, fpower, fboot, fregs⟩ := (deviceFatal_spec s.tripping 8 0 0x0040 cause).1
  have hgated : (s.tripping.deviceFatal 8 0 0x0040 cause).time.rootGated = true := by
    rcases ftime with h | h
    · rw [h, ttime]
    · rw [h, ttime]
  rw [trip_eq]
  split
  · next htripped => exact ⟨rfl, rfl, fun h => absurd htripped (by rw [h]; exact Bool.false_ne_true)⟩
  · exact ⟨fboot.trans tboot, by rw [fpower, ttemps], fun _ => ⟨(flag_congr (fregs _ (by decide) (by decide) (by decide))).trans tflag,
      by rw [fpower, tthermal], hgated⟩⟩

/-! ## Temperature samples -/

/-- LG_TEMP_MAX shows the hottest reading; nothing else changes. -/
theorem settleMax_power (s : State) : s.settleMax.power = s.power := by
  unfold settleMax
  dsimp only
  split
  · rfl
  · exact ((setFld_units s _ _).trans (setFld_units _ _ _)).power

/-- What follows from a temperature sample leaves the sensors. -/
theorem settleTemps_temps (s : State) : s.settleTemps.power.temps = s.power.temps := by
  have hnoted : s.settleMax.noteWarm.power.temps = s.power.temps := by
    rw [(noteWarm_inputs _).temps, settleMax_power]
  unfold settleTemps
  dsimp only
  split
  · exact ((trip_spec _ _).2.1).trans hnoted
  · split
    · exact ((trip_spec _ _).2.1).trans hnoted
    · exact hnoted

theorem edgeApart_temps (s t : State) (p : State → Bool) : (edgeApart s t p).power.temps = t.power.temps := by
  unfold edgeApart
  split
  · exact (raiseNeighbour_inputs t leNeighbour).1.temps
  · rfl

/-- A range of a temperature sensor's samples (R702). -/
def tempInRange (n : Nat) (x : Int) : Bool := if n < 261 then -640 ≤ x && x ≤ 2400 else 0 ≤ x && x ≤ 2000

theorem tempInRange_iff (n : Nat) (x : Int) :
    tempInRange n x = true ↔ if n < 261 then -640 ≤ x ∧ x ≤ 2400 else 0 ≤ x ∧ x ≤ 2000 := by
  unfold tempInRange
  split
  · simp only [Bool.and_eq_true, decide_eq_true_eq]
  · simp only [Bool.and_eq_true, decide_eq_true_eq]

/-- A sensor's filter takes in a valid sample. -/
def storeTemp (s : State) (n : Nat) (x : Int) : State :=
  s.setPower { s.power with temps := smSet s.power.temps n ((smGet {} s.power.temps n).good 3 x) }

/-- A valid temperature sample. -/
theorem sampleTemp_valid {s : State} {n : Nat} {v : Int} (hn : n ≤ 280) (hheld : s.calHolds n = false)
    (hx : tempInRange n (v + s.calOf n) = true) :
    s.sampleTemp n (some v) = edgeApart s (s.noteWarm.storeTemp n (v + s.calOf n)).settleTemps tempsApart := by
  have hcal : s.noteWarm.calOf n = s.calOf n := by
    rw [noteWarm_eq]
    rfl
  have hguard : (decide (280 < n) || s.calHolds n) = false := by
    rw [hheld, Bool.or_false, decide_eq_false_iff_not]
    omega
  unfold sampleTemp
  rw [hguard, if_neg Bool.false_ne_true]
  dsimp only [Option.map_some]
  rw [hcal]
  show edgeApart s (if tempInRange n (v + s.calOf n) = true then s.noteWarm.storeTemp n (v + s.calOf n) else _).settleTemps tempsApart = _
  rw [if_pos hx]

/-- A sensor held by a calibration takes no sample. -/
theorem sampleTemp_held {s : State} {n : Nat} (h : s.calHolds n = true) (v : Option Int) : s.sampleTemp n v = s := by
  unfold sampleTemp
  rw [h, Bool.or_true, if_pos rfl]

/-! ## Rail samples -/

def storeVolt (s : State) (f : Nat) (k : Sensor) : State := s.setPower { s.power with volts := smSet s.power.volts f k }
def storeAmp (s : State) (f : Nat) (k : Sensor) : State := s.setPower { s.power with amps := smSet s.power.amps f k }

theorem sampleVolt_valid {s : State} {f : Nat} {x : Int} (hlo : 400 ≤ x) (hhi : x ≤ 850) :
    s.sampleVolt f (some x) = edgeApart s.noteHigh (s.noteHigh.storeVolt f ((s.noteHigh.volt f).good 4 x)).settlePower railsApart := by
  refine if_pos ?_
  simp only [Bool.and_eq_true, decide_eq_true_eq]
  exact ⟨hlo, hhi⟩

/-- A voltage out of its range trips. -/
theorem sampleVolt_trips {s : State} {f : Nat} {x : Int} (h : ¬ (400 ≤ x ∧ x ≤ 850)) :
    s.sampleVolt f (some x) = (s.noteHigh.storeVolt f ((s.noteHigh.volt f).miss 10)).trip 2 := by
  refine if_neg ?_
  simp only [Bool.and_eq_true, decide_eq_true_eq]
  exact h

theorem sampleAmp_valid {s : State} {f : Nat} {x : Int} (hlo : 0 ≤ x) (hhi : x ≤ 1000000) :
    s.sampleAmp f (some x) = (s.noteHigh.storeAmp f ((s.noteHigh.amp f).good 16 x)).settlePower := by
  have hfilter : (some x).filter (fun x => decide (0 ≤ x) && decide (x ≤ 1000000)) = some x := by
    rw [Option.filter_some, if_pos]
    simp only [Bool.and_eq_true, decide_eq_true_eq]
    exact ⟨hlo, hhi⟩
  unfold sampleAmp
  dsimp only
  rw [hfilter]
  rfl

/-- The neighbour contributor after a sample that may bring rails apart (R698). -/
theorem edgeApart_spec (s t : State) :
    let u := edgeApart s t railsApart
    SameInputs t u ∧ u.fld LG_STATUS.NEIGHBOUR =
      if t.railsApart = true ∧ s.railsApart = false then min 7 (t.fld LG_STATUS.NEIGHBOUR + 1) else t.fld LG_STATUS.NEIGHBOUR := by
  dsimp only
  unfold edgeApart
  by_cases h : t.railsApart = true ∧ s.railsApart = false
  · rw [if_pos h, h.1, h.2]
    exact ⟨(raiseNeighbour_inputs t leNeighbour).1, (raiseNeighbour_spec t leNeighbour).2.2.2.1⟩
  · rw [if_neg h, if_neg (by simpa using h)]
    exact ⟨.refl t, rfl⟩

/-! ## The alert input -/

theorem alertOn_pin {s : State} (h : s.flag LG_STATUS.ALERT_PIN = true) : s.alertOn = s := if_pos h

/-- A newly asserted alert sets the contributor to its limit, and its event (R700). -/
theorem alertOn_spec {s : State} (h : s.flag LG_STATUS.ALERT_PIN = false) :
    s.alertOn.flag LG_STATUS.ALERT_PIN = true ∧ s.alertOn.fld LG_STATUS.ALERT = s.fld LG_LIMITS.ALERT_LEVEL ∧
    s.alertOn.flag LG_EVENT.ALERT = true ∧ s.alertOn.plane = s.plane := by
  have heq : s.alertOn =
      ((s.setFlag LG_STATUS.ALERT_PIN).setFld LG_STATUS.ALERT (s.fld LG_LIMITS.ALERT_LEVEL)).lgEvent leAlert := by
    unfold alertOn
    rw [h]
    rfl
  have hevent := lgEvent_statusOnly ((s.setFlag LG_STATUS.ALERT_PIN).setFld LG_STATUS.ALERT (s.fld LG_LIMITS.ALERT_LEVEL)) leAlert
  rw [heq]
  refine ⟨?_, ?_, lgEvent_flag _ (by decide : leAlert < 64), hevent.units.plane⟩
  · rw [flag, lgEvent_status _ _ rfl]
    exact (flag_setFld_apart _ LG_STATUS.ALERT LG_STATUS.ALERT_PIN _ rfl (by decide) (by decide) (by decide)).trans
      (flag_setFlag_self s _ (by decide) (by decide))
  · rw [lgEvent_status _ _ rfl, fld_setFld_self _ _ _ (by decide) (by decide)]
    exact Nat.mod_eq_of_lt (fld_lt s LG_LIMITS.ALERT_LEVEL)

/-! ## Power-good inputs -/

theorem setPortState_boot (s : State) (p st : Nat) : (s.setPortState p st).boot = s.boot := by
  unfold setPortState
  split
  · rfl
  · exact (irqEvt_units _ _).boot

/-- A port that begins to train leaves bring-up's record. -/
theorem startTraining_boot (s : State) (p : Nat) : (s.startTraining p).boot = s.boot := by
  unfold startTraining
  split
  · rfl
  dsimp only
  refine (setPortState_boot _ p psTraining).trans ?_
  split
  · rfl
  · rfl

theorem linksTry_pgs (s : State) (p : Nat → Bool) : (s.linksTry p).boot.pgs = s.boot.pgs := by
  have hfold : ∀ (xs : List Nat) (t : State), (xs.foldl startTraining t).boot = t.boot := by
    intro xs
    induction xs with
    | nil => exact fun _ => rfl
    | cons x xs ih => exact fun t => (ih _).trans (startTraining_boot t x)
  rw [linksTry, hfold]
  rfl

/-- An accepted power-good input is noted. -/
theorem pgOn_pgs (s : State) (r : Rail) (straps : BitVec 3) :
    (s.pgOn r straps).boot.pgs = s.boot.pgs ||| BitVec.ofNat 5 (2 ^ railBit r) := by
  unfold pgOn
  extract_lets b again sampled noted
  have hsampled : sampled.pgs = s.boot.pgs := apply_ite Boot.pgs _ _ _ |>.trans (ite_self _)
  have hnoted : noted.boot.pgs = s.boot.pgs ||| BitVec.ofNat 5 (2 ^ railBit r) := by rw [← hsampled]; rfl
  rw [← hnoted]
  split
  · rfl
  · split
    · exact linksTry_pgs _ _
    · rfl

/-- A lost power-good input of a rail but the safe one is noted. -/
theorem pgOff_pgs (s : State) {r : Rail} (h : r ≠ .safe) :
    (s.pgOff r).boot.pgs = s.boot.pgs &&& ~~~BitVec.ofNat 5 (2 ^ railBit r) := by
  unfold pgOff
  rw [if_neg h]
  dsimp only
  split
  · rw [(trip_spec _ _).1]
    rfl
  · rfl

/-- The record of a power-good input's samples. -/
def seenPg (s : State) (r : Rail) (on : Bool) : State :=
  let was := smGet (false, 0) s.boot.pgSeen (railBit r)
  s.setBoot { s.boot with pgSeen := smSet s.boot.pgSeen (railBit r) (on, min (if was.1 = on then was.2 + 1 else 1) 8) }

theorem samplePowerGood_eq (s : State) (r : Rail) (on : Bool) (straps : BitVec 3) : s.samplePowerGood r on straps =
    let was := smGet (false, 0) s.boot.pgSeen (railBit r)
    if (if was.1 = on then was.2 + 1 else 1) < 8 || on = s.boot.pgs.getLsbD (railBit r) then s.seenPg r on
    else if on then (s.seenPg r on).pgOn r straps else (s.seenPg r on).pgOff r := rfl

/-- A bit that is as asked stays. -/
theorem pgs_settled {w : BitVec 5} {r : Rail} {on : Bool} (h : on = w.getLsbD (railBit r)) :
    w = if on = true then w ||| BitVec.ofNat 5 (2 ^ railBit r) else w &&& ~~~BitVec.ofNat 5 (2 ^ railBit r) := by
  subst h
  revert w
  cases r <;> decide

/-- Of a sample of a power-good input that does not end a run of eight, only the record of samples is kept. -/
theorem samplePowerGood_run {s : State} {r : Rail} {on : Bool} (straps : BitVec 3)
    (h : (smGet (false, 0) s.boot.pgSeen (railBit r)).1 ≠ on ∨ (smGet (false, 0) s.boot.pgSeen (railBit r)).2 < 7) :
    let seen := smGet (false, 0) s.boot.pgSeen (railBit r)
    s.samplePowerGood r on straps = s.seenPg r on ∧
    smGet (false, 0) (s.seenPg r on).boot.pgSeen (railBit r) = (on, if seen.1 = on then seen.2 + 1 else 1) := by
  intro seen
  have hn : (if seen.1 = on then seen.2 + 1 else 1) < 8 := by
    split
    · next heq => exact Nat.succ_lt_succ (h.resolve_left (not_not_intro heq))
    · decide
  refine ⟨?_, ?_⟩
  · rw [samplePowerGood_eq]
    dsimp only
    rw [if_pos (by rw [decide_eq_true hn]; rfl)]
  · show smGet (false, 0) (smSet s.boot.pgSeen (railBit r) (on, min _ 8)) (railBit r) = _
    rw [smGet_smSet_self, Nat.min_eq_left hn.le]

/-- The eighth equal sample in a row is accepted. -/
theorem samplePowerGood_accepts {s : State} {r : Rail} {on : Bool} (straps : BitVec 3)
    (heq : (smGet (false, 0) s.boot.pgSeen (railBit r)).1 = on) (hrun : 7 ≤ (smGet (false, 0) s.boot.pgSeen (railBit r)).2) :
    s.samplePowerGood r on straps =
      if on = s.boot.pgs.getLsbD (railBit r) then s.seenPg r on
      else if on then (s.seenPg r on).pgOn r straps else (s.seenPg r on).pgOff r := by
  have hn : ¬ ((if (smGet (false, 0) s.boot.pgSeen (railBit r)).1 = on then
      (smGet (false, 0) s.boot.pgSeen (railBit r)).2 + 1 else 1) < 8) := by
    rw [if_pos heq]
    omega
  rw [samplePowerGood_eq]
  dsimp only
  rw [decide_eq_false hn, Bool.false_or]
  simp only [decide_eq_true_eq]

/-- The accepted state of a power-good input. -/
theorem samplePowerGood_pgs {s : State} {r : Rail} {on : Bool} (straps : BitVec 3)
    (heq : (smGet (false, 0) s.boot.pgSeen (railBit r)).1 = on) (hrun : 7 ≤ (smGet (false, 0) s.boot.pgSeen (railBit r)).2)
    (hsafe : on = true ∨ r ≠ .safe) :
    (s.samplePowerGood r on straps).boot.pgs =
      if on = true then s.boot.pgs ||| BitVec.ofNat 5 (2 ^ railBit r) else s.boot.pgs &&& ~~~BitVec.ofNat 5 (2 ^ railBit r) := by
  rw [samplePowerGood_accepts straps heq hrun]
  split
  · next hsame => exact pgs_settled hsame
  · cases on with
    | true => exact pgOn_pgs _ r straps
    | false => exact pgOff_pgs _ (hsafe.resolve_left Bool.false_ne_true)

end State

open State in
theorem lifeguard : Claims.Lifeguard := by
  unfold Claims.Lifeguard
  intro n v b r s on seen bit now hot exceeds kept less
  have hotEq : (s.readings.any fun r => s.threshold r.1 ≤ r.2) = true ↔ hot := by
    simp only [List.any_eq_true, decide_eq_true_eq]
    exact Iff.rfl
  have hexceeds : s.exceeds = true ↔ exceeds := by
    simp only [exceeds, State.exceeds]
    cases s.power64 with
    | none => simp
    | some w => simp
  refine ⟨fun h hwarm hapart => ?warmTick, fun h hapart => ?thermalRises, fun hapart => ?neighbourRises, fun h hapart => ?thermalSame,
    fun h hover hapart => ?powerRises, fun hover => ?overCurrents, fun h hover hapart => ?powerSame,
    ?thermalFalls, ?powerFalls, ?neighbourFalls,
    fun hdue hpin => ?alertFalls, fun h => ?alertStays, fun hpin => ?alert, fun hpin => ?alertAgain, fun hn hheld hx => ?temp,
    fun hheld => ?held, fun htrip hv => ?voltTrips, fun hlo hhi => ?amp, fun hsample hon => ?alertFirst, fun hsample hon => ?alertSecond,
    fun hsample hon => ?readyFirst, fun hlo hhi => ?volt, fun h => ?pgRun, fun heq hrun hsafe => ?pgAccepted,
    fun heq hrun hon hsafe hset => ?powerLost⟩
  case warmTick => exact ⟨_, congrArg Host.Outcome.next (thermalEval_calm hapart), (warmed_hot (hotEq.2 h)).2.2 hwarm⟩
  case thermalRises =>
    obtain ⟨hrise, hevent, -⟩ := warmed_hot (hotEq.2 h)
    exact ⟨_, congrArg Host.Outcome.next (thermalEval_calm hapart), hrise, hevent, (warmed_spec s).2.1⟩
  case neighbourRises =>
    obtain ⟨hinputs, hplane, hfld⟩ := warmed_spec s
    have heval : s.thermalEval = s.warmed.raiseNeighbour leNeighbour := by
      rw [thermalEval_eq, hinputs.tempsApart, hapart]
      rfl
    obtain ⟨-, nplane, -, nfld, -⟩ := raiseNeighbour_spec s.warmed leNeighbour
    exact ⟨_, congrArg Host.Outcome.next heval, by rw [nfld, hfld],
      (raiseNeighbour_inputs s.warmed leNeighbour).2.2 leNeighbour (by decide) (by decide) (Or.inl rfl), nplane.trans hplane⟩
  case thermalSame =>
    have hcold : s.isHot = false := by
      rw [← Bool.not_eq_true]
      exact fun hhot => h (hotEq.1 hhot)
    refine congrArg Host.Outcome.next ((thermalEval_calm hapart).trans ?_)
    rw [warmed, hcold]
    rfl
  case powerRises =>
    have hx := hexceeds.2 h
    have hstrained : s.strained = s.raise LG_STATUS.POWER 1 lePower := if_pos hx
    have hunits := (strained_statusOnly s).units
    refine ⟨_, congrArg Host.Outcome.next (powerEval_normal hover hapart), ?_⟩
    rw [noteHigh_eq, (strained_statusOnly s).inputs.powerHigh, powerHigh_of_exceeds hx, if_pos rfl, hunits.time]
    refine ⟨?_, ?_, rfl, hunits.plane⟩
    · rw [hstrained]
      exact raise_fld s 1 lePower (by decide) (by decide) (by decide) (by decide) (by decide)
    · rw [hstrained]
      exact lgEvent_flag _ (by decide : lePower < 64)
  case overCurrents =>
    obtain ⟨hfour, hevent⟩ := (overEval_spec s.strained.noteHigh).2.2.1 ((strained_inputs s).overCurrent.trans hover)
    refine ⟨_, congrArg Host.Outcome.next (powerEval_eq s), ?_⟩
    split
    · obtain ⟨-, hfld, hflag⟩ := raiseNeighbour_inputs s.strained.noteHigh.overEval leNeighbour
      exact ⟨by rw [hfld LG_STATUS.POWER rfl (by decide)]; exact hfour, hflag leOver (by decide) (by decide) (Or.inr hevent)⟩
    · exact ⟨hfour, hevent⟩
  case powerSame =>
    have hlow : s.strained = s := by
      refine if_neg ?_
      exact fun hx => h (hexceeds.1 hx)
    refine congrArg Host.Outcome.next ((powerEval_normal hover hapart).trans ?_)
    rw [hlow]
    rfl
  case thermalFalls =>
    obtain ⟨hfalls, hstays⟩ := decay_spec (s := s) (c := .thermal) (f := LG_STATUS.THERMAL) (since := s.power.thermalAt) (up := s.warm)
      (by rw [← (noted_spec s).2.2.1]; rfl) (by decide) (by decide)
    exact ⟨fun hup hdue hne => ⟨_, rfl, hfalls hup hdue hne⟩, fun h => ⟨_, congrArg Host.Outcome.next (hstays h), noted_spec s⟩⟩
  case powerFalls =>
    obtain ⟨hfalls, hstays⟩ := decay_spec (s := s) (c := .power) (f := LG_STATUS.POWER) (since := s.power.powerAt) (up := s.powerHigh)
      (by rw [← (noted_spec s).2.2.2.1]; rfl) (by decide) (by decide)
    exact ⟨fun hup hdue hne => ⟨_, rfl, hfalls hup hdue hne⟩, fun h => ⟨_, congrArg Host.Outcome.next (hstays h), noted_spec s⟩⟩
  case neighbourFalls =>
    have hat : s.noteWarm.noteHigh.power.neighbourAt = s.power.neighbourAt := by
      rw [noted_eq]
      rfl
    obtain ⟨hfalls, hstays⟩ := decay_spec (s := s) (c := .neighbour) (f := LG_STATUS.NEIGHBOUR) (since := s.power.neighbourAt)
      (up := false) (by rw [if_neg Bool.false_ne_true, ← hat]; rfl) (by decide) (by decide)
    exact ⟨fun hup hdue hne => ⟨_, rfl, hfalls hup hdue hne⟩, fun h => ⟨_, congrArg Host.Outcome.next (hstays h), noted_spec s⟩⟩
  case alertFalls =>
    refine ⟨_, congrArg Host.Outcome.next ((decay_alert s).trans (if_pos ⟨hdue, hpin⟩)), ?_, (noted_spec s).2.1⟩
    exact fld_setFld_self _ _ _ (by decide) (by decide)
  case alertStays =>
    refine ⟨_, congrArg Host.Outcome.next ((decay_alert s).trans (if_neg ?_)), noted_spec s⟩
    rintro ⟨hdue, hpin⟩
    rcases h with h | h
    · exact absurd hdue (Nat.not_le.2 h)
    · exact absurd (hpin.symm.trans h) Bool.false_ne_true
  case alert => exact ⟨_, rfl, alertOn_spec hpin⟩
  case alertAgain => exact congrArg Host.Outcome.next (alertOn_pin hpin)
  case temp =>
    have hvalid := sampleTemp_valid hn hheld ((tempInRange_iff _ _).2 hx)
    have hnoted := (noteWarm_inputs s).temps
    have htemps : (s.sampleTemp n.toNat (some v.toInt)).power.temps =
        smSet s.power.temps n.toNat ((smGet {} s.power.temps n.toNat).good 3 (v.toInt + s.calOf n.toNat)) := by
      rw [hvalid, edgeApart_temps, settleTemps_temps, ← hnoted]
      rfl
    refine ⟨s.sampleTemp n.toNat (some v.toInt), rfl, ?_, fun m hm => ?_⟩
    · rw [htemps, smGet_smSet_self]
      rfl
    · rw [htemps, smGet_smSet_of_ne _ _ _ hm]
  case held => exact congrArg Host.Outcome.next (sampleTemp_held hheld _)
  case voltTrips =>
    have hflag : (s.noteHigh.storeVolt b.toNat ((s.noteHigh.volt b.toNat).miss 10)).flag LG_STATUS.TRIPPED = false := by
      rw [noteHigh_eq]
      exact htrip
    exact ⟨_, congrArg Host.Outcome.next (sampleVolt_trips hv), (trip_spec _ 2).2.2 hflag⟩
  case amp =>
    refine ⟨_, congrArg Host.Outcome.next (sampleAmp_valid hlo hhi), ?_⟩
    rw [(settlePower_spec _).1.amp, (noteHigh_inputs s).amp]
    have hstored : (s.noteHigh.storeAmp b.toNat ((s.amp b.toNat).good 16 v.toInt)).amp b.toNat = (s.amp b.toNat).good 16 v.toInt :=
      smGet_smSet_self _ _ _ _
    rw [hstored]
    exact ⟨rfl, rfl⟩
  case alertFirst =>
    have hfirst : s.sampleAlert on = s.setPower { s.power with alertSample := on } := by
      refine if_pos ?_
      rw [hsample, hon]
      rfl
    exact ⟨_, congrArg Host.Outcome.next hfirst, hon, rfl⟩
  case alertSecond =>
    have hsecond : s.sampleAlert on = (s.setPower { s.power with alertSample := on }).alertOn := by
      rw [hon]
      unfold sampleAlert
      rw [hsample]
      rfl
    refine ⟨_, congrArg Host.Outcome.next hsecond, ?_⟩
    cases hpin : (s.setPower { s.power with alertSample := on }).flag LG_STATUS.ALERT_PIN with
    | true => rw [alertOn_pin hpin, hpin]
    | false => exact (alertOn_spec hpin).1
  case readyFirst =>
    have hfirst : s.sampleReady on = s.setPower { s.power with readySample := on } := by
      refine if_pos ?_
      rw [hsample, hon]
      rfl
    exact ⟨_, congrArg Host.Outcome.next hfirst, hon, rfl⟩
  case volt =>
    have hstored : (s.noteHigh.storeVolt b.toNat ((s.noteHigh.volt b.toNat).good 4 v.toInt)).volt b.toNat =
        (s.volt b.toNat).good 4 v.toInt := by
      rw [(noteHigh_inputs s).volt]
      exact smGet_smSet_self _ _ _ _
    obtain ⟨hsettle, hkept⟩ := settlePower_spec (s.noteHigh.storeVolt b.toNat ((s.noteHigh.volt b.toNat).good 4 v.toInt))
    obtain ⟨hedge, hrise⟩ := edgeApart_spec s.noteHigh
      (s.noteHigh.storeVolt b.toNat ((s.noteHigh.volt b.toNat).good 4 v.toInt)).settlePower
    have hbefore : (s.noteHigh.storeVolt b.toNat ((s.noteHigh.volt b.toNat).good 4 v.toInt)).fld LG_STATUS.NEIGHBOUR =
        s.fld LG_STATUS.NEIGHBOUR := by
      rw [noteHigh_eq]
      rfl
    refine ⟨_, congrArg Host.Outcome.next (sampleVolt_valid hlo hhi), ?_, ?_, ?_⟩
    · rw [hedge.volt, hsettle.volt, hstored]
      rfl
    · rw [hedge.volt, hsettle.volt, hstored]
      rfl
    · rw [hrise, hedge.railsApart, hkept, hbefore, (noteHigh_inputs s).railsApart]
  case pgRun =>
    obtain ⟨hsample, hseen⟩ := samplePowerGood_run (v.extractLsb' 4 3) h
    exact ⟨_, congrArg Host.Outcome.next hsample, hseen, rfl, rfl, rfl, rfl⟩
  case pgAccepted => exact ⟨_, rfl, samplePowerGood_pgs _ heq hrun hsafe⟩
  case powerLost =>
    have hoff : s.samplePowerGood r on (v.extractLsb' 4 3) = (s.seenPg r on).powerOff := by
      subst hsafe
      rw [samplePowerGood_accepts _ heq hrun, hon]
      rw [if_neg]
      · rfl
      · exact fun hsame => absurd (hsame.trans hset) Bool.false_ne_true
    exact ⟨_, congrArg Host.Outcome.next hoff, rfl, rfl, rfl⟩

/-- Settles O56: level moves, clock failures and gates, and the lifeguard's inputs and contributors. -/
theorem powerAndClocks : Obligations.PowerAndClocks := ⟨levelMoves, clocksAndGates, lifeguard⟩

end Sys2Proof.Machine
end

section
/-! PROOFS. The data mesh: word records, outputs of a router, and the route of a flit. -/

namespace Sys2Proof.Machine

namespace State

/-! ## Word records and credits -/

/-- Only the mesh's word records and credits differ. -/
structure WordsOnly (s t : State) : Prop where
  mesh : MeshOnly s t
  links : t.plane.mesh.links = s.plane.mesh.links
  crossing : t.plane.mesh.crossing = s.plane.mesh.crossing

namespace WordsOnly

variable {s t u : State}

theorem refl (s : State) : WordsOnly s s := ⟨.refl s, rfl, rfl⟩

theorem trans (h : WordsOnly s t) (g : WordsOnly t u) : WordsOnly s u :=
  ⟨h.mesh.trans g.mesh, g.links.trans h.links, g.crossing.trans h.crossing⟩

theorem foldl {β : Type} {f : State → β → State} (hf : ∀ s b, WordsOnly s (f s b)) (xs : List β) (s : State) :
    WordsOnly s (xs.foldl f s) := by
  induction xs generalizing s with
  | nil => exact .refl s
  | cons x xs ih => exact (hf s x).trans (ih _)

end WordsOnly

theorem endWord_wordsOnly (s : State) (w : MeshWord) : WordsOnly s (s.endWord w) := by
  unfold endWord
  dsimp only
  split
  · exact ⟨setMesh_meshOnly s _, rfl, rfl⟩
  · exact ⟨setMesh_meshOnly s _, rfl, rfl⟩

theorem putWord_wordsOnly (s : State) (w : MeshWord) : WordsOnly s (s.putWord w) := ⟨putWord_meshOnly s w, rfl, rfl⟩

theorem wordLost_wordsOnly (s : State) (id : Nat) : WordsOnly s (s.wordLost id) := by
  unfold wordLost
  split
  · exact .refl s
  · dsimp only
    split
    · exact endWord_wordsOnly s _
    · exact putWord_wordsOnly s _

theorem wordCopied_wordsOnly (s : State) (n id : Nat) : WordsOnly s (s.wordCopied n id) := by
  unfold wordCopied
  split
  · exact .refl s
  · exact putWord_wordsOnly s _

theorem wordBack_wordsOnly (s : State) (g : GroveId) (r : WordRef) : WordsOnly s (s.wordBack g r) := by
  unfold wordBack
  split
  · exact .refl s
  · dsimp only
    split
    · exact endWord_wordsOnly s _
    · exact putWord_wordsOnly s _

theorem wordsBack_wordsOnly (s : State) (g : GroveId) (rs : List WordRef) : WordsOnly s (s.wordsBack g rs) :=
  .foldl (fun s r => wordBack_wordsOnly s g r) rs s

theorem MeshOnly.cores {s t : State} (h : MeshOnly s t) : t.plane.cores = s.plane.cores := by rw [h.eq]; rfl
theorem MeshOnly.cycle {s t : State} (h : MeshOnly s t) (g : GroveId) : t.cycle g = s.cycle g := by rw [h.eq]; rfl
theorem MeshOnly.total {s t : State} (h : MeshOnly s t) (g : GroveId) : t.total g = s.total g := by rw [h.eq]; rfl

/-! ## Outputs -/

/-- A flit sent out of a router changes the mesh alone. -/
theorem sendOut_meshOnly (s : State) (c : CoreId) (d lag : Nat) (f : Flit) : MeshOnly s (s.sendOut c d lag f) := by
  unfold sendOut
  dsimp only
  split
  · exact setMesh_meshOnly s _
  · split
    · exact setMesh_meshOnly s _
    · split
      · exact (WordsOnly.foldl wordLost_wordsOnly _ s).mesh
      · exact setMesh_meshOnly s _

/-- The flit that reaches the neighbour `m` of core `c` on side `d`, in the schedule cycle `due`. -/
def hopped (m : CoreId) (d due : Nat) (f : Flit) : LinkFlit := ⟨m, inputFrom d, due, { f with hops := f.hops + 1 }⟩

/-- Within a grove, a flit arrives at the neighbour one cycle later (R320). -/
theorem sendOut_inside {s : State} {c m : CoreId} {d : Nat} (lag : Nat) (f : Flit) (hm : coreBeside c d = some m)
    (hg : groveOf m = groveOf c) :
    (s.sendOut c d lag f).plane.mesh.links = s.plane.mesh.links ++ [hopped m d (s.total (groveOf c) + 1 - lag) f] ∧
    (s.sendOut c d lag f).plane.mesh.crossing = s.plane.mesh.crossing := by
  have heq : s.sendOut c d lag f = s.setMesh { s.plane.mesh with
      links := s.plane.mesh.links ++ [hopped m d (s.total (groveOf c) + 1 - lag) f] } := by
    unfold sendOut
    rw [hm]
    exact if_pos hg
  rw [heq]
  exact ⟨rfl, rfl⟩

theorem sendOuts_meshOnly (s : State) (c : CoreId) (ds : List Nat) (lag : Nat) (f : Flit) :
    MeshOnly s (ds.foldl (fun s d => s.sendOut c d lag f) s) := by
  induction ds generalizing s with
  | nil => exact .refl s
  | cons d ds ih => exact (sendOut_meshOnly s c d lag f).trans (ih _)

/-- Every output within the grove gets a copy (R321). -/
theorem sendOuts_inside (s : State) {c : CoreId} {ds : List Nat} (lag : Nat) (f : Flit)
    (h : ∀ d ∈ ds, ∃ m, coreBeside c d = some m ∧ groveOf m = groveOf c) :
    (ds.foldl (fun s d => s.sendOut c d lag f) s).plane.mesh.links = s.plane.mesh.links ++
      ds.filterMap (fun d => (coreBeside c d).map fun m => hopped m d (s.total (groveOf c) + 1 - lag) f) ∧
    (ds.foldl (fun s d => s.sendOut c d lag f) s).plane.mesh.crossing = s.plane.mesh.crossing := by
  induction ds generalizing s with
  | nil => exact ⟨(List.append_nil _).symm, rfl⟩
  | cons d ds ih =>
    obtain ⟨m, hm, hg⟩ := h d (List.mem_cons_self ..)
    obtain ⟨hlinks, hcrossing⟩ := sendOut_inside (s := s) lag f hm hg
    obtain ⟨ilinks, icrossing⟩ := ih (s.sendOut c d lag f) fun x hx => h x (List.mem_cons_of_mem _ hx)
    rw [(sendOut_meshOnly s c d lag f).total, hlinks] at ilinks
    rw [List.foldl_cons]
    refine ⟨ilinks.trans ?_, icrossing.trans hcrossing⟩
    rw [List.filterMap_cons, hm, List.append_assoc]
    rfl

/-! ## The route of a flit -/

/-- The flit with its parity checked. -/
def checked (f : Flit) : Flit :=
  { f with poison := f.poison ||| (f.badPar &&& f.valid), badPar := f.badPar &&& ~~~(f.badPar &&& f.valid) }

/-- The router's note of a bad parity. -/
def parityNoted (s : State) (c : CoreId) (at_ : Nat) (f : Flit) : State :=
  if f.badPar &&& f.valid = 0 then s else s.setCore c ((s.core c).setRouterStat at_ 0)

/-- A flit without a valid entry is discarded, and STRAY is set. -/
def strayed (s : State) (c : CoreId) (at_ : Nat) (f : Flit) : State :=
  f.ids.foldl wordLost (s.setCore c ((s.core c).setRouterStat at_ 1))

/-- The outputs to neighbours that a route entry names. -/
def outputs (e : BitVec 32) : List Nat := (List.range 4).filter (routeOut e)

/-- A route entry names a local target. -/
def hereToo (e : BitVec 32) : Bool := routeOut e 4 && routeTgt e ≤ 8

def copies (e : BitVec 32) : Nat := (outputs e).length + (hereToo e).toNat

/-- The flit's copies leave, and each is counted. -/
def forwarded (s : State) (c : CoreId) (e : BitVec 32) (lag : Nat) (f : Flit) : State :=
  let s := if copies e = 1 then s else f.ids.foldl (wordCopied · (copies e - 1)) s
  let s := s.setCore c ((s.core c).bump 0x11 (copies e))
  (outputs e).foldl (fun s d => s.sendOut c d lag f) s

/-- The flit reaches the local output. -/
def handed (s : State) (c : CoreId) (e : BitVec 32) (lag : Nat) (f : Flit) : State :=
  let r := (s.core c).deliver (routeTgt e) (routeContrib e) (s.cycle (groveOf c) - lag) f
  (s.setCore c r.1).wordsBack (groveOf c) r.2

/-- What a valid route entry does with a flit. -/
def routed (s : State) (c : CoreId) (e : BitVec 32) (lag : Nat) (f : Flit) : State :=
  if copies e = 0 then f.ids.foldl wordLost s
  else if hereToo e then (s.forwarded c e lag f).handed c e lag f else s.forwarded c e lag f

theorem parityNoted_spec (s : State) (c : CoreId) (at_ : Nat) (f : Flit) :
    (s.parityNoted c at_ f).plane.mesh = s.plane.mesh ∧ (∀ g, (s.parityNoted c at_ f).cycle g = s.cycle g) ∧
    (∀ g, (s.parityNoted c at_ f).total g = s.total g) ∧
    (∃ stat fresh, (s.parityNoted c at_ f).core c =
      { s.core c with net := { (s.core c).net with routerStat := stat }, fresh := fresh }) ∧
    (f.badPar &&& f.valid ≠ 0 → ((s.parityNoted c at_ f).core c).net.routerStat.getLsbD 0 = true) := by
  unfold parityNoted
  split
  · next h => exact ⟨rfl, fun _ => rfl, fun _ => rfl, ⟨_, _, rfl⟩, fun hne => absurd h hne⟩
  · refine ⟨rfl, fun _ => rfl, fun _ => rfl, ?_, fun _ => ?_⟩
    · rw [setCore_core_self]
      exact ⟨_, _, rfl⟩
    · rw [setCore_core_self]
      show ((s.core c).net.routerStat ||| BitVec.ofNat 64 (2 ^ 0)).getLsbD 0 = true
      rw [BitVec.getLsbD_or]
      exact Bool.or_true _

/-- A router checks parity, and routes by its slot's entry or discards (R320, R323, R324). -/
theorem routeFlit_eq (s : State) (c : CoreId) (input lag : Nat) (f : Flit) :
    let e := (s.core c).route input ((s.sched (groveOf c) + 16 - lag % 16) % 16)
    let at_ := s.cycle (groveOf c) - lag
    s.routeFlit c input lag f =
      if routeValid e then (s.parityNoted c at_ f).routed c e lag (checked f)
      else (s.parityNoted c at_ f).strayed c at_ (checked f) := by
  intro e at_
  obtain ⟨-, hcycle, -, ⟨stat, fresh, hcore⟩, -⟩ := parityNoted_spec s c at_ f
  have hroute : ((s.parityNoted c at_ f).core c).route input ((s.sched (groveOf c) + 16 - lag % 16) % 16) = e := by
    rw [hcore]
    rfl
  have hdef : s.routeFlit c input lag f =
      let t := s.parityNoted c at_ f
      let e' := (t.core c).route input ((s.sched (groveOf c) + 16 - lag % 16) % 16)
      if !routeValid e' then t.strayed c (t.cycle (groveOf c) - lag) (checked f) else t.routed c e' lag (checked f) := rfl
  rw [hdef]
  dsimp only
  rw [hroute, hcycle]
  cases routeValid e
  · rfl
  · rfl

end State
end Sys2Proof.Machine
end

section
/-! PROOFS. Contributions to accumulator entries. -/

namespace Sys2Proof.Machine

/-! ## FP32 values -/

/-- Sign, exponent and mantissa of a pattern. -/
theorem fp32_parts (v : BitVec 32) :
    v.toNat = 2 ^ 31 * (v.getLsbD 31).toNat + 2 ^ 23 * (v.extractLsb' 23 8).toNat + (v.extractLsb' 0 23).toNat ∧
    (v.extractLsb' 23 8).toNat < 256 ∧ (v.extractLsb' 0 23).toNat < 2 ^ 23 := by
  have hv := v.isLt
  have hsign : (v.getLsbD 31).toNat = v.toNat / 2 ^ 31 % 2 := by
    rw [BitVec.getLsbD, Nat.testBit_eq_decide_div_mod_eq]
    rcases Nat.mod_two_eq_zero_or_one (v.toNat / 2 ^ 31) with h | h <;> rw [h] <;> rfl
  rw [hsign]
  simp only [BitVec.extractLsb'_toNat, Nat.shiftRight_eq_div_pow]
  omega

/-- The value of a pattern by its exponent (R232). -/
def fp32Value (neg : Bool) (e m : Nat) : FVal :=
  if e = 255 then (if m = 0 then .inf neg else .nan (m < 2 ^ 22))
  else if e = 0 then .fin neg m (-149) else .fin neg (2 ^ 23 + m) (e - 150)

theorem decode_eq_fp32Value (n : Nat) :
    fp32.decode n = fp32Value (n / 2 ^ 31 % 2 = 1) (n / 2 ^ 23 % 2 ^ 8) (n % 2 ^ 23) := by
  unfold FFmt.decode fp32Value
  dsimp only
  by_cases htop : n / 2 ^ 23 % 2 ^ 8 = 255
  · rw [if_pos htop]
    exact if_pos ⟨rfl, htop⟩
  · rw [if_neg htop]
    refine (if_neg fun h => htop h.2).trans ((if_neg fun h => nomatch h.1).trans ?_)
    by_cases hzero : n / 2 ^ 23 % 2 ^ 8 = 0
    · rw [if_pos hzero]
      exact if_pos hzero
    · rw [if_neg hzero]
      refine (if_neg hzero).trans (congrArg (FVal.fin _ _) ?_)
      show ((n / 2 ^ 23 % 2 ^ 8 : Nat) : Int) - 127 - 23 = _
      omega

theorem fp32_decode (v : BitVec 32) :
    fp32.decode v.toNat = fp32Value (v.getLsbD 31) (v.extractLsb' 23 8).toNat (v.extractLsb' 0 23).toNat := by
  have hneg : v.getLsbD 31 = decide (v.toNat / 2 ^ 31 % 2 = 1) := Nat.testBit_eq_decide_div_mod_eq
  rw [decode_eq_fp32Value, hneg]
  simp only [BitVec.extractLsb'_toNat, Nat.shiftRight_eq_div_pow, Nat.pow_zero, Nat.div_one]

/-- The exponent of a number of 24 bits. -/
theorem log2_mantissa {m : Nat} (h : m < 2 ^ 23) : Nat.log2 (2 ^ 23 + m) = 23 := by
  rw [Nat.log2_eq_iff (by omega)]
  omega

theorem log2_subnormal {m : Nat} (h : m < 2 ^ 23) (hm : m ≠ 0) : Nat.log2 m < 23 := (Nat.log2_lt hm).2 h


/-! ## One contribution -/

/-- A contribution as counted, before its value is added. -/
def Potluck.counted (a : Potluck) (mark : Bool) (due : Nat) (words : List WordRef) : Potluck :=
  { a with count := a.count + 1, poison := a.poison || mark, due := due, words := a.words ++ words }

/-- What a value makes of an entry. -/
def Potluck.take (a : Potluck) (d : FVal) (v : BitVec 256) : Potluck :=
  match d with
  | .nan _ => { a with nan := true }
  | .inf ng => if ng then { a with infN := true } else { a with infP := true }
  | .fin ng m e =>
    if m = 0 then (if ng then a else { a with nonneg0 := true })
    else if (Nat.log2 m : Int) + e < -100 then { a with nonneg0 := true }
    else if 127 ≤ (Nat.log2 m : Int) + e then (if ng then { a with rngN := true } else { a with rngP := true })
    else { a with val := a.val + v }

theorem Potluck.add_eq (a : Potluck) (v : BitVec 32) (mark : Bool) (due : Nat) (words : List WordRef) :
    (a.add v mark due words).1 = (a.counted mark due words).take (fp32.decode v.toNat) (potluckFixed v) := by
  unfold Potluck.add Potluck.take
  dsimp only
  cases fp32.decode v.toNat with
  | nan sg => rfl
  | inf ng => rfl
  | fin ng m e =>
    dsimp only
    split
    · rfl
    · split
      · rfl
      · split
        · rfl
        · rfl

/-- A taken value leaves the counts, the mark and the cycle. -/
theorem Potluck.take_due (a : Potluck) (d : FVal) (v : BitVec 256) : (a.take d v).due = a.due := by
  unfold Potluck.take
  split
  · rfl
  · split
    · rfl
    · rfl
  · split
    · split
      · rfl
      · rfl
    · split
      · rfl
      · split
        · split
          · rfl
          · rfl
        · rfl

/-- The fixed-point value of a normal number (R341). -/
theorem potluckFixed_normal {v : BitVec 32} {e m : Nat} {neg : Bool} (h : fp32.decode v.toNat = .fin neg (2 ^ 23 + m) (e - 150))
    (he : 27 ≤ e) : potluckFixed v = BitVec.ofInt 256 ((if neg then -1 else 1) * ((2 ^ 23 + m) * 2 ^ (e - 27) : Nat)) := by
  have hexp : ((e : Int) - 150 + 123).toNat = e - 27 := by omega
  rw [potluckFixed, h]
  dsimp only [FVal.exact_, exactOf]
  rw [hexp]
  refine congrArg (BitVec.ofInt 256) ?_
  rw [Nat.cast_mul, Nat.cast_pow, Nat.cast_two, ← mul_assoc]
  refine congrArg (· * (2 : Int) ^ (e - 27)) ?_
  cases neg
  · exact (one_mul _).symm
  · exact (neg_one_mul _).symm

/-- A value below 2 ^ -100 but -0 is noted as not being -0. -/
theorem Potluck.take_small (a : Potluck) (neg : Bool) {e m : Nat} (x : BitVec 256) (he : e < 27) (hm : m < 2 ^ 23) :
    a.take (fp32Value neg e m) x = if (neg && e == 0 && m == 0) = true then a else { a with nonneg0 := true } := by
  have htop : e ≠ 255 := by omega
  rw [fp32Value, if_neg htop]
  by_cases hzero : e = 0
  · subst hzero
    rw [if_pos rfl]
    by_cases hmant : m = 0
    · subst hmant
      cases neg
      · rfl
      · rfl
    · have hlog := log2_subnormal hm hmant
      have hlow : (Nat.log2 m : Int) + -149 < -100 := by omega
      simp [Potluck.take, hmant, hlow]
  · have hne : 2 ^ 23 + m ≠ 0 := by omega
    have hlow : ((23 : Nat) : Int) + ((e : Int) - 150) < -100 := by omega
    rw [if_neg hzero]
    dsimp only [Potluck.take]
    rw [if_neg hne, log2_mantissa hm, if_pos hlow]
    simp [hzero]

/-- A value in range is added. -/
theorem Potluck.take_normal (a : Potluck) (neg : Bool) {e m : Nat} (x : BitVec 256) (he : 27 ≤ e) (htop : e < 254) (hm : m < 2 ^ 23) :
    a.take (fp32Value neg e m) x = { a with val := a.val + x } := by
  have hne : 2 ^ 23 + m ≠ 0 := by omega
  rw [fp32Value, if_neg (by omega), if_neg (by omega)]
  dsimp only [Potluck.take]
  rw [if_neg hne, log2_mantissa hm, if_neg (by omega), if_neg (by omega)]

/-- A value from 2 ^ 127 on sets its range flag. -/
theorem Potluck.take_large (a : Potluck) (neg : Bool) {m : Nat} (x : BitVec 256) (hm : m < 2 ^ 23) :
    a.take (fp32Value neg 254 m) x = if neg then { a with rngN := true } else { a with rngP := true } := by
  have hne : 2 ^ 23 + m ≠ 0 := by omega
  rw [fp32Value, if_neg (by decide), if_neg (by decide)]
  dsimp only [Potluck.take]
  rw [if_neg hne, log2_mantissa hm, if_neg (by omega), if_pos (by omega)]

/-- Infinities and NaNs set their flags. -/
theorem Potluck.take_special (a : Potluck) (neg : Bool) (m : Nat) (x : BitVec 256) :
    a.take (fp32Value neg 255 m) x =
      if m = 0 then (if neg then { a with infN := true } else { a with infP := true }) else { a with nan := true } := by
  rw [fp32Value, if_pos rfl]
  split
  · rfl
  · rfl

/-- -0 by its parts. -/
theorem bne_negZero (v : BitVec 32) :
    (v != 0x80000000) = !(v.getLsbD 31 && (v.extractLsb' 23 8).toNat == 0 && (v.extractLsb' 0 23).toNat == 0) := by
  obtain ⟨hv, -, -⟩ := fp32_parts v
  have hiff : v = 0x80000000 ↔ (v.getLsbD 31 && (v.extractLsb' 23 8).toNat == 0 && (v.extractLsb' 0 23).toNat == 0) = true := by
    simp only [Bool.and_eq_true, beq_iff_eq]
    refine ⟨fun h => by rw [h]; decide, fun ⟨⟨hneg, he⟩, hm⟩ => ?_⟩
    rw [hneg, he, hm] at hv
    exact BitVec.eq_of_toNat_eq hv
  rw [bne, Bool.eq_iff_iff.2 (beq_iff_eq.trans hiff)]

/-- A contribution changes an entry as its value asks (R341, R342). -/
theorem contributes_add (v : BitVec 32) (mark : Bool) (a : Potluck) (due : Nat) (words : List WordRef) :
    Claims.Contributes v mark a (a.add v mark due words).1 := by
  obtain ⟨-, he, hm⟩ := fp32_parts v
  have hdecode := fp32_decode v
  have hfixed := fun hvalue => potluckFixed_normal (v := v) (e := (v.extractLsb' 23 8).toNat) (m := (v.extractLsb' 0 23).toNat)
    (neg := v.getLsbD 31) (hdecode.trans hvalue)
  rw [Potluck.add_eq, hdecode]
  unfold Claims.Contributes
  rw [bne_negZero]
  generalize (v.extractLsb' 23 8).toNat = e at *
  generalize (v.extractLsb' 0 23).toNat = m at *
  generalize v.getLsbD 31 = neg at *
  dsimp only
  rcases (show e < 27 ∨ (27 ≤ e ∧ e < 254) ∨ e = 254 ∨ e = 255 by omega) with hlow | ⟨hlo, hhi⟩ | rfl | rfl
  · rw [Potluck.take_small _ neg _ hlow hm]
    have h254 : e ≠ 254 := by omega
    have h255 : e ≠ 255 := by omega
    cases hzero : (neg && e == 0 && m == 0) <;> simp [Potluck.counted, hlow, h254, h255, Nat.not_le.2 hlow]
  · have hvalue : fp32Value neg e m = .fin neg (2 ^ 23 + m) (e - 150) := by rw [fp32Value, if_neg (by omega), if_neg (by omega)]
    have h254 : e ≠ 254 := by omega
    have h255 : e ≠ 255 := by omega
    rw [Potluck.take_normal _ neg _ hlo hhi hm, hfixed hvalue hlo]
    simp [Potluck.counted, hlo, hhi, h254, h255, Nat.not_lt.2 hlo]
  · rw [Potluck.take_large _ neg _ hm]
    cases neg <;> simp [Potluck.counted]
  · rw [Potluck.take_special]
    by_cases hmant : m = 0
    · cases neg <;> simp [Potluck.counted, hmant]
    · simp [Potluck.counted, hmant]

end Sys2Proof.Machine
end

section
/-! PROOFS. Deliveries, and the routes of flits. -/

namespace Sys2Proof.Machine

/-! ## Deliveries to a core -/

/-- A delivery leaves the router's status, the send ends and the latest injection. -/
structure KeepsRouter (k l : Core) : Prop where
  stat : l.net.routerStat = k.net.routerStat
  send : l.net.send = k.net.send
  injected : l.net.injected = k.net.injected

namespace KeepsRouter

variable {k l m : Core}

theorem refl (k : Core) : KeepsRouter k k := ⟨rfl, rfl, rfl⟩

theorem trans (h : KeepsRouter k l) (g : KeepsRouter l m) : KeepsRouter k m :=
  ⟨g.stat.trans h.stat, g.send.trans h.send, g.injected.trans h.injected⟩

theorem of_net (h : l.net = k.net) : KeepsRouter k l := ⟨by rw [h], by rw [h], by rw [h]⟩

end KeepsRouter

/-- A count of events leaves the network. -/
theorem Core.bump_net (k : Core) (e n : Nat) : (k.bump e n).net = k.net := by
  unfold Core.bump
  split
  · rfl
  · rfl

theorem KeepsRouter.bump {k l : Core} (h : KeepsRouter k l) (e n : Nat) : KeepsRouter k (l.bump e n) :=
  h.trans (.of_net (Core.bump_net l e n))

theorem Core.recvWord_keepsRouter (k : Core) (n contrib : Nat) (e : RqEntry) : KeepsRouter k (k.recvWord n contrib e).1 := by
  unfold Core.recvWord
  dsimp only
  split
  · split
    · exact ⟨rfl, rfl, rfl⟩
    · dsimp only
      refine KeepsRouter.bump ?_ _ _
      exact ⟨rfl, rfl, rfl⟩
  · split
    · exact ⟨rfl, rfl, rfl⟩
    · exact ⟨rfl, rfl, rfl⟩

theorem Core.recvWords_keepsRouter (k : Core) (n contrib : Nat) (es : List RqEntry) : KeepsRouter k (k.recvWords n contrib es).1 := by
  have hfold : ∀ (es : List RqEntry) (a : Core × List WordRef), KeepsRouter a.1
      (es.foldl (fun (a : Core × List WordRef) e => let r := a.1.recvWord n contrib e; (r.1, a.2 ++ r.2)) a).1 := by
    intro es
    induction es with
    | nil => exact fun a => .refl a.1
    | cons e es ih =>
      exact fun a => (Core.recvWord_keepsRouter a.1 n contrib e).trans
        (ih ((a.1.recvWord n contrib e).1, a.2 ++ (a.1.recvWord n contrib e).2))
  exact hfold es (k, [])

theorem Core.recvRow_keepsRouter (k : Core) (side : BitVec 12) (cyc : Nat) (es : List RqEntry) :
    KeepsRouter k (k.recvRow side cyc es).1 := by
  unfold Core.recvRow
  dsimp only
  split
  · exact ⟨rfl, rfl, rfl⟩
  · exact ⟨rfl, rfl, rfl⟩

/-- A core without the words that wait for the last flit of a tuple. -/
def Core.emptied (k : Core) (tgt : Nat) : Core := { k with net := { k.net with part := smDrop (fun n => n = tgt) k.net.part } }

theorem Core.deliver_keepsRouter (k : Core) (tgt contrib cyc : Nat) (f : Flit) : KeepsRouter k (k.deliver tgt contrib cyc f).1 := by
  have hemptied : KeepsRouter k (k.emptied tgt) := ⟨rfl, rfl, rfl⟩
  unfold Core.deliver
  dsimp only
  split
  · exact ⟨rfl, rfl, rfl⟩
  · split
    · exact hemptied.trans (Core.recvRow_keepsRouter (k.emptied tgt) _ _ _)
    · exact hemptied.trans (Core.recvWords_keepsRouter (k.emptied tgt) _ _ _)

/-- Word `i` of a flit, with its mark and record. -/
def wordOfFlit (f : Flit) (i : Nat) (w : BitVec 64) (cyc : Nat) : RqEntry :=
  { data := w, poison := f.poison.getLsbD i, due := cyc, word := (f.ids[i]?).map fun id => ⟨id, State.flitLatency f⟩ }

theorem flitWords_eq (f : Flit) (cyc : Nat) : State.flitWords f cyc =
    (if f.valid.getLsbD 0 then [wordOfFlit f 0 f.w0 cyc] else []) ++ (if f.valid.getLsbD 1 then [wordOfFlit f 1 f.w1 cyc] else []) := rfl

/-- The word of a flit of one word. -/
def oneWord (f : Flit) (cyc : Nat) : RqEntry := wordOfFlit f 0 f.w0 cyc

theorem flitWords_one {f : Flit} (h : f.valid = 1) (cyc : Nat) : State.flitWords f cyc = [oneWord f cyc] := by
  rw [flitWords_eq, h]
  rfl

/-- A tuple of one word, in one flit, is delivered to its queue. -/
theorem Core.deliver_one {k : Core} {tgt cyc : Nat} {f : Flit} (contrib : Nat) (hvalid : f.valid = 1) (hlast : f.last = true)
    (hpart : smGet [] k.net.part tgt = []) (htgt : tgt ≠ 8) :
    k.deliver tgt contrib cyc f = (k.emptied tgt).recvWord tgt contrib (oneWord f cyc) := by
  unfold Core.deliver
  rw [hpart, flitWords_one hvalid, hlast]
  exact if_neg htgt

/-- A word joins a normal queue with room (R333). -/
theorem Core.recvWord_queue {k : Core} {n : Nat} (contrib : Nat) (e : RqEntry) (hq : (k.rqueue n).potluck = false)
    (hroom : (k.rqueue n).entries.length < 8) :
    k.recvWord n contrib e = (k.setRqueue n { k.rqueue n with entries := (k.rqueue n).entries ++ [e] }, []) := by
  unfold Core.recvWord RQueue.arrive
  dsimp only
  rw [hq, if_pos hroom]
  rfl

theorem Core.rqueue_setRqueue (k : Core) (n i : Nat) (q : RQueue) : (k.setRqueue n q).rqueue i = if i = n then q else k.rqueue i :=
  smGet_smSet _ _ _ _ _

/-- A potluck queue after a word of contributor `c` (R339, R340). -/
def RQueue.contributed (q : RQueue) (c : Nat) (e : RqEntry) : RQueue :=
  let p := smGet 0 q.ptrs c
  { q with
    window := smSet (smSet q.window p ((q.slot p).add (e.data.extractLsb' 0 32) e.poison (e.due + 1) e.word.toList).1) (p + 1)
      ((q.slot (p + 1)).add (e.data.extractLsb' 32 32) e.poison (e.due + 1) []).1
    ptrs := smSet q.ptrs c (p + 2) }

theorem RQueue.contributed_slot (q : RQueue) (c : Nat) (e : RqEntry) :
    let p := smGet 0 q.ptrs c
    (q.contributed c e).slot p = ((q.slot p).add (e.data.extractLsb' 0 32) e.poison (e.due + 1) e.word.toList).1 ∧
    (q.contributed c e).slot (p + 1) = ((q.slot (p + 1)).add (e.data.extractLsb' 32 32) e.poison (e.due + 1) []).1 ∧
    ∀ i, i ≠ p → i ≠ p + 1 → (q.contributed c e).slot i = q.slot i := by
  intro p
  refine ⟨?_, smGet_smSet_self _ _ _ _, fun i hi hj => ?_⟩
  · exact (smGet_smSet_of_ne _ _ _ (Nat.ne_of_lt (Nat.lt_succ_self p))).trans (smGet_smSet_self _ _ _ _)
  · exact (smGet_smSet_of_ne _ _ _ hj).trans (smGet_smSet_of_ne _ _ _ hi)

/-- A word of a contributor below E reaches its two entries; its queue alone, and counts, change. -/
theorem Core.recvWord_potluck {k : Core} {n c : Nat} (e : RqEntry) (hq : (k.rqueue n).potluck = true)
    (hc : c ≤ (k.rqueue n).expm1.toNat) :
    ∀ i, (k.recvWord n c e).1.rqueue i = if i = n then (k.rqueue n).contributed c e else k.rqueue i := by
  intro i
  have hcontribute : ∃ fl, (k.rqueue n).contribute c e = some ((k.rqueue n).contributed c e, fl) := ⟨_, if_neg (Nat.not_lt.2 hc)⟩
  obtain ⟨fl, hsome⟩ := hcontribute
  unfold Core.recvWord
  dsimp only
  rw [hq, if_pos rfl, hsome]
  dsimp only
  rw [Core.rqueue, Core.bump_net]
  exact Core.rqueue_setRqueue k n i _

/-- A word of an index of E or more reaches nothing, and BADIDX is set. -/
theorem Core.recvWord_badIndex {k : Core} {n c : Nat} (e : RqEntry) (hq : (k.rqueue n).potluck = true)
    (hc : (k.rqueue n).expm1.toNat < c) :
    (k.recvWord n c e).1.net.rq = k.net.rq ∧
    (k.recvWord n c e).1.net.rqStat = k.net.rqStat ||| BitVec.ofNat 64 (2 ^ (10 + n)) := by
  have hnone : (k.rqueue n).contribute c e = none := if_pos hc
  unfold Core.recvWord
  dsimp only
  rw [hq, if_pos rfl, hnone]
  exact ⟨rfl, rfl⟩

namespace State

/-! ## A routed flit -/

theorem forwarded_spec (s : State) (c : CoreId) (e : BitVec 32) (lag : Nat) (f : Flit) :
    let t := s.forwarded c e lag f
    t.core c = (s.core c).bump 0x11 (copies e) ∧ (∀ g, t.cycle g = s.cycle g) ∧
    ((∀ d ∈ outputs e, ∃ m, coreBeside c d = some m ∧ groveOf m = groveOf c) →
      t.plane.mesh.links = s.plane.mesh.links ++
        (outputs e).filterMap (fun d => (coreBeside c d).map fun m => hopped m d (s.total (groveOf c) + 1 - lag) f) ∧
      t.plane.mesh.crossing = s.plane.mesh.crossing) := by
  intro t
  obtain ⟨u, hu, ht⟩ : ∃ u, WordsOnly s u ∧
      t = (outputs e).foldl (fun s d => s.sendOut c d lag f) (u.setCore c ((u.core c).bump 0x11 (copies e))) := by
    refine ⟨_, ?_, rfl⟩
    split
    · exact .refl s
    · exact .foldl (fun s id => wordCopied_wordsOnly s _ id) f.ids s
  have hmesh := sendOuts_meshOnly (u.setCore c ((u.core c).bump 0x11 (copies e))) c (outputs e) lag f
  rw [← ht] at hmesh
  refine ⟨?_, fun g => (hmesh.cycle g).trans (hu.mesh.cycle g), fun hinside => ?_⟩
  · rw [hmesh.core, setCore_core_self, hu.mesh.core]
  · have houts := sendOuts_inside (u.setCore c ((u.core c).bump 0x11 (copies e))) lag f hinside
    have htotal : (u.setCore c ((u.core c).bump 0x11 (copies e))).total (groveOf c) = s.total (groveOf c) := hu.mesh.total _
    rw [← ht, htotal] at houts
    exact ⟨houts.1.trans (congrArg (· ++ _) hu.links), houts.2.trans hu.crossing⟩

theorem handed_spec (s : State) (c : CoreId) (e : BitVec 32) (lag : Nat) (f : Flit) :
    (s.handed c e lag f).core c = ((s.core c).deliver (routeTgt e) (routeContrib e) (s.cycle (groveOf c) - lag) f).1 ∧
    (s.handed c e lag f).plane.mesh.links = s.plane.mesh.links ∧ (s.handed c e lag f).plane.mesh.crossing = s.plane.mesh.crossing := by
  have hback := wordsBack_wordsOnly (s.setCore c ((s.core c).deliver (routeTgt e) (routeContrib e) (s.cycle (groveOf c) - lag) f).1)
    (groveOf c) ((s.core c).deliver (routeTgt e) (routeContrib e) (s.cycle (groveOf c) - lag) f).2
  exact ⟨(hback.mesh.core c).trans (setCore_core_self _ _ _), hback.links, hback.crossing⟩

/-- What the core holds after its router has routed a flit. -/
theorem routed_core_keepsRouter (s : State) (c : CoreId) (e : BitVec 32) (lag : Nat) (f : Flit) :
    KeepsRouter (s.core c) ((s.routed c e lag f).core c) := by
  unfold routed
  split
  · rw [(WordsOnly.foldl wordLost_wordsOnly f.ids s).mesh.core]
    exact .refl _
  have hforward : KeepsRouter (s.core c) ((s.forwarded c e lag f).core c) := by
    rw [(forwarded_spec s c e lag f).1]
    exact .of_net (Core.bump_net _ _ _)
  split
  · rw [(handed_spec _ c e lag f).1]
    exact hforward.trans (Core.deliver_keepsRouter _ _ _ _ _)
  · exact hforward

/-- A flit with a local output reaches the core, besides its other outputs. -/
theorem routed_here {e : BitVec 32} (h : hereToo e = true) (s : State) (c : CoreId) (lag : Nat) (f : Flit) :
    (s.routed c e lag f).core c = (((s.core c).bump 0x11 (copies e)).deliver (routeTgt e) (routeContrib e)
      (s.cycle (groveOf c) - lag) f).1 := by
  have hcopies : copies e ≠ 0 := by
    rw [copies, h]
    exact Nat.succ_ne_zero _
  obtain ⟨hcore, hcycle, -⟩ := forwarded_spec s c e lag f
  rw [routed, if_neg hcopies, if_pos h, (handed_spec _ c e lag f).1, hcore, hcycle]

/-- Without a local output, the core only counts. -/
theorem routed_away {e : BitVec 32} (h : hereToo e = false) (s : State) (c : CoreId) (lag : Nat) (f : Flit) :
    ((s.routed c e lag f).core c).net = (s.core c).net := by
  unfold routed
  split
  · rw [(WordsOnly.foldl wordLost_wordsOnly f.ids s).mesh.core]
  · rw [h, if_neg Bool.false_ne_true, (forwarded_spec s c e lag f).1, Core.bump_net]

/-- The copies of a flit whose outputs lie within the grove. -/
theorem routed_links {c : CoreId} {e : BitVec 32} (h : ∀ d ∈ outputs e, ∃ m, coreBeside c d = some m ∧ groveOf m = groveOf c)
    (s : State) (lag : Nat) (f : Flit) :
    (s.routed c e lag f).plane.mesh.links = s.plane.mesh.links ++
      (outputs e).filterMap (fun d => (coreBeside c d).map fun m => hopped m d (s.total (groveOf c) + 1 - lag) f) ∧
    (s.routed c e lag f).plane.mesh.crossing = s.plane.mesh.crossing := by
  obtain ⟨hlinks, hcrossing⟩ := (forwarded_spec s c e lag f).2.2 h
  unfold routed
  split
  · next hcopies =>
    have hnone : outputs e = [] := List.eq_nil_of_length_eq_zero (Nat.add_eq_zero_iff.1 hcopies).1
    have hlost := WordsOnly.foldl wordLost_wordsOnly f.ids s
    rw [hnone]
    exact ⟨hlost.links.trans (List.append_nil _).symm, hlost.crossing⟩
  · split
    · obtain ⟨-, dlinks, dcrossing⟩ := handed_spec (s.forwarded c e lag f) c e lag f
      exact ⟨dlinks.trans hlinks, dcrossing.trans hcrossing⟩
    · exact ⟨hlinks, hcrossing⟩

end State
end Sys2Proof.Machine
end

section
/-! PROOFS. Arrivals of flits at routers and cores. -/

namespace Sys2Proof.Machine

namespace State

/-- The state without the flit that arrives. -/
def withLinks (s : State) (rest : List LinkFlit) : State := s.setMesh { s.plane.mesh with links := rest }

/-- What an arriving flit does, by its entry. -/
def arrived (s : State) (c : CoreId) (rest : List LinkFlit) (e : BitVec 32) (lag : Nat) (f : Flit) : State :=
  let t := (s.withLinks rest).parityNoted c (s.cycle (groveOf c) - lag) f
  if routeValid e then t.routed c e lag (checked f) else t.strayed c (s.cycle (groveOf c) - lag) (checked f)

theorem exec_flitArrival {c : CoreId} {input : BitVec 2} {n0 n1 : BitVec 65} {s : State} {l : LinkFlit} {rest : List LinkFlit}
    (hcatch : s.catching (groveOf c) = false)
    (htake : takeFirst (fun x : LinkFlit => x.core = c && x.input = input.toNat && x.due ≤ s.total (groveOf c)) s.plane.mesh.links =
      some (l, rest)) :
    exec (.flitArrival c ⟨input, n0, n1⟩) s = .next (s.arrived c rest
      ((s.core c).route l.input ((s.sched (groveOf c) + 16 - (s.total (groveOf c) - l.due) % 16) % 16))
      (s.total (groveOf c) - l.due) (l.flit.noisy n0 n1)) := by
  have hexec : exec (.flitArrival c ⟨input, n0, n1⟩) s =
      .next ((s.withLinks rest).routeFlit c l.input (s.total (groveOf c) - l.due) (l.flit.noisy n0 n1)) := by
    show execFlitArrival c ⟨input, n0, n1⟩ s = _
    unfold execFlitArrival
    dsimp only
    rw [hcatch, if_neg Bool.false_ne_true, htake]
    rfl
  rw [hexec, routeFlit_eq]
  rfl

/-- The core's queues and its record of parts are not touched by the note of a parity. -/
theorem arrived_core (s : State) (c : CoreId) (rest : List LinkFlit) (at_ : Nat) (f : Flit) :
    ∃ stat fresh, ((s.withLinks rest).parityNoted c at_ f).core c =
      { s.core c with net := { (s.core c).net with routerStat := stat }, fresh := fresh } :=
  (parityNoted_spec (s.withLinks rest) c at_ f).2.2.2.1

/-- A stray flit is discarded; its entry's links and queues stay. -/
theorem strayed_spec (s : State) (c : CoreId) (at_ : Nat) (f : Flit) :
    (s.strayed c at_ f).plane.mesh.links = s.plane.mesh.links ∧
    (s.strayed c at_ f).core c = (s.core c).setRouterStat at_ 1 := by
  have hlost := WordsOnly.foldl wordLost_wordsOnly f.ids (s.setCore c ((s.core c).setRouterStat at_ 1))
  exact ⟨hlost.links, (hlost.mesh.core c).trans (setCore_core_self _ _ _)⟩

/-- Bit `b` of a router's status is set. -/
theorem setRouterStat_stat (k : Core) (at_ b : Nat) :
    (k.setRouterStat at_ b).net.routerStat = k.net.routerStat ||| BitVec.ofNat 64 (2 ^ b) := rfl

/-- A parity error shows in the router's status whatever becomes of the flit. -/
theorem arrived_parity {s : State} {c : CoreId} {f : Flit} (h : f.badPar &&& f.valid ≠ 0) (rest : List LinkFlit) (e : BitVec 32)
    (lag : Nat) : ((s.arrived c rest e lag f).core c).net.routerStat.getLsbD 0 = true := by
  have hnoted := (parityNoted_spec (s.withLinks rest) c (s.cycle (groveOf c) - lag) f).2.2.2.2 h
  unfold arrived
  dsimp only
  split
  · rw [(routed_core_keepsRouter _ c e lag (checked f)).stat, hnoted]
  · rw [(strayed_spec _ c _ (checked f)).2, setRouterStat_stat, BitVec.getLsbD_or, hnoted, Bool.true_or]

/-- The links after an arrival whose outputs lie within the grove. -/
theorem arrived_links {c : CoreId} {e : BitVec 32} (hvalid : routeValid e = true)
    (h : ∀ d ∈ outputs e, ∃ m, coreBeside c d = some m ∧ groveOf m = groveOf c) (s : State) (rest : List LinkFlit) (lag : Nat) (f : Flit) :
    (s.arrived c rest e lag f).plane.mesh.links = rest ++ (outputs e).filterMap (fun d =>
      (coreBeside c d).map fun m => hopped m d (s.total (groveOf c) + 1 - lag) (checked f)) ∧
    (s.arrived c rest e lag f).plane.mesh.crossing = s.plane.mesh.crossing := by
  obtain ⟨hmesh, -, htotal, -⟩ := parityNoted_spec (s.withLinks rest) c (s.cycle (groveOf c) - lag) f
  obtain ⟨hlinks, hcrossing⟩ := routed_links h ((s.withLinks rest).parityNoted c (s.cycle (groveOf c) - lag) f) lag (checked f)
  rw [arrived, if_pos hvalid]
  rw [hmesh, htotal] at hlinks
  rw [hmesh] at hcrossing
  exact ⟨hlinks, hcrossing⟩

/-- The core after a delivery, counted. -/
def receiving (s : State) (c : CoreId) (rest : List LinkFlit) (e : BitVec 32) (lag : Nat) (f : Flit) : Core :=
  (((s.withLinks rest).parityNoted c (s.cycle (groveOf c) - lag) f).core c).bump 0x11 (copies e)

theorem receiving_net (s : State) (c : CoreId) (rest : List LinkFlit) (e : BitVec 32) (lag : Nat) (f : Flit) :
    ∃ stat, (s.receiving c rest e lag f).net = { (s.core c).net with routerStat := stat } := by
  obtain ⟨stat, fresh, hcore⟩ := arrived_core s c rest (s.cycle (groveOf c) - lag) f
  refine ⟨stat, ?_⟩
  rw [receiving, Core.bump_net, hcore]

/-- An arriving flit whose entry names the core is delivered there. -/
theorem arrived_here {e : BitVec 32} (hvalid : routeValid e = true) (here : hereToo e = true) (s : State) (c : CoreId)
    (rest : List LinkFlit) (lag : Nat) (f : Flit) :
    (s.arrived c rest e lag f).core c =
      ((s.receiving c rest e lag f).deliver (routeTgt e) (routeContrib e) (s.cycle (groveOf c) - lag) (checked f)).1 := by
  have hcycle := (parityNoted_spec (s.withLinks rest) c (s.cycle (groveOf c) - lag) f).2.1
  rw [arrived, if_pos hvalid, routed_here here, hcycle]
  rfl

/-- An arriving flit of one word reaches its queue as a word of the tuple. -/
theorem arrived_one {s : State} {c : CoreId} {e : BitVec 32} {f : Flit} (hvalid : routeValid e = true) (hout : routeOut e 4 = true)
    (htgt : routeTgt e < 8) (hword : f.valid = 1) (hlast : f.last = true) (hpart : smGet [] (s.core c).net.part (routeTgt e) = [])
    (rest : List LinkFlit) (lag : Nat) :
    (s.arrived c rest e lag f).core c = (((s.receiving c rest e lag f).emptied (routeTgt e)).recvWord (routeTgt e) (routeContrib e)
      (oneWord (checked f) (s.cycle (groveOf c) - lag))).1 := by
  have here : hereToo e = true := by
    rw [hereToo, hout, decide_eq_true (by omega : routeTgt e ≤ 8)]
    rfl
  obtain ⟨stat, hnet⟩ := receiving_net s c rest e lag f
  rw [arrived_here hvalid here]
  refine congrArg Prod.fst (Core.deliver_one _ hword hlast ?_ (by omega))
  rw [hnet]
  exact hpart

theorem receiving_rqueue (s : State) (c : CoreId) (rest : List LinkFlit) (e : BitVec 32) (lag : Nat) (f : Flit) (i : Nat) :
    ((s.receiving c rest e lag f).emptied (routeTgt e)).rqueue i = (s.core c).rqueue i := by
  obtain ⟨stat, hnet⟩ := receiving_net s c rest e lag f
  show smGet {} (s.receiving c rest e lag f).net.rq i = _
  rw [hnet]
  rfl

/-- A word that arrives for a normal queue with room joins it. -/
theorem arrived_queue {s : State} {c : CoreId} {e : BitVec 32} {f : Flit} (hvalid : routeValid e = true) (hout : routeOut e 4 = true)
    (htgt : routeTgt e < 8) (hword : f.valid = 1) (hlast : f.last = true) (hpart : smGet [] (s.core c).net.part (routeTgt e) = [])
    (hq : ((s.core c).rqueue (routeTgt e)).potluck = false) (hroom : ((s.core c).rqueue (routeTgt e)).entries.length < 8)
    (rest : List LinkFlit) (lag : Nat) :
    ∀ i, ((s.arrived c rest e lag f).core c).rqueue i =
      if i = routeTgt e then
        { (s.core c).rqueue (routeTgt e) with
          entries := ((s.core c).rqueue (routeTgt e)).entries ++ [oneWord (checked f) (s.cycle (groveOf c) - lag)] }
      else (s.core c).rqueue i := by
  have hsame := receiving_rqueue s c rest e lag f
  rw [arrived_one hvalid hout htgt hword hlast hpart,
    Core.recvWord_queue _ _ (by rw [hsame]; exact hq) (by rw [hsame]; exact hroom)]
  intro i
  rw [Core.rqueue_setRqueue, hsame, hsame]

end State

open State in
theorem flitsAreRouted : Claims.FlitsAreRouted := by
  unfold Claims.FlitsAreRouted
  intro c input s l rest n d n0 n1 g hcatch htake f bad lag e
  have hexec := exec_flitArrival (n0 := n0) (n1 := n1) hcatch htake
  refine ⟨fun hbad => ⟨_, hexec, arrived_parity hbad rest e lag⟩, fun hinvalid => ?stray, fun hvalid houts here hm hg => ?forward,
    fun hvalid hinside => ?copies, fun hvalid houts hout htgt hq hroom hword hlast hpart => ?deliver⟩
  case stray =>
    have hstray : s.arrived c rest e lag f =
        ((s.withLinks rest).parityNoted c (s.cycle g - lag) f).strayed c (s.cycle g - lag) (checked f) := by
      rw [arrived, hinvalid]
      rfl
    obtain ⟨hmesh, -⟩ := parityNoted_spec (s.withLinks rest) c (s.cycle g - lag) f
    obtain ⟨stat, fresh, hcore⟩ := arrived_core s c rest (s.cycle g - lag) f
    obtain ⟨hlinks, hstat⟩ := strayed_spec ((s.withLinks rest).parityNoted c (s.cycle g - lag) f) c (s.cycle g - lag) (checked f)
    refine ⟨_, hexec.trans (congrArg Host.Outcome.next hstray), ?_, ?_, ?_⟩
    · rw [hlinks, hmesh]
      rfl
    · rw [hstat, setRouterStat_stat, BitVec.getLsbD_or]
      exact Bool.or_true _
    · rw [hstat, hcore]
      rfl
  case forward =>
    have hout : outputs e = [d] := houts
    have hinside : ∀ x ∈ outputs e, ∃ m, coreBeside c x = some m ∧ groveOf m = groveOf c := by
      rw [hout]
      exact fun x hx => (List.mem_singleton.1 hx) ▸ ⟨n, hm, hg⟩
    obtain ⟨hlinks, hcrossing⟩ := arrived_links hvalid hinside s rest lag f
    have haway : hereToo e = false := by
      rw [hereToo, here]
      rfl
    obtain ⟨stat, fresh, hcore⟩ := arrived_core s c rest (s.cycle g - lag) f
    refine ⟨_, hexec, hlinks.trans ?_, hcrossing, ?_⟩
    · rw [hout, List.filterMap_cons, hm]
      rfl
    · rw [arrived, if_pos hvalid, routed_away haway, hcore]
  case copies =>
    have hinside : ∀ x ∈ outputs e, ∃ m, coreBeside c x = some m ∧ groveOf m = groveOf c := fun x hx =>
      hinside x (List.mem_range.1 (List.mem_of_mem_filter hx)) (List.of_mem_filter hx)
    obtain ⟨hlinks, hcrossing⟩ := arrived_links hvalid hinside s rest lag f
    exact ⟨_, hexec, hcrossing, hlinks⟩
  case deliver =>
    have hnone : outputs e = [] := houts
    have hinside : ∀ x ∈ outputs e, ∃ m, coreBeside c x = some m ∧ groveOf m = groveOf c := by
      rw [hnone]
      exact fun x hx => absurd hx List.not_mem_nil
    have hqueue := arrived_queue hvalid hout htgt hword hlast hpart hq hroom rest lag
    refine ⟨_, oneWord (checked f) (s.cycle g - lag), hexec, ?_, ?_, rfl, rfl, rfl, fun i hi => ?_⟩
    · rw [(arrived_links hvalid hinside s rest lag f).1, hnone]
      exact List.append_nil rest
    · rw [hqueue, if_pos rfl]
    · rw [hqueue, if_neg hi]

end Sys2Proof.Machine
end

section
/-! PROOFS. Flits that reach their core. -/

namespace Sys2Proof.Machine

/-! ## Rows of the stream inlet -/

/-- A word as of another cycle. -/
def RqEntry.dueAt (cyc : Nat) (e : RqEntry) : RqEntry := { e with due := cyc }

theorem map_dueAt_ite (b : Bool) (e : RqEntry) (cyc : Nat) :
    (if b then [e.dueAt cyc] else []) = (if b then [e] else []).map (RqEntry.dueAt cyc) := by
  cases b
  · rfl
  · rfl

/-- The words of a checked flit are those of the flit with its marks. -/
theorem flitWords_checked (f : Flit) (cyc : Nat) :
    State.flitWords (State.checked f) cyc =
      (State.flitWords { f with poison := f.poison ||| (f.badPar &&& f.valid) } 0).map (RqEntry.dueAt cyc) := by
  rw [flitWords_eq, flitWords_eq, List.map_append]
  exact congrArg₂ (· ++ ·)
    (map_dueAt_ite (f.valid.getLsbD 0) (wordOfFlit { f with poison := f.poison ||| (f.badPar &&& f.valid) } 0 f.w0 0) cyc)
    (map_dueAt_ite (f.valid.getLsbD 1) (wordOfFlit { f with poison := f.poison ||| (f.badPar &&& f.valid) } 1 f.w1 0) cyc)

/-- The words of a row with their data and marks, whatever their cycles. -/
theorem dueAt_words (part ws : List RqEntry) (cyc : Nat) :
    (((part ++ ws.map (RqEntry.dueAt cyc)).map (RqEntry.dueAt cyc)).take 4).map (·.data) = ((part ++ ws).take 4).map (·.data) ∧
    (((part ++ ws.map (RqEntry.dueAt cyc)).map (RqEntry.dueAt cyc)).take 4).map (·.poison) = ((part ++ ws).take 4).map (·.poison) := by
  simp only [List.map_take, List.map_append, List.map_map]
  exact ⟨rfl, rfl⟩

/-- The last flit of a row takes it to the stream inlet. -/
theorem Core.deliver_row {k : Core} {f : Flit} (h : f.last = true) (contrib cyc : Nat) :
    k.deliver 8 contrib cyc f =
      (k.emptied 8).recvRow f.side cyc ((smGet [] k.net.part 8 ++ State.flitWords f cyc).map (RqEntry.dueAt cyc)) := by
  unfold Core.deliver
  rw [h]
  rfl

/-- A row joins an inlet with room. -/
theorem Core.recvRow_room {k : Core} (h : k.net.inlet.length < 4) (side : BitVec 12) (cyc : Nat) (es : List RqEntry) :
    (k.recvRow side cyc es).1.net.inlet = k.net.inlet ++
      [{ entry := ⟨rowOfWords ((es.take 4).map (·.data)), marksOf ((es.take 4).map (·.poison))⟩
         row := (side.extractLsb' 0 9).zeroExtend 16, phase := side.getLsbD 9, due := cyc, words := es.filterMap (·.word) }] := by
  unfold Core.recvRow
  dsimp only
  rw [if_pos h]

/-- A full inlet discards the row, and its last one's words are marked. -/
theorem Core.recvRow_full {k : Core} {ys : List InletRow} {y : InletRow} (hinlet : k.net.inlet = ys ++ [y])
    (h : 4 ≤ k.net.inlet.length) (side : BitVec 12) (cyc : Nat) (es : List RqEntry) :
    (k.recvRow side cyc es).1.net.inlet = ys ++ [{ y with entry := { y.entry with poison := 15 } }] ∧
    (k.recvRow side cyc es).1.status.getLsbD 4 = true := by
  have hlength : k.net.inlet.length - 1 = ys.length := by
    rw [hinlet, List.length_append]
    rfl
  unfold Core.recvRow
  dsimp only
  rw [if_neg (Nat.not_lt.2 h), hlength, hinlet]
  refine ⟨?_, ?_⟩
  · show (ys ++ [y]).take ys.length ++ ((ys ++ [y]).drop ys.length).map _ = _
    rw [List.take_left, List.drop_left]
    rfl
  · show (k.status ||| BitVec.ofNat 64 (2 ^ 4)).getLsbD 4 = true
    rw [BitVec.getLsbD_or]
    exact Bool.or_true _

/-- An entry after a contribution holds the cycle in which it is added. -/
theorem Potluck.add_due (a : Potluck) (v : BitVec 32) (mark : Bool) (due : Nat) (words : List WordRef) :
    (a.add v mark due words).1.due = due := by
  rw [Potluck.add_eq, Potluck.take_due]
  rfl

open State in
theorem flitsReachTheirCore : Claims.FlitsReachTheirCore := by
  unfold Claims.FlitsReachTheirCore
  intro c input s l rest n0 n1 g f mark lag e n q cc p go one hcatch htake hvalid hout
  have hexec := exec_flitArrival (n0 := n0) (n1 := n1) hcatch htake
  have hsame := receiving_rqueue s c rest e lag f
  refine ⟨fun hn hq hroom hone => ?queue, fun hn hq hone hcc => ?potluck, fun hn hq hone hcc => ?badIndex, fun hn hlast => ?row⟩
  case queue =>
    obtain ⟨hword, hlast, hpart⟩ := hone
    have hqueue := arrived_queue hvalid hout hn hword hlast hpart hq hroom rest lag
    refine ⟨_, oneWord (checked f) (s.cycle g - lag), hexec, ?_, rfl, rfl, rfl⟩
    rw [hqueue, if_pos rfl]
  case potluck =>
    obtain ⟨hword, hlast, hpart⟩ := hone
    have hcore := arrived_one hvalid hout hn hword hlast hpart rest lag
    have hqueue := Core.recvWord_potluck (k := (s.receiving c rest e lag f).emptied n) (n := n) (c := cc)
      (oneWord (checked f) (s.cycle g - lag)) (by rw [hsame]; exact hq) (by rw [hsame]; exact hcc)
    rw [← hcore] at hqueue
    obtain ⟨hlo, hhi, hother⟩ := RQueue.contributed_slot q cc (oneWord (checked f) (s.cycle g - lag))
    refine ⟨_, hexec, ?_, fun i hi => ?_⟩
    · rw [hqueue, if_pos rfl, hsame]
      refine ⟨smGet_smSet_self _ _ _ _, rfl, rfl, ?_, ?_, ?_, hother⟩
      · rw [hlo]
        exact contributes_add _ _ _ _ _
      · rw [hhi]
        exact contributes_add _ _ _ _ _
      · rintro i (rfl | rfl)
        · rw [hlo]
          exact Potluck.add_due _ _ _ _ _
        · rw [hhi]
          exact Potluck.add_due _ _ _ _ _
    · rw [hqueue, if_neg hi, hsame]
  case badIndex =>
    obtain ⟨hword, hlast, hpart⟩ := hone
    have hcore := arrived_one hvalid hout hn hword hlast hpart rest lag
    obtain ⟨hrq, hstat⟩ := Core.recvWord_badIndex (k := (s.receiving c rest e lag f).emptied n) (n := n) (c := cc)
      (oneWord (checked f) (s.cycle g - lag)) (by rw [hsame]; exact hq) (by rw [hsame]; exact hcc)
    obtain ⟨stat, hnet⟩ := receiving_net s c rest e lag f
    rw [← hcore] at hrq hstat
    refine ⟨_, hexec, hrq.trans ?_, ?_⟩
    · show (s.receiving c rest e lag f).net.rq = _
      rw [hnet]
    · rw [hstat, BitVec.getLsbD_or, BitVec.getLsbD_ofNat, Nat.testBit_two_pow_self, decide_eq_true (by omega)]
      exact Bool.or_true _
  case row =>
    have here : hereToo e = true := by
      rw [hereToo, hout, decide_eq_true (hn ▸ le_rfl : routeTgt e ≤ 8)]
      rfl
    obtain ⟨stat, hnet⟩ := receiving_net s c rest e lag f
    have hcore := arrived_here hvalid here s c rest lag f
    have htgt : routeTgt e = 8 := hn
    rw [htgt, Core.deliver_row (show (checked f).last = true from hlast)] at hcore
    have hinlet : ((s.receiving c rest e lag f).emptied 8).net.inlet = (s.core c).net.inlet := by
      show (s.receiving c rest e lag f).net.inlet = _
      rw [hnet]
    have hpart : (s.receiving c rest e lag f).net.part = (s.core c).net.part := by rw [hnet]
    rw [hpart, flitWords_checked] at hcore
    obtain ⟨hdata, hmarks⟩ := dueAt_words (smGet [] (s.core c).net.part 8)
      (State.flitWords { f with poison := f.poison ||| (f.badPar &&& f.valid) } 0) (s.cycle (groveOf c) - lag)
    refine ⟨fun hroom => ?_, fun ys y hys hfull => ?_⟩
    · have hrow := Core.recvRow_room (by rw [hinlet]; exact hroom) (checked f).side (s.cycle (groveOf c) - lag)
        ((smGet [] (s.core c).net.part 8 ++ (State.flitWords { f with poison := f.poison ||| (f.badPar &&& f.valid) } 0).map
          (RqEntry.dueAt (s.cycle (groveOf c) - lag))).map (RqEntry.dueAt (s.cycle (groveOf c) - lag)))
      rw [← hcore, hinlet, hdata, hmarks] at hrow
      exact ⟨_, _, hexec, hrow, rfl, rfl, rfl, rfl⟩
    · have hrow := Core.recvRow_full (hinlet.trans hys) (by rw [hinlet]; exact hfull) (checked f).side (s.cycle (groveOf c) - lag)
        ((smGet [] (s.core c).net.part 8 ++ (State.flitWords { f with poison := f.poison ||| (f.badPar &&& f.valid) } 0).map
          (RqEntry.dueAt (s.cycle (groveOf c) - lag))).map (RqEntry.dueAt (s.cycle (groveOf c) - lag)))
      rw [← hcore] at hrow
      exact ⟨_, hexec, hrow⟩

end Sys2Proof.Machine
end

section
/-! PROOFS. Crossings, injection and the return of credits. -/

namespace Sys2Proof.Machine

namespace State

/-! ## Crossings -/

/-- The state without the crossing flit that is presented. -/
def withCrossing (s : State) (rest : List CrossFlit) : State := s.setMesh { s.plane.mesh with crossing := rest }

theorem exec_crossingPresent {c : CoreId} {input : BitVec 2} {s : State} {x : CrossFlit} {rest : List CrossFlit}
    (hcatch : s.catching (groveOf c) = false)
    (htake : takeFirst (fun y : CrossFlit => y.core = c && y.input = input.toNat && s.crossingDue y) s.plane.mesh.crossing =
      some (x, rest)) :
    exec (.crossingPresent c input) s = .next (
      if s.crosses (groveOf c) then
        (s.withCrossing rest).withLinks (s.plane.mesh.links ++ [⟨c, x.input, s.presentedIn x, x.flit⟩])
      else x.flit.ids.foldl wordLost (s.withCrossing rest)) := by
  show execCrossingPresent c input s = _
  unfold execCrossingPresent
  dsimp only
  rw [hcatch, if_neg Bool.false_ne_true, htake]
  dsimp only
  cases s.crosses (groveOf c)
  · rfl
  · rfl

/-! ## Injection -/

/-- The records of the words of a tuple whose first flit is injected. -/
def recorded (s : State) (c : CoreId) (b : Tuple) : State × List Nat :=
  if b.sent = 0 then s.newWords (.core c (routeSend ((s.core c).route 4 (s.slot (groveOf c))))) (groveOf c) b.cost b.words.length
  else (s, b.ids)

/-- The send end's buffer after a flit of its first tuple. -/
def bufferAfter (b : Tuple) (bs : List Tuple) : List Tuple :=
  if b.nextFlit.last then bs else { b with sent := b.sent + 2 } :: bs

/-- The core that has injected a flit of send end `n`. -/
def injecting (s : State) (c : CoreId) (n : Nat) (buf : List Tuple) : Core :=
  let k := (s.core c).setSendEnd n { (s.core c).sendEnd n with buf := buf }
  { k with net := { k.net with injected := s.total (groveOf c) + 1 } }

/-- What an injection leaves to the router. -/
def injected (s : State) (c : CoreId) (n : Nat) (b : Tuple) (bs : List Tuple) : State :=
  let r := s.recorded c b
  let t := r.1.setCore c (s.injecting c n (bufferAfter { b with ids := r.2 } bs))
  if b.sent = 0 then t.sampInject c n b.ready else t

theorem sampInject_core (s : State) (c d : CoreId) (n ready : Nat) : (s.sampInject c n ready).core d = s.core d := by
  unfold sampInject
  dsimp only
  split
  · rfl
  · rfl

theorem injected_core (s : State) (c : CoreId) (n : Nat) (b : Tuple) (bs : List Tuple) :
    (s.injected c n b bs).core c = s.injecting c n (bufferAfter { b with ids := (s.recorded c b).2 } bs) := by
  unfold injected
  dsimp only
  split
  · rw [sampInject_core, setCore_core_self]
  · rw [setCore_core_self]

theorem exec_injection {c : CoreId} {s : State} {b : Tuple} {bs : List Tuple} (hcatch : s.catching (groveOf c) = false)
    (hvalid : routeValid ((s.core c).route 4 (s.slot (groveOf c))) = true)
    (hbuf : ((s.core c).sendEnd (routeSend ((s.core c).route 4 (s.slot (groveOf c))))).buf = b :: bs)
    (htype : ((s.core c).sendEnd (routeSend ((s.core c).route 4 (s.slot (groveOf c))))).type = 1)
    (hready : b.ready < s.cycle (groveOf c)) (honce : (s.core c).net.injected ≤ s.total (groveOf c)) :
    exec (.injection c) s = .next ((s.injected c (routeSend ((s.core c).route 4 (s.slot (groveOf c)))) b bs).routeFlit c 4 0
      ({ b with ids := (s.recorded c b).2 } : Tuple).nextFlit) := by
  have hguard : (s.catching (groveOf c) || !routeValid ((s.core c).route 4 (s.slot (groveOf c))) ||
      decide (((s.core c).sendEnd (routeSend ((s.core c).route 4 (s.slot (groveOf c))))).type ≠ 1) ||
      decide (s.cycle (groveOf c) ≤ b.ready) || decide (s.total (groveOf c) < (s.core c).net.injected)) = false := by
    rw [hcatch, hvalid, htype, decide_eq_false (Nat.not_le.2 hready), decide_eq_false (Nat.not_lt.2 honce)]
    rfl
  show execInjection c s = _
  unfold execInjection
  dsimp only
  rw [hbuf]
  show (if _ then _ else _) = _
  rw [hguard, if_neg Bool.false_ne_true]
  rfl

/-- A routed flit leaves its core's send ends and latest injection. -/
theorem routeFlit_keepsRouter (s : State) (c : CoreId) (input lag : Nat) (f : Flit) :
    ((s.routeFlit c input lag f).core c).net.send = (s.core c).net.send ∧
    ((s.routeFlit c input lag f).core c).net.injected = (s.core c).net.injected := by
  obtain ⟨-, -, -, ⟨stat, fresh, hcore⟩, -⟩ := parityNoted_spec s c (s.cycle (groveOf c) - lag) f
  rw [routeFlit_eq]
  split
  · have hroute := routed_core_keepsRouter (s.parityNoted c (s.cycle (groveOf c) - lag) f) c
      ((s.core c).route input ((s.sched (groveOf c) + 16 - lag % 16) % 16)) lag (checked f)
    rw [hroute.send, hroute.injected, hcore]
    exact ⟨rfl, rfl⟩
  · rw [(strayed_spec _ c _ (checked f)).2, hcore]
    exact ⟨rfl, rfl⟩

/-! ## Credits -/

theorem settleCredit_eq {s : State} {c : CoreId} {n : Nat} (h : 0 < s.creditsDue (.core c n)) :
    s.settleCredit c n = (s.dropCredits (.core c n)).giveCredit c n (s.creditsDue (.core c n)) := if_neg (Nat.ne_of_gt h)

theorem settleChCredit_eq {s : State} {n c : Nat} (h : 0 < s.creditsDue (.engine n c)) :
    s.settleChCredit n c = (s.dropCredits (.engine n c)).setFld (SE_CH_STAT.CREDIT n c)
      (min 15 (s.fld (SE_CH_STAT.CREDIT n c) + s.creditsDue (.engine n c))) := if_neg (Nat.ne_of_gt h)

theorem settleRxCredit_eq {s : State} {p c : Nat} (h : 0 < s.creditsDue (.psiud p c)) :
    s.settleRxCredit p c = (s.dropCredits (.psiud p c)).setRx p c
      { s.rxChan p c with credit := (s.rxChan p c).credit + s.creditsDue (.psiud p c) } := if_neg (Nat.ne_of_gt h)

end State

open State in
theorem crossingInjectionCredits : Claims.CrossingInjectionCredits := by
  unfold Claims.CrossingInjectionCredits
  intro c input s x rest b bs n st k g e se
  refine ⟨fun hcatch htake => ?crossing, fun hcatch hvalid hbuf htype hready honce => ?injection, fun hdue => ?core,
    fun hn hdue => ?engine, fun hdue => ?psiud⟩
  case crossing =>
    refine ⟨_, exec_crossingPresent hcatch htake, ?_⟩
    cases hcrosses : s.crosses (groveOf c) with
    | true => exact ⟨rfl, rfl, fun _ => rfl, nofun⟩
    | false =>
      have hlost := WordsOnly.foldl wordLost_wordsOnly x.flit.ids (s.withCrossing rest)
      exact ⟨hlost.crossing, hlost.mesh.cores, nofun, fun _ => hlost.links⟩
  case injection =>
    obtain ⟨hsend, hinjected⟩ := routeFlit_keepsRouter (s.injected c (routeSend e) b bs) c 4 0
      ({ b with ids := (s.recorded c b).2 } : Tuple).nextFlit
    rw [injected_core] at hsend hinjected
    have hend : ∀ t : State, (t.core c).net.send =
        (s.injecting c (routeSend e) (bufferAfter { b with ids := (s.recorded c b).2 } bs)).net.send →
        ((t.core c).sendEnd (routeSend e)).buf = bufferAfter { b with ids := (s.recorded c b).2 } bs := by
      intro t ht
      rw [Core.sendEnd, ht]
      exact congrArg SendEnd.buf (smGet_smSet_self _ _ _ _)
    refine ⟨_, exec_injection hcatch hvalid hbuf htype hready honce, hinjected, fun hlast => ?_, fun hmore => ?_⟩
    · rw [hend _ hsend]
      exact if_pos (decide_eq_true hlast)
    · refine ⟨{ b with ids := (s.recorded c b).2, sent := b.sent + 2 }, ?_, rfl, rfl⟩
      rw [hend _ hsend]
      exact if_neg fun hlast => Nat.not_le.2 hmore (of_decide_eq_true hlast)
  case core =>
    refine ⟨_, congrArg Host.Outcome.next (settleCredit_eq hdue), ?_⟩
    have hsame : (s.dropCredits (.core c n)).core c = s.core c := rfl
    unfold giveCredit
    rw [setCore_core_self, hsame]
    refine ⟨?_, rfl, rfl⟩
    have hend : ∀ y : SendEnd, ((s.core c).setSendEnd n y).sendEnd n = y := fun y => smGet_smSet_self _ _ _ _
    rw [hend]
    exact Nat.mod_eq_of_lt (lt_of_le_of_lt (Nat.min_le_left _ _) (by decide))
  case engine =>
    refine ⟨_, congrArg Host.Outcome.next (settleChCredit_eq hdue), ?_, rfl⟩
    rw [fld_setFld_self _ _ _ (by decide : 23 < 64) (by decide : 20 ≤ 23)]
    exact Nat.mod_eq_of_lt (lt_of_le_of_lt (Nat.min_le_left _ _) (by decide : 15 < 2 ^ (23 + 1 - 20)))
  case psiud =>
    refine ⟨_, congrArg Host.Outcome.next (settleRxCredit_eq hdue), ?_, rfl⟩
    have hchan : ∀ y : RxChan, ((s.dropCredits (.psiud n k)).setRx n k y).rxChan n k = y := fun y => by
      rw [rxChan, setRx, port_setPort, if_pos rfl, smGet_smSet_self]
    rw [hchan]

/-- Settles O31: a routed flit by its entry's outputs, a delivered one by its queue, and crossings, injection and credits. -/
theorem meshMovesFlits : Obligations.MeshMovesFlits := ⟨flitsAreRouted, flitsReachTheirCore, crossingInjectionCredits⟩

end Sys2Proof.Machine
end

section
/-! PROOFS. What a word that issues in a core leaves of it: status bits, flags and counters, and the service-mesh writes of the
word's cycle that are taken back (R132). -/

namespace Sys2Proof.Machine

namespace Core

/-! ## Status bits, flags and counters -/

/-- Everything of a core but its status bits, flags, counters and records of service-mesh writes. -/
structure SameBody (k k' : Core) : Prop where
  en : k'.en = k.en
  masks : k'.masks = k.masks
  maskWr : k'.maskWr = k.maskWr
  agus : k'.agus = k.agus
  iq : k'.iq = k.iq
  tiles : k'.tiles = k.tiles
  mx : k'.mx = k.mx
  spad : k'.spad = k.spad
  net : k'.net = k.net

namespace SameBody

variable {k k' k'' : Core}

theorem refl (k : Core) : SameBody k k := ⟨rfl, rfl, rfl, rfl, rfl, rfl, rfl, rfl, rfl⟩

theorem trans (h : SameBody k k') (g : SameBody k' k'') : SameBody k k'' :=
  ⟨g.en.trans h.en, g.masks.trans h.masks, g.maskWr.trans h.maskWr, g.agus.trans h.agus, g.iq.trans h.iq, g.tiles.trans h.tiles,
    g.mx.trans h.mx, g.spad.trans h.spad, g.net.trans h.net⟩

end SameBody

theorem bump_sameBody (k : Core) (e n : Nat) : SameBody k (k.bump e n) := by
  unfold bump
  split
  · exact .refl k
  · exact ⟨rfl, rfl, rfl, rfl, rfl, rfl, rfl, rfl, rfl⟩

theorem setStatusBit_sameBody (k : Core) (cyc b : Nat) : SameBody k (k.setStatusBit cyc b) :=
  ⟨rfl, rfl, rfl, rfl, rfl, rfl, rfl, rfl, rfl⟩

theorem addFlags_sameBody (k : Core) (cyc : Nat) (f : FlagSet) : SameBody k (k.addFlags cyc f) :=
  ⟨rfl, rfl, rfl, rfl, rfl, rfl, rfl, rfl, rfl⟩

theorem markEnds_sameBody (k : Core) (now : Nat) (wasEn bad conflict : Bool) : SameBody k (k.markEnds now wasEn bad conflict) := by
  unfold markEnds
  cases wasEn
  · exact .refl k
  cases bad <;> cases conflict
  · exact .refl k
  · exact setStatusBit_sameBody k now 1
  · exact setStatusBit_sameBody k now 0
  · exact (setStatusBit_sameBody k now 0).trans (setStatusBit_sameBody _ now 1)

/-- A status bit that has been set reads as set. -/
theorem setStatusBit_getLsbD (k : Core) (cyc b : Nat) {i : Nat} (h : i < 64) :
    (k.setStatusBit cyc b).status.getLsbD i = (k.status.getLsbD i || decide (i = b)) := by
  show (k.status ||| BitVec.ofNat 64 (2 ^ b)).getLsbD i = _
  rw [BitVec.getLsbD_or, BitVec.getLsbD_ofNat, Nat.testBit_two_pow, decide_eq_true h, Bool.true_and]
  simp only [eq_comm]

/-- A bad end in an enabled core sets BAD_END (R96). -/
theorem markEnds_badEnd (k : Core) (now : Nat) (conflict : Bool) : (k.markEnds now true true conflict).status.getLsbD 0 = true := by
  have hbad : (k.setStatusBit now 0).status.getLsbD 0 = true := by
    rw [setStatusBit_getLsbD k now 0 (by decide), decide_eq_true rfl, Bool.or_true]
  cases conflict
  · exact hbad
  · show ((k.setStatusBit now 0).setStatusBit now 1).status.getLsbD 0 = true
    rw [setStatusBit_getLsbD _ _ _ (by decide), hbad, Bool.true_or]

/-! ## Service-mesh writes taken back -/

/-- A fold over tiles that may store each of some tiles changes the tiles alone. -/
theorem foldl_setTile_eq {β : Type} (f : Core → β → Core) (hf : ∀ k b, ∃ ts, f k b = { k with tiles := ts }) (xs : List β) (k : Core) :
    ∃ ts, xs.foldl f k = { k with tiles := ts } := by
  induction xs generalizing k with
  | nil => exact ⟨k.tiles, rfl⟩
  | cons x xs ih =>
    obtain ⟨ts, hts⟩ := hf k x
    obtain ⟨us, hus⟩ := ih (f k x)
    exact ⟨us, by rw [List.foldl_cons, hus, hts]⟩

/-- What taking a service-mesh write back can do, by the register's offset. -/
theorem undoSvc_cases (k old : Core) (w : Cw) (o : Nat) (v : BitVec 64) :
    (∃ b, k.undoSvc old w o v = { k with status := k.status ||| b }) ∧ o = 0x010 ∨
    (∃ b, k.undoSvc old w o v = { k with flags := b }) ∧ o = 0x030 ∨
    (∃ b, k.undoSvc old w o v = { k with mx := { k.mx with status := b } }) ∧ o = 0x038 ∨
    (∃ b, k.undoSvc old w o v = { k with vxStatus := b }) ∧ o = 0x068 ∨
    (∃ ts, k.undoSvc old w o v = { k with tiles := ts }) ∧ o < 0x060 ∧ o ≠ 0x010 ∧ o ≠ 0x030 ∧ o ≠ 0x038 ∨
    (∃ es, k.undoSvc old w o v = { k with net := { k.net with send := es } }) ∧ 0x060 ≤ o ∧ o ≠ 0x068 := by
  unfold undoSvc
  split
  case isTrue h => exact .inl ⟨⟨_, rfl⟩, h⟩
  split
  case isTrue h => exact .inr (.inl ⟨⟨_, rfl⟩, h⟩)
  split
  case isTrue h => exact .inr (.inr (.inl ⟨⟨_, rfl⟩, h⟩))
  split
  case isTrue h => exact .inr (.inr (.inr (.inl ⟨⟨_, rfl⟩, h⟩)))
  next h1 h2 h3 h4 =>
  split
  case isTrue h =>
    refine .inr (.inr (.inr (.inr (.inl ⟨foldl_setTile_eq _ (fun k m => ?_) _ k, h, h1, h2, h3⟩))))
    dsimp only
    split
    · exact ⟨k.tiles, rfl⟩
    · exact ⟨_, rfl⟩
  case isFalse h => exact .inr (.inr (.inr (.inr (.inr ⟨⟨_, rfl⟩, Nat.le_of_not_lt h, h4⟩))))

/-- The service-mesh writes of cycle `now` are taken back but for what word `w` changed (R132). -/
def undone (k old : Core) (now : Nat) (w : Cw) : Core :=
  if k.svcOld.1 = now then
    (k.svcOld.2.filter fun e => (old.touches w ++ k.eventsDiffer old).contains e.1).foldl (fun k e => k.undoSvc old w e.1 e.2) k
  else k

theorem afterWord_eq (k old : Core) (now : Nat) (w : Cw) :
    k.afterWord old now w =
      let u := k.undone old now w
      let ts := old.touches w ++ k.eventsDiffer old
      { u with wordSet := (now, ts), cfgNext := u.cfgNext.map fun x => x.merge u ts } := rfl

/-- What each register that the word changed leaves when it is taken back, they all leave. -/
theorem undone_induction {k old : Core} {now : Nat} {w : Cw} {P : Core → Prop} (h0 : P k)
    (hstep : ∀ k' o v, o ∈ old.touches w ∨ o ∈ k.eventsDiffer old → P k' → P (k'.undoSvc old w o v)) : P (k.undone old now w) := by
  unfold undone
  split
  · refine List.foldlRecOn _ _ h0 fun k' hk' e he => hstep k' e.1 e.2 ?_ hk'
    exact List.mem_append.1 (List.contains_iff_mem.1 (List.mem_filter.1 he).2)
  · exact h0

/-- The registers of event bits that can differ. -/
theorem mem_eventsDiffer {k old : Core} {o : Nat} (h : o ∈ k.eventsDiffer old) :
    o = 0x010 ∨ o = 0x030 ∨ (o = 0x038 ∧ k.mx.status ≠ old.mx.status) ∨ o = 0x068 := by
  unfold eventsDiffer at h
  simp only [List.mem_append] at h
  rcases h with ((h | h) | h) | h <;> split at h <;> simp_all

variable (k old : Core) (now : Nat) (w : Cw)

/-- What the record of a word leaves of a core, whatever the word changed. -/
theorem afterWord_frame :
    let k' := k.afterWord old now w
    k'.en = k.en ∧ k'.masks = k.masks ∧ k'.maskWr = k.maskWr ∧ k'.agus = k.agus ∧ k'.iq = k.iq ∧ k'.spad = k.spad := by
  refine undone_induction (P := fun x => x.en = k.en ∧ x.masks = k.masks ∧ x.maskWr = k.maskWr ∧ x.agus = k.agus ∧ x.iq = k.iq ∧
    x.spad = k.spad) ⟨rfl, rfl, rfl, rfl, rfl, rfl⟩ fun k' o v _ hk' => ?_
  rcases undoSvc_cases k' old w o v with ⟨⟨_, h⟩, -⟩ | ⟨⟨_, h⟩, -⟩ | ⟨⟨_, h⟩, -⟩ | ⟨⟨_, h⟩, -⟩ | ⟨⟨_, h⟩, -⟩ | ⟨⟨_, h⟩, -⟩
  all_goals rw [h]; exact hk'

/-- A status bit stays set. -/
theorem afterWord_status {i : Nat} (hi : k.status.getLsbD i = true) : (k.afterWord old now w).status.getLsbD i = true := by
  refine undone_induction (P := fun x => x.status.getLsbD i = true) hi fun k' o v _ hk' => ?_
  rcases undoSvc_cases k' old w o v with ⟨⟨b, h⟩, -⟩ | ⟨⟨_, h⟩, -⟩ | ⟨⟨_, h⟩, -⟩ | ⟨⟨_, h⟩, -⟩ | ⟨⟨_, h⟩, -⟩ | ⟨⟨_, h⟩, -⟩
  all_goals rw [h]
  · rw [BitVec.getLsbD_or, hk', Bool.true_or]
  all_goals exact hk'

/-- A word that changes no register below VX_VL, nor MX_STATUS, keeps the tiles and the MX unit. -/
theorem afterWord_tiles_mx (hmx : k.mx.status = old.mx.status) (ht : ∀ o ∈ old.touches w, 0x100 ≤ o) :
    (k.afterWord old now w).tiles = k.tiles ∧ (k.afterWord old now w).mx = k.mx := by
  refine undone_induction (P := fun x => x.tiles = k.tiles ∧ x.mx = k.mx) ⟨rfl, rfl⟩ fun k' o v ho hk' => ?_
  have ho' : 0x060 ≤ o ∨ o = 0x010 ∨ o = 0x030 := by
    rcases ho with ho | ho
    · exact .inl (Nat.le_trans (by decide) (ht o ho))
    · rcases mem_eventsDiffer ho with h | h | h | h
      · exact .inr (.inl h)
      · exact .inr (.inr h)
      · exact absurd hmx h.2
      · exact .inl (by omega)
  rcases undoSvc_cases k' old w o v with ⟨⟨_, h⟩, -⟩ | ⟨⟨_, h⟩, -⟩ | ⟨-, h⟩ | ⟨⟨_, h⟩, -⟩ | ⟨-, h⟩ | ⟨⟨_, h⟩, -⟩
  case inr.inr.inl => omega
  case inr.inr.inr.inr.inl => omega
  all_goals rw [h]; exact hk'

/-- A word that changes no register but those of event bits keeps the send ends. -/
theorem afterWord_net (ht : old.touches w = []) : (k.afterWord old now w).net = k.net := by
  refine undone_induction (P := fun x => x.net = k.net) rfl fun k' o v ho hk' => ?_
  have ho' : o < 0x060 ∨ o = 0x068 := by
    rcases ho with ho | ho
    · rw [ht] at ho
      exact absurd ho List.not_mem_nil
    · have := mem_eventsDiffer ho
      omega
  rcases undoSvc_cases k' old w o v with ⟨⟨_, h⟩, -⟩ | ⟨⟨_, h⟩, -⟩ | ⟨⟨_, h⟩, -⟩ | ⟨⟨_, h⟩, -⟩ | ⟨⟨_, h⟩, -⟩ | ⟨-, h⟩
  case inr.inr.inr.inr.inr => omega
  all_goals rw [h]; exact hk'

end Core
end Sys2Proof.Machine
end

section
/-! PROOFS. A word with AGU, TILE and MASK fields alone in an enabled core: which parts of it act (R102 to R129). -/

namespace Sys2Proof.Machine

open Sys2Proof.Claims

namespace Core

/-! ## Fields that hold zeros -/

theorem useAgus_zero (k : Core) (src : BitVec 5 → Entry) {w : Cw} (hl : w.ld = {}) (hs : w.st = {}) : k.useAgus src w = k := by
  unfold useAgus
  rw [hl, hs]
  rfl

theorem doMx_zero (k old : Core) (x : IssueAt) (src : BitVec 5 → Entry) {w : Cw} (h : w.mx = {}) (lost : List Nat) :
    k.doMx old x src w lost = k := by
  unfold doMx
  rw [h]
  cases old.acts w.mask 4 <;> rfl

theorem vxConflict_zero (old : Core) {w : Cw} (ha : w.vxa = {}) : old.vxConflict w = false := by
  unfold vxConflict
  rw [ha]
  simp

/-- The ports after a word that owns neither, nor marks the cycle for the scrubber (R109, R112). -/
def idlePorts (k : Core) (now : Nat) : Core :=
  k.setSpad { k.spad with portRd := none, portWr := none, portWas := k.spad.port, port := { cycle := now + 1 } }

theorem ownPorts_zero (k old : Core) (x : IssueAt) (src : BitVec 5 → Entry) {w : Cw} (hl : w.ld = {}) (hs : w.st = {})
    (hc : w.check = {}) (lost : List Nat) : k.ownPorts old x src w lost = k.idlePorts x.now := by
  unfold ownPorts
  rw [hl, hs, hc]
  cases lost.contains 4 <;> rfl

/-- A word with AGU, TILE and MASK fields alone. -/
def unitWord (a : AguF) (t : TileF) (m : MaskF) : Cw := { agu := a, tile := t, mask := m }

/-- What is left of a word without the fields that name bad ends acts on what is left after its pops (R96, R102). -/
theorem issue_unitWord (k : Core) (x : IssueAt) {w : Cw} {a : AguF} {t : TileF} {m : MaskF}
    (hw : dropFields w (badFields (k.uses w)) = unitWord a t m) :
    (k.issue x w).1 =
      let p := (k.popAll (wordPops (k.uses w))).1.addFlags x.now (k.readFlags (k.heardPops m (k.uses w)))
      (((p.idlePorts x.now).doAgu k x k.peek a).doTile k x k.peek (unitWord a t m) (lostFields (k.uses w))).maskOp m x.now := by
  unfold issue
  dsimp only
  rw [hw, useAgus_zero _ _ rfl rfl, doMx_zero _ _ _ _ rfl, vxConflict_zero k (w := unitWord a t m) rfl,
    ownPorts_zero _ _ _ _ rfl rfl rfl]
  rfl

/-! ## What pops leave -/

theorem sameUnits_refl (k : Core) : SameUnits k k := ⟨rfl, rfl, rfl, rfl, rfl, rfl⟩

theorem sameUnits_trans {k k' k'' : Core} (h : SameUnits k k') (g : SameUnits k' k'') : SameUnits k k'' := by
  obtain ⟨h1, h2, h3, h4, h5, h6⟩ := h
  obtain ⟨g1, g2, g3, g4, g5, g6⟩ := g
  exact ⟨g1.trans h1, g2.trans h2, g3.trans h3, g4.trans h4, g5.trans h5, g6.trans h6⟩

theorem SameBody.sameUnits {k k' : Core} (h : SameBody k k') : SameUnits k k' :=
  ⟨h.tiles, h.agus, h.mx, by rw [h.spad], h.masks, h.en⟩

theorem pop_sameUnits (k : Core) (c : BitVec 5) : SameUnits k (k.pop c).1 := by
  unfold pop
  split
  · exact ⟨rfl, rfl, rfl, rfl, rfl, rfl⟩
  split
  · exact ⟨rfl, rfl, rfl, rfl, rfl, rfl⟩
  · exact sameUnits_refl k

theorem popAll_sameUnits (k : Core) (cs : List (BitVec 5)) : SameUnits k (k.popAll cs).1 := by
  unfold popAll
  refine List.foldlRecOn (motive := fun a : Core × List WordRef => SameUnits k a.1) cs _ (sameUnits_refl k) fun a ha c _ => ?_
  exact sameUnits_trans ha (pop_sameUnits a.1 c)

theorem idlePorts_sameUnits (k : Core) (now : Nat) : SameUnits k (k.idlePorts now) := ⟨rfl, rfl, rfl, rfl, rfl, rfl⟩

/-- A core after a word's pops and with idle ports, before the units act. -/
def popped (k : Core) (now : Nat) (cs : List (BitVec 5)) (f : FlagSet) : Core := ((k.popAll cs).1.addFlags now f).idlePorts now

theorem popped_sameUnits (k : Core) (now : Nat) (cs : List (BitVec 5)) (f : FlagSet) : SameUnits k (k.popped now cs f) :=
  sameUnits_trans (popAll_sameUnits k cs) (sameUnits_trans (addFlags_sameBody _ now f).sameUnits (idlePorts_sameUnits _ now))

/-- Without a pop the queues and the network keep their state too. -/
theorem popped_nil (k : Core) (now : Nat) (f : FlagSet) :
    (k.popped now [] f).iq = k.iq ∧ (k.popped now [] f).net = k.net ∧ (k.popped now [] f).maskWr = k.maskWr :=
  ⟨rfl, rfl, rfl⟩

/-! ## A word after it has issued -/

/-- Vector operations that a word counts in an enabled core. -/
def vxOps (k : Core) (w : Cw) : Nat := if k.en then (if w.vxa.op = 0 then 0 else 1) + (if w.vxb.op = 0 then 0 else 1) else 0

/-- A core after word `w`, with the status bits that its hamper's cores share and the record of the word's cycle. -/
def wordDone (k : Core) (x : IssueAt) (w : Cw) (bad conflict : Bool) : Core :=
  ((((k.issueAny x w).1.bump 0x0A (k.vxOps w)).markEnds x.now k.en bad conflict)).afterWord k x.now w

section
variable (k : Core) (x : IssueAt) (w : Cw) (bad conflict : Bool)

/-- The counts and status bits of a word leave the units and queues as its fields left them. -/
theorem counted_sameBody :
    SameBody (k.issueAny x w).1 (((k.issueAny x w).1.bump 0x0A (k.vxOps w)).markEnds x.now k.en bad conflict) :=
  (bump_sameBody _ _ _).trans (markEnds_sameBody _ _ _ _ _)

theorem wordDone_frame :
    let k' := k.wordDone x w bad conflict
    let i := (k.issueAny x w).1
    k'.en = i.en ∧ k'.masks = i.masks ∧ k'.maskWr = i.maskWr ∧ k'.agus = i.agus ∧ k'.iq = i.iq ∧ k'.spad = i.spad := by
  have hc := counted_sameBody k x w bad conflict
  obtain ⟨h1, h2, h3, h4, h5, h6⟩ := afterWord_frame (((k.issueAny x w).1.bump 0x0A (k.vxOps w)).markEnds x.now k.en bad conflict) k x.now w
  exact ⟨h1.trans hc.en, h2.trans hc.masks, h3.trans hc.maskWr, h4.trans hc.agus, h5.trans hc.iq, h6.trans hc.spad⟩

theorem wordDone_tiles_mx {w : Cw} (hmx : (k.issueAny x w).1.mx = k.mx) (ht : ∀ o ∈ k.touches w, 0x100 ≤ o) :
    (k.wordDone x w bad conflict).tiles = (k.issueAny x w).1.tiles ∧ (k.wordDone x w bad conflict).mx = k.mx := by
  have hc := counted_sameBody k x w bad conflict
  obtain ⟨htiles, hm⟩ := afterWord_tiles_mx _ k x.now w (by rw [hc.mx, hmx]) ht
  exact ⟨htiles.trans hc.tiles, hm.trans (hc.mx.trans hmx)⟩

theorem wordDone_net {w : Cw} (ht : k.touches w = []) : (k.wordDone x w bad conflict).net = (k.issueAny x w).1.net :=
  (afterWord_net _ k x.now w ht).trans (counted_sameBody k x w bad conflict).net

/-- BAD_END is set in an enabled core of a hamper whose word names a bad end (R96). -/
theorem wordDone_badEnd (hen : k.en = true) : (k.wordDone x w true conflict).status.getLsbD 0 = true := by
  refine afterWord_status _ k x.now w ?_
  rw [hen]
  exact markEnds_badEnd _ _ _

end

end Core
end Sys2Proof.Machine
end

section
/-! PROOFS. A word without a SEQ field in a hamper: what each of its cores holds afterwards, and what stays elsewhere. -/

namespace Sys2Proof.Machine

open Sys2Proof.Claims

namespace State

/-! ## The cores of a hamper are distinct -/

theorem coreX_laneCore (h : HamperId) (l : Nat) : coreX (laneCore h l) = 8 * hamperCol h + l % 8 := by
  have hcol : hamperCol h < 128 := Nat.mod_lt _ (by decide)
  simp only [coreX, laneCore, coreAt, BitVec.extractLsb'_append_eq_right, BitVec.toNat_ofNat]
  omega

theorem coreY_laneCore (h : HamperId) {l : Nat} (hl : l < 64) : coreY (laneCore h l) = 8 * hamperRow h + l / 8 := by
  have hrow : hamperRow h < 128 := by
    have := h.isLt
    simp only [hamperRow]
    omega
  simp only [coreY, laneCore, coreAt, BitVec.extractLsb'_append_eq_left, BitVec.toNat_ofNat]
  omega

theorem laneOf_laneCore (h : HamperId) {l : Nat} (hl : l < 64) : laneOf (laneCore h l) = l := by
  rw [laneOf, coreX_laneCore, coreY_laneCore h hl]
  omega

theorem nodup_lanes (h : HamperId) : (lanes h).Nodup := by
  refine List.Nodup.map_on (fun l hl m hm heq => ?_) List.nodup_range
  rw [← laneOf_laneCore h (List.mem_range.1 hl), heq, laneOf_laneCore h (List.mem_range.1 hm)]

/-! ## What stays elsewhere -/

/-- The frame of `Elsewhere`, between any two states. -/
structure KeepsElsewhere (h : HamperId) (s t : State) : Prop where
  cores : ∀ c, c ∉ lanes h → t.core c = s.core c
  hampers : ∀ g, g ≠ h → t.hamper g = s.hamper g
  hbm : t.hbm = s.hbm
  hbmMeta : t.hbmMeta = s.hbmMeta
  bar0 : t.bar0 = s.bar0
  cfg : t.cfg = s.cfg
  out : t.out = s.out
  time : t.time = s.time
  se : t.se = s.se
  ports : t.ports = s.ports
  sch : t.sch = s.sch
  reader : t.reader = s.reader
  power : t.power = s.power
  boot : t.boot = s.boot
  svc : t.plane.svc = s.plane.svc
  abort : t.plane.abort = s.plane.abort

namespace KeepsElsewhere

variable {h : HamperId} {s t u : State}

theorem refl (h : HamperId) (s : State) : KeepsElsewhere h s s :=
  ⟨fun _ _ => rfl, fun _ _ => rfl, rfl, rfl, rfl, rfl, rfl, rfl, rfl, rfl, rfl, rfl, rfl, rfl, rfl, rfl⟩

theorem trans (a : KeepsElsewhere h s t) (b : KeepsElsewhere h t u) : KeepsElsewhere h s u :=
  ⟨fun c hc => (b.cores c hc).trans (a.cores c hc), fun g hg => (b.hampers g hg).trans (a.hampers g hg), b.hbm.trans a.hbm,
    b.hbmMeta.trans a.hbmMeta, b.bar0.trans a.bar0, b.cfg.trans a.cfg, b.out.trans a.out, b.time.trans a.time, b.se.trans a.se,
    b.ports.trans a.ports, b.sch.trans a.sch, b.reader.trans a.reader, b.power.trans a.power, b.boot.trans a.boot,
    b.svc.trans a.svc, b.abort.trans a.abort⟩

theorem elsewhere (a : KeepsElsewhere h (settled s h) t) : Elsewhere s t h :=
  ⟨a.cores, a.hampers, a.hbm, a.hbmMeta, a.bar0, a.cfg, a.out, a.time, a.se, a.ports, a.sch, a.reader, a.power, a.boot, a.svc,
    a.abort⟩

theorem setCore (s : State) {c : CoreId} (hc : c ∈ lanes h) (k : Core) : KeepsElsewhere h s (s.setCore c k) :=
  ⟨fun d hd => (core_setCore s c d k).trans (if_neg fun e : d = c => hd (by rw [e]; exact hc)),
    fun _ _ => rfl, rfl, rfl, rfl, rfl, rfl, rfl, rfl, rfl, rfl, rfl, rfl, rfl, rfl, rfl⟩

theorem setHamper (h : HamperId) (s : State) (k : Hamper) : KeepsElsewhere h s (s.setHamper h k) :=
  ⟨fun _ _ => rfl, fun g hg => (hamper_setHamper s h g k).trans (if_neg hg), rfl, rfl, rfl, rfl, rfl, rfl, rfl, rfl, rfl, rfl, rfl,
    rfl, rfl, rfl⟩

theorem setGrove (h : HamperId) (s : State) (g : GroveId) (k : Grove) : KeepsElsewhere h s (s.setGrove g k) :=
  ⟨fun _ _ => rfl, fun _ _ => rfl, rfl, rfl, rfl, rfl, rfl, rfl, rfl, rfl, rfl, rfl, rfl, rfl, rfl, rfl⟩

theorem bumpG (h : HamperId) (s : State) (g : GroveId) (e n : Nat) : KeepsElsewhere h s (s.bumpG g e n) := by
  unfold State.bumpG
  split
  · exact .refl h s
  · exact .setGrove h s g _

theorem of_meshOnly (h : HamperId) (a : MeshOnly s t) : KeepsElsewhere h s t := by
  rw [a.eq]
  exact ⟨fun _ _ => rfl, fun _ _ => rfl, rfl, rfl, rfl, rfl, rfl, rfl, rfl, rfl, rfl, rfl, rfl, rfl, rfl, rfl⟩

theorem free (h : HamperId) (s : State) (n : Nat) : KeepsElsewhere h s { s with free := n } :=
  ⟨fun _ _ => rfl, fun _ _ => rfl, rfl, rfl, rfl, rfl, rfl, rfl, rfl, rfl, rfl, rfl, rfl, rfl, rfl, rfl⟩

end KeepsElsewhere

theorem sampleWord_keepsElsewhere (s old : State) (h : HamperId) (q : QWord) (w : Cw) (took : List Nat) :
    KeepsElsewhere h s (s.sampleWord old h q w took) := by
  unfold sampleWord
  dsimp only
  split
  · exact .refl h s
  split
  · exact .setGrove h s _ _
  · exact (KeepsElsewhere.setGrove h s _ _).trans (.bumpG h _ _ _ _)

theorem sampleWord_core (s old : State) (h : HamperId) (q : QWord) (w : Cw) (took : List Nat) (c : CoreId) :
    (s.sampleWord old h q w took).core c = s.core c := by
  unfold sampleWord
  dsimp only
  split
  · rfl
  split
  · rfl
  · unfold bumpG
    rw [if_neg Nat.one_ne_zero]
    rfl

theorem bumpG_core (s : State) (g : GroveId) (e n : Nat) (c : CoreId) : (s.bumpG g e n).core c = s.core c := by
  unfold bumpG
  split <;> rfl

/-- A word without an audit point leaves the audit registers. -/
theorem audit_none (s : State) (h : HamperId) : s.audit h {} = s := rfl

/-! ## The cores of the hamper -/

theorem issueLane_keepsElsewhere {h : HamperId} (w : Cw) (aset : BitVec 16) (bad conflict : Bool) (s : State) {c : CoreId}
    (hc : c ∈ lanes h) : KeepsElsewhere h s (issueLane w aset bad conflict s c) := by
  unfold issueLane
  exact (KeepsElsewhere.setCore s hc _).trans (.of_meshOnly h (wordsBack_meshOnly _ _ _))

/-- A word that issues in a core leaves of it what its fields do, by the core's own state and cycle. -/
theorem issueLane_core (w : Cw) (aset : BitVec 16) (bad conflict : Bool) (s : State) (c : CoreId) :
    ∃ x : IssueAt, x.now = s.cycle (groveOf c) ∧ x.aset = aset ∧
      (issueLane w aset bad conflict s c).core c = (s.core c).wordDone x w bad conflict := by
  refine ⟨{ now := s.cycle (groveOf c), aset := aset, cost := fun n => (s.sendCost c n).getD 0 }, rfl, rfl, ?_⟩
  unfold issueLane
  dsimp only
  rw [(wordsBack_meshOnly _ _ _).core, setCore_core_self]
  rfl

theorem issueLanes_fold_keepsHolds (w : Cw) (aset : BitVec 16) (bad conflict : Bool) (cs : List CoreId) (s : State) :
    KeepsHolds s (cs.foldl (issueLane w aset bad conflict) s) := by
  induction cs generalizing s with
  | nil => exact .refl s
  | cons c cs ih => exact (issueLane_keepsHolds w aset bad conflict s c).trans (ih _)

theorem issueLanes_fold_keepsElsewhere {h : HamperId} (w : Cw) (aset : BitVec 16) (bad conflict : Bool) {cs : List CoreId}
    (hcs : ∀ c ∈ cs, c ∈ lanes h) (s : State) : KeepsElsewhere h s (cs.foldl (issueLane w aset bad conflict) s) := by
  induction cs generalizing s with
  | nil => exact .refl h s
  | cons c cs ih =>
    exact (issueLane_keepsElsewhere w aset bad conflict s (hcs c (List.mem_cons_self ..))).trans
      (ih (fun d hd => hcs d (List.mem_cons_of_mem _ hd)) _)

/-- Each core takes the word as it stood before any of them did. -/
theorem issueLanes_fold_core_mem (w : Cw) (aset : BitVec 16) (bad conflict : Bool) {cs : List CoreId} (hcs : cs.Nodup) (s : State)
    {c : CoreId} (hc : c ∈ cs) :
    ∃ x : IssueAt, x.now = s.cycle (groveOf c) ∧ x.aset = aset ∧
      (cs.foldl (issueLane w aset bad conflict) s).core c = (s.core c).wordDone x w bad conflict := by
  obtain ⟨before, after, rfl⟩ := List.append_of_mem hc
  have hbefore : c ∉ before := fun h => List.disjoint_of_nodup_append hcs h (List.mem_cons_self ..)
  have hafter : c ∉ after := (List.nodup_cons.1 (List.nodup_append.1 hcs).2.1).1
  obtain ⟨x, hnow, haset, hcore⟩ := issueLane_core w aset bad conflict (before.foldl (issueLane w aset bad conflict) s) c
  rw [(issueLanes_fold_keepsHolds w aset bad conflict before s).cycle] at hnow
  rw [issueLanes_fold_core w aset bad conflict before s hbefore] at hcore
  refine ⟨x, hnow, haset, ?_⟩
  rw [List.foldl_append, List.foldl_cons, issueLanes_fold_core w aset bad conflict after _ hafter, hcore]

/-- Some enabled core of the hamper names a bad end (R96). -/
def namesBad (s : State) (h : HamperId) (w : Cw) : Bool := (s.enabledLanes h).any fun c => badFields ((s.core c).uses w) != []

/-- Some enabled core of the hamper names a destination twice (R103). -/
def namesTwice (s : State) (h : HamperId) (w : Cw) : Bool := (s.enabledLanes h).any fun c => lostFields ((s.core c).uses w) != []

/-- A word in all the cores of a hamper: each core by its own state, and nothing elsewhere. -/
theorem issueLanes_spec (s : State) (h : HamperId) (w : Cw) (aset : BitVec 16) :
    KeepsElsewhere h s (s.issueLanes h w aset) ∧
    ∀ c ∈ lanes h, ∃ x : IssueAt, x.now = s.cycle (groveOf c) ∧ x.aset = aset ∧
      (s.issueLanes h w aset).core c = (s.core c).wordDone x w (s.namesBad h w) (s.namesTwice h w) := by
  have hfold := issueLanes_fold_keepsElsewhere w aset (s.namesBad h w) (s.namesTwice h w) (fun c hc => hc) s (h := h)
  have hcore := fun c hc => issueLanes_fold_core_mem w aset (s.namesBad h w) (s.namesTwice h w) (nodup_lanes h) s (c := c) hc
  have heq : s.issueLanes h w aset =
      let t := (lanes h).foldl (issueLane w aset (s.namesBad h w) (s.namesTwice h w)) s
      let t := if (s.enabledLanes h).any (s.usesFreeCost w) then { t with free := t.free + 4 } else t
      if s.namesBad h w then t.setHamper h { (t.hamper h).setFault (t.cycle (groveOfHamper h)) sfBadEnd with badEnd := true } else t := rfl
  rw [heq]
  generalize (lanes h).foldl (issueLane w aset (s.namesBad h w) (s.namesTwice h w)) s = t at hfold hcore
  have hfree : ∀ b : Bool, KeepsElsewhere h s (if b then { t with free := t.free + 4 } else t) := by
    rintro (_ | _)
    · exact hfold
    · exact hfold.trans (.free h t _)
  dsimp only
  refine ⟨?_, fun c hc => ?_⟩
  · split
    · exact (hfree _).trans (.setHamper h _ _)
    · exact hfree _
  · obtain ⟨x, hnow, haset, hx⟩ := hcore c hc
    refine ⟨x, hnow, haset, Eq.trans ?_ hx⟩
    split
    · split <;> rfl
    · split <;> rfl

/-- A word without a SEQ field and without an audit point. -/
def NoSeq (w : Cw) : Prop := w.seq = {} ∧ w.check = {}

/-- A word without a SEQ field issues in each core of its hamper by the core's own state, and changes nothing elsewhere. -/
theorem issueGo_spec (s : State) (h : HamperId) (q : QWord) {w : Cw} (hw : NoSeq w) (fromQueue : Bool) :
    KeepsElsewhere h s (s.issueGo h q w fromQueue) ∧
    ∀ c ∈ lanes h, ∃ x : IssueAt, x.now = s.cycle (groveOf c) ∧ x.aset = q.aset ∧
      (s.issueGo h q w fromQueue).core c = (s.core c).wordDone x w (s.namesBad h w) (s.namesTwice h w) := by
  obtain ⟨hseq, hcheck⟩ := hw
  have hspec := fun k => issueLanes_spec (s.setHamper h k) h w q.aset
  unfold issueGo
  dsimp only
  rw [hseq, hcheck, audit_none]
  obtain ⟨hframe, hcore⟩ := hspec { s.hamper h with
    iq := if fromQueue then (s.hamper h).iq.tail else (s.hamper h).iq
    refused := 0, stalls := 0, wdFired := false, stepOne := false, lastIssue := s.cycle (groveOfHamper h) + 1 }
  refine ⟨?_, fun c hc => ?_⟩
  · refine .trans ?_ (sampleWord_keepsElsewhere _ _ h q w _)
    exact ((KeepsElsewhere.setHamper h s _).trans hframe).trans (.bumpG h _ _ _ _)
  · obtain ⟨x, hnow, haset, hx⟩ := hcore c hc
    refine ⟨x, hnow, haset, Eq.trans ?_ hx⟩
    exact (sampleWord_core _ _ h q w _ c).trans (bumpG_core _ _ _ _ c)

/-- The word that a command tries, with what travels with it. -/
theorem issueField_aset {s : State} {h : HamperId} {w : Cw} (hg : Goes s h w) :
    ∃ q : QWord, q.aset = asetOf s h w ∧ s.issueField h w = (settled s h).issueGo h q w false := by
  obtain ⟨hmay, hres, href⟩ := hg
  have hfield : s.issueField h w =
      let r := s.checkWord h w (asetOf s h w)
      let q : QWord :=
        { scalar := smGet 0 (s.hamper h).scalars (r.2.seq.arg.extractLsb' 14 4).toNat
          aset := asetOf s h w, pc := (s.hamper h).pc, alm := s.time.almanac, tick := s.time.ticks }
      r.1.tryWord h q r.2 false := if_pos hmay
  rw [hfield, checkWord_ok s h w _ hres]
  exact ⟨_, rfl, tryWord_issues _ _ _ _ _ href⟩

/-- A word without a SEQ field that goes: what it leaves of each core, and the frame. -/
theorem issueField_spec {s : State} {h : HamperId} {w : Cw} (hw : NoSeq w) (hg : Goes s h w) :
    let u := settled s h
    Elsewhere s (s.issueField h w) h ∧
    ∀ c ∈ lanes h, ∃ x : IssueAt, x.now = u.cycle (groveOf c) ∧ x.aset = asetOf s h w ∧
      (s.issueField h w).core c = (u.core c).wordDone x w (u.namesBad h w) (u.namesTwice h w) := by
  obtain ⟨q, hq, hgo⟩ := issueField_aset hg
  obtain ⟨hframe, hcore⟩ := issueGo_spec (settled s h) h q hw false
  rw [hgo, ← hq]
  exact ⟨hframe.elsewhere, hcore⟩

/-- A word without a SEQ field that goes: what it leaves of each enabled core, and the frame. -/
theorem issueField_lanes {s : State} {h : HamperId} {w : Cw} {P : Core → Core → Nat → Prop} (hw : NoSeq w) (hg : Goes s h w)
    (hP : let u := settled s h
      ∀ c ∈ lanes h, ∀ x : IssueAt, (u.core c).en = true → x.aset = asetOf s h w →
        P (u.core c) ((u.core c).wordDone x w (u.namesBad h w) (u.namesTwice h w)) x.now) :
    Elsewhere s (s.issueField h w) h ∧ InLanes s (s.issueField h w) h P := by
  obtain ⟨hframe, hcore⟩ := issueField_spec hw hg
  refine ⟨hframe, fun c hc hen => ?_⟩
  obtain ⟨x, hnow, haset, hx⟩ := hcore c hc
  rw [hx, ← hnow]
  exact hP c hc x hen haset

end State
end Sys2Proof.Machine
end

section
/-! PROOFS. Operations that name an end which R95 does not allow (O13). -/

namespace Sys2Proof.Machine

open Sys2Proof.Claims

/-- The outcome of a word that names a bad end (R96). -/
def Nothing (k k' : Core) (_now : Nat) : Prop := SameUnits k k' ∧ k'.iq = k.iq ∧ k'.net = k.net ∧ k'.status.getLsbD 0 = true

/-- A word whose one used field names a bad end. -/
structure OneBad (w : Cw) (u : FieldUse) : Prop where
  noSeq : State.NoSeq w
  mask : w.mask = {}
  uses : ∀ k : Core, k.uses w = [u]
  bad : u.bad = true
  alone : zeroField w u.field = {}

namespace OneBad

variable {w : Cw} {u : FieldUse}

theorem badFields_eq (hw : OneBad w u) (k : Core) : badFields (k.uses w) = [u.field] := by
  rw [hw.uses, badFields, List.filter_cons_of_pos (by rw [hw.bad]), List.filter_nil, List.map_singleton]

theorem dropFields_eq (hw : OneBad w u) (k : Core) : dropFields w (badFields (k.uses w)) = {} := by
  rw [hw.badFields_eq]
  exact hw.alone

theorem wordPops_eq (hw : OneBad w u) (k : Core) : wordPops (k.uses w) = [] := by
  rw [hw.uses, wordPops, List.filter_cons_of_neg (by rw [hw.bad]; decide)]
  rfl

/-- Nothing of the word acts in an enabled core. -/
theorem issueAny_eq (hw : OneBad w u) (k : Core) (x : IssueAt) (hen : k.en = true) :
    ∃ f, (k.issueAny x w).1 = k.popped x.now [] f := by
  have hissue := Core.issue_unitWord k x (a := {}) (t := {}) (m := {}) (hw.dropFields_eq k)
  rw [hw.wordPops_eq] at hissue
  exact ⟨_, (congrArg Prod.fst (if_pos hen)).trans hissue⟩

theorem wordPushes_eq (hw : OneBad w u) (k : Core) : wordPushes (k.uses w) = [] := by
  rw [hw.uses, wordPushes, pushesGo, hw.bad]
  rfl

theorem touches_eq (hw : OneBad w u) (k : Core) : k.touches w = [] := by
  unfold Core.touches
  dsimp only
  rw [hw.mask, hw.dropFields_eq, hw.wordPushes_eq]
  cases k.en <;> simp

/-- The hamper's cores name a bad end as soon as one of them is enabled. -/
theorem namesBad_eq (hw : OneBad w u) {s : State} {h : HamperId} {c : CoreId} (hc : c ∈ State.lanes h) (hen : (s.core c).en = true) :
    s.namesBad h w = true := by
  refine List.any_eq_true.2 ⟨c, List.mem_filter.2 ⟨hc, hen⟩, ?_⟩
  rw [hw.badFields_eq]
  rfl

/-- Such a command keeps the units, queues and network of each enabled core and sets BAD_END (R96). -/
theorem issues (hw : OneBad w u) {i : Instr} {h : HamperId} (hexec : ∀ s, exec i s = .next (s.issueField h w)) :
    Issues i h w Nothing := by
  intro s hg
  refine ⟨_, hexec s, (State.issueField_lanes hw.noSeq hg fun c hc x hen _ => ?_).symm⟩
  rw [hw.namesBad_eq hc hen]
  generalize (settled s h).core c = k at hen
  obtain ⟨f, hf⟩ := hw.issueAny_eq k x hen
  obtain ⟨htiles, hagus, hmx, hspad, hmasks, henabled⟩ := Core.popped_sameUnits k x.now [] f
  obtain ⟨hiq, hnet, -⟩ := Core.popped_nil k x.now f
  rw [← hf] at htiles hagus hmx hspad hmasks henabled hiq hnet
  obtain ⟨ge, gm, -, ga, gi, gs⟩ := Core.wordDone_frame k x w true ((settled s h).namesTwice h w)
  obtain ⟨gt, gx⟩ := Core.wordDone_tiles_mx k x true ((settled s h).namesTwice h w) hmx fun o ho => by
    rw [hw.touches_eq] at ho
    exact absurd ho List.not_mem_nil
  refine ⟨⟨gt.trans htiles, ga.trans hagus, gx, by rw [gs, hspad], gm.trans hmasks, ge.trans henabled⟩, gi.trans hiq, ?_, ?_⟩
  · exact (Core.wordDone_net k x true _ (hw.touches_eq k)).trans hnet
  · exact Core.wordDone_badEnd k x w _ hen

end OneBad

/-! ## The words of each field -/

/-- A field's ends are bad where R95 does not allow one of them. -/
theorem fieldUse_bad {n : Nat} {srcs : List (BitVec 5)} {dst : BitVec 5} (h : ¬ EndsOk srcs dst) :
    (fieldUse n srcs dst (endIsDest dst)).bad = true := by
  by_contra hbad
  simp only [fieldUse, Bool.or_eq_true, Bool.not_eq_true', List.any_eq_true, not_or, not_exists, not_and, Bool.not_eq_false] at hbad
  exact h ⟨List.all_eq_true.2 hbad.2, hbad.1⟩

/-- A source field's ends are bad where R95 does not allow one of them. -/
theorem sourceUse_bad {n : Nat} {srcs : List (BitVec 5)} {c : BitVec 5} (hc : c ∈ srcs) (h : endIsSource c = false) :
    (fieldUse n srcs 0 true).bad = true := by
  simp only [fieldUse, Bool.or_eq_true, List.any_eq_true]
  exact .inr ⟨c, hc, by rw [h]; rfl⟩

/-- The number of a vector field. -/
def slotField : Slot → Nat
  | .a => 2
  | .b => 3

/-- A vector field alone names the ends of its operation. -/
theorem uses_slotWord (k : Core) (slot : Slot) (f : VxF) : k.uses (slotWord slot f) = vxUse (slotField slot) f := by
  cases slot
  · show vxUse 2 f ++ [] ++ [] ++ [] ++ [] ++ [] ++ [] = vxUse 2 f
    simp only [List.append_nil]
  · show vxUse 3 f ++ [] ++ [] ++ [] ++ [] ++ [] = vxUse 3 f
    simp only [List.append_nil]

/-- A vector operation that names a bad end (R95, R168). -/
theorem oneBad_slotWord (slot : Slot) {f : VxF} {srcs : List (BitVec 5)} (h : ¬ EndsOk srcs f.dst)
    (hu : vxUse (slotField slot) f = [fieldUse (slotField slot) srcs f.dst (endIsDest f.dst)]) :
    OneBad (slotWord slot f) (fieldUse (slotField slot) srcs f.dst (endIsDest f.dst)) where
  noSeq := by cases slot <;> exact ⟨rfl, rfl⟩
  mask := by cases slot <;> rfl
  uses k := (uses_slotWord k slot f).trans hu
  bad := fieldUse_bad h
  alone := by cases slot <;> rfl

/-- TLD and TST name the end of their row. -/
theorem tileEnd_tileRest (op : BitVec 2) (t e : BitVec 5) (part : Bool) :
    tileEnd { op := op, tile := t, rest := tileRest e part } = e := by
  show (e ++ (if part then 1#1 else 0#1) ++ 0#3 : BitVec 9).extractLsb' 4 5 = e
  ext i hi
  have h4 : ¬ 4 + i < 3 := by omega
  have h1 : ¬ 4 + i - 3 < 1 := by omega
  have hi4 : 4 + i - 3 - 1 = i := by omega
  rw [BitVec.getElem_extractLsb', BitVec.getLsbD_append, if_neg h4, BitVec.getLsbD_append, if_neg h1, hi4]
  exact BitVec.getLsbD_eq_getElem hi

/-- A code from 16 on is no source. -/
theorem endIsSource_eq_false {c : BitVec 5} (h : 16 ≤ c.toNat) : endIsSource c = false := decide_eq_false (Nat.not_lt.2 h)

/-- VFMA names its third source in IMM (R168). -/
theorem extractLsb'_zeroExtend_end (c : BitVec 5) : (c.zeroExtend 8).extractLsb' 0 5 = c := by
  apply BitVec.eq_of_toNat_eq
  have := c.isLt
  simp only [BitVec.zeroExtend, BitVec.extractLsb'_toNat, BitVec.toNat_setWidth]
  omega

section
variable {h : HamperId} {i : Instr}

/-- An operation that is none of VNOP, VFMA and VSETVL. -/
def vxPlain (op : BitVec 6) : Bool := op != 0 && op != 0x04 && op != 0x17

/-- The ends of such an operation: SRCA, SRCB where it is a source, and DST (R168). -/
theorem vxUse_plain (n : Nat) {f : VxF} (hop : vxPlain f.op = true) :
    vxUse n f = [fieldUse n (f.sa :: if vxUsesB f.op then [f.sb] else []) f.dst (endIsDest f.dst)] := by
  simp only [vxPlain, Bool.and_eq_true, bne_iff_ne] at hop
  obtain ⟨⟨h0, h4⟩, h17⟩ := hop
  rw [vxUse, if_neg h0, if_neg h4, if_neg h17, decide_eq_false h17, vxUsesA, bne_iff_ne.2 h17, List.append_nil]
  rfl

variable {slot : Slot} {op : BitVec 6} {ty : BitVec 3} {sa sb dst : BitVec 5} {imm : BitVec 8}

/-- An operation of two sources in either vector field. -/
theorem issues_vecTwo (hends : ¬ EndsOk [sa, sb] dst) (hop : (vxPlain op && vxUsesB op) = true)
    (hexec : ∀ s, exec i s = .next (s.issueField h (slotWord slot ⟨op, ty, sa, sb, dst, imm⟩))) :
    Issues i h (slotWord slot ⟨op, ty, sa, sb, dst, imm⟩) Nothing := by
  obtain ⟨hplain, hb⟩ := Bool.and_eq_true_iff.1 hop
  refine (oneBad_slotWord slot hends ?_).issues hexec
  rw [vxUse_plain _ hplain, if_pos hb]

/-- An operation of one source in either vector field. -/
theorem issues_vecOne (hends : ¬ EndsOk [sa] dst) (hop : (vxPlain op && !vxUsesB op) = true)
    (hexec : ∀ s, exec i s = .next (s.issueField h (slotWord slot ⟨op, ty, sa, sb, dst, imm⟩))) :
    Issues i h (slotWord slot ⟨op, ty, sa, sb, dst, imm⟩) Nothing := by
  obtain ⟨hplain, hb⟩ := Bool.and_eq_true_iff.1 hop
  refine (oneBad_slotWord slot hends ?_).issues hexec
  rw [vxUse_plain _ hplain, if_neg (by simpa using hb)]

end

/-- Settles O13: one field names the bad end, so nothing of the word is left to act but the mark of BAD_END. -/
theorem badEndDoesNothing : Obligations.BadEndDoesNothing := by
  unfold Obligations.BadEndDoesNothing
  intro h slot ty sa sb sc dst t part g sel val cond m fn fmt pass mode ocs acc opa opb half
  refine ⟨fun hends => ⟨?vsub, ?vmul, ?vmin, ?vmax, ?vcmp, ?vsel, ?vand, ?vor, ?vxor⟩, fun hends => ⟨?vmov, ?vfn⟩, fun hends => ?vfma,
    fun hsrc => ?tld, fun hdst => ?mout, fun hcode => ?mma, fun hsrc => ?aset, fun hends => ?fwd, fun hsrc => ?drop, fun hends => ?vadd,
    fun hdst => ?tst⟩
  case vsub => exact issues_vecTwo hends (by decide) fun _ => rfl
  case vmul => exact issues_vecTwo hends (by decide) fun _ => rfl
  case vmin => exact issues_vecTwo hends (by decide) fun _ => rfl
  case vmax => exact issues_vecTwo hends (by decide) fun _ => rfl
  case vcmp => exact issues_vecTwo hends (by decide) fun _ => rfl
  case vsel => exact issues_vecTwo hends (by decide) fun _ => rfl
  case vand => exact issues_vecTwo hends (by decide) fun _ => rfl
  case vor => exact issues_vecTwo hends (by decide) fun _ => rfl
  case vxor => exact issues_vecTwo hends (by decide) fun _ => rfl
  case vmov => exact issues_vecOne hends (by decide) fun _ => rfl
  case vfn => exact issues_vecOne (slot := .a) hends (by decide) fun _ => rfl
  case vfma =>
    refine (oneBad_slotWord .a (srcs := [sa, sb, sc]) hends ?_).issues fun _ => rfl
    show [fieldUse 2 [sa, sb, (sc.zeroExtend 8).extractLsb' 0 5] dst (endIsDest dst)] = _
    rw [extractLsb'_zeroExtend_end]
    rfl
  case vadd => exact issues_vecTwo hends (by decide) fun _ => rfl
  case mma =>
    refine OneBad.issues (u := fieldUse 1 [codeEnd opa, codeEnd opb] 0 true) ⟨⟨rfl, rfl⟩, rfl, fun _ => rfl, ?_, rfl⟩ fun _ => rfl
    rcases hcode with hcode | hcode
    · exact sourceUse_bad (List.mem_cons_self ..) (endIsSource_eq_false hcode)
    · exact sourceUse_bad (List.mem_cons_of_mem _ (List.mem_cons_self ..)) (endIsSource_eq_false hcode)
  case mout =>
    have hopb : (0#1 ++ dst).extractLsb' 0 5 = dst := BitVec.extractLsb'_append_eq_right
    refine OneBad.issues (u := fieldUse 1 [] dst (endIsDest dst)) ⟨⟨rfl, rfl⟩, rfl, fun _ => ?_, fieldUse_bad ?_, rfl⟩ fun _ => rfl
    · show [fieldUse 1 [] ((0#1 ++ dst).extractLsb' 0 5) (endIsDest ((0#1 ++ dst).extractLsb' 0 5))] = _
      rw [hopb]
    · exact fun hok => Bool.false_ne_true (hdst.symm.trans hok.2)
  case tld =>
    refine OneBad.issues (u := fieldUse 8 [sa] 0 true)
      ⟨⟨rfl, rfl⟩, rfl, fun _ => ?_, sourceUse_bad (List.mem_cons_self ..) hsrc, rfl⟩ fun _ => rfl
    show [fieldUse 8 [tileEnd _] 0 true] = _
    rw [tileEnd_tileRest]
  case tst =>
    refine OneBad.issues (u := fieldUse 8 [] dst (endIsDest dst)) ⟨⟨rfl, rfl⟩, rfl, fun _ => ?_, fieldUse_bad ?_, rfl⟩ fun _ => rfl
    · show [fieldUse 8 [] (tileEnd _) (endIsDest (tileEnd _))] = _
      rw [tileEnd_tileRest]
    · exact fun hok => Bool.false_ne_true (hdst.symm.trans hok.2)
  case aset =>
    exact OneBad.issues (u := fieldUse 7 [val.extractLsb' 9 5] 0 true)
      ⟨⟨rfl, rfl⟩, rfl, fun _ => rfl, sourceUse_bad (List.mem_cons_self ..) hsrc, rfl⟩ fun _ => rfl
  case fwd =>
    exact OneBad.issues (u := fieldUse 6 [sa] dst (endIsDest dst)) ⟨⟨rfl, rfl⟩, rfl, fun _ => rfl, fieldUse_bad hends, rfl⟩ fun _ => rfl
  case drop =>
    exact OneBad.issues (u := fieldUse 6 [sa] 0 true)
      ⟨⟨rfl, rfl⟩, rfl, fun _ => rfl, sourceUse_bad (List.mem_cons_self ..) hsrc, rfl⟩ fun _ => rfl

end Sys2Proof.Machine
end

section
/-! PROOFS. The operations of the AGU and MASK fields (O12). -/

namespace Sys2Proof.Machine

open Sys2Proof.Claims

namespace Core

/-! ## A word with an AGU field alone -/

@[simp] theorem agu_setAgu (k : Core) (g n : BitVec 3) (a : Agu) : (k.setAgu g a).agu n = if n = g then a else k.agu n := by
  simp only [agu, setAgu, smGet_smSet, BitVec.toNat_inj]

/-- The value that an ASET writes (R153, R154). -/
def asetValue (x : IssueAt) (src : BitVec 5 → Entry) (f : AguF) : BitVec 16 :=
  if f.vsrc = 0 then asetImm f else if f.vsrc = 1 then x.aset else (src (f.val.extractLsb' 9 5)).data.extractLsb' 0 16

theorem agu_congr {k k' : Core} (h : k'.agus = k.agus) (n : BitVec 3) : k'.agu n = k.agu n := by
  rw [agu, h, agu]

/-- AGU's part of a word writes one generator, where it writes any, and may set a status bit. -/
theorem doAgu_keeps (k old : Core) (x : IssueAt) (src : BitVec 5 → Entry) (f : AguF) :
    let k' := k.doAgu old x src f
    k'.tiles = k.tiles ∧ k'.mx = k.mx ∧ k'.spad = k.spad ∧ k'.iq = k.iq := by
  unfold doAgu
  split
  case h_1 =>
    dsimp only
    generalize ((Agu.put _ _ _).2 && decide (f.vsrc = 2)) = reserved
    cases reserved <;> exact ⟨rfl, rfl, rfl, rfl⟩
  all_goals exact ⟨rfl, rfl, rfl, rfl⟩

theorem doAgu_aset (k old : Core) (x : IssueAt) (src : BitVec 5 → Entry) {f : AguF} (hop : f.op = 1) (n : BitVec 3) :
    (k.doAgu old x src f).agu n = if n = f.gen then ((old.agu f.gen).put f.sel (asetValue x src f)).1 else k.agu n := by
  obtain ⟨op, gen, sel, vsrc, val⟩ := f
  subst hop
  rw [← agu_setAgu]
  unfold doAgu
  dsimp only
  generalize ((Agu.put _ _ _).2 && decide (vsrc = 2)) = reserved
  cases reserved <;> rfl

theorem uses_agu (k : Core) (f : AguF) : k.uses { agu := f } = aguUse f := List.append_nil _

theorem wordPushes_agu (f : AguF) : wordPushes (aguUse f) = [] := by
  unfold aguUse
  split
  · simp [wordPushes, pushesGo, fieldUse]
  · rfl

/-- A word of AGU changes registers of its generator alone (R132). -/
theorem touches_agu (k : Core) {f : AguF} (hf : badFields (aguUse f) = []) : ∀ o ∈ k.touches { agu := f }, 0x100 ≤ o := by
  have hoff : ∀ n, 0x100 ≤ aguOffset f.gen n := fun n => Nat.le_trans (Nat.le_add_right _ _) (Nat.le_add_right _ _)
  have hdrop : dropFields { agu := f } [] = { agu := f } := rfl
  unfold touches
  dsimp only
  rw [uses_agu, hf, wordPushes_agu, hdrop]
  cases k.en
  · exact fun o ho => absurd ho List.not_mem_nil
  · intro o ho
    simp only [BitVec.ofNat_eq_ofNat, BitVec.toNat_ofNat, Nat.reducePow, Nat.zero_mod, Bool.not_true, Bool.false_eq_true, ↓reduceIte,
      List.mem_cons, List.not_mem_nil, or_false, ne_eq, not_true_eq_false, List.append_nil, BitVec.zero_eq_one_iff,
      OfNat.ofNat_ne_zero, BitVec.reduceEq, decide_false, Bool.false_and, Bool.or_self, List.filter_nil, List.map_nil,
      List.nil_append] at ho
    split at ho
    · rcases List.mem_cons.1 ho with rfl | ho
      · exact hoff _
      · by_cases hsel : f.sel = 0#3
        · rw [if_pos hsel] at ho
          exact absurd ho List.not_mem_nil
        · rw [if_neg hsel] at ho
          exact List.mem_singleton.1 ho ▸ hoff _
    · exact List.mem_singleton.1 ho ▸ hoff _
    · exact List.mem_singleton.1 ho ▸ hoff _
    · exact absurd ho List.not_mem_nil

/-- What a word with an AGU field alone leaves of an enabled core. -/
theorem wordDone_agu (k : Core) (x : IssueAt) {f : AguF} (hf : badFields (aguUse f) = []) (bad conflict : Bool) (hen : k.en = true) :
    let k' := k.wordDone x { agu := f } bad conflict
    (∃ p : Core, p.agus = k.agus ∧ k'.agus = (p.doAgu k x k.peek f).agus) ∧
    k'.tiles = k.tiles ∧ k'.mx = k.mx ∧ k'.spad.rows = k.spad.rows ∧ (wordPops (aguUse f) = [] → k'.iq = k.iq) := by
  have hw : dropFields { agu := f } (badFields (k.uses { agu := f })) = unitWord f {} {} := by
    rw [uses_agu, hf]
    rfl
  have hissue := issue_unitWord k x hw
  rw [uses_agu] at hissue
  obtain ⟨fl, hissue⟩ : ∃ fl, (k.issueAny x { agu := f }).1 = (k.popped x.now (wordPops (aguUse f)) fl).doAgu k x k.peek f :=
    ⟨_, (congrArg Prod.fst (if_pos hen)).trans hissue⟩
  obtain ⟨ptiles, pagus, pmx, pspad, -, -⟩ := popped_sameUnits k x.now (wordPops (aguUse f)) fl
  obtain ⟨atiles, amx, aspad, aiq⟩ := doAgu_keeps (k.popped x.now (wordPops (aguUse f)) fl) k x k.peek f
  rw [← hissue] at atiles amx aspad aiq
  obtain ⟨-, -, -, gagus, giq, gspad⟩ := wordDone_frame k x { agu := f } bad conflict
  obtain ⟨gtiles, gmx⟩ := wordDone_tiles_mx k x bad conflict (amx.trans pmx) (touches_agu k hf)
  refine ⟨⟨_, pagus, gagus.trans (by rw [hissue])⟩, gtiles.trans (atiles.trans ptiles), gmx, by rw [gspad, aspad, pspad], fun hpops => ?_⟩
  rw [giq, aiq, hpops, (popped_nil k x.now fl).1]

end Core

namespace Agu

/-! ## What a generator holds after an operation -/

/-- ASET of BASE stores it and keeps the rest. -/
theorem put_base (a : Agu) (v : BitVec 16) : (a.put 0 v).1 = { a with base := v } := rfl

/-- ASET of another value than BASE rewinds the generator (R154). -/
theorem put_rewinds (a : Agu) {sel : BitVec 3} (v : BitVec 16) (h : sel ≠ 0) :
    let b := (a.put sel v).1
    b.i = 0 ∧ b.j = 0 ∧ b.phase = false ∧ b.base = a.base := by
  unfold put
  split
  case h_1 h0 => exact absurd (BitVec.eq_of_toNat_eq (y := 0#3) h0) h
  all_goals exact ⟨rfl, rfl, rfl, rfl⟩

/-- ASET of MODE and SRC where neither code is reserved. -/
theorem put_mode (a : Agu) {v : BitVec 16} (hm : v.extractLsb' 0 3 ≤ 4) (hr : v.extractLsb' 3 5 ≤ 19) :
    (a.put 7 v).1.mode = v.extractLsb' 0 3 ∧ (a.put 7 v).1.src = v.extractLsb' 3 5 :=
  ⟨if_neg (BitVec.not_lt.2 hm), if_neg (BitVec.not_lt.2 hr)⟩

theorem skip_linear {a : Agu} (h : a.mode = 0) : a.skip = { a with i := if a.i = a.count1 then 0 else a.i + 1 } := by
  unfold skip use
  rw [h]
  rfl

theorem skip_nested {a : Agu} (h : a.mode = 1) :
    a.skip = if a.i = a.count1 then { a with i := 0, j := if a.j = a.count2 then 0 else a.j + 1 } else { a with i := a.i + 1 } := by
  unfold skip use
  rw [h]
  rfl

theorem skip_ring {a : Agu} (h : a.mode = 2) (hring : a.ringLo ≤ a.ringHi)
    (hin : a.i.toNat + a.stride1.toNat < a.ringHi.toNat - a.ringLo.toNat + 1) :
    a.skip = { a with i := BitVec.ofNat 16 (a.i.toNat + a.stride1.toNat) } := by
  unfold skip use
  rw [h]
  show (if a.ringHi < a.ringLo then _ else _ : BitVec 16 × Bool × Agu).2.2 = _
  rw [if_neg (BitVec.not_lt.2 hring)]
  exact if_neg (Nat.not_le.2 hin)

theorem skip_still {a : Agu} (h : a.mode = 3 ∨ a.mode = 4) : a.skip = a := if_pos h

end Agu

/-! ## The commands of AGU -/

namespace State

/-- What a word leaves of any enabled core, it leaves of each one of its hamper. -/
theorem issueField_anyLane {s : State} {h : HamperId} {w : Cw} {P : Core → Core → Nat → Prop} (hw : NoSeq w) (hg : Goes s h w)
    (hP : ∀ (k : Core) (x : IssueAt) (bad conflict : Bool), k.en = true → x.aset = asetOf s h w →
      P k (k.wordDone x w bad conflict) x.now) :
    Elsewhere s (s.issueField h w) h ∧ InLanes s (s.issueField h w) h P :=
  issueField_lanes hw hg fun _ _ x => hP _ x _ _

end State

/-- An ASET that names a source end wherever it pops one names no bad end. -/
theorem badFields_aset (f : AguF) (h : endIsSource (if f.vsrc = 2 then f.val.extractLsb' 9 5 else 0) = true) :
    badFields (aguUse f) = [] := by
  unfold aguUse
  split
  case isTrue hpop =>
    rw [if_pos hpop.2] at h
    simp [badFields, fieldUse, h]
  case isFalse => rfl

/-- The value of an ASET, by its source (R153, R154). -/
theorem asetValue_eq (s : State) (h : HamperId) (k : Core) {x : IssueAt} {g sel : BitVec 3} {vsrc : BitVec 2} {val : BitVec 14}
    (haset : x.aset = asetOf s h { agu := ⟨1, g, sel, vsrc, val⟩ }) :
    Core.asetValue x k.peek ⟨1, g, sel, vsrc, val⟩ =
      if vsrc = 0 then (if sel = 1 ∨ sel = 2 then val.signExtend 16 else val.zeroExtend 16)
      else if vsrc = 1 then (smGet 0 (s.hamper h).scalars (val.extractLsb' 10 4).toNat).extractLsb' 0 16
      else (k.peek (val.extractLsb' 9 5)).data.extractLsb' 0 16 := by
  unfold Core.asetValue
  dsimp only
  split
  · rfl
  split
  case isTrue hscalar => rw [haset, asetOf, hscalar]; rfl
  case isFalse => rfl

/-- ASET, ARST and ASKIP change their generator only (R129, R153 to R155). -/
theorem generatorOperations : GeneratorOperations := by
  intro h g sel vsrc val
  refine ⟨fun hsrc s hg => ?aset, ?arst, ?askip⟩
  case aset =>
    refine ⟨_, rfl, State.issueField_anyLane ⟨rfl, rfl⟩ hg fun k x bad conflict hen haset => ?_⟩
    obtain ⟨⟨p, hp, hagus⟩, htiles, hmx, hrows, -⟩ := Core.wordDone_agu k x (badFields_aset ⟨1, g, sel, vsrc, val⟩ hsrc) bad conflict hen
    have hagu := fun n => (Core.agu_congr hagus n).trans (Core.doAgu_aset p k x k.peek rfl n)
    rw [asetValue_eq s h k haset] at hagu
    intro v a b
    have hgen : b = (a.put sel v).1 := (hagu g).trans (if_pos rfl)
    refine ⟨fun h0 => ?base, fun h0 => ?rewound, fun h1 => ?s1, fun h2 => ?s2, fun h3 => ?c1, fun h4 => ?c2, fun h5 => ?lo, fun h6 => ?hi,
      fun h7 hm hr => ?mode, fun n hn => ?others, htiles, hmx, hrows⟩
    case base =>
      subst h0
      exact hgen.trans (Agu.put_base a v)
    case rewound => exact hgen ▸ Agu.put_rewinds a v h0
    case s1 =>
      subst h1
      exact congrArg Agu.stride1 hgen
    case s2 =>
      subst h2
      exact congrArg Agu.stride2 hgen
    case c1 =>
      subst h3
      exact congrArg Agu.count1 hgen
    case c2 =>
      subst h4
      exact congrArg Agu.count2 hgen
    case lo =>
      subst h5
      exact congrArg Agu.ringLo hgen
    case hi =>
      subst h6
      exact congrArg Agu.ringHi hgen
    case mode =>
      subst h7
      exact hgen ▸ Agu.put_mode a hm hr
    case others => exact (hagu n).trans ((if_neg hn).trans (Core.agu_congr hp n))
  case arst =>
    intro s hg
    refine ⟨_, rfl, (State.issueField_anyLane ⟨rfl, rfl⟩ hg fun k x bad conflict hen haset => ?_).symm⟩
    obtain ⟨⟨p, hp, hagus⟩, htiles, hmx, hrows, hiq⟩ := Core.wordDone_agu k x (f := { op := 2, gen := g }) rfl bad conflict hen
    have hagu := fun n => (Core.agu_congr hagus n).trans (Core.agu_setAgu p g n (k.agu g).rewind)
    exact ⟨(hagu g).trans (if_pos rfl), fun n hn => (hagu n).trans ((if_neg hn).trans (Core.agu_congr hp n)), htiles, hmx, hrows, hiq rfl⟩
  case askip =>
    intro s hg
    refine ⟨_, rfl, (State.issueField_anyLane ⟨rfl, rfl⟩ hg fun k x bad conflict hen haset => ?_).symm⟩
    obtain ⟨⟨p, hp, hagus⟩, htiles, hmx, hrows, hiq⟩ := Core.wordDone_agu k x (f := { op := 3, gen := g }) rfl bad conflict hen
    have hagu := fun n => (Core.agu_congr hagus n).trans (Core.agu_setAgu p g n (p.agu g).skip)
    have hgen := (hagu g).trans ((if_pos rfl).trans (congrArg Agu.skip (Core.agu_congr hp g)))
    exact ⟨fun h0 => hgen.trans (Agu.skip_linear h0), fun h1 hi => hgen.trans ((Agu.skip_nested h1).trans (if_neg hi)),
      fun h1 hi => hgen.trans ((Agu.skip_nested h1).trans (if_pos hi)), fun h2 hring hin => hgen.trans (Agu.skip_ring h2 hring hin),
      fun h34 => hgen.trans (Agu.skip_still h34), fun n hn => (hagu n).trans ((if_neg hn).trans (Core.agu_congr hp n)),
      htiles, hmx, hrows, hiq rfl⟩

/-! ## The commands of MASK -/

theorem mem_addMaskWrite (w : MaskWrite) (ws : List MaskWrite) : w ∈ addMaskWrite w ws := by
  induction ws with
  | nil => exact List.mem_singleton.2 rfl
  | cons x xs ih =>
    unfold addMaskWrite
    split
    · exact List.mem_cons_self ..
    · exact List.mem_cons_of_mem _ ih

namespace Core

/-- What the masks and the enable bit come from, and the queues. -/
def SameMasks (k k' : Core) : Prop := k'.masks = k.masks ∧ k'.maskWr = k.maskWr ∧ k'.en = k.en ∧ k'.iq = k.iq

/-- MASK acts in every core, in a disabled one too (R114). -/
theorem issueAny_mask (k : Core) (x : IssueAt) (f : MaskF) :
    ∃ p, SameMasks k p ∧ (k.issueAny x { mask := f }).1 = p.maskOp f x.now := by
  cases hen : k.en
  · exact ⟨k, ⟨rfl, rfl, rfl, rfl⟩, congrArg Prod.fst (if_neg (by rw [hen]; decide))⟩
  · have hissue := issue_unitWord k x (w := { mask := f }) (a := {}) (t := {}) (m := f) rfl
    obtain ⟨-, -, -, -, hmasks, henabled⟩ := popped_sameUnits k x.now [] (k.readFlags (k.heardPops f []))
    exact ⟨k.popped x.now [] (k.readFlags (k.heardPops f [])), ⟨hmasks, (popped_nil k x.now _).2.2, henabled, (popped_nil k x.now _).1⟩,
      (congrArg Prod.fst (if_pos hen)).trans hissue⟩

/-- A word with a MASK field alone leaves of a core's masks what MASK does. -/
theorem wordDone_mask (k : Core) (x : IssueAt) (f : MaskF) (bad conflict : Bool) :
    ∃ p, SameMasks k p ∧ SameMasks (p.maskOp f x.now) (k.wordDone x { mask := f } bad conflict) := by
  obtain ⟨p, hp, hissue⟩ := issueAny_mask k x f
  obtain ⟨hen, hmasks, hmaskWr, -, hiq, -⟩ := wordDone_frame k x { mask := f } bad conflict
  rw [hissue] at hen hmasks hmaskWr hiq
  exact ⟨p, hp, hmasks, hmaskWr, hen, hiq⟩

theorem mask_congr {k k' : Core} (h : k'.masks = k.masks) (m : BitVec 2) : k'.mask m = k.mask m := by
  rw [mask, h, mask]

end Core

/-- A word with a MASK field alone: each core of the hamper, by its own masks. -/
theorem issues_mask {i : Instr} {s : State} {h : HamperId} {f : MaskF} {P : Core → Core → Nat → Prop}
    (hexec : exec i s = .next (s.issueField h { mask := f })) (hg : Goes s h { mask := f })
    (hP : ∀ (k p k' : Core) (now : Nat), Core.SameMasks k p → Core.SameMasks (p.maskOp f now) k' → P k k' now) :
    ∃ t, exec i s = .next t ∧ Elsewhere s t h ∧ InAllLanes s t h P := by
  obtain ⟨hframe, hcore⟩ := State.issueField_spec ⟨rfl, rfl⟩ hg
  refine ⟨_, hexec, hframe, fun c hc => ?_⟩
  obtain ⟨x, hnow, -, hx⟩ := hcore c hc
  obtain ⟨p, hp, hdone⟩ := Core.wordDone_mask _ x f _ _
  rw [hx, ← hnow]
  exact hP _ p _ _ hp hdone

/-- A write of a mask is under way after the word, and the masks themselves stand. -/
theorem maskWrite_underWay {k p k' : Core} {now : Nat} {m : BitVec 2} {v : BitVec 32} (hp : Core.SameMasks k p)
    (hk : Core.SameMasks { p with maskWr := addMaskWrite ⟨now + 1, m, v⟩ p.maskWr } k') :
    ⟨now + 1, m, v⟩ ∈ k'.maskWr ∧ k'.masks = k.masks ∧ k'.en = k.en ∧ k'.iq = k.iq := by
  obtain ⟨pmasks, -, pen, piq⟩ := hp
  obtain ⟨kmasks, kwr, ken, kiq⟩ := hk
  exact ⟨kwr ▸ mem_addMaskWrite _ _, kmasks.trans pmasks, ken.trans pen, kiq.trans piq⟩

/-- ENM, ENALL, MONES, MZERO and MNOT act in every core of the hamper (R114, R118, R161). -/
theorem maskOperations : MaskOperations := by
  intro h m s
  refine ⟨fun hg => ?enm, fun hg => ?enall, fun hg => ?mones, fun hg => ?mzero, fun hg => ?mnot⟩
  case enm =>
    refine issues_mask rfl hg fun k p k' now hp hk => ?_
    obtain ⟨pmasks, pwr, -, piq⟩ := hp
    obtain ⟨kmasks, kwr, ken, kiq⟩ := hk
    exact ⟨ken.trans (congrArg (· != 0) (Core.mask_congr pmasks m)), kmasks.trans pmasks, kwr.trans pwr, kiq.trans piq⟩
  case enall =>
    refine issues_mask rfl hg fun k p k' now hp hk => ?_
    obtain ⟨pmasks, pwr, -, piq⟩ := hp
    obtain ⟨kmasks, kwr, ken, kiq⟩ := hk
    exact ⟨ken, kmasks.trans pmasks, kwr.trans pwr, kiq.trans piq⟩
  case mones => exact issues_mask rfl hg fun k p k' now hp hk => maskWrite_underWay hp hk
  case mzero => exact issues_mask rfl hg fun k p k' now hp hk => maskWrite_underWay hp hk
  case mnot =>
    refine issues_mask rfl hg fun k p k' now hp hk => ?_
    rw [← Core.mask_congr hp.1 m]
    exact maskWrite_underWay hp hk

/-- Settles O12: the word's one field acts on each core's own state, on one generator or on the masks. -/
theorem generatorAndMaskOperations : Obligations.GeneratorAndMaskOperations := ⟨generatorOperations, maskOperations⟩

end Sys2Proof.Machine
end

section
/-! PROOFS. What the port operations of a scratchpad leave of a core: its rows, its pending operations and its units. -/

namespace Sys2Proof.Machine

open Sys2Proof.Claims

/-- The rows and pending operations of a scratchpad: all but its records and the marks of its ports. -/
structure Spad.SameRows (p q : Spad) : Prop where
  rows : q.rows = p.rows
  portRd : q.portRd = p.portRd
  portWr : q.portWr = p.portWr
  injecting : q.injecting = p.injecting

namespace Spad.SameRows

theorem refl (p : Spad) : SameRows p p := ⟨rfl, rfl, rfl, rfl⟩

theorem trans {p q r : Spad} (h : SameRows p q) (g : SameRows q r) : SameRows p r :=
  ⟨g.rows.trans h.rows, g.portRd.trans h.portRd, g.portWr.trans h.portWr, g.injecting.trans h.injecting⟩

end Spad.SameRows

theorem logChk_sameRows (p : Spad) (alm : BitVec 64) (kind : Nat) (tag : BitVec 2) (phase stream : Bool) (r : BitVec 16) :
    p.SameRows (logChk p alm kind tag phase stream r) := by
  unfold logChk
  split
  · exact .refl p
  · exact ⟨rfl, rfl, rfl, rfl⟩

theorem Spad.event_sameRows (p : Spad) (alm : BitVec 64) (kind : Nat) (isRead : Bool) (tag : BitVec 2) (phase stream : Bool)
    (r : BitVec 16) : p.SameRows (p.event alm kind isRead tag phase stream r) := by
  have hlog : p.SameRows (logChk { p with chkStat := p.chkStat ||| BitVec.ofNat 64 (2 ^ statBit kind) } alm kind tag phase stream r) := by
    refine .trans ?_ (logChk_sameRows _ _ _ _ _ _ _)
    exact ⟨rfl, rfl, rfl, rfl⟩
  have hbump : ∀ q hi lo, Spad.SameRows q (bumpChk q hi lo) := fun _ _ _ => ⟨rfl, rfl, rfl, rfl⟩
  unfold Spad.event
  dsimp only
  split
  · exact hlog.trans (hbump _ _ _)
  split
  · exact hlog.trans (hbump _ _ _)
  · exact hlog.trans (hbump _ _ _)

theorem Spad.maskedEvent_sameRows (p : Spad) (kind : Nat) : p.SameRows (p.maskedEvent kind) := ⟨rfl, rfl, rfl, rfl⟩

namespace Core

/-- What records and counts of a port operation leave of a core. -/
structure SameStore (k k' : Core) : Prop where
  spad : k.spad.SameRows k'.spad
  net : k'.net = k.net
  iq : k'.iq = k.iq
  tiles : k'.tiles = k.tiles
  mx : k'.mx = k.mx
  agus : k'.agus = k.agus
  status : k'.status = k.status

namespace SameStore

variable {k k' k'' : Core}

theorem refl (k : Core) : SameStore k k := ⟨.refl _, rfl, rfl, rfl, rfl, rfl, rfl⟩

theorem trans (h : SameStore k k') (g : SameStore k' k'') : SameStore k k'' :=
  ⟨h.spad.trans g.spad, g.net.trans h.net, g.iq.trans h.iq, g.tiles.trans h.tiles, g.mx.trans h.mx, g.agus.trans h.agus,
    g.status.trans h.status⟩

theorem spadRow (h : SameStore k k') (r : BitVec 16) : k'.spadRow r = k.spadRow r := by
  rw [Core.spadRow, h.spad.rows, Core.spadRow]

theorem queue (h : SameStore k k') (c : BitVec 5) : k'.queue c = k.queue c := by
  rw [Core.queue, h.iq, Core.queue]

theorem sendEnd (h : SameStore k k') (n : Nat) : k'.sendEnd n = k.sendEnd n := by
  rw [Core.sendEnd, h.net, Core.sendEnd]

end SameStore

theorem setSpad_sameStore (k : Core) {p : Spad} (h : k.spad.SameRows p) : SameStore k (k.setSpad p) :=
  ⟨h, rfl, rfl, rfl, rfl, rfl, rfl⟩

theorem noteSet_sameStore (k : Core) (cyc o : Nat) (bits : BitVec 64) : SameStore k (k.noteSet cyc o bits) :=
  ⟨.refl _, rfl, rfl, rfl, rfl, rfl, rfl⟩

theorem bump_sameStore (k : Core) (e n : Nat) : SameStore k (k.bump e n) := by
  unfold bump
  split
  · exact .refl k
  · exact ⟨.refl _, rfl, rfl, rfl, rfl, rfl, rfl⟩

theorem setEvent_sameStore (k : Core) (cyc kind : Nat) {p : Spad} (h : k.spad.SameRows p) : SameStore k (k.setEvent cyc kind p) := by
  have hset := (setSpad_sameStore k h).trans (noteSet_sameStore _ cyc 0x610 (BitVec.ofNat 64 (2 ^ statBit kind)))
  unfold setEvent
  dsimp only
  split
  · exact hset
  · exact hset.trans (noteSet_sameStore _ _ _ _)

theorem logEcc_sameStore (k : Core) (alm : BitVec 64) (cyc agent : Nat) (r : BitVec 16)
    (ws : List (BitVec 64 × Bool × EccKind × BitVec 8)) : SameStore k (k.logEcc alm cyc agent r ws).1 := by
  unfold logEcc
  dsimp only
  refine .trans ?_ (bump_sameStore _ _ _)
  split
  · exact setSpad_sameStore k ⟨rfl, rfl, rfl, rfl⟩
  · refine .trans (setSpad_sameStore k ?_) (noteSet_sameStore _ _ _ _)
    exact ⟨rfl, rfl, rfl, rfl⟩

theorem collide_sameStore (k : Core) (alm : BitVec 64) (p : PortWrite) (r : BitVec 16) (phase : Bool) :
    SameStore k (k.collide alm p r phase) := by
  unfold collide
  split
  · exact .refl k
  split
  · refine setEvent_sameStore k _ _ (.trans ?_ (logChk_sameRows _ _ _ _ _ _ _))
    exact ⟨rfl, rfl, rfl, rfl⟩
  · exact .refl k

/-! ## Reads -/

theorem spadRow_setSpadRow (k : Core) (r q : BitVec 16) (v : SpadRow) : (k.setSpadRow r v).spadRow q = if q = r then v else k.spadRow q := by
  simp only [spadRow, setSpadRow, setSpad, smGet_smSet, BitVec.toNat_inj]

@[simp] theorem queue_setQueue (k : Core) (c d : BitVec 5) (q : List QSlot) : (k.setQueue c q).queue d = if d = c then q else k.queue d := by
  simp only [queue, setQueue, smGet_smSet, BitVec.toNat_inj]

/-- The tag of a row and the event, as a read leaves them (R381). -/
def readCheck (k : Core) (p : PortRead) : BitVec 2 × Option Nat :=
  if p.tag then checkRead (k.spadRow p.row) p.phase else ((k.spadRow p.row).tag, none)

/-- The row that a read leaves: its tag as the check leaves it, the rest as it was (R381). -/
def readRow (k : Core) (p : PortRead) : SpadRow :=
  if p.tag then (k.spadRow p.row).setTag (k.readCheck p).1 else k.spadRow p.row

/-- The entry that a read delivers (R148, R373, R381). -/
def readEntry (k : Core) (p : PortRead) : Entry :=
  let e := if (k.readCheck p).2.isSome then ⟨(k.spadRow p.row).data, 15⟩ else (k.spadRow p.row).entry
  if p.bc then broadcast e p.bsz p.el else e

/-- A read stage that has taken the operation and logged the row's errors (R375). -/
def readLogged (k : Core) (alm : BitVec 64) (p : PortRead) : Core :=
  ((k.setSpad { k.spad with portRd := none, lastRead := some p, lastTag := (k.spadRow p.row).tag }).logEcc alm p.cycle
    (if p.toCore then agentCore else agentStream) p.row (k.spadRow p.row).decode).1

/-- A read stage that has also written the tag. -/
def readTagged (k : Core) (alm : BitVec 64) (p : PortRead) : Core :=
  if p.tag then (k.readLogged alm p).setSpadRow p.row ((k.spadRow p.row).setTag (k.readCheck p).1) else k.readLogged alm p

/-- A read stage that has also recorded and counted the checking event. -/
def readRecorded (k : Core) (alm : BitVec 64) (p : PortRead) : Core :=
  let k' := k.readTagged alm p
  let k' :=
    match (k.readCheck p).2 with
    | none => k'
    | some kind =>
      k'.setEvent p.cycle kind
        (if p.masked then k'.spad.maskedEvent kind else k'.spad.event alm kind true (k.spadRow p.row).tag p.phase (!p.toCore) p.row)
  (if p.toCore then k'.bump 0x0B 1 else k').bump 0x0F (k.readCheck p).2.isSome.toNat

/-- A read ends with its entry in ld0 or ld1, or on a send end, or nowhere (R109, R131, R146). -/
theorem readPort_eq (k : Core) (alm : BitVec 64) {p : PortRead} (h : k.spad.portRd = some p) :
    (k.readPort alm).1 =
      let k' := k.readRecorded alm p
      if p.dest = 0 then k'
      else if p.toCore then k'.setQueue p.dest (fillSlot (k.readEntry p) (p.cycle + 1) (k'.queue p.dest))
      else k'.send p.dest (k.readEntry p) (p.cycle + 1) p.cost := by
  unfold readPort
  rw [h]
  rfl

/-- Recording and counting an event leaves rows, queues and units. -/
theorem readRecorded_sameStore (k : Core) (alm : BitVec 64) (p : PortRead) : SameStore (k.readTagged alm p) (k.readRecorded alm p) := by
  unfold readRecorded
  dsimp only
  refine .trans ?_ (bump_sameStore _ _ _)
  have hevent : SameStore (k.readTagged alm p) (match (k.readCheck p).2 with
      | none => k.readTagged alm p
      | some kind => (k.readTagged alm p).setEvent p.cycle kind
          (if p.masked then (k.readTagged alm p).spad.maskedEvent kind
            else (k.readTagged alm p).spad.event alm kind true (k.spadRow p.row).tag p.phase (!p.toCore) p.row)) := by
    split
    · exact .refl _
    · refine setEvent_sameStore _ _ _ ?_
      split
      · exact Spad.maskedEvent_sameRows _ _
      · exact Spad.event_sameRows _ _ _ _ _ _ _ _
  split
  · exact hevent.trans (bump_sameStore _ _ _)
  · exact hevent

/-- What a read leaves of a core before its entry goes anywhere. -/
theorem readRecorded_spec (k : Core) (alm : BitVec 64) (p : PortRead) :
    let k' := k.readRecorded alm p
    k'.spad.portRd = none ∧ (∀ r, k'.spadRow r = if r = p.row then k.readRow p else k.spadRow r) ∧
    k'.tiles = k.tiles ∧ k'.mx = k.mx ∧ k'.agus = k.agus ∧ k'.iq = k.iq ∧ k'.net = k.net := by
  have hlog : SameStore (k.setSpad { k.spad with portRd := none, lastRead := some p, lastTag := (k.spadRow p.row).tag }) (k.readLogged alm p) :=
    logEcc_sameStore _ _ _ _ _ _
  have hrows : ∀ r, (k.readLogged alm p).spadRow r = k.spadRow r := hlog.spadRow
  have htag : (k.readTagged alm p).spad.portRd = none ∧
      (∀ r, (k.readTagged alm p).spadRow r = if r = p.row then k.readRow p else k.spadRow r) ∧
      (k.readTagged alm p).tiles = k.tiles ∧ (k.readTagged alm p).mx = k.mx ∧ (k.readTagged alm p).agus = k.agus ∧
      (k.readTagged alm p).iq = k.iq ∧ (k.readTagged alm p).net = k.net := by
    unfold readTagged readRow
    cases p.tag
    · refine ⟨hlog.spad.portRd, fun r => (hrows r).trans ?_, hlog.tiles, hlog.mx, hlog.agus, hlog.iq, hlog.net⟩
      split
      case isTrue hr => rw [hr]; rfl
      case isFalse => rfl
    · refine ⟨hlog.spad.portRd, fun r => (spadRow_setSpadRow _ _ _ _).trans ?_, hlog.tiles, hlog.mx, hlog.agus, hlog.iq, hlog.net⟩
      rw [hrows]
      rfl
  obtain ⟨hrd, hrow, htiles, hmx, hagus, hiq, hnet⟩ := htag
  have hrec := readRecorded_sameStore k alm p
  exact ⟨hrec.spad.portRd.trans hrd, fun r => (hrec.spadRow r).trans (hrow r), hrec.tiles.trans htiles, hrec.mx.trans hmx,
    hrec.agus.trans hagus, hrec.iq.trans hiq, hrec.net.trans hnet⟩

/-- A read keeps the data, the marks and the other rows, and leaves the tag as the check does. -/
theorem readRow_spec (k : Core) (p : PortRead) :
    (k.readRow p).data = (k.spadRow p.row).data ∧ (k.readRow p).marks = (k.spadRow p.row).marks ∧
    (k.readRow p).tag = (k.readCheck p).1 := by
  unfold readRow readCheck
  cases p.tag <;> exact ⟨rfl, rfl, rfl⟩

theorem mem_insertTuple (t : Tuple) (ts : List Tuple) : t ∈ insertTuple t ts := by
  induction ts with
  | nil => exact List.mem_singleton.2 rfl
  | cons x xs ih =>
    unfold insertTuple
    split
    · exact List.mem_cons_self ..
    · exact List.mem_cons_of_mem _ ih

/-- A send places a tuple of the low words of its entry on the end's buffer (R98, R330). -/
theorem mem_send_buf (k : Core) (c : BitVec 5) (e : Entry) (ready cost : Nat) :
    ∃ x ∈ ((k.send c e ready cost).sendEnd (c.toNat - 16)).buf, x.ready = ready ∧
      x.words = (List.range ((k.sendEnd (c.toNat - 16)).tw.toNat + 1)).map fun w => (wordOf e.data w, e.poison.getLsbD w) := by
  let ws := (List.range ((k.sendEnd (c.toNat - 16)).tw.toNat + 1)).map fun w => (wordOf e.data w, e.poison.getLsbD w)
  refine ⟨{ words := ws, ready := ready, cost := cost }, ?_, rfl, rfl⟩
  rw [send, sendEnd, setSendEnd, smGet_smSet_self]
  exact mem_insertTuple _ _

end Core

namespace State

/-! ## A core after a port operation -/

theorem spadEventIf_core (s : State) (g : GroveId) (e : Bool) (c : CoreId) : (s.spadEventIf g e).core c = s.core c := by
  have hplane : (s.spadEventIf g e).plane = s.plane := by
    cases e
    · rfl
    show (s.spadEvent g).plane = s.plane
    unfold spadEvent
    dsimp only
    split
    · rfl
    · exact ((setFlag_units s _).trans (faultEntry_units _ _ _ _ _ _)).plane
  rw [core, hplane, core]

theorem portDone_core (s : State) (c : CoreId) (r : Core × Bool × List WordRef) (d : CoreId) :
    (s.portDone c r).core d = if d = c then r.1 else s.core d := by
  unfold portDone
  rw [(wordsBack_meshOnly _ _ _).core, spadEventIf_core, core_setCore]

/-- A read port that owes an operation carries it out. -/
theorem doRead_core {s : State} {c : CoreId} {p : PortRead} (hp : (s.core c).spad.portRd = some p) (hcyc : p.cycle ≤ s.cycle (groveOf c))
    (d : CoreId) :
    (s.doRead c p.toCore).core d = if d = c then ((s.core c).readPort s.time.almanac).1 else s.core d := by
  have howed : s.readOwed c p.toCore = true := by
    unfold readOwed
    rw [hp]
    exact Bool.and_eq_true_iff.2 ⟨decide_eq_true rfl, decide_eq_true hcyc⟩
  unfold doRead
  rw [if_pos howed]
  exact portDone_core _ _ _ _

end State

/-- Settles O25: the read port's one operation leaves the rows but for a tag, and its entry goes where the word said. -/
theorem loadsReadTheirRow : Obligations.LoadsReadTheirRow := by
  unfold Obligations.LoadsReadTheirRow
  intro c s p hp hcyc k row chk e0 e kept
  obtain ⟨hrd, hrows, htiles, hmx, hagus, hiq, hnet⟩ := k.readRecorded_spec s.time.almanac p
  obtain ⟨hdata, hmarks, htag⟩ := k.readRow_spec p
  have hread := k.readPort_eq s.time.almanac hp
  have hdone := State.doRead_core hp hcyc
  have hkept : kept (k.readRecorded s.time.almanac p) :=
    ⟨hrd, by rw [hrows, if_pos rfl, hdata], by rw [hrows, if_pos rfl, hmarks], by rw [hrows, if_pos rfl, htag]; rfl,
      fun r hr => (hrows r).trans (if_neg hr), htiles, hmx, hagus⟩
  have hothers : ∀ d, d ≠ c → (s.doRead c p.toCore).core d = s.core d := fun d hd => (hdone d).trans (if_neg hd)
  have hcore : (s.doRead c p.toCore).core c = (k.readPort s.time.almanac).1 := (hdone c).trans (if_pos rfl)
  rw [hread] at hcore
  refine ⟨fun hto => ?core, fun hto => ?stream⟩
  case core =>
    rw [hto] at hothers hcore
    by_cases hdest : p.dest = 0
    · rw [if_pos hdest] at hcore
      exact ⟨_, rfl, hcore ▸ hkept, fun h0 => absurd hdest h0, hothers⟩
    · rw [if_neg hdest, if_pos rfl, Core.queue, hiq] at hcore
      exact ⟨_, rfl, hcore ▸ hkept, fun _ => by rw [hcore, Core.queue_setQueue, if_pos rfl]; rfl, hothers⟩
  case stream =>
    rw [hto] at hothers hcore
    by_cases hdest : p.dest = 0
    · rw [if_pos hdest] at hcore
      exact ⟨_, rfl, hcore ▸ hkept, fun hsend => absurd hsend (by rw [hdest]; decide), by rw [hcore]; exact hiq, hothers⟩
    · rw [if_neg hdest, if_neg Bool.false_ne_true] at hcore
      have hsent := Core.mem_send_buf (k.readRecorded s.time.almanac p) p.dest (k.readEntry p) (p.cycle + 1) p.cost
      rw [← hcore, Core.sendEnd.eq_def (k.readRecorded s.time.almanac p), hnet] at hsent
      exact ⟨_, rfl, hcore ▸ hkept, fun _ => hsent, by rw [hcore]; exact hiq, hothers⟩

end Sys2Proof.Machine
end

section
/-! PROOFS. The write port of a scratchpad, and the landing of entries (O26). -/

namespace Sys2Proof.Machine

open Sys2Proof.Claims

namespace Core

/-! ## Writes -/

/-- The row that a write leaves: the entry with fresh check bits, and the tag as the write rule leaves it (R374, R382). -/
def writtenRow (k : Core) (r : BitVec 16) (e : Entry) (tag phase : Bool) : SpadRow :=
  if tag then ((k.spadRow r).store e).setTag (checkWrite (k.spadRow r) phase).1 else (k.spadRow r).store e

theorem writtenRow_spec (k : Core) (r : BitVec 16) (e : Entry) (tag phase : Bool) :
    let v := k.writtenRow r e tag phase
    v.data = e.data ∧ v.marks = e.poison ∧ v.chk = rowChecks e ∧
    v.tag = if tag then (checkWrite (k.spadRow r) phase).1 else (k.spadRow r).tag := by
  unfold writtenRow
  cases tag <;> exact ⟨rfl, rfl, rfl, rfl⟩

theorem spadRow_putRow (k : Core) (cyc : Nat) (r q : BitVec 16) (v : SpadRow) :
    (k.putRow cyc r v).spadRow q = if q = r then v else k.spadRow q := spadRow_setSpadRow k r q v

/-- A write leaves its row in the scratchpad, and records and counts what its tag check finds. -/
theorem writeRow_sameStore (k : Core) (alm : BitVec 64) (cyc : Nat) (r : BitVec 16) (e : Entry) (tag phase stream : Bool) :
    SameStore (k.putRow cyc r (k.writtenRow r e tag phase)) (k.writeRow alm cyc r e tag phase stream).1 := by
  have hrow : k.writtenRow r e tag phase =
      if tag then ((k.spadRow r).store e).setTag (if tag then checkWrite (k.spadRow r) phase else ((k.spadRow r).tag, none)).1
      else (k.spadRow r).store e := by
    unfold writtenRow
    cases tag <;> rfl
  rw [hrow]
  unfold writeRow
  dsimp only
  generalize (if tag then checkWrite (k.spadRow r) phase else ((k.spadRow r).tag, none)) = chk
  have hcounted : ∀ (k' : Core) (n : Nat), SameStore k' ((if stream then k'.bump 0x0C 1 else k').bump 0x0F n) := by
    intro k' n
    refine .trans ?_ (bump_sameStore _ _ _)
    split
    · exact bump_sameStore _ _ _
    · exact .refl _
  obtain ⟨t, _ | kind⟩ := chk
  · exact hcounted (k.putRow cyc r _) 0
  · exact (hcounted _ _).trans (setEvent_sameStore _ _ _ (Spad.event_sameRows _ _ _ _ _ _ _ _))

/-- A core whose write port has written a row. -/
structure HasWritten (k k' : Core) (r : BitVec 16) (e : Entry) (tag phase : Bool) : Prop where
  row : k'.spadRow r = k.writtenRow r e tag phase
  others : ∀ q, q ≠ r → k'.spadRow q = k.spadRow q
  portWr : k'.spad.portWr = k.spad.portWr
  injecting : k'.spad.injecting = k.spad.injecting
  net : k'.net = k.net
  iq : k'.iq = k.iq
  tiles : k'.tiles = k.tiles
  mx : k'.mx = k.mx

theorem writeRow_hasWritten (k : Core) (alm : BitVec 64) (cyc : Nat) (r : BitVec 16) (e : Entry) (tag phase stream : Bool) :
    HasWritten k (k.writeRow alm cyc r e tag phase stream).1 r e tag phase := by
  have h := writeRow_sameStore k alm cyc r e tag phase stream
  exact ⟨(h.spadRow r).trans ((spadRow_putRow _ _ _ _ _).trans (if_pos rfl)),
    fun q hq => (h.spadRow q).trans ((spadRow_putRow _ _ _ _ _).trans (if_neg hq)),
    h.spad.portWr, h.spad.injecting, h.net, h.iq, h.tiles, h.mx⟩

/-- A write after a record or a count is a write of the same row. -/
theorem HasWritten.of_sameStore {k k' k'' : Core} {r : BitVec 16} {e : Entry} {tag phase : Bool} (h : SameStore k k')
    (g : HasWritten k' k'' r e tag phase) : HasWritten k k'' r e tag phase where
  row := by rw [g.row, writtenRow, h.spadRow, writtenRow]
  others q hq := (g.others q hq).trans (h.spadRow q)
  portWr := g.portWr.trans h.spad.portWr
  injecting := g.injecting.trans h.spad.injecting
  net := g.net.trans h.net
  iq := g.iq.trans h.iq
  tiles := g.tiles.trans h.tiles
  mx := g.mx.trans h.mx

/-! ## The write port -/

/-- A core whose write port has taken its operation. -/
def writeTaken (k : Core) : Core := k.setSpad { k.spad with portWr := none }

section
variable {k : Core} {p : PortWrite} (alm : BitVec 64)

theorem writePort_core (h : k.spad.portWr = some p) (hcore : p.byCore = true) :
    (k.writePort alm).1 = if p.masked then k.writeTaken else (k.writeTaken.writeRow alm p.cycle p.row p.entry p.tag p.phase false).1 := by
  unfold writePort
  rw [h]
  dsimp only
  rw [if_pos hcore]
  cases p.masked <;> rfl

/-- The inlet without its first row. -/
def inletPopped (k : Core) (xs : List InletRow) : Core := { k.writeTaken with net := { k.net with inlet := xs } }

theorem writePort_stream (h : k.spad.portWr = some p) (hcore : p.byCore = false) {x : InletRow} {xs : List InletRow}
    (hinlet : k.net.inlet = x :: xs) (hdue : x.due < p.cycle) :
    (k.writePort alm).1 = if p.masked then k.inletPopped xs
      else (((k.inletPopped xs).collide alm p (rowOf x.row.toNat) x.phase).writeRow alm p.cycle (rowOf x.row.toNat) x.entry p.tag
        x.phase true).1 := by
  unfold writePort
  rw [h]
  dsimp only
  have hin : (k.setSpad { k.spad with portWr := none }).net.inlet = x :: xs := hinlet
  rw [if_neg (by rw [hcore]; decide), hin]
  dsimp only
  rw [if_neg (Nat.not_le.2 hdue)]
  cases p.masked <;> rfl

theorem writePort_empty (h : k.spad.portWr = some p) (hcore : p.byCore = false) (hinlet : ∀ x ∈ k.net.inlet.head?, p.cycle ≤ x.due) :
    (k.writePort alm).1 = (k.writeTaken.setStatusBit p.cycle 2).bump 0x0D 1 := by
  unfold writePort
  rw [h]
  dsimp only
  rw [if_neg (by rw [hcore]; decide)]
  split
  · rfl
  case h_2 x xs hin =>
    have hxs : k.net.inlet = x :: xs := hin
    rw [if_pos (hinlet x (by rw [hxs]; rfl))]
    rfl

end

/-! ## Port cycles without a read or an injection -/

theorem injectRead_none {k : Core} (h : k.spad.injecting = []) (cyc : Nat) : k.injectRead cyc = k := by
  unfold injectRead
  dsimp only
  rw [h]
  show k.setSpad { k.spad with injecting := [] } = k
  rw [← h]
  rfl

theorem injectWrite_none {k : Core} (h : k.spad.injecting = []) (cyc : Nat) : k.injectWrite cyc = k := by
  unfold injectWrite
  dsimp only
  rw [h]
  show k.setSpad { k.spad with injecting := [] } = k
  rw [← h]
  rfl

theorem injectTo_none {k : Core} (h : k.spad.injecting = []) (cyc : Nat) : k.injectTo cyc = k := by
  unfold injectTo
  rw [injectWrite_none h, injectRead_none h, injectWrite_none h]

/-- With no read owed and no injection under way a port cycle is its write. -/
theorem ports_write {k : Core} {p : PortWrite} (alm : BitVec 64) {cyc : Nat} (hp : k.spad.portWr = some p) (hcyc : p.cycle ≤ cyc)
    (hrd : k.spad.portRd = none) (hinj : k.spad.injecting = []) (hdone : (k.writePort alm).1.spad.injecting = []) :
    (k.ports alm cyc).1 = (k.writePort alm).1 := by
  unfold ports
  dsimp only
  rw [injectTo_none hinj, ite_self, injectRead_none hinj]
  have hword : (k.wordPorts alm cyc).1 = (k.writePort alm).1 := by
    unfold wordPorts
    dsimp only
    rw [hrd, hp]
    dsimp only
    rw [if_neg Bool.false_ne_true, if_pos (decide_eq_true hcyc)]
  rw [hword, injectTo_none hdone]

end Core

namespace State

/-- A write port that owes an operation carries it out, in a port cycle without a read or an injection. -/
theorem doWrite_core {s : State} {c : CoreId} {p : PortWrite} (hp : (s.core c).spad.portWr = some p) (hcyc : p.cycle ≤ s.cycle (groveOf c))
    (hrd : (s.core c).spad.portRd = none) (hinj : (s.core c).spad.injecting = [])
    (hdone : ((s.core c).writePort s.time.almanac).1.spad.injecting = []) (d : CoreId) :
    (s.doWrite c p.byCore).core d = if d = c then ((s.core c).writePort s.time.almanac).1 else s.core d := by
  have howed : s.writeOwed c p.byCore = true := by
    unfold writeOwed
    rw [hp]
    exact Bool.and_eq_true_iff.2 ⟨decide_eq_true rfl, decide_eq_true hcyc⟩
  unfold doWrite
  rw [if_pos howed, portDone_core, Core.ports_write _ hp hcyc hrd hinj hdone]

end State

/-- ST_CORE and ST_STREAM write their row (R109, R110, R374, R382, R386). -/
theorem storesWriteTheirRow : StoresWriteTheirRow := by
  intro c s p hp hcyc hrd hinj k wrote
  have hdone := State.doWrite_core hp hcyc hrd hinj
  have hwrote : ∀ {k' k'' : Core} {r : BitVec 16} {e : Entry} {phase : Bool}, k'.spad.rows = k.spad.rows →
      Core.HasWritten k' k'' r e p.tag phase → wrote r phase e k'' := by
    intro k' k'' r e phase hrows h
    have hrow : ∀ q, k'.spadRow q = k.spadRow q := fun q => by rw [Core.spadRow, hrows, Core.spadRow]
    obtain ⟨hdata, hmarks, hchk, htag⟩ := k'.writtenRow_spec r e p.tag phase
    rw [← h.row] at hdata hmarks hchk htag
    exact ⟨hdata, hmarks, hchk, by rw [htag, hrow], fun q hq => (h.others q hq).trans (hrow q)⟩
  refine ⟨fun hcore => ?core, fun x xs hcore hinlet hdue => ?stream, fun hcore hinlet => ?empty⟩
  case core =>
    have hport := Core.writePort_core s.time.almanac hp hcore
    rw [hport, hcore] at hdone
    cases hmasked : p.masked
    · rw [hmasked, if_neg Bool.false_ne_true] at hdone
      have h := k.writeTaken.writeRow_hasWritten s.time.almanac p.cycle p.row p.entry p.tag p.phase false
      have hdone := hdone (h.injecting.trans hinj)
      have hc := (hdone c).trans (if_pos rfl)
      rw [← hc] at h
      exact ⟨_, rfl, h.portWr, fun _ => hwrote (k' := k.writeTaken) rfl h, fun hm => absurd hm (by decide), h.tiles, h.mx, h.iq,
        fun d hd => (hdone d).trans (if_neg hd)⟩
    · rw [hmasked, if_pos rfl] at hdone
      have hdone := hdone hinj
      have hc := (hdone c).trans (if_pos rfl)
      exact ⟨_, rfl, by rw [hc]; rfl, fun hm => absurd hm (by decide), fun _ => by rw [hc]; rfl, by rw [hc]; rfl, by rw [hc]; rfl,
        by rw [hc]; rfl, fun d hd => (hdone d).trans (if_neg hd)⟩
  case stream =>
    have hport := Core.writePort_stream s.time.almanac hp hcore hinlet hdue
    rw [hport, hcore] at hdone
    cases hmasked : p.masked
    · rw [hmasked, if_neg Bool.false_ne_true] at hdone
      have h := Core.HasWritten.of_sameStore ((k.inletPopped xs).collide_sameStore s.time.almanac p (rowOf x.row.toNat) x.phase)
        (Core.writeRow_hasWritten _ s.time.almanac p.cycle (rowOf x.row.toNat) x.entry p.tag x.phase true)
      have hc := (hdone (h.injecting.trans hinj) c).trans (if_pos rfl)
      rw [← hc] at h
      exact ⟨_, rfl, by rw [h.net]; rfl, fun _ => hwrote (k' := k.inletPopped xs) rfl h, fun hm => absurd hm (by decide)⟩
    · rw [hmasked, if_pos rfl] at hdone
      have hc := (hdone hinj c).trans (if_pos rfl)
      exact ⟨_, rfl, by rw [hc]; rfl, fun hm => absurd hm (by decide), fun _ => by rw [hc]; rfl⟩
  case empty =>
    have hbump := Core.bump_sameStore (k.writeTaken.setStatusBit p.cycle 2) 0x0D 1
    rw [Core.writePort_empty s.time.almanac hp hcore hinlet, hcore] at hdone
    have hc := (hdone (hbump.spad.injecting.trans hinj) c).trans (if_pos rfl)
    rw [← hc] at hbump
    refine ⟨_, rfl, ?_, hbump.spad.rows, by rw [hbump.net]; rfl⟩
    rw [hbump.status, Core.setStatusBit_getLsbD _ _ _ (by decide), decide_eq_true rfl, Bool.or_true]

/-- ENTRY_LANDED lands the entries of one queue whose data was written by the end of the cycle before (R100). -/
theorem entriesLand : EntriesLand := by
  intro c q s hq
  refine ⟨_, if_pos hq, ?_, fun p hp => ?_, ?_, ?_, fun d hd => ?_, rfl⟩
  · rw [State.setCore_core_self, Core.queue_setQueue, if_pos rfl, landSlots]
    simp only [Bool.and_eq_true, decide_eq_true_eq]
  · rw [State.setCore_core_self, Core.queue_setQueue, if_neg hp]
  · rw [State.setCore_core_self]
    rfl
  · rw [State.setCore_core_self]
    rfl
  · exact (State.core_setCore _ _ _ _).trans (if_neg hd)

/-- Settles O26: without a read or an injection a port cycle is its write, and an entry lands when its cycle is over. -/
theorem storesAndLandings : Obligations.StoresAndLandings := ⟨storesWriteTheirRow, entriesLand⟩

end Sys2Proof.Machine
end

section
/-! PROOFS. A word and a service-mesh write of one cycle in one core (O14). -/

namespace Sys2Proof.Machine

open Sys2Proof.Claims

namespace Core

theorem tile_congr {k k' : Core} (h : k'.tiles = k.tiles) (t : BitVec 5) : k'.tile t = k.tile t := by
  rw [tile, h, tile]

/-- TCFG leaves every other tile. -/
theorem doTile_tcfg (k old : Core) (x : IssueAt) (src : BitVec 5 → Entry) {w : Cw} (hop : w.tile.op = 3) (lost : List Nat) {i : BitVec 5}
    (hi : i ≠ w.tile.tile) : (k.doTile old x src w lost).tile i = k.tile i := by
  unfold doTile
  dsimp only
  rw [hop]
  show (if old.acts w.mask 0 then _ else k : Core).tile i = k.tile i
  split
  · exact smGet_smSet_of_ne _ _ _ fun h => hi (BitVec.eq_of_toNat_eq h)
  · rfl

/-- A word of TCFG alone leaves every other tile. -/
theorem issueAny_tcfg (k : Core) (x : IssueAt) (t : BitVec 5) (rest : BitVec 9) (hen : k.en = true) {i : BitVec 5} (hi : i ≠ t) :
    (k.issueAny x { tile := ⟨3, t, rest⟩ }).1.tile i = k.tile i := by
  have hissue := issue_unitWord k x (w := { tile := ⟨3, t, rest⟩ }) (a := {}) (t := ⟨3, t, rest⟩) (m := {}) rfl
  have hpopped := popped_sameUnits k x.now (wordPops (k.uses { tile := ⟨3, t, rest⟩ }))
    (k.readFlags (k.heardPops {} (k.uses { tile := ⟨3, t, rest⟩ })))
  rw [issueAny, if_pos hen, hissue]
  exact (doTile_tcfg _ k x k.peek (w := unitWord {} ⟨3, t, rest⟩ {}) rfl
    (lostFields (k.uses { tile := ⟨3, t, rest⟩ })) hi).trans (tile_congr hpopped.1 i)

end Core

namespace TileWrittenInItsCycle

/-- TCFG of tile 0, a word of register TILE_SHAPE0. -/
def word : Cw := { tile := ⟨3, 0, 0⟩ }

/-- It was pushed in cycle 0. -/
def queued : QWord := { word := encodeCw word }

/-- A service-mesh write of cycle 3 has set the rows of tile 1, in TILE_SHAPE0 too, which read 0 before. -/
def core : Core := { tiles := [(1, { rows := 1 })], svcOld := (3, [(0x040, 0)]) }

/-- Hamper 0 is stopped, so that its cores take service-mesh writes, and told in cycle 3 to issue one word: the one at its head. That
core is in lane 0. -/
def state : State :=
  let s := State.reset.setCore 0 core
  let s := s.setHamper 0 { s.hamper 0 with state := stStopped, stepOne := true, iq := [queued] }
  { s with time := { s.time with periods := 3 } }

/-- The word issues. -/
theorem issues :
    (state.hamper 0).iq = [queued] ∧ state.mayIssue 0 = true ∧ queued.pushed < state.cycle (groveOfHamper 0) ∧
    decodeCw queued.word = word ∧ (settled state 0).wordRefusal 0 word = none := by decide +kernel

/-- It finds the rows of tile 1 as the service-mesh write left them. -/
theorem before : ((settled state 0).core 0).en = true ∧ (((settled state 0).core 0).tile 1).rows = 1 := by decide +kernel

/-- It takes the whole register back but for its own tile. -/
theorem after : (match exec (.issue 0) state with | .next t => ((t.core 0).tile 1).rows | _ => 7) = 0 := by decide +kernel

end TileWrittenInItsCycle

open TileWrittenInItsCycle in
/-- Refutes O14: a core takes the word, and then gives up what a service-mesh write of the same cycle did to a register that the word
changes (R132), so its tiles are not what the word's fields alone leave. -/
theorem not_issueTakesTheHead : ¬ Obligations.IssueTakesTheHead := by
  unfold Obligations.IssueTakesTheHead
  intro h
  obtain ⟨hiq, hmay, hpushed, hword, hrefusal⟩ := issues
  obtain ⟨hen, hbefore⟩ := before
  obtain ⟨htakes, -⟩ := h 0 queued [] state hiq hmay hpushed
  rw [hword] at htakes
  obtain ⟨t, hexec, -, -, hlanes⟩ := htakes hrefusal (by decide)
  obtain ⟨x, -, -, htiles, -⟩ := hlanes (by decide) (by decide) 0 (by decide +kernel)
  have hafter := after
  rw [hexec] at hafter
  have htile : (t.core 0).tile 1 = ((settled state 0).core 0).tile 1 :=
    (Core.tile_congr htiles 1).trans (Core.issueAny_tcfg _ x 0 0 hen (by decide))
  rw [← htile] at hbefore
  exact absurd (hafter.symm.trans hbefore) (by decide)

end Sys2Proof.Machine
end

section
/-! PROOFS. A service read of a row with an uncorrectable error (O29). -/

namespace Sys2Proof.Machine

open Sys2Proof.Claims

namespace ErrorReadByService

/-- Row 0 of the core's scratchpad: two check bits of its first word are wrong, which the code cannot correct. -/
def core : Core := { spad := { rows := [(0, { chk := 3 })] } }

/-- Interrupts go out as messages: MSI-X is enabled, vector 52 is not masked, and the function is a bus master. -/
def state : State :=
  let s := State.reset.setCore 0 core
  { s with
    cfg := [(0x004, 6), (0x090, 0x80000000)]
    bar0 := smSet s.bar0 (0x104000 + 16 * 52 + 8) 0
    time := { s.time with periods := 3 } }

/-- The read is one of core 0's scratchpad, whose read port is idle. -/
theorem reaches : state.svcWindow 0x1004000 = .core 0 0x4000 ∧ state.gated (groveOf 0) = false ∧
    (state.settleLane 0).svcPort 0 false = true ∧ (state.settleLane 0).out = [] := by decide +kernel

/-- The error sets the grove's event bit, whose fault entry sends its message (R375, R390, R400). -/
theorem signals :
    (match exec (.serviceAccess .manager 0x1004000 ⟨false, .full⟩ 0) state with | .next t => t.out | _ => []) = [.msix 52] := by
  decide +kernel

end ErrorReadByService

open ErrorReadByService in
/-- Refutes O29: the read of a scratchpad row that finds an uncorrectable error also sends the message of a fault entry. -/
theorem not_serviceAccesses : ¬ Obligations.ServiceAccesses := by
  unfold Obligations.ServiceAccesses
  rintro ⟨-, hspad, -⟩
  obtain ⟨hwindow, hgated, hport, hout⟩ := reaches
  obtain ⟨hread, -⟩ := hspad .manager 0x1004000 .full 0 state 0 0x4000 rfl (fun h => absurd h (by decide)) (by decide) hwindow
    (by decide) (by decide) hgated
  obtain ⟨t, hexec, -, -, hnone⟩ := hread hport
  have hsent := signals
  rw [hexec] at hsent
  rw [if_neg (by decide), hout] at hnone
  exact absurd (hsent.symm.trans hnone) (by decide)

end Sys2Proof.Machine
end

section
/-! PROOFS. The control word: each field is read back from its encoding, and each encoding is that of what is read (R142). -/

namespace Sys2Proof.Machine

/-! ## Parts of a joined word

The widths of a control word's fields are numerals, so the sums of widths in these lemmas are not indexed. -/

/-- A part of the lower of two joined words. -/
@[simp] theorem extractLsb'_append_low {v w : Nat} (hi : BitVec v) (lo : BitVec w) {start len : Nat} (h : start + len ≤ w) :
    @BitVec.extractLsb' (no_index (v + w)) start len (no_index (hi ++ lo)) = lo.extractLsb' start len :=
  BitVec.extractLsb'_append_eq_of_add_le h

/-- A part of the upper of two joined words. -/
@[simp] theorem extractLsb'_append_high {v w : Nat} (hi : BitVec v) (lo : BitVec w) {start len : Nat} (h : w ≤ start) :
    @BitVec.extractLsb' (no_index (v + w)) start len (no_index (hi ++ lo)) = hi.extractLsb' (start - w) len :=
  BitVec.extractLsb'_append_eq_of_le h

/-- Two parts of a word that meet are one part. -/
@[simp] theorem extractLsb'_append_extractLsb' {w : Nat} (x : BitVec w) {a b m k : Nat} (h : b = a + k) :
    @HAppend.hAppend _ _ (no_index _) _ (x.extractLsb' b m) (x.extractLsb' a k) = x.extractLsb' a (m + k) :=
  BitVec.extractLsb'_append_extractLsb'_eq_extractLsb' h

/-! ## One field -/

@[simp] theorem decodeSeq_encodeSeq (f : SeqF) : decodeSeq (encodeSeq f) = f := by simp [decodeSeq, encodeSeq]
@[simp] theorem decodeMx_encodeMx (f : MxF) : decodeMx (encodeMx f) = f := by simp [decodeMx, encodeMx]
@[simp] theorem decodeVx_encodeVx (f : VxF) : decodeVx (encodeVx f) = f := by simp [decodeVx, encodeVx]
@[simp] theorem decodeLd_encodeLd (f : LdF) : decodeLd (encodeLd f) = f := by simp [decodeLd, encodeLd]
@[simp] theorem decodeSt_encodeSt (f : StF) : decodeSt (encodeSt f) = f := by simp [decodeSt, encodeSt]
@[simp] theorem decodeNet_encodeNet (f : NetF) : decodeNet (encodeNet f) = f := by simp [decodeNet, encodeNet]
@[simp] theorem decodeAgu_encodeAgu (f : AguF) : decodeAgu (encodeAgu f) = f := by simp [decodeAgu, encodeAgu]
@[simp] theorem decodeTile_encodeTile (f : TileF) : decodeTile (encodeTile f) = f := by simp [decodeTile, encodeTile]
@[simp] theorem decodeMask_encodeMask (f : MaskF) : decodeMask (encodeMask f) = f := by simp [decodeMask, encodeMask]
@[simp] theorem decodeCheck_encodeCheck (f : CheckF) : decodeCheck (encodeCheck f) = f := by simp [decodeCheck, encodeCheck]

@[simp] theorem encodeSeq_decodeSeq (w : BitVec 24) : encodeSeq (decodeSeq w) = w := by simp [decodeSeq, encodeSeq]
@[simp] theorem encodeMx_decodeMx (w : BitVec 32) : encodeMx (decodeMx w) = w := by simp [decodeMx, encodeMx]
@[simp] theorem encodeVx_decodeVx (w : BitVec 32) : encodeVx (decodeVx w) = w := by simp [decodeVx, encodeVx]
@[simp] theorem encodeLd_decodeLd (w : BitVec 24) : encodeLd (decodeLd w) = w := by simp [decodeLd, encodeLd]
@[simp] theorem encodeSt_decodeSt (w : BitVec 24) : encodeSt (decodeSt w) = w := by simp [decodeSt, encodeSt]
@[simp] theorem encodeNet_decodeNet (w : BitVec 24) : encodeNet (decodeNet w) = w := by simp [decodeNet, encodeNet]
@[simp] theorem encodeAgu_decodeAgu (w : BitVec 24) : encodeAgu (decodeAgu w) = w := by simp [decodeAgu, encodeAgu]
@[simp] theorem encodeTile_decodeTile (w : BitVec 16) : encodeTile (decodeTile w) = w := by simp [decodeTile, encodeTile]
@[simp] theorem encodeMask_decodeMask (w : BitVec 16) : encodeMask (decodeMask w) = w := by simp [decodeMask, encodeMask]
@[simp] theorem encodeCheck_decodeCheck (w : BitVec 8) : encodeCheck (decodeCheck w) = w := by simp [decodeCheck, encodeCheck]

/-! ## The word -/

/-- A control word is read back from its encoding. -/
@[simp] theorem decodeCw_encodeCw (c : Cw) : decodeCw (encodeCw c) = c := by simp [decodeCw, encodeCw]

/-- A word is the encoding of what is read from it. -/
@[simp] theorem encodeCw_decodeCw (v : BitVec 256) : encodeCw (decodeCw v) = v := by simp [decodeCw, encodeCw]

/-- Settles O3: each field's part of the word is the field's encoding, and the parts meet. -/
theorem controlWordRoundTrip : Obligations.ControlWordRoundTrip := ⟨decodeCw_encodeCw, encodeCw_decodeCw⟩

end Sys2Proof.Machine
end

section
/-! PROOFS. IC_FILL: the line that it takes, and where it places it (R192, R193). -/

namespace Sys2Proof.Machine

/-! ## The rest of the device -/

namespace State

/-- HBM, the cores and the hampers besides `h` are the same. -/
structure OnlyHamper (h : HamperId) (s t : State) : Prop where
  hbm : t.hbm = s.hbm
  cores : t.plane.cores = s.plane.cores
  hampers : ∀ g, g ≠ h → t.hamper g = s.hamper g

theorem hamper_congr {s t : State} (h : t.plane = s.plane) (g : HamperId) : t.hamper g = s.hamper g := by rw [hamper, h, hamper]

namespace OnlyHamper

variable {h : HamperId} {s t u : State}

theorem refl (h : HamperId) (s : State) : OnlyHamper h s s := ⟨rfl, rfl, fun _ _ => rfl⟩

theorem trans (a : OnlyHamper h s t) (b : OnlyHamper h t u) : OnlyHamper h s u :=
  ⟨b.hbm.trans a.hbm, b.cores.trans a.cores, fun g hg => (b.hampers g hg).trans (a.hampers g hg)⟩

theorem setHamper (h : HamperId) (s : State) (k : Hamper) : OnlyHamper h s (s.setHamper h k) :=
  ⟨rfl, rfl, fun g hg => (hamper_setHamper s h g k).trans (if_neg hg)⟩

theorem of_plane (h : HamperId) (hhbm : t.hbm = s.hbm) (hplane : t.plane = s.plane) : OnlyHamper h s t :=
  ⟨hhbm, by rw [hplane], fun g _ => hamper_congr hplane g⟩

end OnlyHamper

/-! ## A read of a line -/

/-- A read that no channel makes counts, and leaves HBM. -/
@[simp] theorem countTaken_hbm (s : State) (a n : Nat) : (s.countTaken a n).hbm = s.hbm := by
  unfold countTaken
  dsimp only
  split
  · rfl
  · rfl

@[simp] theorem countTaken_plane (s : State) (a n : Nat) : (s.countTaken a n).plane = s.plane := by
  unfold countTaken
  dsimp only
  split
  · rfl
  · rfl

end State

/-! ## A line placed -/

/-- A hamper with a line placed, and the flag of a lock that was not taken (R193, R194, R217). -/
def Hamper.filled (k' k : Hamper) (cyc : Nat) (l : BitVec 21) (ws : List (BitVec 256)) (lock : Bool) : Hamper :=
  let x := { k' with icFlags := 0 }.place l ws lock
  { x with icFlags := k.icFlags ||| x.icFlags }.noteSet cyc 0x0A8 (2 * x.icFlags.zeroExtend 64)

/-- The line placed is cached, with its words. -/
theorem Hamper.filled_cached (k' k : Hamper) (cyc : Nat) (l : BitVec 21) (ws : List (BitVec 256)) (lock : Bool) :
    ∃ x, (k'.filled k cyc l ws lock).cached l = some x ∧ x.words = ws :=
  ⟨_, List.find?_cons_of_pos (decide_eq_true rfl), rfl⟩

/-- A line placed leaves the front end. -/
theorem Hamper.filled_front (k' k : Hamper) (cyc : Nat) (l : BitVec 21) (ws : List (BitVec 256)) (lock : Bool) :
    (k'.filled k cyc l ws lock).icMiss = k'.icMiss ∧ (k'.filled k cyc l ws lock).preload = k'.preload ∧
    (k'.filled k cyc l ws lock).pc = k'.pc ∧ (k'.filled k cyc l ws lock).iq = k'.iq := ⟨rfl, rfl, rfl, rfl⟩

namespace State

/-- The state in which a line is placed: `k` is the hamper whose wait for it has ended. -/
def placed (s : State) (h : HamperId) (l : BitVec 21) (k : Hamper) (lock : Bool) : State :=
  (s.setHamper h (k.filled (s.hamper h) (s.cycle (groveOfHamper h)) l (s.lineWords h l) lock)).countTaken
    ((s.hamper h).progBase.toNat + 256 * l.toNat) 256

theorem placed_hamper (s : State) (h : HamperId) (l : BitVec 21) (k : Hamper) (lock : Bool) :
    (s.placed h l k lock).hamper h = k.filled (s.hamper h) (s.cycle (groveOfHamper h)) l (s.lineWords h l) lock := by
  rw [placed, hamper_congr (countTaken_plane _ _ _), setHamper_hamper_self]

theorem placed_only (s : State) (h : HamperId) (l : BitVec 21) (k : Hamper) (lock : Bool) : OnlyHamper h s (s.placed h l k lock) :=
  (OnlyHamper.setHamper h s _).trans (.of_plane h (countTaken_hbm _ _ _) (countTaken_plane _ _ _))

/-- A line placed: the wait of `k` for it, the PC and the queue as they were, and the line with its words. -/
theorem placed_effects (s : State) (h : HamperId) (l : BitVec 21) (k : Hamper) (lock : Bool) (hpc : k.pc = (s.hamper h).pc)
    (hiq : k.iq = (s.hamper h).iq) :
    ((s.placed h l k lock).hamper h).icMiss = k.icMiss ∧ ((s.placed h l k lock).hamper h).pc = (s.hamper h).pc ∧
    ((s.placed h l k lock).hamper h).iq = (s.hamper h).iq ∧
    ((s.placed h l k lock).hbm = s.hbm ∧ (s.placed h l k lock).plane.cores = s.plane.cores ∧
      ∀ o, o ≠ h → (s.placed h l k lock).hamper o = s.hamper o) ∧
    ∃ x, ((s.placed h l k lock).hamper h).cached l = some x ∧ x.words = s.lineWords h l := by
  obtain ⟨hmiss, -, hpc', hiq'⟩ := Hamper.filled_front k (s.hamper h) (s.cycle (groveOfHamper h)) l (s.lineWords h l) lock
  have honly := placed_only s h l k lock
  rw [placed_hamper]
  exact ⟨hmiss, hpc'.trans hpc, hiq'.trans hiq, ⟨honly.hbm, honly.cores, honly.hampers⟩, Hamper.filled_cached ..⟩

end State

/-- A preload with one line fewer to come. -/
def Preload.rest (p : Preload) : Option Preload := if p.left ≤ 1 then none else some { p with line := p.line + 1, left := p.left - 1 }

section
variable {h : HamperId} {s : State}

/-- IC_FILL for the miss that the front end waits for (R192). -/
theorem exec_icFill_miss {l : BitVec 21} (hmiss : (s.hamper h).icMiss = some l) : exec (.icFill h) s =
    if hbmEnd < (s.hamper h).progBase.toNat + 256 * l.toNat + 256 then .fault .noSuchMemory
    else .next (s.placed h l { s.hamper h with icMiss := none } false) := by
  show execIcFill h s = _
  unfold execIcFill
  dsimp only
  rw [hmiss]
  rfl

/-- IC_FILL for the preload, where the front end waits for no line (R193). -/
theorem exec_icFill_preload {p : Preload} (hmiss : (s.hamper h).icMiss = none) (hpre : (s.hamper h).preload = some p) :
    exec (.icFill h) s =
      if hbmEnd < (s.hamper h).progBase.toNat + 256 * p.line.toNat + 256 then .fault .noSuchMemory
      else .next (s.placed h p.line { s.hamper h with preload := p.rest } p.lock) := by
  show execIcFill h s = _
  unfold execIcFill
  dsimp only
  rw [hmiss]
  dsimp only
  rw [hpre]
  rfl

/-- IC_FILL with nothing to place (log entry 6). -/
theorem exec_icFill_idle (hmiss : (s.hamper h).icMiss = none) (hpre : (s.hamper h).preload = none) : exec (.icFill h) s = .next s := by
  show execIcFill h s = _
  unfold execIcFill
  dsimp only
  rw [hmiss]
  dsimp only
  rw [hpre]

end

end Sys2Proof.Machine
end

section
/-! PROOFS. Every command answers a next state (O2): the commands whose effect is one state, those that act or idle on a condition,
and those that look something up first. -/

namespace Sys2Proof.Machine

/-- The command neither faults nor is refused. -/
def Answers (o : Host.Outcome State Fault Refusal) : Prop := ∃ t, o = .next t

namespace Answers

theorem next (t : State) : Answers (.next t) := ⟨t, rfl⟩

theorem ite {p : Prop} [Decidable p] {a b : Host.Outcome State Fault Refusal} (ha : Answers a) (hb : Answers b) :
    Answers (if p then a else b) := by
  split
  · exact ha
  · exact hb

/-! ## Commands that look something up -/

section
variable (s : State)

/-! ### Of the core plane -/

theorem issue (h : HamperId) : Answers (execIssue h s) := by
  unfold execIssue
  split
  · exact next _
  · exact ite (next _) (next _)

theorem wordPush (h : HamperId) : Answers (execWordPush h s) := by
  unfold execWordPush
  refine ite ?_ (next _)
  split
  · exact next _
  · exact next _

theorem abortAtHoldTimeout (h : HamperId) : Answers (execAbortAtHoldTimeout h s) := by
  unfold execAbortAtHoldTimeout
  split
  · exact ite (next _) (next _)
  · exact next _

theorem sampleRecordComplete (g : GroveId) : Answers (execSampleRecordComplete g s) := by
  unfold execSampleRecordComplete
  dsimp only
  split
  · exact next _
  · exact ite (next _) (next _)

theorem crossingPresent (c : CoreId) (input : BitVec 2) : Answers (execCrossingPresent c input s) := by
  unfold execCrossingPresent
  refine ite (next _) ?_
  split
  · exact next _
  · exact ite (next _) (next _)

theorem flitArrival (c : CoreId) (x : RouterIn) : Answers (execFlitArrival c x s) := by
  unfold execFlitArrival
  refine ite (next _) ?_
  split
  · exact next _
  · exact next _

theorem injection (c : CoreId) : Answers (execInjection c s) := by
  unfold execInjection
  dsimp only
  split
  · exact next _
  · exact ite (next _) (next _)

theorem creditReturn (src : Source) : Answers (execCreditReturn src s) := by
  cases src
  · exact next _
  · exact next _
  · exact next _

theorem edgePortFlit (c : CoreId) (output : BitVec 2) : Answers (execEdgePortFlit c output s) := by
  unfold execEdgePortFlit
  split
  · exact next _
  · exact next _

/-! ### Of the service mesh -/

theorem serviceRequest (c : CoreId) (n : BitVec 2) : Answers (execServiceRequest c n s) := by
  unfold execServiceRequest
  dsimp only
  split
  · exact next _
  · exact ite (next _) (next _)

theorem serviceTimeout : Answers (execServiceTimeout s) := by
  unfold execServiceTimeout
  dsimp only
  split
  · exact next _
  · exact next _

theorem serviceMergeWrite (c : CoreId) : Answers (execServiceMergeWrite c s) := by
  unfold execServiceMergeWrite
  split
  · exact next _
  · dsimp only
    split
    · exact next _
    · exact next _

/-! ### Of the stream engines and host DMA -/

theorem kvTranslate (n : StackId) (c : BitVec 5) : Answers (execKvTranslate n c s) := by
  unfold execKvTranslate
  dsimp only
  split
  · exact next _
  split
  · exact ite (next _) (next _)
  · exact next _

theorem hbmBurstComplete (u : SeUnit) (b : BitVec 6) (e : BurstEnd) : Answers (execHbmBurstComplete u b e s) := by
  unfold execHbmBurstComplete
  dsimp only
  split
  · exact next _
  refine ite (ite (next _) (next _)) ?_
  split
  · exact next _
  · exact ite (next _) (next _)

theorem blockForward (u : SeUnit) (seg : Option (BitVec 6)) (hits : SegHits) : Answers (execBlockForward u seg hits s) := by
  unfold execBlockForward
  split
  · exact next _
  split
  · exact next _
  refine ite (next _) ?_
  split
  · exact next _
  · exact ite (next _) (next _)
  · exact next _

theorem blockWrite (u : SeUnit) (f : Option BufFault) : Answers (execBlockWrite u f s) := by
  unfold execBlockWrite
  split
  · exact next _
  refine ite (next _) ?_
  cases f
  · dsimp only
    split
    · exact next _
    · exact next _
  · dsimp only
    split
    · exact next _
    · exact next _

theorem writeReadbackCheck (u : SeUnit) (e : BurstEnd) : Answers (execWriteReadbackCheck u e s) := by
  unfold execWriteReadbackCheck
  split
  · exact next _
  · exact ite (next _) (next _)

theorem hdmaHostReadback (c : BitVec 4) (e : Option CplError) : Answers (execHdmaHostReadback c e s) := by
  unfold execHdmaHostReadback
  split
  · exact next _
  refine ite ?_ (next _)
  cases e
  · exact next _
  · exact ite (next _) (next _)

theorem hdmaHostCompletion (c : BitVec 4) (b : BitVec 6) (e : HostCpl) : Answers (execHdmaHostCompletion c b e s) := by
  unfold execHdmaHostCompletion
  refine ite (next _) ?_
  dsimp only
  split
  · exact next _
  refine ite (next _) ?_
  cases e
  · exact next _
  · exact next _
  · exact next _

theorem withholdNotice : Answers (execWithholdNotice s) := by
  unfold execWithholdNotice
  split
  · exact next _
  dsimp only
  split
  · exact next _
  · exact ite (next _) (next _)

theorem ringBaseWrite (n : Option (BitVec 4)) (v : BitVec 64) : Answers (execRingBaseWrite n v s) := by
  cases n
  · exact next _
  · exact next _

/-! ### Of the scheduler and the pager -/

theorem stepFormation : Answers (execStepFormation s) := by
  unfold execStepFormation
  split
  · exact next _
  · exact ite (next _) (next _)

theorem paramDelivery : Answers (execParamDelivery s) := by
  unfold execParamDelivery
  split
  · exact next _
  dsimp only
  split
  · exact next _
  · exact next _

theorem deliveryTemplate (n : BitVec 3) : Answers (execDeliveryTemplate n s) := by
  unfold execDeliveryTemplate
  split
  · exact next _
  · exact ite (next _) (next _)

theorem tokenRecord (peer : Bool) (v : BitVec 64) (poison : Bool) : Answers (execTokenRecord peer v poison s) := by
  unfold execTokenRecord
  refine ite (next _) ?_
  split
  · exact next _
  dsimp only
  split
  · exact next _
  split
  · exact next _
  · exact ite (next _) (next _)

theorem spillDone (slot : BitVec 12) (lg : BitVec 5) (page : BitVec 9) : Answers (execSpillDone slot lg page s) := by
  unfold execSpillDone
  split
  · exact next _
  · exact ite (next _) (next _)

theorem fetchBackDone (slot : BitVec 12) (lg : BitVec 5) (page : BitVec 9) : Answers (execFetchBackDone slot lg page s) := by
  unfold execFetchBackDone
  split
  · exact next _
  · exact ite (next _) (ite (next _) (next _))

theorem resumeSequence : Answers (execResumeSequence s) := by
  unfold execResumeSequence
  refine ite (next _) ?_
  split
  · exact next _
  · exact next _

/-! ### Of the ports, time, power and counters -/

theorem drainInstant (p : PortId) (c : BitVec 6) : Answers (execDrainInstant p c s) := by
  unfold execDrainInstant
  dsimp only
  split
  · exact next _
  · exact ite (next _) (next _)

theorem timeReq (m : Option TimeMsg) : Answers (execTimeReq m s) := by
  cases m
  · exact next _
  · exact next _

theorem clockFailure (src : ClockSource) : Answers (execClockFailure src s) := by
  unfold execClockFailure
  split
  · exact ite (next _) (next _)
  · exact next _

theorem deferredRequestStart (mp : Bool) : Answers (execDeferredRequestStart mp s) := by
  unfold execDeferredRequestStart
  split
  · exact next _
  · exact ite (next _) (next _)

theorem mailboxRequestDone (mp pass : Bool) : Answers (execMailboxRequestDone mp pass s) := by
  unfold execMailboxRequestDone
  split
  · exact next _
  · exact ite (next _) (next _)

theorem snapshot (busy : Bool) : Answers (execSnapshot busy s) := by
  unfold execSnapshot
  dsimp only
  split
  · exact next _
  · exact next _

theorem jtagInstruction (i : JtagInstr) : Answers (execJtagInstruction i s) := by
  unfold execJtagInstruction
  split
  · exact ite (next _) (next _)
  · exact next _

end

end Answers

open Answers

/-- Every command but IC_FILL answers a next state. -/
theorem exec_answers {c : Instr} (hc : ∀ h, c ≠ .icFill h) (s : State) : Answers (exec c s) := by
  cases c
  case icFill h => exact absurd rfl (hc h)
  case issue => exact issue s _
  case wordPush => exact wordPush s _
  case abortAtHoldTimeout => exact abortAtHoldTimeout s _
  case sampleRecordComplete => exact sampleRecordComplete s _
  case crossingPresent => exact crossingPresent s _ _
  case flitArrival => exact flitArrival s _ _
  case injection => exact injection s _
  case creditReturn => exact creditReturn s _
  case edgePortFlit => exact edgePortFlit s _ _
  case serviceRequest => exact serviceRequest s _ _
  case serviceTimeout => exact serviceTimeout s
  case serviceMergeWrite => exact serviceMergeWrite s _
  case kvTranslate => exact kvTranslate s _ _
  case hbmBurstComplete => exact hbmBurstComplete s _ _ _
  case blockForward => exact blockForward s _ _ _
  case blockWrite => exact blockWrite s _ _
  case writeReadbackCheck => exact writeReadbackCheck s _ _
  case hdmaHostReadback => exact hdmaHostReadback s _ _
  case hdmaHostCompletion => exact hdmaHostCompletion s _ _ _
  case withholdNotice => exact withholdNotice s
  case ringBaseWrite => exact ringBaseWrite s _ _
  case stepFormation => exact stepFormation s
  case paramDelivery => exact paramDelivery s
  case deliveryTemplate => exact deliveryTemplate s _
  case tokenRecord => exact tokenRecord s _ _ _
  case spillDone => exact spillDone s _ _ _
  case fetchBackDone => exact fetchBackDone s _ _ _
  case resumeSequence => exact resumeSequence s
  case drainInstant => exact drainInstant s _ _
  case timeReq => exact timeReq s _
  case clockFailure => exact clockFailure s _
  case deferredRequestStart => exact deferredRequestStart s _
  case mailboxRequestDone => exact mailboxRequestDone s _ _
  case snapshot => exact snapshot s _
  case jtagInstruction => exact jtagInstruction s _
  case serviceAccess => exact ite (next _) (ite (next _) (next _))
  case sqPoll => exact ite (next _) (ite (next _) (next _))
  case laneSpare => exact ite (next _) (ite (next _) (next _))
  case qualificationDone => exact ite (next _) (ite (next _) (next _))
  case spill => exact ite (next _) (ite (next _) (ite (next _) (next _)))
  case trainingComplete => exact ite (next _) (ite (next _) (ite (next _) (ite (next _) (ite (next _) (next _)))))
  case registerWrite | referenceReturn | groveRelease | catchUpHold | departure | entryLanded | routeWrite | watchdog |
      refreshWindow | refreshWindowClose | hbmRefWrite | admitSeq | refLost | laserLow | portFailed | linkFlitReceive | nak |
      replayTimeout | messageSend | cqModTimer | perstNAssert | oscTrim | xtalStable | xtalTimeout | fuseLoad | imageVerify |
      configLoad | hbmTest | sramBist | linkRetry | linksComplete | pldmUpdate | getCertificate | challenge | deviceResetDone |
      alertResponse | levelDecision | groveRestart | laneSwapDone | attestationKeyDerived =>
    exact ite (next _) (next _)
  all_goals exact next _

/-- Settles O2: IC_FILL alone faults, on a line past the last stack. -/
theorem everyCommandAnswers : Obligations.EveryCommandAnswers := by
  unfold Obligations.EveryCommandAnswers
  intro c s
  by_cases hc : ∃ h, c = .icFill h
  case neg => exact .inl (exec_answers (fun h hh => hc ⟨h, hh⟩) s)
  case pos =>
    obtain ⟨h, rfl⟩ := hc
    cases hmiss : (s.hamper h).icMiss with
    | some l =>
      rw [exec_icFill_miss hmiss]
      split
      case isTrue hpast => exact .inr ⟨⟨h, l, rfl, .inl hmiss, hpast⟩, rfl⟩
      case isFalse => exact .inl (next _)
    | none =>
      cases hpre : (s.hamper h).preload with
      | none => exact .inl ⟨s, exec_icFill_idle hmiss hpre⟩
      | some p =>
        rw [exec_icFill_preload hmiss hpre]
        split
        case isTrue hpast => exact .inr ⟨⟨h, p.line, rfl, .inr ⟨hmiss, p, hpre, rfl⟩, hpast⟩, rfl⟩
        case isFalse => exact .inl (next _)

end Sys2Proof.Machine
end

section
/-! PROOFS. Words of one field and a service-mesh write of the same cycle (O11, O7). -/

namespace Sys2Proof.Machine

open Sys2Proof.Claims

namespace TileWrittenInItsCycle

/-- TCFG of tile 0 can issue, core 0 is enabled, and it finds the rows of tile 1 as the service-mesh write of the cycle left them. -/
theorem tcfg_goes : Goes state 0 word ∧ ((settled state 0).core 0).en = true ∧ (((settled state 0).core 0).tile 1).rows = 1 :=
  ⟨by unfold Goes; decide +kernel, before⟩

/-- TCFG takes the whole register back but for its own tile. -/
theorem tcfg_after : (match exec (.tcfg 0 0 0 0) state with | .next t => ((t.core 0).tile 1).rows | _ => 7) = 0 := by decide +kernel

end TileWrittenInItsCycle

open TileWrittenInItsCycle in
/-- Refutes O11: a core gives up what a service-mesh write of the same cycle did to a register that its word changes (R132), and
TILE_SHAPE0 holds the shapes of other tiles than the one that TCFG configures. -/
theorem not_queueAndTileOperations : ¬ Obligations.QueueAndTileOperations := by
  unfold Obligations.QueueAndTileOperations
  intro h
  obtain ⟨-, -, -, -, htcfg⟩ := h 0 0 0 0 false 0 0
  obtain ⟨hgoes, hen, hbefore⟩ := tcfg_goes
  obtain ⟨t, hexec, hlanes, -⟩ := htcfg state hgoes
  obtain ⟨-, -, -, -, hothers, -⟩ := hlanes 0 (by decide +kernel) hen
  have hafter := tcfg_after
  rw [hexec] at hafter
  exact absurd (hafter.symm.trans ((congrArg Tile.rows (hothers 1 (by decide))).trans hbefore)) (by decide)

namespace SendEndWrittenInItsCycle

/-- VCMP of FP32 elements at two null ends, to send end 0. -/
def word : Cw := slotWord .a ⟨7, 0, 0, 0, 16, 0⟩

/-- A service-mesh write of cycle 3 has set TW of send end 0 from 1 to 0, and its TYPE to 2. -/
def core : Core := { svcOld := (3, [(0x500, 0x88010)]), net := { send := [(0, { type := 2 })] } }

/-- Hamper 0 is stopped, so that its cores take service-mesh writes, and told in cycle 3 to issue one word. That core is in lane 0, and
the other lanes are disabled. -/
def state : State :=
  let s := (State.lanes 0).foldl (fun s c => s.setCore c { en := false }) State.reset
  let s := s.setCore 0 core
  let s := s.setHamper 0 { s.hamper 0 with state := stStopped, stepOne := true }
  { s with time := { s.time with periods := 3 } }

/-- The word can issue, and core 0 executes it. -/
theorem goes : Goes state 0 word ∧ ((settled state 0).core 0).en = true := ⟨by unfold Goes; decide +kernel, by decide +kernel⟩

/-- The tuple that it pushes has one word, and the send end has TW 1 again. -/
theorem after : (match exec (.vcmp 0 .a 0 0 0 16 0 0) state with
    | .next t => (((t.core 0).sendEnd 0).buf.map fun x => x.words.length, ((t.core 0).sendEnd 0).tw)
    | _ => ([], 0)) = ([1], 1) := by decide +kernel

end SendEndWrittenInItsCycle

open SendEndWrittenInItsCycle in
/-- Refutes O7: a tuple has the words of the TW that its send end had in the cycle of the push, and that TW is given up for the one
before a service-mesh write of the same cycle (R132), so the end may ask for more words than VCMP pushed. -/
theorem not_vectorMasksAndLength : ¬ Obligations.VectorMasksAndLength := by
  unfold Obligations.VectorMasksAndLength
  intro h
  obtain ⟨hvcmp, -⟩ := h 0 .a 0 0 0 0 16 0 false 0
  obtain ⟨hgoes, hen⟩ := goes
  obtain ⟨t, hexec, hlanes, -⟩ := hvcmp ⟨by decide, by decide⟩ state hgoes
  obtain ⟨⟨⟨e, -, -, hpushed⟩, -⟩, -⟩ := hlanes 0 (by decide +kernel) hen
  obtain ⟨x, hmem, -, hwords⟩ := hpushed (by decide)
  have hafter := after
  rw [hexec] at hafter
  obtain ⟨hbuf, htw⟩ := Prod.mk.inj hafter
  have hone : x.words.length = 1 := List.mem_singleton.mp (hbuf ▸ List.mem_map_of_mem (f := fun x => x.words.length) hmem)
  have htwo : x.words.length = 2 := by
    rw [hwords, List.length_map, List.length_range]
    exact congrArg (fun tw : BitVec 2 => tw.toNat + 1) htw
  exact absurd (hone.symm.trans htwo) (by decide)

end Sys2Proof.Machine
end

section
/-! PROOFS. The registers that a hamper takes while it is idle, stopped or done (O22). -/

namespace Sys2Proof.Machine

namespace State

variable {s : State} {h : HamperId} (v : BitVec 64)

/-- SEQ_ABORT_CFG after a write of `v`: the register's fields, and zeros (R213). -/
def abortCfgOf (v : BitVec 64) : BitVec 64 :=
  putBits (putBits (putBits 0 56 32 (getBits v 56 32)) 25 25 (getBits v 25 25)) 12 0 (getBits v 12 0)

/-- A hamper that runs takes no write (R205). -/
theorem seqReg_busy (hquiet : (s.hamper h).quiet = false) (off : Nat) : s.seqReg h off v = s := by
  simp [seqReg, hquiet]

section
variable (hquiet : (s.hamper h).quiet = true)
include hquiet

theorem seqReg_pc (hkeep : v.getLsbD 24 = false ∨ getBits v 23 13 = 0) :
    s.seqReg h 0x010 v = s.setHamper h { s.hamper h with pc := v.extractLsb' 24 1 ++ (v.extractLsb' 0 25).extractLsb' 0 24 } := by
  have hlow : (v.getLsbD 24 && getBits v 23 13 != 0) = false := by
    rcases hkeep with hbit | hzero
    · rw [hbit, Bool.false_and]
    · rw [hzero, bne_self_eq_false, Bool.and_false]
  simp only [seqReg, hquiet, hlow, Bool.not_true, Bool.false_eq_true, if_false, if_true]

theorem seqReg_abortCfg : s.seqReg h 0x030 v = s.setHamper h { s.hamper h with abortCfg := abortCfgOf v } := by
  simp [seqReg, hquiet, abortCfgOf]

theorem seqReg_progBase (hline : getBits v 7 0 = 0) :
    s.seqReg h 0x038 v = s.setHamper h { s.hamper h with progBase := BitVec.ofNat 64 (getBits v 41 0) } := by
  simp [seqReg, hquiet, hline]

/-- The register of scalars `2 n` and `2 n + 1`. -/
theorem seqReg_scalars {n : Nat} (hn : n < 8) : s.seqReg h (0x040 + 8 * n) v =
    s.setHamper h { s.hamper h with
      scalars := smSet (smSet (s.hamper h).scalars (2 * n) (v.extractLsb' 0 32)) (2 * n + 1) (v.extractLsb' 32 32) } := by
  have hdiv : (0x040 + 8 * n - 0x040) / 8 = n := by omega
  have hpc : 0x040 + 8 * n ≠ 0x010 := by omega
  have hcfg : 0x040 + 8 * n ≠ 0x030 := by omega
  have hbase : 0x040 + 8 * n ≠ 0x038 := by omega
  have hrange : 0x040 ≤ 0x040 + 8 * n ∧ 0x040 + 8 * n < 0x080 := by omega
  simp only [seqReg, hquiet, Bool.not_true, Bool.false_eq_true, if_false, hpc, hcfg, hbase, hrange, hdiv, decide_true, Bool.and_self,
    if_true]

/-- The register of loop counters `2 n` and `2 n + 1`. -/
theorem seqReg_lcs {n : Nat} (hn : n < 2) : s.seqReg h (0x080 + 8 * n) v =
    s.setHamper h { s.hamper h with
      lcs := smSet (smSet (s.hamper h).lcs (2 * n) (v.extractLsb' 0 32)) (2 * n + 1) (v.extractLsb' 32 32) } := by
  obtain rfl | rfl : n = 0 ∨ n = 1 := by omega
  · simp [seqReg, hquiet]
  · simp [seqReg, hquiet]

end

end State

/-- A pair of words stored in neighbouring places of a map. -/
theorem smGet_smSet_pair {α : Type} (d : α) (m : SMap α) (n : Nat) (x y : α) :
    let t := smSet (smSet m n x) (n + 1) y
    smGet d t n = x ∧ smGet d t (n + 1) = y ∧ ∀ i, i ≠ n → i ≠ n + 1 → smGet d t i = smGet d m i := by
  refine ⟨?_, smGet_smSet_self .., fun i hn hn1 => ?_⟩
  · rw [smGet_smSet_of_ne _ _ _ (Nat.ne_of_lt (Nat.lt_succ_self n)), smGet_smSet_self]
  · rw [smGet_smSet_of_ne _ _ _ hn1, smGet_smSet_of_ne _ _ _ hn]

/-! ## A field taken over from another value -/

theorem getBits_putBits_getBits (x v : BitVec 64) {hi lo : Nat} (hi64 : hi < 64) (hlo : lo ≤ hi) :
    getBits (putBits x hi lo (getBits v hi lo)) hi lo = getBits v hi lo := by
  rw [getBits_putBits_self _ _ hi64 hlo]
  exact Nat.mod_eq_of_lt (getBits_lt v hi lo)

/-- What SEQ_ABORT_CFG keeps of a value written. -/
theorem abortCfgOf_fields (v : BitVec 64) :
    getBits (State.abortCfgOf v) 56 32 = getBits v 56 32 ∧ (State.abortCfgOf v).getLsbD 25 = v.getLsbD 25 ∧
    getBits (State.abortCfgOf v) 12 0 = getBits v 12 0 := by
  unfold State.abortCfgOf
  refine ⟨?_, ?_, getBits_putBits_getBits _ _ (by decide) (by decide)⟩
  · rw [getBits_putBits_apart _ _ _ _ (by decide) (by decide) (by decide),
      getBits_putBits_apart _ _ _ _ (by decide) (by decide) (by decide), getBits_putBits_getBits _ _ (by decide) (by decide)]
  · rw [getLsbD_putBits _ _ _ (by decide) (by decide), if_neg (by decide), getLsbD_putBits_getBits _ _ _ (by decide) (by decide), if_pos (by decide)]

/-- Bit 24 of a value before its low 24 bits, as a number. -/
theorem toNat_pcOf (v : BitVec 64) :
    (v.extractLsb' 24 1 ++ (v.extractLsb' 0 25).extractLsb' 0 24).toNat = 2 ^ 24 * (v.getLsbD 24).toNat + v.toNat % 2 ^ 24 := by
  have hlow : ((v.extractLsb' 0 25).extractLsb' 0 24).toNat = v.toNat % 2 ^ 24 := by
    simp only [BitVec.extractLsb'_toNat, Nat.shiftRight_zero]
    omega
  have hhigh : (v.extractLsb' 24 1).toNat = (v.getLsbD 24).toNat := by
    rw [BitVec.extractLsb'_toNat, BitVec.getLsbD, Nat.toNat_testBit, Nat.shiftRight_eq_div_pow]
  rw [BitVec.toNat_append, hlow, hhigh, ← Nat.shiftLeft_add_eq_or_of_lt (Nat.mod_lt _ (by decide)), Nat.shiftLeft_eq, Nat.mul_comm]

/-- Without bits 13 to 23 the low 24 bits are the low 13. -/
theorem mod_of_getBits_eq_zero {v : BitVec 64} (hzero : getBits v 23 13 = 0) : v.toNat % 2 ^ 24 = v.toNat % 8192 := by
  unfold getBits at hzero
  omega

/-- Settles O22, register by register. -/
theorem sequencerRegisters : Obligations.SequencerRegisters := by
  unfold Obligations.SequencerRegisters
  intro h v off s
  dsimp only
  have hexec : ∀ o : BitVec 12, exec (.seqRegWrite h o v) s = .next (s.seqReg h o.toNat v) := fun _ => rfl
  refine ⟨fun hbusy => ?_, fun hquiet hoff hbit => ?_, fun hquiet hoff hbit hzero => ?_, fun hquiet hoff => ?_, fun hquiet hoff hline => ?_,
    fun n hn hquiet hoff => ?_, fun n hn hquiet hoff => ?_⟩
  · rw [hexec, State.seqReg_busy v hbusy]
  · subst hoff
    refine ⟨_, (hexec _).trans (congrArg _ (State.seqReg_pc v hquiet (.inl hbit))), ?_⟩
    rw [State.setHamper_hamper_self]
    exact ⟨by rw [toNat_pcOf, hbit]; simp, rfl⟩
  · subst hoff
    refine ⟨_, (hexec _).trans (congrArg _ (State.seqReg_pc v hquiet (.inr hzero))), ?_⟩
    rw [State.setHamper_hamper_self]
    rw [toNat_pcOf, hbit, mod_of_getBits_eq_zero hzero, Bool.toNat_true, Nat.mul_one]
  · subst hoff
    refine ⟨_, (hexec _).trans (congrArg _ (State.seqReg_abortCfg v hquiet)), ?_⟩
    obtain ⟨hcomp, hhold, hpc⟩ := abortCfgOf_fields v
    rw [State.setHamper_hamper_self]
    exact ⟨hcomp, hhold, hpc, rfl, rfl⟩
  · subst hoff
    refine ⟨_, (hexec _).trans (congrArg _ (State.seqReg_progBase v hquiet hline)), ?_⟩
    rw [State.setHamper_hamper_self]
    refine ⟨?_, rfl⟩
    rw [BitVec.toNat_ofNat, getBits, Nat.pow_zero, Nat.div_one]
    exact Nat.mod_eq_of_lt ((Nat.mod_lt _ (Nat.two_pow_pos _)).trans (by decide))
  · have hnat : off.toNat = 0x040 + 8 * n := by rw [hoff, BitVec.toNat_ofNat]; omega
    refine ⟨_, (hexec _).trans (congrArg _ (hnat ▸ State.seqReg_scalars v hquiet hn)), ?_⟩
    rw [State.setHamper_hamper_self]
    obtain ⟨hlow, hhigh, hothers⟩ := smGet_smSet_pair 0 (s.hamper h).scalars (2 * n) (v.extractLsb' 0 32) (v.extractLsb' 32 32)
    exact ⟨hlow, hhigh, hothers, rfl⟩
  · have hnat : off.toNat = 0x080 + 8 * n := by rw [hoff, BitVec.toNat_ofNat]; omega
    refine ⟨_, (hexec _).trans (congrArg _ (hnat ▸ State.seqReg_lcs v hquiet hn)), ?_⟩
    rw [State.setHamper_hamper_self]
    obtain ⟨hlow, hhigh, -⟩ := smGet_smSet_pair 0 (s.hamper h).lcs (2 * n) (v.extractLsb' 0 32) (v.extractLsb' 32 32)
    exact ⟨hlow, hhigh, rfl⟩

end Sys2Proof.Machine
end

section
/-! PROOFS. START, STEP and CLEAR (O21). -/

namespace Sys2Proof.Machine

namespace State

variable {s : State} {h : HamperId}

theorem setHamper_hamper_of_ne (s : State) {h g : HamperId} (k : Hamper) (hg : g ≠ h) : (s.setHamper h k).hamper g = s.hamper g :=
  (hamper_setHamper s h g k).trans (if_neg hg)

@[simp] theorem noteRef_hbm (s : State) : s.noteRef.hbm = s.hbm := by
  unfold noteRef
  split
  · rfl
  · rfl

@[simp] theorem beginGrove_hbm (s : State) (g : GroveId) : (s.beginGrove g).hbm = s.hbm := by
  unfold beginGrove
  split
  · rfl
  · rfl

/-- A hamper that START sets off at the Almanac value `alm`. -/
def started (k : Hamper) (alm podSeen : BitVec 64) : Hamper :=
  { clearFront k with state := stRunning, holdBase := alm, holdPos := 0, acted := false, podSeen := podSeen }

/-- START in an idle or stopped hamper without a preload under way. -/
theorem seqStart_taken (hstate : (s.hamper h).state = stIdle ∨ (s.hamper h).state = stStopped) (hpre : (s.hamper h).preload = none) :
    (s.seqStart h).hamper h = started (s.hamper h) s.time.almanac s.time.podDefer ∧ (s.seqStart h).hbm = s.hbm ∧
    ∀ g, g ≠ h → (s.seqStart h).hamper g = s.hamper g := by
  have hcond : (((s.hamper h).state = stIdle || (s.hamper h).state = stStopped) && (s.hamper h).preload.isNone) = true := by
    simpa [hpre] using hstate
  have hgrove := beginGrove_keepsControl s (groveOfHamper h)
  have htaken : s.seqStart h = ((s.beginGrove (groveOfHamper h)).setHamper h
      (started (s.hamper h) (s.beginGrove (groveOfHamper h)).time.almanac (s.beginGrove (groveOfHamper h)).time.podDefer)).noteRef :=
    if_pos hcond
  rw [htaken, hgrove.time]
  refine ⟨?_, by simp, fun g hg => ?_⟩
  · rw [(noteRef_keepsControl _).hamper, setHamper_hamper_self]
  · rw [(noteRef_keepsControl _).hamper, setHamper_hamper_of_ne _ _ hg, hgrove.hamper]

theorem seqStart_refused (hstate : (s.hamper h).preload ≠ none ∨ (s.hamper h).state ≠ stIdle ∧ (s.hamper h).state ≠ stStopped) :
    s.seqStart h = s.seqRefused h := by
  refine if_neg fun hcond => ?_
  simp only [Bool.and_eq_true, Bool.or_eq_true, decide_eq_true_eq, Option.isNone_iff_eq_none] at hcond
  obtain ⟨hrun, hpre⟩ := hcond
  rcases hstate with hsome | ⟨hidle, hstopped⟩
  · exact hsome hpre
  · exact hrun.elim hidle hstopped

/-- STEP in a stopped hamper without a preload under way. -/
theorem seqStep_taken (hstate : (s.hamper h).state = stStopped) (hpre : (s.hamper h).preload = none) :
    s.seqStep h = s.setHamper h { s.hamper h with stepPush := true, stepOne := true } := if_pos (by simp [hstate, hpre])

theorem seqStep_refused (hstate : (s.hamper h).preload ≠ none ∨ (s.hamper h).state ≠ stStopped) : s.seqStep h = s.seqRefused h := by
  refine if_neg fun hcond => ?_
  simp only [Bool.and_eq_true, decide_eq_true_eq, Option.isNone_iff_eq_none] at hcond
  exact hstate.elim (· hcond.2) (· hcond.1)

theorem seqClear_taken (hquiet : (s.hamper h).quiet = true) : s.seqClear h = s.setHamper h (cleared (s.hamper h)) := if_pos hquiet

theorem seqClear_refused (hquiet : (s.hamper h).quiet = false) : s.seqClear h = s.seqRefused h :=
  if_neg (Bool.not_eq_true _ ▸ hquiet)

/-- A command that is refused leaves CMD_REFUSED, and nothing else (R208). -/
theorem seqRefused_effect (s : State) (h : HamperId) :
    (s.seqRefused h).hamper h = { s.hamper h with cmdRefused := true, fresh := ((s.seqRefused h).hamper h).fresh } ∧
    (∀ g, g ≠ h → (s.seqRefused h).hamper g = s.hamper g) ∧
    s.seqRefused h = { s with plane := { s.plane with hampers := (s.seqRefused h).plane.hampers } } := by
  unfold seqRefused
  refine ⟨?_, fun g hg => setHamper_hamper_of_ne _ _ hg, rfl⟩
  rw [setHamper_hamper_self]
  rfl

end State

/-- The states in which a hamper is quiet. -/
theorem Hamper.quiet_iff (k : Hamper) : k.quiet = true ↔ k.state = stIdle ∨ k.state = stStopped ∨ k.state = stDone := by
  simp [quiet, or_assoc]

/-- Settles O21: each command is taken in its states, and refused in the others. -/
theorem sequencerCommands : Obligations.SequencerCommands := by
  unfold Obligations.SequencerCommands
  intro h s
  dsimp only
  refine ⟨fun hstate hpre => ⟨s.seqStart h, rfl, ?_⟩, fun hstate hpre => ⟨s.seqStep h, rfl, ?_⟩,
    fun hstate => ⟨s.seqClear h, rfl, ?_⟩, fun c hc hstart hstep hclear => ?_⟩
  · obtain ⟨hself, hhbm, hothers⟩ := State.seqStart_taken hstate hpre
    rw [hself]
    exact ⟨rfl, rfl, rfl, rfl, rfl, hhbm, hothers⟩
  · rw [State.seqStep_taken hstate hpre, State.setHamper_hamper_self]
    exact ⟨rfl, rfl, hstate, fun g hg => State.setHamper_hamper_of_ne _ _ hg⟩
  · rw [State.seqClear_taken ((Hamper.quiet_iff _).mpr hstate), State.setHamper_hamper_self]
    exact ⟨rfl, rfl, rfl, rfl, rfl, rfl, rfl, rfl, rfl, fun g hg => State.setHamper_hamper_of_ne _ _ hg⟩
  · have hrefused : exec c s = .next (s.seqRefused h) := by
      simp only [List.mem_cons, List.not_mem_nil, or_false] at hc
      rcases hc with rfl | rfl | rfl
      · exact congrArg Host.Outcome.next (State.seqStart_refused (hstart rfl))
      · exact congrArg Host.Outcome.next (State.seqStep_refused (hstep rfl))
      · exact congrArg Host.Outcome.next (State.seqClear_refused (hclear rfl))
    exact ⟨_, hrefused, State.seqRefused_effect s h⟩

end Sys2Proof.Machine
end

section
/-! PROOFS. The instruction cache's commands, and the library store (O23). -/

namespace Sys2Proof.Machine

/-! ## A field of a wide word -/

/-- A bit of a word after a field is stored: the field's bits are those of the number, the others stay. -/
theorem getLsbD_putAt {w : Nat} (d : BitVec w) (lo n v i : Nat) (hi : i < w) :
    (putAt d lo n v).getLsbD i = if lo ≤ i ∧ i < lo + n then v.testBit (i - lo) else d.getLsbD i := by
  simp only [putAt, BitVec.getLsbD_or, BitVec.getLsbD_and, BitVec.getLsbD_not, BitVec.getLsbD_ofNat, Nat.testBit_mul_two_pow,
    Nat.testBit_two_pow_sub_one, Nat.testBit_mod_two_pow, hi, decide_true, Bool.true_and]
  by_cases hlo : lo ≤ i
  · by_cases hn : i < lo + n
    · have : i - lo < n := by omega
      simp [hlo, hn, this]
    · have : ¬ i - lo < n := by omega
      simp [hn, this]
  · simp [hlo]

/-- The 64-bit word just stored. -/
theorem extractLsb'_putAt_self {w : Nat} (d : BitVec w) {lo n : Nat} (v : BitVec n) (hw : lo + n ≤ w) :
    (putAt d lo n v.toNat).extractLsb' lo n = v := by
  refine BitVec.eq_of_getLsbD_eq fun i hi => ?_
  rw [BitVec.getLsbD_extractLsb', getLsbD_putAt _ _ _ _ _ (by omega), if_pos (by omega), Nat.add_sub_cancel_left]
  simp [hi, BitVec.getLsbD]

/-- A field apart from the one stored. -/
theorem extractLsb'_putAt_apart {w : Nat} (d : BitVec w) {lo n : Nat} (v : Nat) {b m : Nat} (hw : b + m ≤ w)
    (hapart : b + m ≤ lo ∨ lo + n ≤ b) : (putAt d lo n v).extractLsb' b m = d.extractLsb' b m := by
  refine BitVec.eq_of_getLsbD_eq fun i hi => ?_
  rw [BitVec.getLsbD_extractLsb', BitVec.getLsbD_extractLsb', getLsbD_putAt _ _ _ _ _ (by omega), if_neg (by omega)]

/-! ## SEQ_IC_PRELOAD -/

theorem toNat_preloadWord (start : BitVec 24) (n : BitVec 7) (lock : Bool) :
    (preloadWord start n lock).toNat = 2 ^ 40 * start.toNat + 2 ^ 24 * n.toNat + 2 * lock.toNat + 1 := by
  have hlock : lock.toNat ≤ 1 := Bool.toNat_le lock
  rw [preloadWord, BitVec.toNat_ofNat, Nat.mod_eq_of_lt (by omega)]

/-- The fields of a value that sets GO. -/
theorem preloadWord_fields (start : BitVec 24) (n : BitVec 7) (lock : Bool) :
    let v := preloadWord start n lock
    getBits v 63 40 = start.toNat ∧ getBits v 30 24 = n.toNat ∧ v.getLsbD 1 = lock ∧ v.getLsbD 0 = true ∧ v.getLsbD 2 = false := by
  have hnat := toNat_preloadWord start n lock
  have hlock : lock.toNat ≤ 1 := Bool.toNat_le lock
  dsimp only
  simp only [getBits, BitVec.getLsbD, Nat.testBit_eq_decide_div_mod_eq, hnat, decide_eq_true_eq, decide_eq_false_iff_not]
  refine ⟨by omega, by omega, ?_, by omega, by omega⟩
  cases lock
  · rw [decide_eq_false_iff_not, Bool.toNat_false]
    omega
  · rw [decide_eq_true_eq, Bool.toNat_true]
    omega

/-- SEQ_IC_PRELOAD after a write of `v`: the fields that it keeps (R216). -/
def icCfgOf (v : BitVec 64) : BitVec 64 :=
  putBits (putBits (putBits 0 63 40 (getBits v 63 40)) 30 24 (getBits v 30 24)) 1 1 (getBits v 1 1)

theorem icCfgOf_fields (v : BitVec 64) :
    getBits (icCfgOf v) 63 40 = getBits v 63 40 ∧ getBits (icCfgOf v) 30 24 = getBits v 30 24 ∧ (icCfgOf v).getLsbD 1 = v.getLsbD 1 := by
  unfold icCfgOf
  refine ⟨?_, ?_, ?_⟩
  · rw [getBits_putBits_apart _ _ _ _ (by decide) (by decide) (by decide),
      getBits_putBits_apart _ _ _ _ (by decide) (by decide) (by decide), getBits_putBits_getBits _ _ (by decide) (by decide)]
  · rw [getBits_putBits_apart _ _ _ _ (by decide) (by decide) (by decide), getBits_putBits_getBits _ _ (by decide) (by decide)]
  · rw [getLsbD_putBits_getBits _ _ _ (by decide) (by decide), if_pos (by decide)]

namespace State

variable {s : State} {h : HamperId}

/-- The state once SEQ_IC_PRELOAD has taken its fields. -/
def icConfigured (s : State) (h : HamperId) (v : BitVec 64) : State := s.setHamper h { s.hamper h with icCfg := icCfgOf v }

theorem icConfigured_hamper (s : State) (h : HamperId) (v : BitVec 64) :
    (s.icConfigured h v).hamper h = { s.hamper h with icCfg := icCfgOf v } := setHamper_hamper_self ..

/-- A write that sets GO preloads with the fields of the value written. -/
theorem icWrite_preloadWord (s : State) (h : HamperId) (start : BitVec 24) (n : BitVec 7) (lock : Bool) :
    s.icWrite h (preloadWord start n lock) = (s.icConfigured h (preloadWord start n lock)).icPreload h start n lock := by
  obtain ⟨hstart, hcount, hlock, hgo, hunlock⟩ := preloadWord_fields start n lock
  have hstart' : (preloadWord start n lock).extractLsb' 40 24 = start := by
    refine BitVec.eq_of_toNat_eq ?_
    rw [BitVec.extractLsb'_toNat, Nat.shiftRight_eq_div_pow]
    exact hstart
  have hcount' : (preloadWord start n lock).extractLsb' 24 7 = n := by
    refine BitVec.eq_of_toNat_eq ?_
    rw [BitVec.extractLsb'_toNat, Nat.shiftRight_eq_div_pow]
    exact hcount
  simp only [icWrite, hunlock, hgo, hstart', hcount', hlock, Bool.false_eq_true, if_false, if_true]
  rfl

/-- GO in a quiet hamper without a preload under way (R193). -/
theorem icPreload_taken (hquiet : (s.hamper h).quiet = true) (hpre : (s.hamper h).preload = none) (start : BitVec 24) (n : BitVec 7)
    (lock : Bool) : s.icPreload h start n lock =
      s.setHamper h { s.hamper h with preload := some ⟨start.extractLsb' 3 21, n.toNat + 1, lock⟩ } := if_pos (by simp [hquiet, hpre])

/-- GO in another hamper is refused (R195). -/
theorem icPreload_refused (hbusy : (s.hamper h).quiet = false ∨ (s.hamper h).preload.isSome = true) (start : BitVec 24) (n : BitVec 7)
    (lock : Bool) : s.icPreload h start n lock =
      s.setHamper h ({ s.hamper h with icFlags := (s.hamper h).icFlags ||| 1 }.noteSet (s.cycle (groveOfHamper h)) 0x0A8 2) := by
  refine if_neg fun hcond => ?_
  rw [Bool.and_eq_true] at hcond
  obtain ⟨hquiet, hnone⟩ := hcond
  rcases hbusy with h | h
  · exact absurd (h.symm.trans hquiet) (by decide)
  · rw [Option.isNone_iff_eq_none] at hnone
    rw [hnone] at h
    exact absurd h (by decide)

end State

/-- A hamper whose quietness and preload are another's. -/
theorem quiet_icConfigured (s : State) (h : HamperId) (v : BitVec 64) :
    ((s.icConfigured h v).hamper h).quiet = (s.hamper h).quiet ∧ ((s.icConfigured h v).hamper h).preload = (s.hamper h).preload := by
  rw [State.icConfigured_hamper]
  exact ⟨by simp only [Hamper.quiet], rfl⟩

/-- Settles O23, command by command. -/
theorem cacheAndLibrary : Obligations.CacheAndLibrary := by
  unfold Obligations.CacheAndLibrary
  intro h start n lock g w k v s
  dsimp only
  obtain ⟨hconfQuiet, hconfPre⟩ := quiet_icConfigured s h (preloadWord start n lock)
  have hpreload : exec (.icPreload h start n lock) s =
      .next ((s.icConfigured h (preloadWord start n lock)).icPreload h start n lock) :=
    congrArg Host.Outcome.next (State.icWrite_preloadWord s h start n lock)
  refine ⟨fun hquiet hpre => ⟨_, hpreload, ?_⟩, fun hbusy => ⟨_, hpreload, ?_⟩, ⟨s.unlockAll h, rfl, ?_⟩,
    fun hquiet => ⟨s.libWrite g w.toNat k.toNat v, rfl, ?_⟩, fun hbusy => ⟨s.libWrite g w.toNat k.toNat v, rfl, ?_⟩⟩
  · obtain ⟨hstart, hcount, hlock⟩ := icCfgOf_fields (preloadWord start n lock)
    obtain ⟨hstart', hcount', hlock', -⟩ := preloadWord_fields start n lock
    rw [State.icPreload_taken (hconfQuiet.trans hquiet) (hconfPre.trans hpre), State.setHamper_hamper_self, State.icConfigured_hamper]
    exact ⟨rfl, rfl, hstart.trans hstart', hcount.trans hcount', hlock.trans hlock'⟩
  · rw [← hconfQuiet, ← hconfPre] at hbusy
    rw [State.icPreload_refused hbusy, State.setHamper_hamper_self]
    refine ⟨?_, hconfPre⟩
    show ((_ : BitVec _) ||| 1).getLsbD 0 = true
    rw [BitVec.getLsbD_or]
    simp
  · rw [State.unlockAll, State.setHamper_hamper_self]
    refine ⟨fun x hx => ?_, ?_⟩
    · obtain ⟨y, -, rfl⟩ := List.mem_map.mp hx
      rfl
    · simp
  · rw [State.libWrite, if_pos hquiet, State.setGrove_grove_self]
    have hk := k.isLt
    refine ⟨?_, fun j hj => ?_, fun i hi => smGet_smSet_of_ne _ _ _ hi, rfl⟩
    · rw [smGet_smSet_self]
      exact extractLsb'_putAt_self _ _ (by omega)
    · have hne : j.toNat ≠ k.toNat := fun h => hj (BitVec.eq_of_toNat_eq h)
      have hlt := j.isLt
      rw [smGet_smSet_self]
      exact extractLsb'_putAt_apart _ _ (by omega) (by omega)
  · rw [State.libWrite, if_neg (Bool.not_eq_true _ ▸ hbusy), State.setGrove_grove_self]
    exact ⟨rfl, rfl⟩

end Sys2Proof.Machine
end

section
/-! PROOFS. A word pushed into the issue queue (R144, R170 to R172). -/

namespace Sys2Proof.Machine

/-! ## The front end before and after the operation of a word -/

/-- The hamper that pushes a word in cycle `now`: no SMAD is under way, and the next word comes a cycle later (R172). -/
def Hamper.pushing (k : Hamper) (now : Nat) : Hamper := { k with smad := none, stepPush := false, pushFrom := now + 1 }

/-- The word names the result of an SMAD of the cycle before (R190). -/
def Hamper.bubble (k : Hamper) (now : Nat) (w : Cw) : Bool :=
  match k.smad with
  | some (d, c) => c + 1 = now && (wordScalars w).contains d
  | none => false

theorem Hamper.bubble_of_none {k : Hamper} (hsmad : k.smad = none) (now : Nat) (w : Cw) : k.bubble now w = false := by
  rw [bubble, hsmad]

theorem Hamper.bubble_of_not_mem {k : Hamper} {now : Nat} {w : Cw} (h : ∀ d c, k.smad = some (d, c) → c + 1 = now → d ∉ wordScalars w) :
    k.bubble now w = false := by
  unfold bubble
  split
  · next d c hsmad => simpa using h d c hsmad
  · rfl

namespace State

/-- The state in which hamper `h` pushes a word. -/
def pushing (s : State) (h : HamperId) : State := s.setHamper h ((s.hamper h).pushing (s.cycle (groveOfHamper h)))

/-- A word at the end of the issue queue. -/
def enqueue (s : State) (h : HamperId) (q : QWord) : State := s.setHamper h { s.hamper h with iq := (s.hamper h).iq ++ [q] }

/-- A checked word, and what its front-end operation makes of the state and of its SEQ field. -/
def pushed (s : State) (h : HamperId) (w : Cw) : State × SeqF :=
  let r := (s.pushing h).checkWord h w ((s.hamper h).asetValue w.agu)
  r.1.pushSeq h (s.hamper h).pc r.2.seq (s.cycle (groveOfHamper h))

variable {s : State} {h : HamperId}

@[simp] theorem pushing_hamper (s : State) (h : HamperId) :
    (s.pushing h).hamper h = (s.hamper h).pushing (s.cycle (groveOfHamper h)) := setHamper_hamper_self ..

@[simp] theorem enqueue_hamper (s : State) (h : HamperId) (q : QWord) :
    (s.enqueue h q).hamper h = { s.hamper h with iq := (s.hamper h).iq ++ [q] } := setHamper_hamper_self ..

/-- What stands in the issue queue for a word (R144, R171). -/
def pushedWord (s : State) (h : HamperId) (w : Cw) : QWord :=
  let k := s.hamper h
  let r := (s.pushing h).checkWord h w (k.asetValue w.agu)
  { word := encodeCw { r.2 with seq := (s.pushed h w).2 }, pushed := s.cycle (groveOfHamper h)
    scalar := (r.1.hamper h).carried r.2.seq, aset := k.asetValue w.agu, pc := k.pc, alm := s.time.almanac, tick := s.time.ticks }

theorem pushWord_eq (s : State) (h : HamperId) (raw : BitVec 256) : s.pushWord h raw =
    if (s.hamper h).bubble (s.cycle (groveOfHamper h)) (decodeCw raw) then s
    else (s.pushed h (decodeCw raw)).1.enqueue h (s.pushedWord h (decodeCw raw)) := by
  unfold pushWord Hamper.bubble
  rfl

/-- A word without reserved encodings stands in the queue as it was, but for its SEQ field. -/
theorem pushedWord_word {w : Cw} (hres : reservedFields w ((s.hamper h).asetValue w.agu) = []) :
    (s.pushedWord h w).word = encodeCw { w with seq := (s.pushed h w).2 } := by
  rw [pushedWord, checkWord_ok _ _ _ _ hres]

/-- A word without reserved encodings goes to its front-end operation as it is. -/
theorem pushed_of_clean {w : Cw} (hres : reservedFields w ((s.hamper h).asetValue w.agu) = []) :
    s.pushed h w = (s.pushing h).pushSeq h (s.hamper h).pc w.seq (s.cycle (groveOfHamper h)) := by
  rw [pushed, checkWord_ok _ _ _ _ hres]

/-- A word with a SEQ field alone holds a reserved encoding where that field does. -/
theorem reservedFields_seq {f : SeqF} (hres : seqReserved f = false) (sv : BitVec 16) : reservedFields { seq := f } sv = [] := by
  rw [reservedFields, hres]
  rfl

/-- A SEQ field alone is pushed as what its operation makes of it. -/
theorem pushField_eq {f : SeqF} (hmay : s.mayPush h = true)
    (hbubble : (s.hamper h).bubble (s.cycle (groveOfHamper h)) { seq := f } = false) (hres : seqReserved f = false) :
    s.pushField h f = ((s.pushing h).pushSeq h (s.hamper h).pc f (s.cycle (groveOfHamper h))).1.enqueue h
      (s.pushedWord h { seq := f }) := by
  rw [pushField, if_pos hmay, pushWord_eq, decodeCw_encodeCw, hbubble, pushed_of_clean (reservedFields_seq hres _)]
  rfl

/-- It stands last in the queue, behind the words that its operation leaves there. -/
theorem pushedWord_seq {f : SeqF} (hres : seqReserved f = false) : (s.pushedWord h { seq := f }).word =
    encodeCw { seq := ((s.pushing h).pushSeq h (s.hamper h).pc f (s.cycle (groveOfHamper h))).2 } := by
  rw [pushedWord_word (reservedFields_seq hres _), pushed_of_clean (reservedFields_seq hres _)]

end State

/-! ## Operations that leave the flow of words -/

namespace Hamper

/-- A loop at the current call depth has its last word at `a`. -/
def EndsAt (k : Hamper) (a : BitVec 25) (l : Loop) : Prop := l.depth = k.calls.length ∧ l.last = a

/-- Where no loop ends, the next word follows. -/
theorem advance_of_no_end {k : Hamper} {a : BitVec 25} (hend : ∀ l ∈ k.loops.head?, ¬ k.EndsAt a l) :
    k.advance a = { k with pc := nextPc a } := by
  have hnext : loopNext a k.calls.length k.loops = (nextPc a, k.loops) := by
    cases hloops : k.loops with
    | nil => rfl
    | cons l ls =>
      have hl : ¬ (l.depth = k.calls.length ∧ l.last = a) := hend l (by rw [hloops]; rfl)
      rw [loopNext, if_neg (by simpa using hl)]
  rw [advance, hnext]

end Hamper

namespace State

variable {s : State} {h : HamperId}

/-- The SEQ operations that change the flow of words or stop it. -/
def flowOps : List (BitVec 6) := [0x11, 0x1A, 0x1C, 0x1D, 0x3E]

/-- No loop is discarded by a word in which none ends (R183). -/
theorem dropLoops_of_no_end {a : BitVec 25} (f : SeqF) (hend : ∀ l ∈ (s.hamper h).loops, ¬ (s.hamper h).EndsAt a l) :
    s.dropLoops h a f = s := by
  refine if_neg fun hcond => ?_
  rw [Bool.and_eq_true, List.any_eq_true] at hcond
  obtain ⟨-, l, hl, hends⟩ := hcond
  exact hend l hl (by simpa [Hamper.EndsAt] using hends)

/-- Nor by a word without a flow operation. -/
theorem dropLoops_of_op {a : BitVec 25} {f : SeqF} (hop : f.op ∉ flowOps) : s.dropLoops h a f = s := by
  refine if_neg fun hcond => ?_
  simp only [Bool.and_eq_true, Bool.or_eq_true, decide_eq_true_eq] at hcond
  obtain ⟨(hcall | hcall) | hcall, -⟩ := hcond
  · exact hop (hcall ▸ by decide)
  · exact hop (hcall ▸ by decide)
  · exact hop (hcall ▸ by decide)

theorem pushSeq_plain {a : BitVec 25} {f : SeqF} (hop : f.op ∉ flowOps) (now : Nat) :
    s.pushSeq h a f now = (s.setHamper h (((s.hamper h).scalarOp f now).advance a), f) := by
  have hne : ∀ n ∈ flowOps, f.op.toNat ≠ n.toNat := fun n hn heq => hop (BitVec.eq_of_toNat_eq heq ▸ hn)
  rw [pushSeq, dropLoops_of_op hop]
  dsimp only
  split
  · next h => exact absurd h (hne 0x1A (by decide))
  · next h => exact absurd h (hne 0x1C (by decide))
  · next h => exact absurd h (hne 0x1D (by decide))
  · next h => exact absurd h (hne 0x11 (by decide))
  · next h => exact absurd h (hne 0x3E (by decide))
  · rfl

end State

/-! ## A scalar operation -/

/-- What a scalar operation of `k` gives: scalar `d` becomes `v`, and SOVF is set where `ovf` holds. -/
structure Hamper.ScalarStep (k k' : Hamper) (d : BitVec 4) (v : BitVec 32) (ovf : Bool) : Prop where
  value : k'.scalar d = v
  others : ∀ n, n ≠ d → k'.scalar n = k.scalar n
  fault : k'.fault = if ovf then k.fault ||| 0x80 else k.fault
  lcs : k'.lcs = k.lcs
  loops : k'.loops = k.loops
  calls : k'.calls = k.calls
  iq : k'.iq = k.iq

namespace Hamper

variable (k : Hamper) (now : Nat)

@[simp] theorem scalar_pushing (n : BitVec 4) : (k.pushing now).scalar n = k.scalar n := rfl

theorem scalar_setScalar (k : Hamper) (d n : BitVec 4) (v : BitVec 32) : (k.setScalar d v).scalar n = if n = d then v else k.scalar n := by
  simp only [scalar, setScalar, smGet_smSet, BitVec.toNat_inj]

theorem scalarStep_setScalar (d : BitVec 4) (v : BitVec 32) : ScalarStep k ((k.pushing now).setScalar d v) d v false :=
  ⟨by rw [scalar_setScalar, if_pos rfl], fun n hn => by rw [scalar_setScalar, if_neg hn]; rfl, rfl, rfl, rfl, rfl, rfl⟩

/-- An exact result is taken modulo 2^32 (R175). -/
theorem scalarStep_setExact (d : BitVec 4) (v : Int) :
    ScalarStep k ((k.pushing now).setExact now d v) d (BitVec.ofInt 32 v) (!(decide (0 ≤ v) && decide (v < 2 ^ 32))) := by
  unfold setExact
  dsimp only
  cases hfits : (decide (0 ≤ v) && decide (v < 2 ^ 32))
  · exact ⟨by rw [scalar_setScalar, if_pos rfl], fun n hn => by rw [scalar_setScalar, if_neg hn]; rfl, rfl, rfl, rfl, rfl, rfl⟩
  · exact scalarStep_setScalar k now d _

variable {k}

theorem ScalarStep.of_eq {k' : Hamper} {d : BitVec 4} {v w : BitVec 32} {o p : Bool} (hstep : ScalarStep k k' d v o) (hv : v = w)
    (ho : o = p) : ScalarStep k k' d w p := hv ▸ ho ▸ hstep

end Hamper

end Sys2Proof.Machine
end

section
/-! PROOFS. The scalar operations of the front end (O17, O18). -/

namespace Sys2Proof.Machine

open Sys2Proof.Claims

namespace State

variable {s : State} {h : HamperId} {f : SeqF}

/-- A word that may be pushed waits for no SMAD. -/
theorem bubble_of_mayPush (hmay : MayPush s h f) : (s.hamper h).bubble (s.cycle (groveOfHamper h)) { seq := f } = false :=
  Hamper.bubble_of_not_mem hmay.2.1

/-- A word that may be pushed and leaves the flow: its operation takes effect, the PC moves on, and the word stands last in the
queue. -/
theorem pushField_plain (hmay : MayPush s h f) (hop : f.op ∉ flowOps) (hres : seqReserved f = false)
    (hloops : (((s.hamper h).pushing (s.cycle (groveOfHamper h))).scalarOp f (s.cycle (groveOfHamper h))).loops = (s.hamper h).loops)
    (hcalls : (((s.hamper h).pushing (s.cycle (groveOfHamper h))).scalarOp f (s.cycle (groveOfHamper h))).calls = (s.hamper h).calls) :
    s.pushField h f = ((s.pushing h).setHamper h
      { ((s.hamper h).pushing (s.cycle (groveOfHamper h))).scalarOp f (s.cycle (groveOfHamper h)) with
        pc := nextPc (s.hamper h).pc }).enqueue h (s.pushedWord h { seq := f }) ∧
    (s.pushedWord h { seq := f }).word = encodeCw { seq := f } := by
  have hnoEnd : ∀ l ∈ (((s.hamper h).pushing (s.cycle (groveOfHamper h))).scalarOp f (s.cycle (groveOfHamper h))).loops.head?,
      ¬ (((s.hamper h).pushing (s.cycle (groveOfHamper h))).scalarOp f (s.cycle (groveOfHamper h))).EndsAt (s.hamper h).pc l :=
    fun l hl hends => hmay.2.2 l (hloops ▸ List.mem_of_mem_head? hl) (by rw [Hamper.EndsAt, hcalls] at hends; exact hends)
  have hseq := pushSeq_plain (s := s.pushing h) (h := h) (a := (s.hamper h).pc) hop (s.cycle (groveOfHamper h))
  rw [pushing_hamper, Hamper.advance_of_no_end hnoEnd] at hseq
  rw [pushField_eq hmay.1 (bubble_of_mayPush hmay) hres, pushedWord_seq hres, hseq]
  exact ⟨rfl, rfl⟩

end State

/-- A row whose operation is a scalar step of every hamper does what `ScalarOp` says. -/
theorem scalarOp_of_step {i : Instr} {h : HamperId} {op : BitVec 6} {arg : BitVec 18} {d : BitVec 4} {v : Hamper → BitVec 32} {ovf : Hamper → Bool}
    (hexec : ∀ s, exec i s = .next (s.pushField h ⟨op, arg⟩)) (hop : op ∉ State.flowOps) (hres : seqReserved ⟨op, arg⟩ = false)
    (hstep : ∀ k now, Hamper.ScalarStep k ((k.pushing now).scalarOp ⟨op, arg⟩ now) d (v k) (ovf k)) : ScalarOp i h ⟨op, arg⟩ d v ovf := by
  intro s hmay
  obtain ⟨hvalue, hothers, hfault, hlcs, hloops, hcalls, hiq⟩ := hstep (s.hamper h) (s.cycle (groveOfHamper h))
  obtain ⟨hpush, hword⟩ := State.pushField_plain hmay hop hres hloops hcalls
  refine ⟨_, hexec s, ?_⟩
  rw [hpush, PushedWord, State.enqueue_hamper, State.setHamper_hamper_self]
  exact ⟨⟨_, congrArg (· ++ _) hiq, hword, rfl, rfl⟩, hvalue, hothers, hfault, rfl, hlcs, hloops, hcalls,
    fun g hg => by simp only [State.enqueue, State.pushing, State.setHamper_hamper_of_ne _ _ hg], rfl, rfl, rfl⟩

/-! ## Operand bits that an operation leaves unused -/

/-- Two joined words share no bit with a mask where neither does with its part of it. -/
theorem append_and_eq_zero {m n : Nat} {x p : BitVec m} {y q : BitVec n} (hx : x &&& p = 0#m) (hy : y &&& q = 0#n) :
    (x ++ y) &&& (p ++ q) = 0#(m + n) := by
  rw [BitVec.and_append, hx, hy, BitVec.zero_append_zero]

/-- Zeros in the low bits of an operand. -/
theorem append_zero_and {m n : Nat} (x : BitVec m) (q : BitVec n) : (x ++ 0#n) &&& (0#m ++ q) = 0#(m + n) :=
  append_and_eq_zero BitVec.and_zero BitVec.zero_and

/-- A SEQ operation whose unused operand bits are 0 is a reserved encoding only as LOOP with BODY 0 (R174, R179). -/
theorem seqReserved_eq {op : BitVec 6} {arg m : BitVec 18} (hmask : seqUnused op = some m) (hzero : arg &&& m = 0) :
    seqReserved ⟨op, arg⟩ = (decide (op = 0x1A) && decide (arg.extractLsb' 0 14 = 0)) := by
  simp [seqReserved, hmask, hzero]

theorem seqReserved_of_mask {op : BitVec 6} {arg m : BitVec 18} (hmask : seqUnused op = some m) (hzero : arg &&& m = 0)
    (hop : op ≠ 0x1A) : seqReserved ⟨op, arg⟩ = false := by
  rw [seqReserved_eq hmask hzero, decide_eq_false hop, Bool.false_and]

/-- An operation that uses every operand bit. -/
theorem seqReserved_of_full {op : BitVec 6} (hmask : seqUnused op = some 0) (hop : op ≠ 0x1A) (arg : BitVec 18) :
    seqReserved ⟨op, arg⟩ = false := seqReserved_of_mask hmask BitVec.and_zero hop

/-! ## The operations -/

namespace Hamper

section
variable (k : Hamper) (now : Nat) (d a b c : BitVec 4)

theorem scalarOp_sli (imm : BitVec 14) : k.scalarOp ⟨0x01, d ++ imm⟩ now = k.setScalar d (imm.zeroExtend 32) := by
  simp [scalarOp, SeqF.d]

theorem scalarOp_slis (imm : BitVec 14) :
    k.scalarOp ⟨0x02, d ++ imm⟩ now = k.setExact now d ((k.scalar d).toNat * 2 ^ 14 + imm.toNat : Nat) := by
  simp [scalarOp, SeqF.d]

theorem scalarOp_smov : k.scalarOp ⟨0x03, d ++ a ++ 0#10⟩ now = k.setScalar d (k.scalar a) := by
  simp [scalarOp, SeqF.d, SeqF.a]

theorem scalarOp_sadd : k.scalarOp ⟨0x04, d ++ a ++ b ++ 0#6⟩ now =
    k.setExact now d ((k.scalar a).toNat + (k.scalar b).toNat) := by
  simp [scalarOp, SeqF.d, SeqF.a, SeqF.b]

theorem scalarOp_ssub : k.scalarOp ⟨0x05, d ++ a ++ b ++ 0#6⟩ now =
    k.setExact now d ((k.scalar a).toNat - (k.scalar b).toNat) := by
  simp [scalarOp, SeqF.d, SeqF.a, SeqF.b]

theorem scalarOp_smad : k.scalarOp ⟨0x06, d ++ a ++ b ++ c ++ 0#2⟩ now =
    { k.setExact now d ((k.scalar a).toNat * (k.scalar b).toNat + (k.scalar c).toNat) with smad := some (d, now) } := by
  simp [scalarOp, SeqF.d, SeqF.a, SeqF.b, SeqF.c]

theorem scalarOp_saddi (imm : BitVec 10) :
    k.scalarOp ⟨0x07, d ++ a ++ imm⟩ now = k.setExact now d ((k.scalar a).toNat + imm.toInt) := by
  simp [scalarOp, SeqF.d, SeqF.a]

theorem scalarOp_sshl (sh : BitVec 5) :
    k.scalarOp ⟨0x08, d ++ a ++ sh ++ 0#5⟩ now = k.setScalar d (k.scalar a <<< sh.toNat) := by
  simp [scalarOp, SeqF.d, SeqF.a]

theorem scalarOp_sshr (sh : BitVec 5) :
    k.scalarOp ⟨0x09, d ++ a ++ sh ++ 0#5⟩ now = k.setScalar d (k.scalar a >>> sh.toNat) := by
  simp [scalarOp, SeqF.d, SeqF.a]

theorem scalarOp_smin : k.scalarOp ⟨0x0A, d ++ a ++ b ++ 0#6⟩ now =
    k.setScalar d (if k.scalar a ≤ k.scalar b then k.scalar a else k.scalar b) := by
  simp [scalarOp, SeqF.d, SeqF.a, SeqF.b]

theorem scalarOp_smax : k.scalarOp ⟨0x0B, d ++ a ++ b ++ 0#6⟩ now =
    k.setScalar d (if k.scalar a ≤ k.scalar b then k.scalar b else k.scalar a) := by
  simp [scalarOp, SeqF.d, SeqF.a, SeqF.b]

theorem scalarOp_sgetp (idx : BitVec 6) : k.scalarOp ⟨0x10, d ++ 0#8 ++ idx⟩ now =
    k.setScalar d (smGet 0 k.params (64 * k.paramAct.toNat + idx.toNat)) := by
  simp [scalarOp, SeqF.d]

theorem scalarOp_sgetli (n : BitVec 2) : k.scalarOp ⟨0x12, d ++ 0#12 ++ n⟩ now =
    k.setScalar d (match k.loops.find? fun l => l.k = n with | some l => BitVec.ofNat 32 l.index | none => 0) := by
  simp [scalarOp, SeqF.d] <;> rfl

theorem scalarOp_setlc (n : BitVec 2) (imm : BitVec 16) : k.scalarOp ⟨0x18, n ++ imm⟩ now = k.setLc n (imm.zeroExtend 32) := by
  simp [scalarOp, SeqF.k]

theorem scalarOp_setlcr (n : BitVec 2) : k.scalarOp ⟨0x19, n ++ 0#2 ++ a ++ 0#10⟩ now = k.setLc n (k.scalar a) := by
  simp [scalarOp, SeqF.k, SeqF.a]

end

/-! ## Values and SOVF -/

/-- A result that is a number fits where it lies below 2^32. -/
theorem scalarStep_setExact_nat (k : Hamper) (now : Nat) (d : BitVec 4) {v : Int} (n : Nat) (hv : v = n) :
    ScalarStep k ((k.pushing now).setExact now d v) d (BitVec.ofNat 32 n) (decide (2 ^ 32 ≤ n)) := by
  subst hv
  refine (scalarStep_setExact k now d n).of_eq (BitVec.ofInt_natCast 32 n) ?_
  simp only [Int.natCast_nonneg, decide_true, Bool.true_and, ← decide_not, decide_eq_decide]
  omega

/-- SMAD keeps its destination for the word after it (R190). -/
theorem ScalarStep.smad {k k' : Hamper} {d : BitVec 4} {v : BitVec 32} {o : Bool} (h : ScalarStep k k' d v o)
    (x : Option (BitVec 4 × Nat)) : ScalarStep k { k' with smad := x } d v o :=
  ⟨h.value, h.others, h.fault, h.lcs, h.loops, h.calls, h.iq⟩

end Hamper

/-- A scalar shifted by 14 bits with an immediate in the bits that it leaves, and where that drops a 1 bit. -/
theorem shifted_or (x : BitVec 32) (imm : BitVec 14) :
    BitVec.ofNat 32 (x.toNat * 2 ^ 14 + imm.toNat) = x <<< 14 ||| imm.zeroExtend 32 := by
  refine BitVec.eq_of_toNat_eq ?_
  have himm := imm.isLt
  rw [BitVec.toNat_or, BitVec.toNat_shiftLeft, BitVec.toNat_ofNat, BitVec.toNat_setWidth_of_le (by decide),
    ← Nat.shiftLeft_eq, Nat.shiftLeft_add_eq_or_of_lt himm, Nat.or_mod_two_pow, Nat.mod_eq_of_lt (a := imm.toNat) (by omega)]

/-- A number fits in 32 bits but where it lies below 0 or from 2^32 on. -/
theorem not_fits_iff (x : Int) : (!(decide (0 ≤ x) && decide (x < 2 ^ 32))) = (decide (x < 0) || decide ((2 ^ 32 : Int) ≤ x)) := by
  simp only [Bool.not_and, ← decide_not, Int.not_le, Int.not_lt]

theorem ofInt_sub_toNat (x y : BitVec 32) : BitVec.ofInt 32 ((x.toNat : Int) - y.toNat) = x - y := by
  rw [Int.sub_eq_add_neg, BitVec.ofInt_add, BitVec.ofInt_neg, BitVec.ofInt_natCast, BitVec.ofInt_natCast, BitVec.ofNat_toNat,
    BitVec.ofNat_toNat, BitVec.setWidth_eq, BitVec.setWidth_eq, BitVec.sub_eq_add_neg]

theorem ofInt_add_toInt (x : BitVec 32) (i : BitVec 10) : BitVec.ofInt 32 (x.toNat + i.toInt) = x + i.signExtend 32 := by
  rw [BitVec.ofInt_add, BitVec.ofInt_natCast, BitVec.ofNat_toNat, BitVec.setWidth_eq]
  rfl

/-- Settles O17: each row pushes its word, and its value and SOVF are those of the exact result. -/
theorem scalarArithmetic : Obligations.ScalarArithmetic := by
  unfold Obligations.ScalarArithmetic
  intro h d a b c imm i10
  dsimp only
  refine ⟨fun s hmay => ?_, ?_, ?_, ?_, ?_, ?_, ?_, ?_⟩
  · obtain ⟨hpush, hword⟩ := State.pushField_plain hmay (by decide) (by decide) rfl rfl
    refine ⟨_, rfl, ?_⟩
    rw [hpush, PushedWord, State.enqueue_hamper, State.setHamper_hamper_self]
    exact ⟨⟨_, rfl, hword, rfl, rfl⟩, rfl, rfl, rfl, rfl⟩
  · refine scalarOp_of_step (fun _ => rfl) (by decide) (seqReserved_of_full rfl (by decide) _) fun k now => ?_
    rw [Hamper.scalarOp_sli]
    exact Hamper.scalarStep_setScalar k now d _
  · refine scalarOp_of_step (fun _ => rfl) (by decide) (seqReserved_of_full rfl (by decide) _) fun k now => ?_
    have himm := imm.isLt
    rw [Hamper.scalarOp_slis]
    refine (Hamper.scalarStep_setExact_nat k now d _ rfl).of_eq (shifted_or _ imm) (decide_eq_decide.mpr ?_)
    rw [Hamper.scalar_pushing]
    omega
  · refine scalarOp_of_step (fun _ => rfl) (by decide) (seqReserved_of_mask rfl (append_zero_and _ 0x3FF#10) (by decide)) fun k now => ?_
    rw [Hamper.scalarOp_smov]
    exact Hamper.scalarStep_setScalar k now d _
  · refine scalarOp_of_step (fun _ => rfl) (by decide) (seqReserved_of_mask rfl (append_zero_and _ 0x3F#6) (by decide)) fun k now => ?_
    rw [Hamper.scalarOp_sadd]
    exact (Hamper.scalarStep_setExact_nat k now d _ rfl).of_eq (by simp [BitVec.ofNat_add]) rfl
  · refine scalarOp_of_step (fun _ => rfl) (by decide) (seqReserved_of_mask rfl (append_zero_and _ 0x3F#6) (by decide)) fun k now => ?_
    rw [Hamper.scalarOp_ssub]
    refine (Hamper.scalarStep_setExact k now d _).of_eq (ofInt_sub_toNat _ _) ?_
    have ha := (k.scalar a).isLt
    rw [← Bool.decide_and, ← decide_not, decide_eq_decide, Hamper.scalar_pushing, Hamper.scalar_pushing]
    omega
  · refine scalarOp_of_step (fun _ => rfl) (by decide) (seqReserved_of_mask rfl (append_zero_and _ 3#2) (by decide)) fun k now => ?_
    rw [Hamper.scalarOp_smad]
    exact ((Hamper.scalarStep_setExact_nat k now d ((k.scalar a).toNat * (k.scalar b).toNat + (k.scalar c).toNat) rfl).of_eq
      (by simp [BitVec.ofNat_add, BitVec.ofNat_mul]) rfl).smad _
  · refine scalarOp_of_step (fun _ => rfl) (by decide) (seqReserved_of_full rfl (by decide) _) fun k now => ?_
    rw [Hamper.scalarOp_saddi]
    refine (Hamper.scalarStep_setExact k now d _).of_eq (ofInt_add_toInt _ i10) ?_
    exact not_fits_iff _

/-! ## Moves and counters -/

/-- The lower of two scalars, and the higher, as numbers. -/
theorem ofNat_min (x y : BitVec 32) : (if x ≤ y then x else y) = BitVec.ofNat 32 (min x.toNat y.toNat) := by
  split
  · next hle => rw [Nat.min_eq_left hle, BitVec.ofNat_toNat, BitVec.setWidth_eq]
  · next hle => rw [Nat.min_eq_right (Nat.le_of_not_le hle), BitVec.ofNat_toNat, BitVec.setWidth_eq]

theorem ofNat_max (x y : BitVec 32) : (if x ≤ y then y else x) = BitVec.ofNat 32 (max x.toNat y.toNat) := by
  split
  · next hle => rw [Nat.max_eq_right hle, BitVec.ofNat_toNat, BitVec.setWidth_eq]
  · next hle => rw [Nat.max_eq_left (Nat.le_of_not_le hle), BitVec.ofNat_toNat, BitVec.setWidth_eq]

theorem lc_setLc (k : Hamper) (d n : BitVec 2) (v : BitVec 32) : (k.setLc d v).lc n = if n = d then v else k.lc n := by
  simp only [Hamper.lc, Hamper.setLc, smGet_smSet, BitVec.toNat_inj]

/-- A row whose operation sets a loop counter. -/
theorem pushes_setLc {s : State} {h : HamperId} {op : BitVec 6} {arg : BitVec 18} {n : BitVec 2} {v : BitVec 32}
    (hmay : MayPush s h ⟨op, arg⟩) (hop : op ∉ State.flowOps) (hres : seqReserved ⟨op, arg⟩ = false)
    (hset : ∀ now, ((s.hamper h).pushing now).scalarOp ⟨op, arg⟩ now = ((s.hamper h).pushing now).setLc n v) :
    let t := s.pushField h ⟨op, arg⟩
    PushedWord s t h ⟨op, arg⟩ ∧ (t.hamper h).lc n = v ∧ (∀ m, m ≠ n → (t.hamper h).lc m = (s.hamper h).lc m) ∧
      (t.hamper h).scalars = (s.hamper h).scalars := by
  obtain ⟨hpush, hword⟩ := State.pushField_plain hmay hop hres (by rw [hset]; rfl) (by rw [hset]; rfl)
  dsimp only
  rw [hpush, PushedWord, State.enqueue_hamper, State.setHamper_hamper_self, hset]
  exact ⟨⟨_, rfl, hword, rfl, rfl⟩, (lc_setLc ..).trans (if_pos rfl), fun m hm => (lc_setLc ..).trans (if_neg hm), rfl⟩

/-- Settles O18: each row pushes its word, and its operation sets the scalar or the counter that it names. -/
theorem scalarMovesAndCounters : Obligations.ScalarMovesAndCounters := by
  unfold Obligations.ScalarMovesAndCounters
  intro h d a b sh idx k imm
  refine ⟨?_, ?_, ?_, ?_, ?_, ?_, fun s hmay => ⟨_, rfl, ?_⟩, fun s hmay => ⟨_, rfl, ?_⟩⟩
  · refine scalarOp_of_step (fun _ => rfl) (by decide) (seqReserved_of_mask rfl (append_zero_and _ 0x1F#5) (by decide)) fun r now => ?_
    rw [Hamper.scalarOp_sshl]
    exact Hamper.scalarStep_setScalar r now d _
  · refine scalarOp_of_step (fun _ => rfl) (by decide) (seqReserved_of_mask rfl (append_zero_and _ 0x1F#5) (by decide)) fun r now => ?_
    rw [Hamper.scalarOp_sshr]
    exact Hamper.scalarStep_setScalar r now d _
  · refine scalarOp_of_step (fun _ => rfl) (by decide) (seqReserved_of_mask rfl (append_zero_and _ 0x3F#6) (by decide)) fun r now => ?_
    rw [Hamper.scalarOp_smin, ofNat_min]
    exact Hamper.scalarStep_setScalar r now d _
  · refine scalarOp_of_step (fun _ => rfl) (by decide) (seqReserved_of_mask rfl (append_zero_and _ 0x3F#6) (by decide)) fun r now => ?_
    rw [Hamper.scalarOp_smax, ofNat_max]
    exact Hamper.scalarStep_setScalar r now d _
  · have hzero : (d ++ 0#8 ++ idx) &&& ((0#4 ++ 0xFF#8) ++ 0#6) = 0#18 :=
      append_and_eq_zero (append_zero_and d 0xFF#8) BitVec.and_zero
    refine scalarOp_of_step (fun _ => rfl) (by decide) (seqReserved_of_mask rfl hzero (by decide)) fun r now => ?_
    rw [Hamper.scalarOp_sgetp]
    refine (Hamper.scalarStep_setScalar r now d _).of_eq (congrArg (fun i => smGet 0 r.params (i + idx.toNat)) ?_) rfl
    show 64 * r.paramAct.toNat = _
    cases r.paramAct
    · rfl
    · rfl
  · have hzero : (d ++ 0#12 ++ k) &&& ((0#4 ++ 0xFFF#12) ++ 0#2) = 0#18 :=
      append_and_eq_zero (append_zero_and d 0xFFF#12) BitVec.and_zero
    refine scalarOp_of_step (fun _ => rfl) (by decide) (seqReserved_of_mask rfl hzero (by decide)) fun r now => ?_
    rw [Hamper.scalarOp_sgetli]
    exact Hamper.scalarStep_setScalar r now d _
  · exact pushes_setLc hmay (by decide) (seqReserved_of_full rfl (by decide) _) fun now => Hamper.scalarOp_setlc ..
  · have hzero : (k ++ 0#2 ++ a ++ 0#10) &&& ((0#2 ++ 3#2 ++ 0#4) ++ 0x3FF#10) = 0#18 :=
      append_and_eq_zero (append_and_eq_zero (append_zero_and k 3#2) BitVec.and_zero) BitVec.zero_and
    exact pushes_setLc hmay (by decide) (seqReserved_of_mask rfl hzero (by decide)) fun now => Hamper.scalarOp_setlcr ..

end Sys2Proof.Machine
end

section
/-! PROOFS. Loops, calls and returns in the front end (O19). -/

namespace Sys2Proof.Machine

open Sys2Proof.Claims

/-! ## The word after a word (R180) -/

section
variable {a : BitVec 25} {depth : Nat} {l : Loop} {ls : List Loop}

/-- A loop that ends at the word and has passes left begins its next pass. -/
theorem loopNext_again (hends : l.depth = depth ∧ l.last = a) (hpass : l.index + 1 < l.n) :
    loopNext a depth (l :: ls) = (l.first, { l with index := l.index + 1 } :: ls) := by
  simp [loopNext, hends, hpass]

/-- A loop that ends at the word and has no pass left is over. -/
theorem loopNext_over (hends : l.depth = depth ∧ l.last = a) (hpass : l.n ≤ l.index + 1) :
    loopNext a depth (l :: ls) = loopNext a depth ls := by
  simp [loopNext, hends, Nat.not_lt.mpr hpass]

/-- Where no loop ends, the next word follows. -/
theorem loopNext_of_no_end (hends : ∀ y ∈ ls.head?, ¬ (y.depth = depth ∧ y.last = a)) : loopNext a depth ls = (nextPc a, ls) := by
  cases ls with
  | nil => rfl
  | cons y ys => rw [loopNext, if_neg (by simpa using hends y rfl)]

end

namespace State

variable {s : State} {h : HamperId} {f : SeqF}

/-- The issue queue after a word whose operation leads to `t`. -/
theorem pushField_of_pushSeq {t : State} (hmay : s.mayPush h = true)
    (hbubble : (s.hamper h).bubble (s.cycle (groveOfHamper h)) { seq := f } = false) (hres : seqReserved f = false)
    (hseq : (s.pushing h).pushSeq h (s.hamper h).pc f (s.cycle (groveOfHamper h)) = (t, f)) (hiq : (t.hamper h).iq = (s.hamper h).iq) :
    ∃ q, (s.pushField h f).hamper h = { t.hamper h with iq := (t.hamper h).iq ++ [q] } ∧ PushedWord s (s.pushField h f) h f := by
  have hpush := pushField_eq hmay hbubble hres
  rw [hseq] at hpush
  have hhamper : (s.pushField h f).hamper h = { t.hamper h with iq := (t.hamper h).iq ++ [s.pushedWord h { seq := f }] } := by
    rw [hpush, enqueue_hamper]
  refine ⟨_, hhamper, s.pushedWord h { seq := f }, ?_, ?_, rfl, rfl⟩
  · rw [hhamper, ← hiq]
  · rw [pushedWord_seq hres, hseq]

theorem hamperFault_fault_bit (s : State) (h : HamperId) {b : Nat} (hb : b < 64) :
    ((s.hamperFault h b).hamper h).fault.getLsbD b = true := by
  rw [hamper_hamperFault]
  exact setFault_fault_bit _ _ _ hb

/-! ## A word without an operation -/

theorem pushSeq_nop (a : BitVec 25) (now : Nat) : s.pushSeq h a ⟨0, 0⟩ now = (s.setHamper h ((s.hamper h).advance a), ⟨0, 0⟩) := rfl

/-- NOP moves to the word that follows, by the loops that end there. -/
theorem pushField_nop (hmay : s.mayPush h = true) (hsmad : (s.hamper h).smad = none) {pc : BitVec 25} {loops : List Loop}
    (hnext : loopNext (s.hamper h).pc (s.hamper h).calls.length (s.hamper h).loops = (pc, loops)) :
    let t := s.pushField h ⟨0, 0⟩
    (PushedWord s t h ⟨0, 0⟩ ∧ (t.hamper h).pushFrom = s.cycle (groveOfHamper h) + 1 ∧ (t.hamper h).fault = (s.hamper h).fault) ∧
      (t.hamper h).pc = pc ∧ (t.hamper h).loops = loops := by
  have hseq := pushSeq_nop (s := s.pushing h) (h := h) (s.hamper h).pc (s.cycle (groveOfHamper h))
  obtain ⟨q, hhamper, hword⟩ := pushField_of_pushSeq hmay (Hamper.bubble_of_none hsmad _ _) (by decide) hseq
    (by rw [setHamper_hamper_self, pushing_hamper]; rfl)
  rw [setHamper_hamper_self, pushing_hamper] at hhamper
  dsimp only
  refine ⟨⟨hword, by rw [hhamper]; rfl, by rw [hhamper]; rfl⟩, ?_, ?_⟩
  · rw [hhamper]
    exact congrArg Prod.fst hnext
  · rw [hhamper]
    exact congrArg Prod.snd hnext

/-! ## LOOP (R179 to R183) -/

theorem loop_counter (op : BitVec 6) (k : BitVec 2) (body : BitVec 14) : (⟨op, k ++ 0#2 ++ body⟩ : SeqF).k = k := by simp [SeqF.k]

theorem loop_body (k : BitVec 2) (body : BitVec 14) : (k ++ 0#2 ++ body).extractLsb' 0 14 = body := by simp

theorem seqReserved_loop (k : BitVec 2) {body : BitVec 14} (hbody : body ≠ 0) : seqReserved ⟨0x1A, k ++ 0#2 ++ body⟩ = false := by
  have hzero : (k ++ 0#2 ++ body) &&& ((0#2 ++ 3#2) ++ 0#14) = 0#18 := append_and_eq_zero (append_zero_and k 3#2) BitVec.and_zero
  rw [seqReserved_eq rfl hzero, loop_body, decide_eq_false hbody, Bool.and_false]

section
variable {a : BitVec 25} {now : Nat} (k : BitVec 2) (body : BitVec 14)

/-- A LOOP in a word where no loop ends. -/
theorem pushSeq_loop (hend : ∀ l ∈ (s.hamper h).loops, ¬ (s.hamper h).EndsAt a l) :
    s.pushSeq h a ⟨0x1A, k ++ 0#2 ++ body⟩ now =
      (s.pushLoop h a ⟨0x1A, k ++ 0#2 ++ body⟩ now (s.hamper h).loops, ⟨0x1A, k ++ 0#2 ++ body⟩) := by
  rw [pushSeq, dropLoops_of_no_end _ hend]
  rfl

/-- A LOOP whose counter is free, and whose body lies within that of the loop around it. -/
theorem pushLoop_taken (hfree : ∀ l ∈ (s.hamper h).loops, l.k ≠ k)
    (houter : ∀ l ∈ (s.hamper h).loops.head?, l.depth = (s.hamper h).calls.length → l.last.getLsbD 24 = a.getLsbD 24 →
      pcPlus a body.toNat ≤ l.last) :
    s.pushLoop h a ⟨0x1A, k ++ 0#2 ++ body⟩ now (s.hamper h).loops =
      if ((s.hamper h).lc k).toNat = 0 then
        s.setHamper h { (s.hamper h).advance (pcPlus a body.toNat) with pushFrom := now + 2 }
      else
        s.setHamper h { s.hamper h with
          pc := nextPc a
          loops := ⟨k, ((s.hamper h).lc k).toNat, 0, nextPc a, pcPlus a body.toNat, (s.hamper h).calls.length⟩ :: (s.hamper h).loops } := by
  unfold pushLoop
  simp only [loop_counter, loop_body]
  rw [if_neg]
  intro hcond
  rw [Bool.or_eq_true, List.any_eq_true] at hcond
  rcases hcond with ⟨l, hl, hk⟩ | hin
  · exact hfree l hl (of_decide_eq_true hk)
  · cases hloops : (s.hamper h).loops with
    | nil => simp [hloops] at hin
    | cons l ls =>
      simp only [hloops, Bool.and_eq_true, decide_eq_true_eq] at hin
      obtain ⟨⟨hdepth, hspace⟩, hlast⟩ := hin
      exact absurd (houter l (by rw [hloops]; rfl) hdepth hspace) (BitVec.not_le.mpr hlast)

/-- A LOOP whose counter is in use sets BAD_LOOP, and the next word follows (R181). -/
theorem pushLoop_inUse (huse : ∃ l ∈ (s.hamper h).loops, l.k = k) :
    s.pushLoop h a ⟨0x1A, k ++ 0#2 ++ body⟩ now (s.hamper h).loops =
      (s.setHamper h ((s.hamper h).advance a)).hamperFault h sfBadLoop := by
  unfold pushLoop
  simp only [loop_counter, loop_body]
  obtain ⟨l, hl, hk⟩ := huse
  rw [if_pos]
  rw [Bool.or_eq_true, List.any_eq_true]
  exact .inl ⟨l, hl, decide_eq_true hk⟩

end

/-! ## CALL and RET (R184, R185) -/

/-- CALL with room on the call stack. -/
theorem pushCall_taken {a : BitVec 25} {now : Nat} (target : BitVec 13) (hroom : (s.hamper h).calls.length < 4) :
    s.pushCall h a ⟨0x1C, 0#5 ++ target⟩ now = s.setHamper h { s.hamper h with
      calls := nextPc a :: (s.hamper h).calls, pc := BitVec.ofNat 25 (2 ^ 24 + target.toNat), pushFrom := now + 3 } := by
  simp [pushCall, Nat.not_le.mpr hroom]

theorem seqReserved_call (target : BitVec 13) : seqReserved ⟨0x1C, 0#5 ++ target⟩ = false :=
  seqReserved_of_mask rfl (append_and_eq_zero (p := 0x1F#5) (q := 0#13) BitVec.zero_and BitVec.and_zero) (by decide)

/-- A CALL as the last word of one loop's body discards that loop with BAD_LOOP (R183). -/
theorem dropLoops_call {a : BitVec 25} {arg : BitVec 18} {l : Loop} {ls : List Loop} (hloops : (s.hamper h).loops = l :: ls)
    (hends : (s.hamper h).EndsAt a l) (hrest : ∀ y ∈ ls, ¬ (s.hamper h).EndsAt a y) :
    s.dropLoops h a ⟨0x1C, arg⟩ = (s.setHamper h { s.hamper h with loops := ls }).hamperFault h sfBadLoop := by
  have hfilter : (ls.filter fun y => !(decide (y.depth = (s.hamper h).calls.length) && decide (y.last = a))) = ls :=
    List.filter_eq_self.mpr fun y hy => by simpa [Hamper.EndsAt, ← not_and_or] using hrest y hy
  obtain ⟨hdepth, hlast⟩ := hends
  unfold dropLoops
  dsimp only
  rw [hloops, if_pos (by simp [hdepth, hlast]), List.filter_cons_of_neg (by simp [hdepth, hlast]), hfilter]

/-- RET of a call whose loops are over. -/
theorem pushRet_taken {now : Nat} {r : BitVec 25} {rs : List (BitVec 25)} (hcalls : (s.hamper h).calls = r :: rs)
    (hloops : ∀ l ∈ (s.hamper h).loops, l.depth < (s.hamper h).calls.length) :
    ∃ st, s.pushRet h now (s.hamper h).loops = s.setHamper h { s.hamper h with
      calls := rs, pc := r, pushFrom := now + 3, state := st, loops := (s.hamper h).loops } := by
  have hfilter : ((s.hamper h).loops.filter fun l => l.depth < (s.hamper h).calls.length) = (s.hamper h).loops :=
    List.filter_eq_self.mpr fun l hl => decide_eq_true (hloops l hl)
  have hlate : ((s.hamper h).loops.any fun l => (s.hamper h).calls.length ≤ l.depth) = false :=
    List.any_eq_false.mpr fun l hl => by simpa using hloops l hl
  rw [hcalls] at hfilter hlate
  unfold pushRet
  dsimp only
  rw [hcalls]
  dsimp only
  rw [hfilter, hlate]
  exact ⟨_, rfl⟩

end State

/-- A hamper that pushes keeps its loops, so none ends where none did. -/
theorem no_end_pushing {s : State} {h : HamperId} {a : BitVec 25} (hend : ∀ l ∈ (s.hamper h).loops, ¬ (s.hamper h).EndsAt a l) :
    ∀ l ∈ ((s.pushing h).hamper h).loops, ¬ ((s.pushing h).hamper h).EndsAt a l := by
  rw [State.pushing_hamper]
  exact hend

section
variable {s : State} {h : HamperId} (k : BitVec 2) {body : BitVec 14} (target : BitVec 13)

/-- A LOOP with a free counter whose body lies within that of the loop around it (R179 to R181). -/
theorem loop_taken (hmay : MayPush s h ⟨0x1A, k ++ 0#2 ++ body⟩) (hbody : body ≠ 0) (hfree : ∀ l ∈ (s.hamper h).loops, l.k ≠ k)
    (houter : ∀ l ∈ (s.hamper h).loops.head?, l.depth = (s.hamper h).calls.length →
      l.last.getLsbD 24 = (s.hamper h).pc.getLsbD 24 → pcPlus (s.hamper h).pc body.toNat ≤ l.last) :
    let r := s.hamper h
    let last := pcPlus r.pc body.toNat
    ∃ t, exec (.loop h k body) s = .next t ∧ PushedWord s t h ⟨0x1A, k ++ 0#2 ++ body⟩ ∧
      ((r.lc k).toNat ≠ 0 → (t.hamper h).pc = nextPc r.pc ∧
        (t.hamper h).loops = ⟨k, (r.lc k).toNat, 0, nextPc r.pc, last, r.calls.length⟩ :: r.loops) ∧
      ((r.lc k).toNat = 0 → (∀ l ∈ r.loops, ¬ (l.depth = r.calls.length ∧ l.last = last)) →
        (t.hamper h).pc = nextPc last ∧ (t.hamper h).loops = r.loops ∧ (t.hamper h).pushFrom = s.cycle (groveOfHamper h) + 2) := by
  have hseq := State.pushSeq_loop (s := s.pushing h) (now := s.cycle (groveOfHamper h)) k body (no_end_pushing hmay.2.2)
  rw [State.pushing_hamper] at hseq
  have hpush := fun t ht hiq => State.pushField_of_pushSeq (t := t) hmay.1 (State.bubble_of_mayPush hmay)
    (State.seqReserved_loop k hbody) (hseq.trans (congrArg (·, _) ht)) hiq
  have htaken := State.pushLoop_taken (s := s.pushing h) (h := h) (a := (s.hamper h).pc) (now := s.cycle (groveOfHamper h)) k body
    (by rw [State.pushing_hamper]; exact hfree) (by rw [State.pushing_hamper]; exact houter)
  rw [State.pushing_hamper] at htaken
  refine ⟨_, rfl, ?_⟩
  by_cases hn : ((s.hamper h).lc k).toNat = 0
  · obtain ⟨q, hhamper, hword⟩ := hpush _ (htaken.trans (if_pos hn)) (by rw [State.setHamper_hamper_self]; rfl)
    refine ⟨hword, fun hne => absurd hn hne, fun _ hend => ?_⟩
    have hnext := loopNext_of_no_end (a := pcPlus (s.hamper h).pc body.toNat) (depth := (s.hamper h).calls.length)
      (ls := (s.hamper h).loops) fun l hl => hend l (List.mem_of_mem_head? hl)
    rw [hhamper, State.setHamper_hamper_self]
    exact ⟨congrArg Prod.fst hnext, congrArg Prod.snd hnext, rfl⟩
  · obtain ⟨q, hhamper, hword⟩ := hpush _ (htaken.trans (if_neg hn)) (by rw [State.setHamper_hamper_self]; rfl)
    refine ⟨hword, fun _ => ?_, fun heq => absurd heq hn⟩
    rw [hhamper, State.setHamper_hamper_self]
    exact ⟨rfl, rfl⟩

/-- A LOOP whose counter is in use (R181). -/
theorem loop_inUse (hmay : s.mayPush h = true) (hsmad : (s.hamper h).smad = none) (hbody : body ≠ 0)
    (huse : ∃ l ∈ (s.hamper h).loops, l.k = k) (hend : ∀ l ∈ (s.hamper h).loops, ¬ (s.hamper h).EndsAt (s.hamper h).pc l) :
    ∃ t, exec (.loop h k body) s = .next t ∧ PushedWord s t h ⟨0x1A, k ++ 0#2 ++ body⟩ ∧
      (t.hamper h).fault.getLsbD sfBadLoop = true ∧ (t.hamper h).pc = nextPc (s.hamper h).pc ∧
      (t.hamper h).loops = (s.hamper h).loops := by
  have hseq := State.pushSeq_loop (s := s.pushing h) (now := s.cycle (groveOfHamper h)) k body (no_end_pushing hend)
  have hfault := State.pushLoop_inUse (s := s.pushing h) (h := h) (a := (s.hamper h).pc) (now := s.cycle (groveOfHamper h)) k body
    (by rw [State.pushing_hamper]; exact huse)
  have hnext := loopNext_of_no_end (a := (s.hamper h).pc) (depth := (s.hamper h).calls.length)
    (ls := (s.hamper h).loops) fun l hl => hend l (List.mem_of_mem_head? hl)
  obtain ⟨q, hhamper, hword⟩ := State.pushField_of_pushSeq hmay (Hamper.bubble_of_none hsmad _ _) (State.seqReserved_loop k hbody)
    (hseq.trans (congrArg (·, _) hfault))
    (by rw [State.hamper_hamperFault, State.setHamper_hamper_self, State.pushing_hamper]; rfl)
  refine ⟨_, rfl, hword, ?_, ?_⟩
  · rw [hhamper]
    exact State.hamperFault_fault_bit _ h (by decide)
  · rw [hhamper, State.hamper_hamperFault, State.setHamper_hamper_self, State.pushing_hamper]
    exact ⟨congrArg Prod.fst hnext, congrArg Prod.snd hnext⟩

/-- What a CALL leads to, from the state `u` in which the loops that end at its word are discarded. -/
theorem call_from {u : State} (hmay : s.mayPush h = true)
    (hbubble : (s.hamper h).bubble (s.cycle (groveOfHamper h)) { seq := ⟨0x1C, 0#5 ++ target⟩ } = false)
    (hdrop : (s.pushing h).dropLoops h (s.hamper h).pc ⟨0x1C, 0#5 ++ target⟩ = u) (hcalls : (u.hamper h).calls = (s.hamper h).calls)
    (hiq : (u.hamper h).iq = (s.hamper h).iq) (hroom : (s.hamper h).calls.length < 4) :
    ∃ t, exec (.call h target) s = .next t ∧ PushedWord s t h ⟨0x1C, 0#5 ++ target⟩ ∧
      (t.hamper h).calls = nextPc (s.hamper h).pc :: (s.hamper h).calls ∧
      (t.hamper h).pc = BitVec.ofNat 25 (2 ^ 24 + target.toNat) ∧ (t.hamper h).loops = (u.hamper h).loops ∧
      (t.hamper h).pushFrom = s.cycle (groveOfHamper h) + 3 ∧ (t.hamper h).fault = (u.hamper h).fault := by
  have htaken := State.pushCall_taken (s := u) (h := h) (a := (s.hamper h).pc) (now := s.cycle (groveOfHamper h)) target
    (hcalls ▸ hroom)
  have hseq : (s.pushing h).pushSeq h (s.hamper h).pc ⟨0x1C, 0#5 ++ target⟩ (s.cycle (groveOfHamper h)) =
      (u.pushCall h (s.hamper h).pc ⟨0x1C, 0#5 ++ target⟩ (s.cycle (groveOfHamper h)), ⟨0x1C, 0#5 ++ target⟩) := by
    rw [State.pushSeq, hdrop]
    rfl
  obtain ⟨q, hhamper, hword⟩ := State.pushField_of_pushSeq hmay hbubble (State.seqReserved_call target)
    (hseq.trans (congrArg (·, _) htaken)) (by rw [State.setHamper_hamper_self]; exact hiq)
  refine ⟨_, rfl, hword, ?_⟩
  rw [hhamper, State.setHamper_hamper_self]
  exact ⟨congrArg _ hcalls, rfl, rfl, rfl, rfl⟩

/-- RET of a call whose loops are over (R184, R185). -/
theorem ret_taken {a : BitVec 25} {as : List (BitVec 25)} (hmay : MayPush s h ⟨0x1D, 0⟩) (hcalls : (s.hamper h).calls = a :: as)
    (hloops : ∀ l ∈ (s.hamper h).loops, l.depth < (s.hamper h).calls.length) :
    ∃ t, exec (.ret h) s = .next t ∧ PushedWord s t h ⟨0x1D, 0⟩ ∧ (t.hamper h).calls = as ∧ (t.hamper h).pc = a ∧
      (t.hamper h).loops = (s.hamper h).loops ∧ (t.hamper h).pushFrom = s.cycle (groveOfHamper h) + 3 ∧
      (t.hamper h).fault = (s.hamper h).fault := by
  have hcalls' : ((s.pushing h).hamper h).calls = a :: as := by rw [State.pushing_hamper]; exact hcalls
  obtain ⟨st, htaken⟩ := State.pushRet_taken (s := s.pushing h) (now := s.cycle (groveOfHamper h)) hcalls'
    (by rw [State.pushing_hamper]; exact hloops)
  have hseq : (s.pushing h).pushSeq h (s.hamper h).pc ⟨0x1D, 0⟩ (s.cycle (groveOfHamper h)) =
      ((s.pushing h).pushRet h (s.cycle (groveOfHamper h)) ((s.pushing h).hamper h).loops, ⟨0x1D, 0⟩) := by
    rw [State.pushSeq, State.dropLoops_of_no_end _ (no_end_pushing hmay.2.2)]
    show (_, if ((s.pushing h).hamper h).calls.isEmpty then _ else _) = _
    rw [hcalls']
    rfl
  obtain ⟨q, hhamper, hword⟩ := State.pushField_of_pushSeq hmay.1 (State.bubble_of_mayPush hmay) (by decide)
    (hseq.trans (congrArg (·, _) htaken)) (by rw [State.setHamper_hamper_self, State.pushing_hamper]; rfl)
  refine ⟨_, rfl, hword, ?_⟩
  rw [hhamper, State.setHamper_hamper_self, State.pushing_hamper]
  exact ⟨rfl, rfl, rfl, rfl, rfl⟩

end

/-- Settles O19: LOOP, the word after a body's last word, CALL and RET, each by its cases. -/
theorem loopCallReturn : Obligations.LoopCallReturn := by
  unfold Obligations.LoopCallReturn
  intro h k body target s
  dsimp only
  refine ⟨fun hmay hbody hfree houter => loop_taken k hmay hbody hfree houter, ⟨fun l ls hmay hloops hends hpass => ?_,
    fun l ls hmay hloops hends hover hrest => ?_, fun l y ls hmay hloops hends hover hy hpass => ?_,
    fun hmay hbody huse hend => loop_inUse k hmay.1 hmay.2 hbody huse hend, fun l ls hmay hloops hends hrest hroom => ?_⟩,
    fun hmay hroom => ?_, fun a as hmay hcalls hloops => ret_taken hmay hcalls hloops⟩
  · exact ⟨_, rfl, State.pushField_nop hmay.1 hmay.2 (by rw [hloops]; exact loopNext_again hends hpass)⟩
  · exact ⟨_, rfl, State.pushField_nop hmay.1 hmay.2
      (by rw [hloops, loopNext_over hends hover]; exact loopNext_of_no_end hrest)⟩
  · exact ⟨_, rfl, State.pushField_nop hmay.1 hmay.2
      (by rw [hloops, loopNext_over hends hover]; exact loopNext_again hy hpass)⟩
  · have hdrop := State.dropLoops_call (s := s.pushing h) (h := h) (a := (s.hamper h).pc) (arg := 0#5 ++ target) (l := l) (ls := ls)
      (by rw [State.pushing_hamper]; exact hloops) (by rw [State.pushing_hamper]; exact hends)
      (by rw [State.pushing_hamper]; exact hrest)
    obtain ⟨t, hexec, hword, hcalls, -, hkept, -, hfault⟩ := call_from target hmay.1 (Hamper.bubble_of_none hmay.2 _ _) hdrop
      (by rw [State.hamper_hamperFault, State.setHamper_hamper_self, State.pushing_hamper]; rfl)
      (by rw [State.hamper_hamperFault, State.setHamper_hamper_self, State.pushing_hamper]; rfl) hroom
    rw [State.hamper_hamperFault, State.setHamper_hamper_self] at hkept
    exact ⟨t, hexec, hword, by rw [hfault]; exact State.hamperFault_fault_bit _ h (by decide), hkept, hcalls⟩
  · obtain ⟨t, hexec, hword, hcalls, hpc, hkept, hfrom, -⟩ := call_from target hmay.1 (State.bubble_of_mayPush hmay)
      (State.dropLoops_of_no_end _ (no_end_pushing hmay.2.2)) (by rw [State.pushing_hamper]; rfl)
      (by rw [State.pushing_hamper]; rfl) hroom
    rw [State.pushing_hamper] at hkept
    exact ⟨t, hexec, hword, hcalls, hpc, hkept, hfrom⟩

end Sys2Proof.Machine
end

section
/-! PROOFS. WORD_PUSH (R172, R184, R192), and the settling of O20. -/

namespace Sys2Proof.Machine

/-! ## What the push of a word leaves of the issue queue -/

/-- The issue queue and the count of misses are the same. -/
structure Hamper.SameQueue (k k' : Hamper) : Prop where
  iq : k'.iq = k.iq
  icMisses : k'.icMisses = k.icMisses

namespace Hamper.SameQueue

variable {k k' k'' : Hamper}

theorem refl (k : Hamper) : SameQueue k k := ⟨rfl, rfl⟩

theorem trans (a : SameQueue k k') (b : SameQueue k' k'') : SameQueue k k'' := ⟨b.iq.trans a.iq, b.icMisses.trans a.icMisses⟩

theorem setFault (k : Hamper) (cyc b : Nat) : SameQueue k (k.setFault cyc b) := ⟨rfl, rfl⟩

theorem advance (k : Hamper) (a : BitVec 25) : SameQueue k (k.advance a) := ⟨rfl, rfl⟩

theorem setScalar (k : Hamper) (d : BitVec 4) (v : BitVec 32) : SameQueue k (k.setScalar d v) := ⟨rfl, rfl⟩

theorem setLc (k : Hamper) (n : BitVec 2) (v : BitVec 32) : SameQueue k (k.setLc n v) := ⟨rfl, rfl⟩

theorem smad (a : SameQueue k k') (x : Option (BitVec 4 × Nat)) : SameQueue k { k' with smad := x } := ⟨a.iq, a.icMisses⟩

theorem setExact (k : Hamper) (now : Nat) (d : BitVec 4) (v : Int) : SameQueue k (k.setExact now d v) := by
  unfold Hamper.setExact
  dsimp only
  split
  · exact setScalar ..
  · exact (setFault k now sfSovf).trans (setScalar ..)

theorem scalarOp (k : Hamper) (f : SeqF) (now : Nat) : SameQueue k (k.scalarOp f now) := by
  unfold Hamper.scalarOp
  dsimp only
  split
  · exact setScalar ..
  · exact setExact ..
  · exact setScalar ..
  · exact setExact ..
  · exact setExact ..
  · exact (setExact ..).smad _
  · exact setExact ..
  · exact setScalar ..
  · exact setScalar ..
  · exact setScalar ..
  · exact setScalar ..
  · exact setScalar ..
  · exact setScalar ..
  · exact setLc ..
  · exact setLc ..
  · exact refl k

end Hamper.SameQueue

namespace State

/-- Hamper `h` of `t` has the issue queue that it has in `s`. -/
def SameQueue (h : HamperId) (s t : State) : Prop := (s.hamper h).SameQueue (t.hamper h)

variable {s : State} {h : HamperId}

namespace SameQueue

theorem setHamper {k : Hamper} (hk : (s.hamper h).SameQueue k) : SameQueue h s (s.setHamper h k) := by
  rw [SameQueue, setHamper_hamper_self]
  exact hk

theorem hamperFault (s : State) (h : HamperId) (b : Nat) : SameQueue h s (s.hamperFault h b) := by
  rw [SameQueue, hamper_hamperFault]
  exact .setFault _ _ _

theorem trans {t u : State} (a : SameQueue h s t) (b : SameQueue h t u) : SameQueue h s u := Hamper.SameQueue.trans a b

/-- A change of the hamper, and then a fault. -/
theorem setHamper_fault {k : Hamper} (hk : (s.hamper h).SameQueue k) (b : Nat) : SameQueue h s ((s.setHamper h k).hamperFault h b) :=
  (setHamper hk).trans (hamperFault _ h b)

theorem ite {t u : State} {c : Prop} [Decidable c] (ht : SameQueue h s t) (hu : SameQueue h s u) : SameQueue h s (if c then t else u) := by
  split
  · exact ht
  · exact hu

theorem hamperFaultIf (s : State) (h : HamperId) (b : Nat) (e : Bool) : SameQueue h s (s.hamperFaultIf h b e) :=
  ite (hamperFault s h b) (.refl _)

theorem dropLoops (a : BitVec 25) (f : SeqF) : SameQueue h s (s.dropLoops h a f) := by
  unfold State.dropLoops
  refine ite (setHamper_fault ?_ _) (.refl _)
  exact ⟨rfl, rfl⟩

theorem pushLoop (a : BitVec 25) (f : SeqF) (now : Nat) (act : List Loop) : SameQueue h s (s.pushLoop h a f now act) := by
  unfold State.pushLoop
  refine ite (setHamper_fault (.advance _ a) _) (ite (setHamper ?_) (setHamper ?_))
  · exact ⟨rfl, rfl⟩
  · exact ⟨rfl, rfl⟩

theorem pushCall (a : BitVec 25) (f : SeqF) (now : Nat) : SameQueue h s (s.pushCall h a f now) := by
  unfold State.pushCall
  refine ite (setHamper_fault (.advance _ a) _) (setHamper ?_)
  exact ⟨rfl, rfl⟩

theorem pushRet (now : Nat) (act : List Loop) : SameQueue h s (s.pushRet h now act) := by
  unfold State.pushRet
  dsimp only
  split
  · refine setHamper_fault ?_ _
    exact ⟨rfl, rfl⟩
  · refine trans (setHamper ?_) (hamperFaultIf _ h _ _)
    exact ⟨rfl, rfl⟩

theorem pushSeq (a : BitVec 25) (f : SeqF) (now : Nat) : SameQueue h s (s.pushSeq h a f now).1 := by
  refine (dropLoops a f).trans ?_
  unfold State.pushSeq
  dsimp only
  split
  · exact pushLoop a f now _
  · exact pushCall a f now
  · exact pushRet now _
  · exact setHamper ((Hamper.SameQueue.advance _ a).trans ⟨rfl, rfl⟩)
  · exact setHamper ((Hamper.SameQueue.advance _ a).trans ⟨rfl, rfl⟩)
  · exact setHamper ((Hamper.SameQueue.scalarOp _ f now).trans (.advance _ a))

theorem checkWord (w : Cw) (sv : BitVec 16) : SameQueue h s (s.checkWord h w sv).1 := by
  unfold State.checkWord
  split
  · exact .refl _
  · refine setHamper_fault ?_ _
    split
    · exact .refl _
    · exact ⟨rfl, rfl⟩

theorem pushed (w : Cw) : SameQueue h s (s.pushed h w).1 := by
  refine .trans ?_ ((checkWord w ((s.hamper h).asetValue w.agu)).trans (pushSeq _ _ _))
  exact setHamper ⟨rfl, rfl⟩

end SameQueue

/-- Only RET of an empty call stack changes its SEQ field (R199). -/
theorem pushSeq_snd (a : BitVec 25) {f : SeqF} (now : Nat) (hop : f.op ≠ 0x1D) : (s.pushSeq h a f now).2 = f := by
  have hne : f.op.toNat ≠ 0x1D := fun h => hop (BitVec.eq_of_toNat_eq h)
  unfold pushSeq
  dsimp only
  split
  · rfl
  · rfl
  · next h => exact absurd h hne
  · rfl
  · rfl
  · rfl

/-- The word that stands in the queue for one without reserved encodings, which is no RET (R144). -/
theorem pushedWord_raw {raw : BitVec 256} (hres : reservedFields (decodeCw raw) ((s.hamper h).asetValue (decodeCw raw).agu) = [])
    (hop : (decodeCw raw).seq.op ≠ 0x1D) : (s.pushedWord h (decodeCw raw)).word = raw := by
  rw [pushedWord_word hres, pushed_of_clean hres, pushSeq_snd _ _ hop]
  exact encodeCw_decodeCw raw

/-- A word that waits for no SMAD is pushed. -/
theorem pushWord_pushes (hsmad : (s.hamper h).smad = none) (raw : BitVec 256) :
    s.pushWord h raw = (s.pushed h (decodeCw raw)).1.enqueue h (s.pushedWord h (decodeCw raw)) := by
  rw [pushWord_eq, Hamper.bubble_of_none hsmad, if_neg Bool.false_ne_true]

theorem pushWord_iq (hsmad : (s.hamper h).smad = none) (raw : BitVec 256) :
    ((s.pushWord h raw).hamper h).iq = (s.hamper h).iq ++ [s.pushedWord h (decodeCw raw)] := by
  rw [pushWord_pushes hsmad, enqueue_hamper]
  dsimp only
  have hqueue : (s.hamper h).SameQueue ((s.pushed h (decodeCw raw)).1.hamper h) := SameQueue.pushed _
  rw [hqueue.iq]

theorem pushWord_icMisses (hsmad : (s.hamper h).smad = none) (raw : BitVec 256) :
    ((s.pushWord h raw).hamper h).icMisses = (s.hamper h).icMisses := by
  rw [pushWord_pushes hsmad, enqueue_hamper]
  dsimp only
  have hqueue : (s.hamper h).SameQueue ((s.pushed h (decodeCw raw)).1.hamper h) := SameQueue.pushed _
  exact hqueue.icMisses

/-! ## Where the word comes from -/

/-- The library word at the hamper's PC. -/
def libraryWord (s : State) (h : HamperId) : BitVec 256 :=
  smGet 0 (s.grove (groveOfHamper h)).lib ((s.hamper h).pc.toNat % 8192)

/-- The line of the hamper's PC. -/
def pcLine (s : State) (h : HamperId) : BitVec 21 := (s.hamper h).pc.extractLsb' 3 21

/-- The state in which a cached line has been used. -/
def usedLine (s : State) (h : HamperId) : State :=
  s.setHamper h { s.hamper h with
    icClock := (s.hamper h).icClock + 1
    icLines := (s.hamper h).icLines.map fun y => if y.line = s.pcLine h then { y with used := (s.hamper h).icClock } else y }

/-- The state in which the line of the PC is asked for. -/
def missedLine (s : State) (h : HamperId) : State :=
  (s.setHamper h { s.hamper h with
    icMiss := some (s.pcLine h), icMisses := BitVec.ofNat 32 (satAdd 0xFFFFFFFF (s.hamper h).icMisses.toNat 1) }).bumpG (groveOfHamper h) 8 1

section
variable (hmay : s.mayPush h = true)
include hmay

theorem exec_wordPush_library (hpc : (s.hamper h).pc.getLsbD 24 = true) :
    exec (.wordPush h) s = .next (s.pushWord h (s.libraryWord h)) := by
  show execWordPush h s = _
  unfold execWordPush fetch
  dsimp only
  rw [if_pos hmay, if_pos hpc]
  rfl

theorem exec_wordPush_cached (hpc : (s.hamper h).pc.getLsbD 24 = false) {x : IcLine} (hline : (s.hamper h).cached (s.pcLine h) = some x) :
    exec (.wordPush h) s = .next ((s.usedLine h).pushWord h ((x.words[(s.hamper h).pc.toNat % 8]?).getD 0)) := by
  show execWordPush h s = _
  unfold execWordPush fetch
  dsimp only
  rw [if_pos hmay, hpc, if_neg Bool.false_ne_true]
  unfold pcLine at hline
  rw [hline]
  rfl

theorem exec_wordPush_missed (hpc : (s.hamper h).pc.getLsbD 24 = false) (hline : (s.hamper h).cached (s.pcLine h) = none) :
    exec (.wordPush h) s = .next (s.missedLine h) := by
  show execWordPush h s = _
  unfold execWordPush fetch
  dsimp only
  rw [if_pos hmay, hpc, if_neg Bool.false_ne_true]
  unfold pcLine at hline
  rw [hline]
  rfl

end

theorem usedLine_hamper (s : State) (h : HamperId) : ∃ lines, (s.usedLine h).hamper h =
    { s.hamper h with icClock := (s.hamper h).icClock + 1, icLines := lines } := ⟨_, setHamper_hamper_self ..⟩

theorem missedLine_hamper (s : State) (h : HamperId) : (s.missedLine h).hamper h = { s.hamper h with
    icMiss := some (s.pcLine h), icMisses := BitVec.ofNat 32 (satAdd 0xFFFFFFFF (s.hamper h).icMisses.toNat 1) } :=
  setHamper_hamper_self s h _

end State

/-- Settles O20: WORD_PUSH by where its word comes from, and IC_FILL by what it was asked for. -/
theorem fetchAndFill : Obligations.FetchAndFill := by
  unfold Obligations.FetchAndFill
  intro h s
  dsimp only
  refine ⟨fun hmay hpc hsmad => ?_, fun x hmay hpc hline hsmad => ?_, fun hmay hpc hline => ?_, fun l hmiss hbelow => ?_,
    fun p hmiss hpre hbelow => ?_, fun l hmiss habove => ?_⟩
  · exact ⟨_, s.pushedWord h (decodeCw (s.libraryWord h)), State.exec_wordPush_library hmay hpc, State.pushWord_iq hsmad _, rfl, rfl,
      State.pushedWord_raw⟩
  · obtain ⟨lines, hused⟩ := State.usedLine_hamper s h
    have hsmad' : ((s.usedLine h).hamper h).smad = none := by rw [hused]; exact hsmad
    refine ⟨_, (s.usedLine h).pushedWord h (decodeCw ((x.words[(s.hamper h).pc.toNat % 8]?).getD 0)),
      State.exec_wordPush_cached hmay hpc hline, ?_, rfl, ?_, ?_, fun hres hop => State.pushedWord_raw ?_ hop⟩
    · rw [State.pushWord_iq hsmad', hused]
    · show ((s.usedLine h).hamper h).pc = _
      rw [hused]
    · rw [State.pushWord_icMisses hsmad', hused]
    · rw [hused]
      exact hres
  · refine ⟨_, State.exec_wordPush_missed hmay hpc hline, ?_⟩
    rw [State.missedLine_hamper]
    refine ⟨rfl, rfl, rfl, ?_⟩
    rw [BitVec.toNat_ofNat, satAdd]
    exact Nat.mod_eq_of_lt (by omega)
  · have hexec := (exec_icFill_miss hmiss).trans (if_neg (Nat.not_lt.mpr hbelow))
    obtain ⟨x, hcached, hwords⟩ := Hamper.filled_cached { s.hamper h with icMiss := none } (s.hamper h) (s.cycle (groveOfHamper h)) l
      (s.lineWords h l) false
    refine ⟨_, x, hexec, ?_, ?_, hwords, (State.placed_only ..).hbm⟩
    · rw [State.placed_hamper]
      exact (Hamper.filled_front ..).1
    · rw [State.placed_hamper]
      exact hcached
  · have hexec := (exec_icFill_preload hmiss hpre).trans (if_neg (Nat.not_lt.mpr hbelow))
    obtain ⟨x, hcached, hwords⟩ := Hamper.filled_cached { s.hamper h with preload := p.rest } (s.hamper h) (s.cycle (groveOfHamper h))
      p.line (s.lineWords h p.line) p.lock
    refine ⟨_, x, hexec, ?_, hwords, ?_⟩
    · rw [State.placed_hamper]
      exact hcached
    · rw [State.placed_hamper]
      exact (Hamper.filled_front ..).2.1
  · rw [exec_icFill_miss hmiss, if_pos habove]

end Sys2Proof.Machine
end

section
/-! PROOFS. WORD_PUSH and IC_FILL under conditions on the state alone (O60). -/

namespace Sys2Proof.Machine

namespace State

variable {s : State} {h : HamperId}

/-- A hamper that runs, with room in its issue queue, may push. -/
theorem mayPush_of_runs (hclock : s.clockOn (groveOfHamper h) = true)
    (hruns : (s.hamper h).state = stArmed ∨ (s.hamper h).state = stRunning ∨ (s.hamper h).state = stHolding ∨ (s.hamper h).state = stAbort)
    (hstopped : (s.hamper h).stopped = false) (hswap : (s.hamper h).swapWait = false) (hmiss : (s.hamper h).icMiss = none)
    (hroom : (s.hamper h).iq.length < Config.issueDepth) (hfrom : (s.hamper h).pushFrom ≤ s.cycle (groveOfHamper h)) :
    s.mayPush h = true := by
  have hstate : ((s.hamper h).state = stArmed || (s.hamper h).state = stRunning || (s.hamper h).state = stHolding ||
      (s.hamper h).state = stAbort) = true := by simpa [or_assoc] using hruns
  simp [mayPush, hclock, hstate, hstopped, hswap, hmiss, hroom, hfrom]

/-- The control word 0 has no operation. -/
theorem decodeCw_zero : decodeCw 0 = {} := by
  have hzero : encodeCw {} = 0 := by decide
  rw [← hzero, decodeCw_encodeCw]

theorem pushWord_zero (hsmad : (s.hamper h).smad = none) (hloops : (s.hamper h).loops = []) :
    s.pushWord h 0 = ((s.pushing h).setHamper h { (s.hamper h).pushing (s.cycle (groveOfHamper h)) with
      pc := nextPc (s.hamper h).pc }).enqueue h (s.pushedWord h {}) := by
  have hseq := pushSeq_nop (s := s.pushing h) (h := h) (s.hamper h).pc (s.cycle (groveOfHamper h))
  rw [pushing_hamper, Hamper.advance_of_no_end (by simp [Hamper.pushing, hloops])] at hseq
  rw [pushWord_pushes hsmad, decodeCw_zero, pushed_of_clean rfl]
  exact congrArg (fun r : State × SeqF => r.1.enqueue h _) hseq

/-- The effects of word 0 outside a loop: the PC moves on, and the word stands in the queue. -/
theorem pushWord_zero_effects (hsmad : (s.hamper h).smad = none) (hloops : (s.hamper h).loops = []) :
    (s.pushedWord h (decodeCw 0)).word = 0 ∧ ((s.pushWord h 0).hamper h).pc = nextPc (s.hamper h).pc ∧
    ((s.pushWord h 0).hamper h).scalars = (s.hamper h).scalars ∧ OnlyHamper h s (s.pushWord h 0) := by
  refine ⟨pushedWord_raw (by rw [decodeCw_zero]; rfl) (by rw [decodeCw_zero]; decide), ?_⟩
  rw [pushWord_zero hsmad hloops, enqueue_hamper, setHamper_hamper_self]
  exact ⟨rfl, rfl, ((OnlyHamper.setHamper h s _).trans (.setHamper h _ _)).trans (.setHamper h _ _)⟩

end State

end Sys2Proof.Machine
end

section
/-! PROOFS. Accesses to the first pair of a hamper's scalars through the windows of BAR0 (O60). -/

namespace Sys2Proof.Machine

namespace State

variable {s : State} {h : HamperId} {agent : Agent} {off : BitVec 26} (v : BitVec 64)

/-- The windows end below 0x3000000. -/
theorem lt_of_svcWindow {p : SvcPlace} (hplace : s.svcWindow off.toNat = p) (hp : p ≠ .reserved) : off.toNat < 0x3000000 := by
  by_contra hge
  refine hp (hplace ▸ ?_)
  rw [svcWindow, if_neg (by simp; omega), if_neg (by simp; omega)]

/-- The state in which the bytes that the host writes have been counted. -/
def countedAccess (s : State) (agent : Agent) (op : SvcOp) : State :=
  if agent = .host && op.write then s.addTotal 73 op.width.size else s

/-- Counting changes the reader's totals alone. -/
theorem countedAccess_eq (s : State) (agent : Agent) (op : SvcOp) :
    ∃ r, s.countedAccess agent op = { s with reader := r } := by
  unfold countedAccess
  split
  · exact ⟨_, rfl⟩
  · exact ⟨_, rfl⟩

/-- An access through a window that the block serves. -/
theorem exec_serviceAccess (op : SvcOp) (hplace : s.svcWindow off.toNat = .hamper h 0x040) (hasleep : s.asleep agent = false)
    (hready : agent = .host → s.flag HIF_STATUS.READY = true) : exec (.serviceAccess agent off op v) s =
      .next ((s.countedAccess agent op).svcAccessW (svcFrom agent op.width) (.hamper h 0x040) op.width op.write v false) := by
  have hbelow := lt_of_svcWindow hplace (by simp)
  have hserved : (agent = .host && !s.flag HIF_STATUS.READY) = false := by
    by_cases hhost : agent = .host
    · rw [hready hhost, Bool.not_true, Bool.and_false]
    · rw [decide_eq_false hhost, Bool.false_and]
  show (if (s.countedAccess agent op).asleep agent then _ else if _ then _ else .next ((s.countedAccess agent op).planeAccess ..) :
    Host.Outcome State Fault Refusal) = _
  obtain ⟨r, hcount⟩ := countedAccess_eq s agent op
  rw [hcount, if_neg (Bool.not_eq_true _ ▸ hasleep), if_neg (Nat.not_le.mpr hbelow)]
  show Host.Outcome.next (if (agent = .host && !s.flag HIF_STATUS.READY) then _ else svcAccessW _ _ (s.svcWindow off.toNat) _ _ _ _) = _
  rw [hserved, if_neg Bool.false_ne_true, hplace]

/-- What the first register of scalars holds. -/
theorem svcReadReg_scalars (s : State) (h : HamperId) :
    s.svcReadReg (.hamper h 0x040) = some ((s.hamper h).scalar 1 ++ (s.hamper h).scalar 0) := rfl

/-- An agent gets no answer to a write. -/
theorem svcReply_write (s : State) (agent : Agent) (w : Width) : s.svcReply (svcFrom agent w) true false 0 false = s := by
  cases agent
  · rfl
  · rfl
  · rfl

/-- A write of the first register of scalars. -/
theorem svcAccessW_write (hgated : s.gated (groveOfHamper h) = false) (w : Width) :
    s.svcAccessW (svcFrom agent w) (.hamper h 0x040) w true v false =
      s.seqReg h 0x040 (w.merge ((s.hamper h).scalar 1 ++ (s.hamper h).scalar 0) v) := by
  show (if s.gated (groveOfHamper h) then _ else svcReply _ (svcFrom agent w) true false 0 false) = _
  rw [hgated, if_neg Bool.false_ne_true, svcReply_write]
  rfl

/-- A read of the first register of scalars. -/
theorem svcAccessW_read (hgated : s.gated (groveOfHamper h) = false) :
    s.svcAccessW (svcFrom agent .full) (.hamper h 0x040) .full false v false =
      s.svcReply (svcFrom agent .full) false false ((s.hamper h).scalar 1 ++ (s.hamper h).scalar 0) false := by
  show (if s.gated (groveOfHamper h) then _ else _) = _
  rw [hgated, if_neg Bool.false_ne_true]
  rfl

/-- The answer to a read of 64 bits: the host's bytes, and nothing for the manager. -/
theorem svcReply_read (s : State) (agent : Agent) :
    let t := s.svcReply (svcFrom agent .full) false false v false
    t.plane = s.plane ∧ t.hbm = s.hbm ∧
    t.out = s.out ++ (if agent = .host then [.readData (bytesOf 8 v.toNat) false] else []) := by
  cases agent
  · exact ⟨rfl, rfl, rfl⟩
  · exact ⟨rfl, rfl, (List.append_nil _).symm⟩
  · exact ⟨rfl, rfl, (List.append_nil _).symm⟩

/-- A write of the first pair of scalars. -/
theorem seqReg_scalars_effects (hquiet : (s.hamper h).quiet = true) :
    ((s.seqReg h 0x040 v).hamper h).scalar 0 = v.extractLsb' 0 32 ∧ ((s.seqReg h 0x040 v).hamper h).scalar 1 = v.extractLsb' 32 32 ∧
    (∀ n, n ≠ 0 → n ≠ 1 → ((s.seqReg h 0x040 v).hamper h).scalar n = (s.hamper h).scalar n) ∧
    ((s.seqReg h 0x040 v).hamper h).pc = (s.hamper h).pc ∧ OnlyHamper h s (s.seqReg h 0x040 v) := by
  obtain ⟨hlow, hhigh, hothers⟩ := smGet_smSet_pair 0 (s.hamper h).scalars 0 (v.extractLsb' 0 32) (v.extractLsb' 32 32)
  have hwrite := seqReg_scalars v hquiet (n := 0) (by decide)
  have hhamper := congrArg (fun t : State => t.hamper h) hwrite
  rw [setHamper_hamper_self] at hhamper
  refine ⟨?_, ?_, fun n hn0 hn1 => ?_, ?_, ?_⟩
  · exact (congrArg (Hamper.scalar · 0) hhamper).trans hlow
  · exact (congrArg (Hamper.scalar · 1) hhamper).trans hhigh
  · exact (congrArg (Hamper.scalar · n) hhamper).trans
      (hothers n.toNat (fun h => hn0 (BitVec.eq_of_toNat_eq h)) fun h => hn1 (BitVec.eq_of_toNat_eq h))
  · exact (congrArg Hamper.pc hhamper).trans rfl
  · exact (congrArg (OnlyHamper h s) hwrite).mpr (.setHamper h s _)

section
variable (hplace : s.svcWindow off.toNat = .hamper h 0x040) (hgated : s.gated (groveOfHamper h) = false)
  (hasleep : s.asleep agent = false) (hready : agent = .host → s.flag HIF_STATUS.READY = true)
include hplace hgated hasleep hready

/-- A write of the first pair of scalars, or of one of them, through a window. -/
theorem exec_serviceAccess_write (hquiet : (s.hamper h).quiet = true) (w : Width) :
    ∃ t, exec (.serviceAccess agent off ⟨true, w⟩ v) s = .next t ∧
      (t.hamper h).scalar 0 = (w.merge ((s.hamper h).scalar 1 ++ (s.hamper h).scalar 0) v).extractLsb' 0 32 ∧
      (t.hamper h).scalar 1 = (w.merge ((s.hamper h).scalar 1 ++ (s.hamper h).scalar 0) v).extractLsb' 32 32 ∧
      (∀ n, n ≠ 0 → n ≠ 1 → (t.hamper h).scalar n = (s.hamper h).scalar n) ∧ (t.hamper h).pc = (s.hamper h).pc ∧ OnlyHamper h s t := by
  have hexec := exec_serviceAccess v ⟨true, w⟩ hplace hasleep hready
  obtain ⟨r, hcount⟩ := countedAccess_eq s agent ⟨true, w⟩
  rw [hcount] at hexec
  obtain ⟨hlow, hhigh, hothers, hpc, honly⟩ := seqReg_scalars_effects (h := h) (s := { s with reader := r })
    (w.merge ((s.hamper h).scalar 1 ++ (s.hamper h).scalar 0) v) hquiet
  have hreader : OnlyHamper h s { s with reader := r } := .of_plane h rfl rfl
  exact ⟨_, hexec.trans (congrArg _ (svcAccessW_write (s := { s with reader := r }) v hgated w)), hlow, hhigh, hothers, hpc,
    hreader.trans honly⟩

/-- A read of the first pair of scalars through a window. -/
theorem exec_serviceAccess_read : ∃ t, exec (.serviceAccess agent off ⟨false, .full⟩ v) s = .next t ∧ t.plane = s.plane ∧ t.hbm = s.hbm ∧
    t.out = s.out ++ (if agent = .host then
      [.readData (bytesOf 8 ((s.hamper h).scalar 1 ++ (s.hamper h).scalar 0).toNat) false] else []) := by
  have hexec := exec_serviceAccess v ⟨false, .full⟩ hplace hasleep hready
  obtain ⟨r, hcount⟩ := countedAccess_eq s agent ⟨false, .full⟩
  rw [hcount] at hexec
  exact ⟨_, hexec.trans (congrArg _ (svcAccessW_read (s := { s with reader := r }) v hgated)), svcReply_read _ _ agent⟩

end

end State
end Sys2Proof.Machine
end

section
/-! PROOFS. Results and tile bytes that land alone (O60). -/

namespace Sys2Proof.Machine

/-! ## MZERO -/

namespace Mx

theorem accElem_setAccElem (m : Mx) (a b : BitVec 3) {e i : Nat} (he : e < 16) (hi : i < 16) (v : BitVec 32) :
    (m.setAccElem b i v).accElem a e = if a = b ∧ e = i then v else m.accElem a e := by
  have hkey : 16 * a.toNat + e = 16 * b.toNat + i ↔ a = b ∧ e = i := by
    rw [← BitVec.toNat_inj]
    omega
  simp only [accElem, setAccElem, smGet_smSet, hkey]

end Mx

section
variable (r : MxResult) {a : BitVec 3} {e : Nat}

/-- A landing result leaves the results that wait. -/
theorem landElem_results (m : Mx × FlagSet) (i : Nat) : (landElem r m i).1.results = m.1.results := by
  unfold landElem
  split
  · rfl
  · rfl

/-- Element `i` of a landing result changes no other element. -/
theorem landElem_other (m : Mx × FlagSet) {i : Nat} (hi : i < 16) (he : e < 16) (hne : ¬ (a = r.acc ∧ e = i)) :
    (landElem r m i).1.accElem a e = m.1.accElem a e := by
  unfold landElem
  split
  · rfl
  · exact (Mx.accElem_setAccElem m.1 a r.acc he hi _).trans (if_neg hne)

/-- MZERO makes its elements 0. -/
theorem landElem_zero (hzero : r.effect = .zero) (m : Mx × FlagSet) {i : Nat} (hi : i < 16) (he : e < 16) :
    (landElem r m i).1.accElem r.acc e = if e = i then 0 else m.1.accElem r.acc e := by
  unfold landElem
  rw [hzero]
  refine (Mx.accElem_setAccElem m.1 r.acc r.acc he hi _).trans ?_
  simp only [true_and]

theorem landResult_results (m : Mx × FlagSet) : (landResult m r).1.results = m.1.results := by
  unfold landResult
  induction List.range 16 generalizing m with
  | nil => rfl
  | cons i is ih => exact (ih _).trans (landElem_results r m i)

theorem landResult_other (m : Mx × FlagSet) (ha : a ≠ r.acc) (he : e < 16) : (landResult m r).1.accElem a e = m.1.accElem a e := by
  have hfold : ∀ is : List Nat, (∀ i ∈ is, i < 16) → ∀ m, (is.foldl (landElem r) m).1.accElem a e = m.1.accElem a e := by
    intro is
    induction is with
    | nil => exact fun _ _ => rfl
    | cons i is ih =>
      intro hlt m
      refine (ih (fun j hj => hlt j (List.mem_cons_of_mem _ hj)) _).trans ?_
      exact landElem_other r m (hlt i (List.mem_cons_self ..)) he fun h => ha h.1
  exact hfold _ (fun i hi => List.mem_range.mp hi) m

theorem landResult_zero (hzero : r.effect = .zero) (m : Mx × FlagSet) (he : e < 16) : (landResult m r).1.accElem r.acc e = 0 := by
  have hfold : ∀ is : List Nat, (∀ i ∈ is, i < 16) → ∀ m, m.1.accElem r.acc e = 0 ∨ e ∈ is →
      (is.foldl (landElem r) m).1.accElem r.acc e = 0 := by
    intro is
    induction is with
    | nil => exact fun _ m hm => hm.elim id fun hmem => absurd hmem List.not_mem_nil
    | cons i is ih =>
      intro hlt m hm
      refine ih (fun j hj => hlt j (List.mem_cons_of_mem _ hj)) _ ?_
      rw [landElem_zero r hzero m (hlt i (List.mem_cons_self ..)) he]
      by_cases hei : e = i
      · exact .inl (if_pos hei)
      · rw [if_neg hei]
        exact hm.imp_right fun hmem => (List.mem_cons.mp hmem).resolve_left hei
  exact hfold _ (fun i hi => List.mem_range.mp hi) m (.inr (List.mem_range.mpr he))

end

/-- Results of which all on accumulator `a` are MZERO, and at least one is, leave it 0. -/
theorem landResults_zero {a : BitVec 3} {e : Nat} (he : e < 16) (rs : List MxResult) (hzero : ∀ r ∈ rs, r.acc = a → r.effect = .zero)
    (m : Mx × FlagSet) (hsome : m.1.accElem a e = 0 ∨ ∃ r ∈ rs, r.acc = a) : (rs.foldl landResult m).1.accElem a e = 0 := by
  induction rs generalizing m with
  | nil => exact hsome.elim id fun ⟨_, hr, _⟩ => absurd hr List.not_mem_nil
  | cons r rs ih =>
    refine ih (fun x hx => hzero x (List.mem_cons_of_mem _ hx)) _ ?_
    by_cases hacc : r.acc = a
    · exact .inl (hacc ▸ landResult_zero r (hzero r (List.mem_cons_self ..) hacc) m he)
    · rw [landResult_other r m (Ne.symm hacc) he]
      refine hsome.imp_right fun ⟨x, hx, hxa⟩ => ⟨x, (List.mem_cons.mp hx).resolve_left fun heq => hacc (heq ▸ hxa), hxa⟩

theorem landResults_results (rs : List MxResult) (m : Mx × FlagSet) : (rs.foldl landResult m).1.results = m.1.results := by
  induction rs generalizing m with
  | nil => rfl
  | cons r rs ih => exact (ih _).trans (landResult_results r m)

/-- A core in which MZERO alone has come due on accumulator `a`. -/
theorem landMx_zero (k : Core) (now : Nat) {a : BitVec 3} (hsome : ∃ x ∈ k.mx.results, x.due ≤ now ∧ x.acc = a)
    (hzero : ∀ x ∈ k.mx.results, x.due ≤ now → x.acc = a → x.effect = .zero) :
    (∀ e, e < 16 → (k.landMx now).mx.accElem a e = 0) ∧ (∀ x ∈ (k.landMx now).mx.results, now < x.due) ∧
    (k.landMx now).tiles = k.tiles := by
  refine ⟨fun e he => landResults_zero he _ ?_ _ (.inr ?_), fun x hx => ?_, rfl⟩
  · intro r hr hacc
    obtain ⟨hmem, hdue⟩ := List.mem_filter.mp hr
    exact hzero r hmem (of_decide_eq_true hdue) hacc
  · obtain ⟨x, hx, hdue, hacc⟩ := hsome
    exact ⟨x, List.mem_filter.mpr ⟨hx, decide_eq_true hdue⟩, hacc⟩
  · have hfilter : (k.landMx now).mx.results = k.mx.results.filter fun r => now < r.due := landResults_results _ _
    rw [hfilter] at hx
    exact of_decide_eq_true (List.mem_filter.mp hx).2

/-! ## A tile load -/

/-- A core in which one tile load has come due. -/
theorem applyTiles_one (k : Core) (now : Nat) {w : TileWrite} (hdue : (k.tileWr.filter fun x => x.due ≤ now) = [w]) :
    (applyTiles now k).tile w.tile = tileWritten (k.tile w.tile) w ∧
    (∀ i, i ≠ w.tile → (applyTiles now k).tile i = k.tile i) ∧ (∀ x ∈ (applyTiles now k).tileWr, now < x.due) ∧
    (applyTiles now k).mx = k.mx := by
  unfold applyTiles
  rw [hdue]
  refine ⟨smGet_smSet_self .., fun i hi => smGet_smSet_of_ne _ _ _ fun heq => hi (BitVec.eq_of_toNat_eq heq), fun x hx => ?_, rfl⟩
  exact of_decide_eq_true (List.mem_filter.mp hx).2

/-- Settles O60, command by command. -/
theorem pushFillAccessLandComplete : Obligations.PushFillAccessLandComplete := by
  unfold Obligations.PushFillAccessLandComplete
  intro h c agent off v s
  dsimp only
  have hcores : ∀ k d, d ≠ c → (s.setCore c k).core d = s.core d := fun k d hd => (State.core_setCore s c d k).trans (if_neg hd)
  refine ⟨fun hclock ⟨hruns, hstopped⟩ ⟨hswap, hmiss, hroom, hfrom⟩ hsmad hpc => ?_,
    fun x hclock ⟨hruns, hstopped⟩ ⟨hswap, hmiss, hroom, hfrom⟩ hsmad hpc hline => ?_, fun l hmiss hbelow => ?_,
    fun p hmiss hpre hbelow => ?_, exec_icFill_idle, fun hopen hplace hquiet => ?_, fun hopen hplace => ?_,
    fun a hsome hzero => ⟨_, rfl, ?_⟩, fun w hdue => ⟨_, rfl, ?_⟩⟩
  · have hmay := State.mayPush_of_runs hclock hruns hstopped hswap hmiss hroom hfrom
    refine ⟨_, s.pushedWord h (decodeCw (s.libraryWord h)), State.exec_wordPush_library hmay hpc, State.pushWord_iq hsmad _, rfl, rfl, rfl,
      fun hraw hloops => ?_⟩
    have hword : s.libraryWord h = 0 := hraw
    rw [hword]
    obtain ⟨hzero, hnext, hscalars, honly⟩ := State.pushWord_zero_effects hsmad hloops
    exact ⟨hzero, hnext, hscalars, honly.hbm, honly.cores, honly.hampers⟩
  · have hmay := State.mayPush_of_runs hclock hruns hstopped hswap hmiss hroom hfrom
    obtain ⟨lines, hused⟩ := State.usedLine_hamper s h
    have hsmad' : ((s.usedLine h).hamper h).smad = none := by rw [hused]; exact hsmad
    refine ⟨_, (s.usedLine h).pushedWord h (decodeCw ((x.words[(s.hamper h).pc.toNat % 8]?).getD 0)),
      State.exec_wordPush_cached hmay hpc hline, ?_, ?_, rfl, fun hraw hloops => ?_⟩
    · rw [State.pushWord_iq hsmad', hused]
    · show ((s.usedLine h).hamper h).pc = _
      rw [hused]
    · rw [hraw]
      obtain ⟨hzero, hnext, -, honly⟩ := State.pushWord_zero_effects hsmad' (by rw [hused]; exact hloops)
      have hall := (State.OnlyHamper.setHamper h s _).trans honly
      exact ⟨hzero, by rw [hnext, hused], hall.hbm, hall.cores, hall.hampers⟩
  · have hexec := (exec_icFill_miss hmiss).trans (if_neg (Nat.not_lt.mpr hbelow))
    obtain ⟨hnone, hplaced⟩ := State.placed_effects s h l { s.hamper h with icMiss := none } false rfl rfl
    exact ⟨_, hexec, hnone, hplaced⟩
  · have hexec := (exec_icFill_preload hmiss hpre).trans (if_neg (Nat.not_lt.mpr hbelow))
    exact ⟨_, hexec, (State.placed_effects s h p.line { s.hamper h with preload := p.rest } p.lock rfl rfl).2⟩
  · obtain ⟨hgated, hasleep, hready⟩ := hopen
    have hwrite := State.exec_serviceAccess_write v hplace hgated hasleep hready hquiet
    obtain ⟨t, hexec, hlow, hhigh, hothers, hpc, honly⟩ := hwrite .full
    obtain ⟨u, hexecLow, hlowLow, hhighLow, -, -, honlyLow⟩ := hwrite .low
    refine ⟨⟨t, hexec, hlow, hhigh, hothers, hpc, honly.hbm, honly.cores, honly.hampers⟩, u, hexecLow, ?_, ?_, honlyLow.hbm, honlyLow.cores,
      honlyLow.hampers⟩
    · rw [hlowLow]
      simp [Width.merge]
    · rw [hhighLow]
      simp [Width.merge]
  · obtain ⟨hgated, hasleep, hready⟩ := hopen
    exact State.exec_serviceAccess_read v hplace hgated hasleep hready
  · obtain ⟨hacc, hresults, htiles⟩ := landMx_zero (s.core c) (s.cycle (groveOf c)) hsome hzero
    rw [State.setCore_core_self]
    exact ⟨hacc, hresults, htiles, hcores _⟩
  · obtain ⟨hself, hothers, hwrites, hmx⟩ := applyTiles_one (s.core c) (s.cycle (groveOf c)) hdue
    rw [State.setCore_core_self]
    exact ⟨hself, hothers, hwrites, hmx, hcores _⟩

end Sys2Proof.Machine
end

section
/-! PROOFS. The scheduler's, the pager's and the ports' work at a PSWAP of the reference hamper leaves the core plane. -/

namespace Sys2Proof.Machine

namespace State

/-! ## Folds and choices -/

/-- The core plane is the same. The kernel compares two such claims by their states; of two equations of planes it takes the
planes out of the states, and evaluates them. -/
structure KeepsPlane (s t : State) : Prop where
  plane : t.plane = s.plane

/-- A fold leaves the core plane where each of its steps does. -/
theorem foldl_plane {β : Type} {f : State → β → State} (hf : ∀ s b, KeepsPlane s (f s b)) (xs : List β) (s : State) :
    (xs.foldl f s).plane = s.plane := by
  induction xs generalizing s with
  | nil => rfl
  | cons x xs ih => exact (ih _).trans (hf s x).plane

/-- So does a fold that carries another value along. -/
theorem foldl_fst_plane {α β : Type} {f : State × α → β → State × α} (hf : ∀ r b, KeepsPlane r.1 (f r b).1) (xs : List β)
    (r : State × α) : (xs.foldl f r).1.plane = r.1.plane := by
  induction xs generalizing r with
  | nil => rfl
  | cons x xs ih => exact (ih _).trans (hf r x).plane

theorem ite_plane {c : Prop} [Decidable c] {s t u : State} (ht : t.plane = s.plane) (hu : u.plane = s.plane) :
    (if c then t else u).plane = s.plane := by
  split
  · exact ht
  · exact hu

/-! ## Messages to the pod -/

@[simp] theorem faultEntry_plane (s : State) (cls src index code detail : Nat) : (s.faultEntry cls src index code detail).plane = s.plane :=
  (faultEntry_units s cls src index code detail).plane

@[simp] theorem sendOr_plane (s : State) (w : Option Nat) (p : Nat) (m : SvcMsg) : (s.sendOr w p m).plane = s.plane := by
  cases w with
  | none => exact faultEntry_plane _ _ _ _ _ _
  | some q => rfl

@[simp] theorem sendTo_plane (s : State) (dst type : Nat) (arg : BitVec 64) (bs : List Byte) : (s.sendTo dst type arg bs).plane = s.plane :=
  sendOr_plane ..

@[simp] theorem sendAll_plane (s : State) (type : Nat) (arg : BitVec 64) (bs : List Byte) : (s.sendAll type arg bs).plane = s.plane :=
  ite_plane rfl (foldl_plane (fun _ _ => ⟨sendTo_plane ..⟩) _ s)

/-! ## Steps and masks -/

@[simp] theorem hbmStoreNat_plane (s : State) (a n v : Nat) : (s.hbmStoreNat a n v).plane = s.plane := by
  rw [hbmStoreNat, hbmStore_plane]

@[simp] theorem setSlot_plane (s : State) (i : Nat) (q : SeqSlot) : (s.setSlot i q).plane = s.plane := rfl

@[simp] theorem putStep_plane (s : State) (st : SchStep) : (s.putStep st).plane = s.plane := rfl

@[simp] theorem writeMarks_plane (s : State) (st : SchStep) (e : Nat) (x : StepEntry) : (s.writeMarks st e x).plane = s.plane :=
  (foldl_plane (fun _ _ => ⟨hbmStore_plane ..⟩) _ _).trans (hbmStore_plane ..)

@[simp] theorem writeLive_plane (s : State) (m : BitVec 256) : (s.writeLive m).plane = s.plane :=
  (foldl_plane (f := fun (s : State) n => s.setReg (SCH_LIVE.off n) (wordOf m n)) (fun _ _ => ⟨rfl⟩) _ _).trans (hbmStore_plane ..)

@[simp] theorem logMask_plane (s : State) (num e slot reason : Nat) : (s.logMask num e slot reason).plane = s.plane := ite_plane rfl rfl

@[simp] theorem maskEntry_plane (s : State) (k e reason : Nat) : (s.maskEntry k e reason).plane = s.plane := by
  unfold maskEntry
  split
  · rfl
  · split
    · rfl
    · refine ite_plane rfl ?_
      refine (sendAll_plane ..).trans ?_
      refine ite_plane (ite_plane ((writeLive_plane ..).trans ?_) ?_) ((writeMarks_plane ..).trans ?_)
      all_goals exact ite_plane (logMask_plane ..) (logMask_plane ..)

/-! ## Page tables and frames -/

@[simp] theorem setPte_plane (s : State) (slot lg page : Nat) (e : BitVec 64) : (s.setPte slot lg page e).plane = s.plane := by
  rw [setPte.eq_1, setSch_plane, hbmStoreNat_plane]

@[simp] theorem searchTables_plane (s : State) : s.searchTables.plane = s.plane := by
  rw [searchTables.eq_1]
  split
  · rw [tookFree_plane, addPins_plane]
  · rw [tookFree_plane, countErr_plane, tookFree_plane, countErr_plane, tookFree_plane, countErr_plane, tookFree_plane, addPins_plane]

@[simp] theorem takeFrame_plane (s : State) (f : Nat) (u : FrameUse) : (s.takeFrame f u).plane = s.plane := rfl

theorem preempt_plane (n fuel : Nat) (s : State) : (preempt n fuel s).plane = s.plane := by
  induction fuel generalizing s with
  | zero => rfl
  | succ fuel ih =>
    rw [preempt.eq_2]
    split
    · rfl
    · split
      · rfl
      · exact (ih _).trans ((incSat_plane ..).trans (setSlot_plane ..))

@[simp] theorem allocFailed_plane (s : State) (n : Nat) : (s.allocFailed n).plane = s.plane :=
  (preempt_plane ..).trans (incSat_plane ..)

@[simp] theorem checkLow_plane (s : State) (n : Nat) : (s.checkLow n).plane = s.plane := ite_plane (preempt_plane ..) rfl

/-! A lookup whose value is not of interest is made a variable before its cases are split, by `exists_eq'`: to compare two matches
on it, the kernel would evaluate it in the state. -/

theorem allocPage_plane (s : State) (slot lg page : Nat) : (s.allocPage slot lg page).1.plane = s.plane := by
  obtain ⟨frameIn, hframe⟩ := exists_eq' (a' := s.lowestFrame)
  obtain ⟨home, hhome⟩ := exists_eq' (a' := s.homeStack slot lg)
  rw [allocPage.eq_1, hframe, hhome]
  split
  · exact allocFailed_plane ..
  · split
    · exact allocFailed_plane ..
    · rw [checkLow_plane, setPte_plane, hbmStoreNat_plane, setSch_plane, takeFrame_plane]

/-! ## Descriptors and pages on their way -/

theorem produce_plane {s t : State} {u : SeUnit} {bs : List Byte} (h : s.produce u bs = some t) : t.plane = s.plane := by
  unfold produce at h
  dsimp only at h
  split at h
  · exact absurd h nofun
  · rw [← Option.some.inj h, setFld_plane, hbmStore_plane]

theorem moveHost_plane {s t : State} {x : Transit} (h : s.moveHost x = some t) : t.plane = s.plane := by
  obtain ⟨u, hu, rfl⟩ := Option.map_eq_some_iff.mp h
  rw [setSch_plane]
  exact produce_plane hu

@[simp] theorem setHostPage_plane (s : State) (i : Nat) (used : Bool) : (s.setHostPage i used).plane = s.plane := by
  rw [setHostPage.eq_1, setFld_plane, hbmStore_plane]

@[simp] theorem freeRemote_plane (s : State) (host : Bool) (dev remote : Nat) : (s.freeRemote host dev remote).plane = s.plane := by
  rw [freeRemote.eq_1]
  exact ite_plane (setHostPage_plane ..) (sendTo_plane ..)

@[simp] theorem fetchBack_plane (s : State) (slot lg page : Nat) : (s.fetchBack slot lg page).plane = s.plane := by
  obtain ⟨frameIn, hframe⟩ := exists_eq' (a' := s.lowestFrame)
  obtain ⟨e, he⟩ := exists_eq' (a' := s.pte slot lg page)
  obtain ⟨moved, hmoved⟩ := exists_eq' (a' := s.moveHost)
  rw [fetchBack.eq_1, hframe, he, hmoved]
  split
  · rfl
  · extract_lets n wait
    have hwait : ∀ u, KeepsPlane u (wait u) := fun u => ⟨ite_plane rfl (setSch_plane ..)⟩
    split
    · exact (hwait _).plane.trans (preempt_plane ..)
    · extract_lets t started
      have hstarted : ∀ u, KeepsPlane u (started u) := fun u => ⟨by rw [checkLow_plane, setPte_plane, takeFrame_plane]⟩
      split
      · split
        · exact (hwait _).plane
        · next u hu => exact (hstarted _).plane.trans (moveHost_plane (hmoved ▸ hu))
      · rw [(hstarted _).plane, sendTo_plane, setSch_plane]

@[simp] theorem retryWaiting_plane (s : State) : s.retryWaiting.plane = s.plane := by
  rw [retryWaiting.eq_1]
  exact (foldl_plane (fun _ _ => ⟨fetchBack_plane ..⟩) _ _).trans (setSch_plane ..)

@[simp] theorem dropFrame_plane (s : State) (f : Nat) : (s.dropFrame f).plane = s.plane := rfl

@[simp] theorem freePage_plane (s : State) (slot lg page : Nat) : (s.freePage slot lg page).plane = s.plane := by
  obtain ⟨e, he⟩ := exists_eq' (a' := s.pte slot lg page)
  rw [freePage.eq_1, he]
  split
  · rfl
  · split
    · exact (dropFrame_plane ..).trans (setPte_plane ..)
    · split
      · exact (freeRemote_plane ..).trans (setPte_plane ..)
      · exact (setSch_plane ..).trans (setPte_plane ..)

theorem freePage_keepsPlane (s : State) (slot lg page : Nat) : KeepsPlane s (s.freePage slot lg page) := ⟨freePage_plane ..⟩

theorem freePages_keepsPlane (s : State) (slot lg : Nat) :
    KeepsPlane s (if s.pairEmpty slot lg then s else (List.range 512).foldl (fun s p => s.freePage slot lg p) s) := by
  split
  · exact ⟨rfl⟩
  · exact ⟨foldl_plane (fun s p => freePage_keepsPlane s slot lg p) _ _⟩

theorem dropTable_keepsPlane (s : State) (slot lg : Nat) :
    KeepsPlane s (if s.sch.homes.any (fun h => h.1 = 32 * slot + lg) then s.hbmStoreNat (s.l1Addr slot lg) 8 0 else s) := by
  split
  · exact ⟨hbmStoreNat_plane ..⟩
  · exact ⟨rfl⟩

@[simp] theorem freeSlotPages_plane (s : State) (slot : Nat) : (s.freeSlotPages slot).plane = s.plane := by
  rw [freeSlotPages.eq_1, retryWaiting_plane, setSch_plane]
  exact (foldl_plane (fun s lg => dropTable_keepsPlane s slot lg) _ _).trans
    (foldl_plane (fun s lg => freePages_keepsPlane s slot lg) _ _)

/-! ## The scheduler's part (R472, R499, R508 to R511) -/

theorem freeIfPast_keepsPlane (s : State) (x : Nat × SeqSlot) :
    KeepsPlane s (if s.pastLast x.1 x.2 then
      (s.freeSlotPages x.1).setSlot x.1 (if s.schRole = roleHead && !x.2.podFreed then { x.2 with ownFreed := true } else {})
    else s) := by
  split
  · exact ⟨(setSlot_plane ..).trans (freeSlotPages_plane ..)⟩
  · exact ⟨rfl⟩

@[simp] theorem freeRetired_plane (s : State) : s.freeRetired.plane = s.plane :=
  foldl_plane (fun s x => freeIfPast_keepsPlane s x) _ _

theorem allocEntry_plane (s : State) (e : StepEntry) : (s.allocEntry e).1.plane = s.plane := by
  refine foldl_fst_plane (fun r x => ?_) _ _
  split
  · exact ⟨allocPage_plane ..⟩
  · exact ⟨rfl⟩

@[simp] theorem kvEntry_plane (s : State) (st : SchStep) (base : BitVec 64) (i : Nat) (e : StepEntry) :
    (s.kvEntry st base i e).plane = s.plane := by
  refine foldl_fst_plane (fun r x => ?_) _ _
  split
  · exact ⟨rfl⟩
  · split
    · exact ⟨maskEntry_plane ..⟩
    · next t ht => exact ⟨produce_plane ht⟩

@[simp] theorem pageEntry_plane (k : Nat) (base : BitVec 64) (s : State) (i : Nat) : (pageEntry k base s i).plane = s.plane := by
  unfold pageEntry
  split
  · rfl
  · split
    · rfl
    · exact (ite_plane ((maskEntry_plane ..).trans rfl) (ite_plane rfl (kvEntry_plane ..))).trans (allocEntry_plane ..)

theorem schPswap_plane (s : State) (base : BitVec 64) : (s.schPswap base).plane = s.plane := by
  unfold schPswap
  refine ite_plane rfl ?_
  dsimp only
  split
  · exact (searchTables_plane _).trans (freeRetired_plane _)
  · exact (foldl_plane (fun _ _ => ⟨pageEntry_plane ..⟩) _ _).trans ((searchTables_plane _).trans (freeRetired_plane _))

/-! ## The ports' part (R560, R563, R564) -/

@[simp] theorem rxLate_plane (s : State) (p c : Nat) (at_ : BitVec 64) : (s.rxLate p c at_).plane = s.plane := by
  unfold rxLate
  dsimp only
  split
  · rfl
  · exact ite_plane rfl rfl

@[simp] theorem rxPop_plane (s : State) (p c : Nat) : (s.rxPop p c).plane = s.plane := by
  unfold rxPop
  dsimp only
  split
  · rfl
  · rfl

theorem rxSettle_plane (p c n : Nat) (s : State) : (rxSettle p c n s).plane = s.plane := by
  induction n generalizing s with
  | zero => rfl
  | succ n ih =>
    have hpop : (rxSettle p c n (s.rxPop p c)).plane = s.plane := (ih _).trans (rxPop_plane ..)
    unfold rxSettle
    dsimp only
    split
    · exact hpop
    · split
      · rfl
      · exact ite_plane rfl (ite_plane (ite_plane hpop rfl) (ite_plane hpop (ite_plane (rxLate_plane ..) rfl)))
    · rfl

@[simp] theorem rxSettleAll_plane (s : State) (p c : Nat) : (s.rxSettleAll p c).plane = s.plane := rxSettle_plane ..

@[simp] theorem rxDeadline_plane (s : State) (p c : Nat) : (s.rxDeadline p c).plane = s.plane := by
  unfold rxDeadline
  dsimp only
  split
  · rfl
  · exact ite_plane ((rxSettleAll_plane ..).trans (rxLate_plane ..)) rfl

/-- A drain that is late where a step's messages have not all come. -/
def rxShort (s : State) (p c msgs : Nat) : State :=
  match (s.rxChan p c).step with
  | some st => if st.drained < msgs then s.rxLate p c s.time.almanac else s
  | none => s

theorem rxShort_plane (s : State) (p c msgs : Nat) : (s.rxShort p c msgs).plane = s.plane := by
  rw [rxShort.eq_1]
  split
  · split
    · exact rxLate_plane ..
    · rfl
  · rfl

@[simp] theorem rxPswap_plane (p : Nat) (base : BitVec 64) (s : State) (c : Nat) : (rxPswap p base s c).plane = s.plane := by
  rw [rxPswap.eq_1]
  split
  · rfl
  · refine (rxSettleAll_plane ..).trans ?_
    exact (rxShort_plane (s.rxDeadline p c) p c (s.fld (PSIUD_RX_ROWS.MSGS p c))).trans (rxDeadline_plane ..)

/-- A port's part in a PSWAP. -/
def portPswap (base : BitVec 64) (s : State) (p : Nat) : State :=
  (List.range 64).foldl (rxPswap p base)
    (s.setPort p { s.port p with tx := (s.port p).tx.map fun e => (e.1, { e.2 with index := 0 }) })

theorem portPswap_plane (base : BitVec 64) (s : State) (p : Nat) : (portPswap base s p).plane = s.plane := by
  rw [portPswap.eq_1]
  exact (foldl_plane (fun s c => ⟨rxPswap_plane p base s c⟩) _ _).trans rfl

theorem psiudPswap_eq (s : State) (base : BitVec 64) : s.psiudPswap base = (List.range 16).foldl (portPswap base) s := rfl

theorem psiudPswap_plane (s : State) (base : BitVec 64) : (s.psiudPswap base).plane = s.plane := by
  rw [psiudPswap_eq]
  exact foldl_plane (fun s p => ⟨portPswap_plane base s p⟩) _ _

end State

end Sys2Proof.Machine
end

section
/-! PROOFS. What a word that names no end does at issue: waits, END, PSWAP and audit points. -/

namespace Sys2Proof.Machine

namespace State

/-! ## What stays the same up to a word's SEQ field -/

/-- Time, registers, the pending request, the hampers, and the groves' cycles and schedule cycles are the same. -/
structure KeepsTotals (s t : State) : Prop where
  holds : KeepsHolds s t
  total : ∀ g, t.total g = s.total g

namespace KeepsTotals

variable {s t u : State}

theorem refl (s : State) : KeepsTotals s s := ⟨.refl s, fun _ => rfl⟩

theorem trans (a : KeepsTotals s t) (b : KeepsTotals t u) : KeepsTotals s u :=
  ⟨a.holds.trans b.holds, fun g => (b.total g).trans (a.total g)⟩

theorem of_meshOnly (h : MeshOnly s t) : KeepsTotals s t := ⟨.of_meshOnly h, h.total⟩

/-- A change of a grove that leaves what its schedule cycles go by. -/
theorem setGrove (s : State) (g : GroveId) {k : Grove} (hcycle : k.cycle = (s.grove g).cycle)
    (hgated : k.gatedAt = (s.grove g).gatedAt) (htotal : k.total = (s.grove g).total) : KeepsTotals s (s.setGrove g k) := by
  have hkeeps := setGrove_keepsHolds s g hcycle hgated
  refine ⟨hkeeps, fun g' => ?_⟩
  rw [State.total, State.total, hkeeps.periodOf, grove_setGrove]
  split
  · next h => rw [htotal, h]
  · rfl

theorem bumpG (s : State) (g : GroveId) (e n : Nat) : KeepsTotals s (s.bumpG g e n) := by
  unfold State.bumpG
  split
  · exact .refl s
  · exact .setGrove s g rfl rfl rfl

theorem setSamp (s : State) (g : GroveId) (p : Sampler) : KeepsTotals s (s.setSamp g p) := .setGrove s g rfl rfl rfl

theorem issueLane (w : Cw) (aset : BitVec 16) (bad conflict : Bool) (s : State) (c : CoreId) :
    KeepsTotals s (issueLane w aset bad conflict s c) := by
  unfold State.issueLane
  exact (⟨setCore_keepsHolds s c _, fun _ => rfl⟩ : KeepsTotals s _).trans (.of_meshOnly (wordsBack_meshOnly _ _ _))

theorem free (s : State) (n : Nat) : KeepsTotals s { s with free := n } := ⟨free_keepsHolds s n, fun _ => rfl⟩

/-- A word that no core finds a bad end in. -/
theorem issueLanes (s : State) (h : HamperId) (w : Cw) (aset : BitVec 16) (hw : ∀ k : Core, k.uses w = []) :
    KeepsTotals s (s.issueLanes h w aset) := by
  have hbad : ((s.enabledLanes h).any fun c => badFields ((s.core c).uses w) != []) = false := by
    simp [hw, badFields]
  have hfold : ∀ (b : Bool) (cs : List CoreId) (u : State), KeepsTotals u (cs.foldl (State.issueLane w aset false b) u) := by
    intro b cs
    induction cs with
    | nil => exact .refl
    | cons c cs ih => exact fun u => (issueLane w aset false b u c).trans (ih _)
  unfold State.issueLanes
  dsimp only
  rw [hbad, if_neg Bool.false_ne_true]
  split
  · exact (hfold _ _ s).trans (free _ _)
  · exact hfold _ _ s

theorem sampleWord (s old : State) (h : HamperId) (q : QWord) (w : Cw) (took : List Nat) :
    KeepsTotals s (s.sampleWord old h q w took) := by
  unfold State.sampleWord
  dsimp only
  split
  · exact .refl s
  · split
    · exact setSamp s _ _
    · exact (setSamp s _ _).trans (bumpG _ _ _ _)

end KeepsTotals

/-! ## The issue of a word that names no end -/

/-- The settled state, with the hamper on its way to issue. -/
def issuingOf (s : State) (h : HamperId) : State :=
  (Claims.settled s h).setHamper h
    (issuing ((Claims.settled s h).hamper h) ((Claims.settled s h).cycle (groveOfHamper h)))

/-- A word that names no end, where it can issue: the audit point comes first, then the SEQ field. -/
theorem issueField_audit {s : State} {h : HamperId} {w : Cw} (hg : Claims.Goes s h w) (hw : ∀ k : Core, k.uses w = []) :
    ∃ u v, KeepsTotals (s.issuingOf h) u ∧ KeepsTotals (u.audit h w.check) v ∧
      s.issueField h w = v.seqAtIssue h w.seq
        (smGet 0 ((Claims.settled s h).hamper h).scalars (w.seq.arg.extractLsb' 14 4).toNat)
        (((Claims.settled s h).hamper h).state = stStopped) := by
  obtain ⟨q, hq, hgo⟩ := issueField_goes hg
  rw [hgo, (settled_keepsControl s h).hamper, ← hq, ← (settled_keepsControl s h).hamper]
  unfold issueGo
  exact ⟨_, _, (KeepsTotals.issueLanes _ h w _ hw).trans (.bumpG _ _ _ _), .sampleWord _ _ _ _ _ _, rfl⟩

/-- What a word with a SEQ field alone leaves, from what the field leaves. -/
theorem issuesTo_seq {i : Instr} {h : HamperId} {f : SeqF} {act : State → BitVec 32 → State} {P : State → State → Prop}
    (hexec : ∀ s, exec i s = .next (s.issueField h { seq := f }))
    (hact : ∀ u sv step, seqAtIssue u h f sv step = act u sv)
    (hP : ∀ s u, KeepsTotals (s.setHamper h (issuing (s.hamper h) (s.cycle (groveOfHamper h)))) u →
      P s (act u (smGet 0 (s.hamper h).scalars (f.arg.extractLsb' 14 4).toNat))) :
    Claims.IssuesTo i h { seq := f } P := by
  intro s hg
  obtain ⟨u, v, hu, hv, hissue⟩ := issueField_audit hg (fun k => uses_seq k f)
  refine ⟨_, hexec s, ?_⟩
  rw [hissue, hact]
  exact hP _ v (hu.trans hv)

theorem KeepsTotals.hamper_issuing {s u : State} {h : HamperId} {k : Hamper} (hu : KeepsTotals (s.setHamper h k) u) :
    u.hamper h = k := by
  rw [hu.holds.hamper, setHamper_hamper_self]

theorem hamper_of_plane {s t : State} (h : t.plane = s.plane) (g : HamperId) : t.hamper g = s.hamper g := by
  rw [hamper, hamper, h]

/-! ## WAIT -/

theorem waitUntil_doWait (s : State) (h : HamperId) (n : Nat) :
    ((s.doWait h n).hamper h).waitUntil = s.total (groveOfHamper h) + 1 + n := by
  rw [doWait, setHamper_hamper_self]

/-- A wait counts from the schedule cycle of its issue. -/
theorem doWait_counts {s u : State} {h : HamperId} {k : Hamper} (hu : KeepsTotals (s.setHamper h k) u) (n : Nat) :
    ((u.doWait h n).hamper h).waitUntil = s.total (groveOfHamper h) + 1 + n := by
  rw [waitUntil_doWait, hu.total]
  rfl

/-! ## END -/

theorem settleHalt_plane (s : State) : s.settleHalt.plane = s.plane := by
  unfold settleHalt
  split <;> rfl

theorem endFormation_plane (s : State) : s.endFormation.plane = s.plane := (settleHalt_plane _).trans rfl

theorem hamper_endFormationIf (s : State) (h : HamperId) (c : Bool) : (if c then s.endFormation else s).hamper h = s.hamper h := by
  split
  · exact hamper_of_plane (endFormation_plane s) h
  · rfl

theorem hamper_abortSettleIf (s : State) (h : HamperId) :
    ∃ a, (if s.plane.abort.isSome then s.abortSettle else s).hamper h = { s.hamper h with acted := a } := by
  split
  · exact hamper_abortSettle s h
  · exact ⟨(s.hamper h).acted, rfl⟩

/-- A request that ends, and then a formation that ends where `c` says so, leave the rest of a hamper. -/
theorem hamper_endings (s : State) (h : HamperId) (c : State → Bool) : ∃ a,
    (let t := if s.plane.abort.isSome then s.abortSettle else s
      if c t then t.endFormation else t).hamper h = { s.hamper h with acted := a } := by
  dsimp only
  rw [hamper_endFormationIf]
  exact hamper_abortSettleIf s h

theorem hamper_doEnd (s : State) (h : HamperId) : ∃ a, (s.doEnd h).hamper h =
    { (s.setHamper h { s.hamper h with state := stDone, stopped := true, loops := [], loaded := false }).hamper h with acted := a } :=
  hamper_endings (s.setHamper h { s.hamper h with state := stDone, stopped := true, loops := [], loaded := false }) h
    fun t => h = t.refHamper && t.schState != schIdle

/-- `k'` is the hamper `k` after an END (R189). -/
structure EndedFrom (k k' : Hamper) : Prop where
  state : k'.state = stDone
  stopped : k'.stopped = true
  loops : k'.loops = []
  iq : k'.iq = k.iq

theorem doEnd_ends (s : State) (h : HamperId) : EndedFrom (s.hamper h) ((s.doEnd h).hamper h) := by
  obtain ⟨a, ha⟩ := hamper_doEnd s h
  rw [ha, setHamper_hamper_self]
  exact ⟨rfl, rfl, rfl, rfl⟩

/-! ## PSWAP -/

theorem lgBoundary_plane (s : State) : s.lgBoundary.plane = s.plane := rfl

/-- The step that a PSWAP starts in the reference hamper leaves the hampers. -/
theorem hamper_stepPswapIf (s : State) (h : HamperId) (base : BitVec 64) (c : Prop) [Decidable c] :
    (if c then ((s.schPswap base).psiudPswap base).lgBoundary else s).hamper h = s.hamper h := by
  split
  · refine hamper_of_plane ?_ h
    rw [lgBoundary_plane, psiudPswap_plane, schPswap_plane]
  · rfl

/-- `k'` is the hamper `k` after a PSWAP (R177). -/
structure SwappedFrom (k k' : Hamper) : Prop where
  act : k'.paramAct = !k.paramAct
  ready : k'.paramReady = false
  wait : k'.swapWait = false
  late : k.paramReady = false → k'.fault.getLsbD sfParamLate = true

/-- A bank that is not ready is late (R178). -/
theorem swappedFrom_hamperFaultIf (s : State) (h : HamperId) (k : Hamper) (from_ : Nat) :
    SwappedFrom k (((s.setHamper h { k with
      paramAct := !k.paramAct, paramReady := false, swapWait := false, pushFrom := from_ }).hamperFaultIf h sfParamLate
        (!k.paramReady)).hamper h) := by
  rw [hamper_hamperFaultIf, setHamper_hamper_self]
  cases hready : k.paramReady
  · exact ⟨rfl, rfl, rfl, fun _ => setFault_fault_bit _ _ _ (by decide)⟩
  · exact ⟨rfl, rfl, rfl, fun h => absurd (hready.symm.trans h) nofun⟩

theorem doPswap_swaps (s : State) (h : HamperId) : SwappedFrom (s.hamper h) ((s.doPswap h).hamper h) := by
  rw [doPswap.eq_1, hamper_stepPswapIf]
  exact swappedFrom_hamperFaultIf s h _ _

/-! ## Audit points -/

/-- A word with a CHECK field alone names no end. -/
theorem uses_check (k : Core) (f : CheckF) : k.uses { check := f } = [] := rfl

/-- The hamper of an audit point with this id at Almanac `alm`. -/
def audited (k : Hamper) (alm : BitVec 64) (id : BitVec 5) : Hamper :=
  { k with auditAlm := alm, auditTag := putBits (putBits 0 63 32 (getBits k.auditTag 63 32 + 1)) 4 0 id.toNat }

theorem hamper_audit (s : State) (h : HamperId) {f : CheckF} (hf : f.audit ≠ 0) :
    (s.audit h f).hamper h = audited (s.hamper h) s.time.almanac f.id := by
  rw [audit, if_neg hf, setHamper_hamper_self]
  rfl

theorem issuingOf_time (s : State) (h : HamperId) : (s.issuingOf h).time = (Claims.settled s h).time := by
  rw [issuingOf, setHamper_time]

/-- The fields of an audit tag: the id, and the count (R164). -/
theorem auditTag_id (n : Nat) (id : BitVec 5) : getBits (putBits (putBits 0 63 32 n) 4 0 id.toNat) 4 0 = id.toNat :=
  (getBits_putBits_self _ _ (by decide) (by decide)).trans (Nat.mod_eq_of_lt id.isLt)

theorem auditTag_count (n : Nat) (id : BitVec 5) :
    getBits (putBits (putBits 0 63 32 n) 4 0 id.toNat) 63 32 = n % 2 ^ 32 :=
  (getBits_putBits_apart _ _ _ _ (by decide) (by decide) (.inl (by decide))).trans (getBits_putBits_self _ _ (by decide) (by decide))

theorem issuing_auditTag (k : Hamper) (now : Nat) : (issuing k now).auditTag = k.auditTag := rfl

/-- What an audit point leaves in its registers (R164). -/
theorem audited_registers (k : Hamper) (alm : BitVec 64) (id : BitVec 5) :
    (audited k alm id).auditAlm = alm ∧ getBits (audited k alm id).auditTag 4 0 = id.toNat ∧
      getBits (audited k alm id).auditTag 63 32 = (getBits k.auditTag 63 32 + 1) % 2 ^ 32 :=
  ⟨rfl, auditTag_id _ _, auditTag_count _ _⟩

/-- A word without a SEQ field does nothing more at issue. -/
theorem seqAtIssue_none (s : State) (h : HamperId) (sv : BitVec 32) (step : Bool) : seqAtIssue s h {} sv step = s := rfl

/-- What an audit point leaves of the hamper of a word that issues. -/
theorem issuesTo_audit {i : Instr} {h : HamperId} {f : CheckF} (hf : f.audit ≠ 0)
    (hexec : ∀ s, exec i s = .next (s.issueField h { check := f })) :
    Claims.IssuesTo i h { check := f } fun s t =>
      (t.hamper h).auditAlm = s.time.almanac ∧ getBits (t.hamper h).auditTag 4 0 = f.id.toNat ∧
      getBits (t.hamper h).auditTag 63 32 = (getBits (s.hamper h).auditTag 63 32 + 1) % 2 ^ 32 := by
  intro s hg
  obtain ⟨u, v, hu, hv, hissue⟩ := issueField_audit hg (fun k => uses_check k f)
  have hk : v.hamper h = audited (issuing ((Claims.settled s h).hamper h) ((Claims.settled s h).cycle (groveOfHamper h)))
      (Claims.settled s h).time.almanac f.id := by
    rw [hv.holds.hamper, hamper_audit u h hf, hu.hamper_issuing, hu.holds.time, issuingOf_time]
  rw [seqAtIssue_none] at hissue
  refine ⟨v, by rw [hexec, hissue], ?_⟩
  have hregs := audited_registers (issuing ((Claims.settled s h).hamper h) ((Claims.settled s h).cycle (groveOfHamper h)))
    (Claims.settled s h).time.almanac f.id
  rw [← hk, issuing_auditTag] at hregs
  exact hregs

/-! ## The claim -/

theorem waitsEndSwapAudit : Claims.WaitsEndSwapAudit := by
  intro h n a id
  have himm : (0#4 ++ n : BitVec 18).extractLsb' 0 14 = n := by simp
  have hreg : (a ++ 0#14 : BitVec 18).extractLsb' 14 4 = a := by simp
  refine ⟨?waitImm, ?waitReg, ?seqEnd, ?swap, ?audit⟩
  case waitImm =>
    refine issuesTo_seq (act := fun u _ => u.doWait h n.toNat) (fun _ => rfl) (fun u sv step => ?_) fun s u hu => doWait_counts hu _
    rw [← congrArg BitVec.toNat himm]
    rfl
  case waitReg =>
    refine issuesTo_seq (act := fun u sv => u.doWait h sv.toNat) (fun _ => rfl) (fun u sv step => rfl) fun s u hu => ?_
    rw [hreg]
    exact doWait_counts hu _
  case seqEnd =>
    refine issuesTo_seq (act := fun u _ => u.doEnd h) (fun _ => rfl) (fun u sv step => rfl) fun s u hu => ?_
    have hend := doEnd_ends u h
    rw [hu.hamper_issuing] at hend
    exact ⟨hend.state, hend.stopped, hend.loops, hend.iq⟩
  case swap =>
    refine issuesTo_seq (act := fun u _ => u.doPswap h) (fun _ => rfl) (fun u sv step => rfl) fun s u hu => ?_
    have hswap := doPswap_swaps u h
    rw [hu.hamper_issuing] at hswap
    exact ⟨hswap.act, hswap.ready, hswap.wait, hswap.late⟩
  case audit => exact issuesTo_audit (f := { audit := 1, id := id }) (by decide : (1 : BitVec 1) ≠ 0) (fun _ => rfl)

/-! ## The watchdog (R350 to R352) -/

/-- A change of an entry to one of which `p` says the same. -/
theorem any_smSet {α : Type} (p : α → Bool) (d : α) (m : SMap α) (k : Nat) {v : α} (hv : p v = p (smGet d m k)) :
    (p d || (smSet m k v).any fun e => p e.2) = (p d || m.any fun e => p e.2) := by
  induction m with
  | nil => rw [smSet, List.any_cons, List.any_nil, Bool.or_false, Bool.or_false, show p v = p d from hv, Bool.or_self]
  | cons e m ih =>
    obtain ⟨j, w⟩ := e
    by_cases hlt : k < j
    · rw [smGet, if_pos hlt] at hv
      rw [smSet, if_pos hlt, List.any_cons, hv, ← Bool.or_assoc, Bool.or_self]
    · by_cases heq : k = j
      · rw [smGet, if_neg hlt, if_pos heq] at hv
        simp [smSet, heq, hv]
      · rw [smGet, if_neg hlt, if_neg heq] at hv
        rw [smSet, if_neg hlt, if_neg heq, List.any_cons, List.any_cons, Bool.or_left_comm, ih hv, Bool.or_left_comm]

/-- A hamper that runs as before leaves whether some hamper runs. -/
theorem anyHamper_setHamper (s : State) (h : HamperId) {k : Hamper} (p : Hamper → Bool) (hk : p k = p (s.hamper h)) :
    (s.setHamper h k).anyHamper p = s.anyHamper p :=
  any_smSet p s.plane.hamperDflt s.plane.hampers h.toNat hk

theorem abortRequest_reg (s : State) (a : BitVec 64) (force : Bool) {r : Nat} (h : r ≠ CP_ABORT_AT.off) :
    (s.abortRequest a force).reg r = s.reg r := by
  unfold abortRequest
  split
  · rfl
  · split
    · split <;> rfl
    · exact reg_setReg_of_ne s a h

theorem stepFatal_reg (s : State) (src index code detail : Nat) {r : Nat} (hr : faultReg r = false) (h : r ≠ CP_ABORT_AT.off) :
    (s.stepFatal src index code detail).reg r = s.reg r :=
  (abortRequest_reg _ _ _ h).trans (faultEntry_reg s _ _ _ _ _ hr)

/-- A step-fatal fault forces a stop where a hamper runs. -/
theorem stepFatal_force {s : State} (h : s.anyHamper Hamper.runs = true) (src index code detail : Nat) :
    ∃ r, (s.stepFatal src index code detail).plane.abort = some r ∧ r.force = true :=
  abortRequest_force (((faultEntry_keepsControl s _ _ _ _ _).anyHamper _).trans h) _

/-- The hamper of a watchdog that fires in cycle `now`. -/
def watchdogged (k : Hamper) (now : Nat) : Hamper :=
  { k with wd := k.refusedAt ||| 1, wdFired := true }.noteSet now 0x0D0 1

/-- The watchdog's map is no register of the fault entries, of time, power or bring-up, and not CP_ABORT_AT. -/
theorem wdMap_apart (g : GroveId) :
    faultReg (groveBit CP_WD_MAP.off g).off = false ∧ controlReg (groveBit CP_WD_MAP.off g).off = false ∧
      (groveBit CP_WD_MAP.off g).off ≠ CP_ABORT_AT.off := by
  have hg : g.toNat < 256 := g.isLt
  have hoff : (groveBit CP_WD_MAP.off g).off = 0x3000108 + 8 * (g.toNat / 64) := rfl
  rw [hoff]
  refine ⟨?_, controlReg_eq_false ?_ ?_ ?_ ?_, ?_⟩
  · simp only [faultReg, HIF_IRQ_EVT.off, Bool.or_eq_false_iff, Bool.and_eq_false_iff, decide_eq_false_iff_not,
      beq_eq_false_iff_ne]
    omega
  case refine_2 => simp only [BOOT_STATE.off]; omega
  case refine_6 => simp only [CP_ABORT_AT.off]; omega
  all_goals omega

/-- At the threshold the watchdog fires. -/
theorem exec_watchdog_fires {h : HamperId} {s : State} (hen : s.flag CP_WD_CFG.EN = true) (hfired : (s.hamper h).wdFired = false)
    (hcount : 2 ^ s.fld CP_WD_CFG.LOG2 ≤ (s.hamper h).refused) :
    let g := groveOfHamper h
    let k := watchdogged (s.hamper h) (s.cycle g)
    exec (.watchdog h) s = .next (((s.setHamper h k).setFlag (groveBit CP_WD_MAP.off g)).stepFatal 1 g.toNat 0x0003
      (k.wd.toNat + h.toNat * 2 ^ 50)) := by
  have hfires : (s.flag CP_WD_CFG.EN && !(s.hamper h).wdFired && 2 ^ s.fld CP_WD_CFG.LOG2 ≤ (s.hamper h).refused) = true := by
    rw [hen, hfired, decide_eq_true hcount]
    rfl
  exact if_pos hfires

theorem watchdogFires : Claims.WatchdogFires := by
  intro h s hen hfired hcount
  have hmap : (groveBit CP_WD_MAP.off (groveOfHamper h)).hi < 64 := Nat.mod_lt _ (by decide)
  obtain ⟨hfault, hcontrol, habort⟩ := wdMap_apart (groveOfHamper h)
  have hk (src index code detail : Nat) :
      (((s.setHamper h (watchdogged (s.hamper h) (s.cycle (groveOfHamper h)))).setFlag
        (groveBit CP_WD_MAP.off (groveOfHamper h))).stepFatal src index code detail).hamper h =
        watchdogged (s.hamper h) (s.cycle (groveOfHamper h)) := by
    rw [(stepFatal_keepsControl _ _ _ _ _).hamper, (setFlag_keepsControl _ hcontrol).hamper, setHamper_hamper_self]
  refine ⟨_, exec_watchdog_fires hen hfired hcount, ?wd, ?fired, ?map, fun hruns => stepFatal_force ?_ _ _ _ _⟩
  case wd =>
    rw [hk]
    rfl
  case fired =>
    rw [hk]
    rfl
  case map => exact (flag_congr (stepFatal_reg _ _ _ _ _ hfault habort)).trans (flag_setFlag_self _ _ hmap le_rfl)
  · rw [(setFlag_keepsControl _ hcontrol).anyHamper]
    exact (anyHamper_setHamper s h (k := watchdogged _ _) Hamper.runs rfl).trans hruns

end State

/-- Settles O16: a word that names no end leaves what its SEQ field reads; the field, the audit point and the watchdog change
the hamper. -/
theorem waitsEndSwapAuditWatchdog : Obligations.WaitsEndSwapAuditWatchdog :=
  ⟨State.waitsEndSwapAudit, State.watchdogFires⟩

end Sys2Proof.Machine
end
